-- ==== Sys2Proof/Word.lean ====
section
/-!
DEFINITION. Words, bytes and their plainest arithmetic, shared by every block of the device.
-/
namespace Sys2Proof

/-- A 32-bit register or a general register of a Spindle core (R33, 15). -/
abbrev Word := BitVec 32

/-- One byte of Skein memory, of flash or of a payload. -/
abbrev Byte := BitVec 8

/-- The bits `hi` down to `lo` of a word, as a number. -/
def bits (w : Word) (hi lo : Nat) : Nat := (w.toNat >>> lo) % 2 ^ (hi + 1 - lo)

/-- Bit `i` of a word. -/
def bit (w : Word) (i : Nat) : Bool := w.toNat.testBit i

/-- A word with ones in the bits `hi` down to `lo`. -/
def mask (hi lo : Nat) : Word := BitVec.ofNat 32 ((2 ^ (hi + 1 - lo) - 1) <<< lo)

/-- `w` with the bits `hi` down to `lo` replaced by `v`. -/
def putBits (w : Word) (hi lo v : Nat) : Word :=
  (w &&& ~~~ (mask hi lo)) ||| ((BitVec.ofNat 32 (v <<< lo)) &&& mask hi lo)

/-- `w` with bit `i` set or cleared. -/
def putBit (w : Word) (i : Nat) (v : Bool) : Word := putBits w i i v.toNat

/-- The number a Bool stands for in a register bit. -/
def b2n (b : Bool) : Nat := b.toNat

/-- `a + n`, held at 0xFFFF_FFFF: the saturating counters of the register tables. -/
def satAdd (a : Word) (n : Nat) : Word := BitVec.ofNat 32 (min (a.toNat + n) 0xFFFFFFFF)

/-- `a + n`, held at `2 ^ w - 1`, for counters narrower than a register. -/
def satAddN (w a n : Nat) : Nat := min (a + n) (2 ^ w - 1)

/-- The little-endian bytes of a number (00: multi-byte values are little-endian). -/
def bytesLE : Nat → Nat → List Byte
  | 0, _ => []
  | n + 1, v => BitVec.ofNat 8 v :: bytesLE n (v / 256)

/-- The number a little-endian list of bytes spells. -/
def ofBytesLE : List Byte → Nat
  | [] => 0
  | b :: r => b.toNat + 256 * ofBytesLE r

/-- The signed value of the low `w` bits of `n`. -/
def signedOf (w n : Nat) : Int := (BitVec.ofNat w n).toInt

/-- Ceiling division. -/
def ceilDiv (a b : Nat) : Nat := (a + b - 1) / b

/-- `n` rounded up to a multiple of `m`. -/
def roundUp (n m : Nat) : Nat := ceilDiv n m * m

/-- `x` put into a sorted list, before the first element it may precede. -/
def insertBy {α : Type} (le : α → α → Bool) (x : α) : List α → List α
  | [] => [x]
  | y :: r => if le x y then x :: y :: r else y :: insertBy le x r

/-- A list sorted by an order, elements of equal rank in their former order. -/
def sortBy {α : Type} (le : α → α → Bool) (l : List α) : List α := l.foldr (insertBy le) []

end Sys2Proof
end

