-- ==== Sys2Proof/Syntax.lean ====
section
/-!
DEFINITION. The commands of the SV960: one constructor of `Instr` for each row of
spec/opcode_table.json, with the operands the row's rule gives it. A command is a register access of
an agent, an event on a pin, a packet on a link, the end of a timed step, a layer command of Loom, or
one instruction of a Spindle core.
-/
namespace Sys2Proof

/-- The two host ports (R44). -/
inductive Port where
  | a
  | b
  deriving DecidableEq, Repr

/-- Who accesses a register page: Port A, Port B or one Spindle core (R44). -/
inductive Agent where
  | portA
  | portB
  | spindle (core : Fin 16)
  deriving DecidableEq, Repr

/-- The agent a host port acts as. -/
def Port.agent : Port → Agent
  | .a => .portA
  | .b => .portB

/-- How a read or write of one register names it: its page and its 32-bit word (R32, R33). -/
structure RegAddr where
  page : Fin 8192
  word : Fin 1024
  deriving DecidableEq, Repr

/-- A PCIe memory request to BAR0 or BAR2. -/
inductive Request where
  | read (len : Nat)
  | write (data : List Byte) (enables : List Bool)
  deriving DecidableEq, Repr

/-- The ECC verdict on a CSI-2 packet header (R93). -/
inductive Ecc where
  | clean
  | corrected
  | bad
  deriving DecidableEq, Repr

/-- How a bus read of a sensor or of the battery gauge ended (R105, R106, R153): with its bytes, with a NACK, with a timeout or a
clock stretched for too long, or with bytes whose PEC is wrong. -/
inductive BusResult where
  | data (bytes : List Byte)
  | nack
  | timeout
  | pecError (bytes : List Byte)
  deriving DecidableEq, Repr

/-- What a MARK is armed by (R78): a write of MCTRL or a commit of the TGT pair. -/
inductive ArmForm where
  | control (value : Word)
  | target (hi : Word)
  deriving DecidableEq, Repr

/-- What the microphone pins bring in one grid period (R112, R114): for each of MIC_D0–MIC_D3 the bits captured at the rising and at
the falling edges of its clock, oldest first. -/
structure GridSamples where
  rise : List (List Bool)
  fall : List (List Bool)
  deriving DecidableEq, Repr

/-- The engines Shuttle dispatches to (13, Engine class). -/
inductive EngineClass where
  | spindle
  | flyer
  | loom
  | mover
  deriving DecidableEq, Repr

/-- Who reads or writes Skein memory in a SKEIN_READ or SKEIN_WRITE (R272, R284). -/
inductive MemAgent where
  | engine (slot : Fin 4096)
  | port (p : Port)
  | core (n : Fin 16)
  | producer
  deriving DecidableEq, Repr

/-- What the patrol scrubber or a read finds in an HBM word (R287). -/
inductive EccFind where
  | clean
  | corrected
  | uncorrectable
  deriving DecidableEq, Repr

/-- A block's answer to a quiesce request (R395). -/
inductive Quiesce where
  | ack
  | refuse (code : Fin 8)
  deriving DecidableEq, Repr

/-- What the droop loop of a region saw (R384). -/
inductive DroopKind where
  | droop
  | overshoot
  | current
  deriving DecidableEq, Repr

/-- Which supply fell below its threshold for more than 10 µs (R380). -/
inductive Rail where
  | vstby
  | vaon
  | vcoreIn
  deriving DecidableEq, Repr

/-- Why the VSTBY domain is reset (R452). -/
inductive PorCause where
  | vstbyRise
  | vstbyBrownout
  | wakeFromOff
  deriving DecidableEq, Repr

/-- What brought a port's link down (R55, R434). -/
inductive LinkDownCause where
  | dlDown
  | hotReset
  | flr
  | perst
  | d3hotLoss
  deriving DecidableEq, Repr

/-- What a flit check of a Kakan receiver found (R440). -/
inductive FlitCheck where
  | good
  | fecCorrected
  | failed
  deriving DecidableEq, Repr

/-- A Kakan packet's operation (R438). -/
inductive KOp where
  | write
  | read
  | readData
  | ack
  | sig
  | nakRoute
  deriving DecidableEq, Repr

/-- A Kakan packet (R438): its header fields and its payload. -/
structure KPacket where
  op      : KOp
  vc      : Fin 3
  src     : BitVec 12
  dst     : BitVec 12
  offset  : BitVec 48
  tag     : Word
  len     : Nat
  payload : List Byte
  deriving DecidableEq, Repr

/-- What a received flit carries (R438). -/
inductive FlitKind where
  | data (p : KPacket)
  | ack (upTo : BitVec 12)
  | idle
  deriving DecidableEq, Repr

/-- The eight clock sources, in SRC_RDY order (R411, 18 page 0x010). -/
inductive Source where
  | fio
  | sio
  | xta
  | xtb
  | pll0
  | pll1
  | pll2
  | rcv
  deriving DecidableEq, Repr

/-- The two domain muxes (R420). -/
inductive Mux where
  | aon
  | rcv
  deriving DecidableEq, Repr

/-- The commands of the block, in the order of spec/opcode_table.json. -/
inductive Instr where
  -- 02 Register pages
  | registerWrite (ag : Agent) (r : RegAddr) (value : Word) (be : BitVec 4)
  | registerReadClear (ag : Agent) (page : Fin 8192)
  | bar0Request (p : Port) (addr : BitVec 25) (req : Request) (poisoned : Bool)
  | pairLoRead (ag : Agent) (r : RegAddr)
  | pairLoWrite (ag : Agent) (r : RegAddr) (value : Word)
  | pairHiWrite (ag : Agent) (r : RegAddr) (value : Word)
  | pageEnable (ag : Agent) (page : Fin 8192)
  | pageDisable (ag : Agent) (page : Fin 8192)
  | softReset (ag : Agent) (page : Fin 8192)
  | freeze (ag : Agent) (page : Fin 8192) (frz : Bool)
  | pendingEnable (page : Fin 8192)
  | claim (ag : Agent) (page : Fin 8192)
  | release (ag : Agent) (page : Fin 8192)
  | voteWrite (ag : Agent) (page : Fin 8192) (value : Word)
  | semTake (ag : Agent) (n : Fin 64)
  | semGive (ag : Agent) (n : Fin 64)
  | semForce (n : Fin 64) (gen : BitVec 8)
  | portRelease (p : Port)
  -- 01 The cascade
  | wakeRequestArrival
  | preWindowExpiry (stream : Fin 256)
  | handoffWrite (stream : Fin 256)
  | hoWaitResume (stream : Fin 256)
  | hoPtrWrite (ag : Agent) (value : Word)
  -- 03 Reel
  | encoderEdge (enc : Fin 4) (a b : Bool)
  | zcCrossing (rising : Bool)
  | zcTimeout
  | rateWindowEnd (ch : Fin 8)
  | stallTmoExpiry (ch : Fin 8)
  | channelEnable (ag : Agent) (ch : Fin 8)
  | channelDisable (ag : Agent) (ch : Fin 8)
  | channelRecover (ag : Agent) (ch : Fin 8)
  | snapTake (ag : Agent)
  | markArm (ag : Agent) (m : Fin 32) (form : ArmForm)
  | markFloorExpiry (m : Fin 32)
  -- 04 Sensor intake
  | csiFrameStart (p : Fin 4) (vc : Fin 4) (ecc : Ecc)
  | csiLinePacket (p : Fin 4) (vc : Fin 4) (dt : BitVec 6) (line : List Byte) (ecc : Ecc) (crcOk : Bool)
  | csiFrameEnd (p : Fin 4) (vc : Fin 4) (ecc : Ecc)
  | csiEventPacket (p : Fin 4) (vc : Fin 4) (payload : List Byte) (ecc : Ecc) (crcOk : Bool)
  | csiLinkDown (p : Fin 4)
  | overflowGapWrite (ch : Fin 24)
  | camTrigEnd (cam : Fin 8)
  | bufFree (ag : Agent) (cam : Fin 8) (bufs : Word)
  | evtBatchTimeout (k : Fin 2)
  | aerBeat (frm : Bool) (d : BitVec 16)
  | aerStuckTimeout (reqFell : Bool)
  | i3cTransfer (ag : Agent) (value : Word)
  | tofIbi (addr : BitVec 7)
  | tofPeriodExpiry
  | tofReadDone (r : BusResult)
  | imuIntEdge
  | imuPeriodExpiry
  | imuReadDone (r : BusResult)
  | encPeriodExpiry
  | genPush (ag : Agent) (k : Fin 2) (hi : Word)
  | genPushDone (k : Fin 2)
  | lookbackSnapshot (stream : Fin 256)
  -- 05 The listening path
  | micModeActive (ag : Agent)
  | micModeListen (ag : Agent)
  | gridBoundary (x : GridSamples)
  | pll1LockTimeout
  | pll1Loss
  | micStuck (m : Fin 8)
  -- 06 Cliff watch, halt unit, pack supervisor
  | cliffCheckWrite (ag : Agent) (chs : BitVec 8)
  | cliffGuardExpiry (ch : Fin 8)
  | cliffSlotStart (vemit : BitVec 16)
  | cliffDecision (a1 a2 l1 l2 : BitVec 12) (headMv stayMv : BitVec 16) (iMeas : BitVec 8) (overI : Bool)
  | guardSet (ag : Agent) (chs : BitVec 8)
  | haltArm (ag : Agent) (value : Word)
  | haltOutCmd (ag : Agent) (value : Word)
  | heartbeatRefresh (ag : Agent) (value : Word)
  | heartbeatExpiry
  | holdWindowExpiry
  | tripAck (ag : Agent) (value : Word)
  | haltForce (ag : Agent) (value : Word)
  | drvFbChange (n : Fin 6) (level : Bool)
  | fbTmoExpiry (n : Fin 6)
  | thermtripInput (low : Bool)
  | packPoll
  | packReadDone (r : BusResult)
  | packPresChange (level : Bool)
  | packPresAccept
  -- 07 Whorl
  | whorlEventArrival (core : Fin 128)
  | whorlInputEvent (core : Fin 128)
  | stormQuietExpiry (e : Fin 64)
  | whorlTick (core : Fin 128)
  | swTick (ag : Agent) (groups : BitVec 8)
  | whorlStoreWrite (who : MemAgent) (core : Fin 128) (offset : Fin 262144) (data : List Byte)
  | winOpen (ag : Agent) (core : Fin 128)
  | winClose (ag : Agent) (core : Fin 128)
  | winTimeout (core : Fin 128)
  | coreEnable (ag : Agent) (core : Fin 128)
  | coreDisable (ag : Agent) (core : Fin 128)
  -- 08 Flyer
  | chunkStart (stream : Fin 256)
  | chunkRetire (stream : Fin 256)
  | streamPause (ag : Agent) (stream : Fin 256)
  | streamResume (ag : Agent) (stream : Fin 256)
  | streamEnd (ag : Agent) (stream : Fin 256)
  | streamInTimeout (stream : Fin 256)
  -- 09 Loom
  | loomTaskStart
  | gemm
  | conv
  | dwconv
  | elemAdd
  | elemMul
  | elemAct
  | normRms
  | normMeanVariance
  | copy
  | copyQuantise
  | cardConv
  | cardGemm
  | cardTopk
  -- 10 Attention
  | attnAttend
  | attnAppend
  | attnLookup
  | attnInsert
  | attnRelease
  | attnPrune
  | kvEdit (ag : Agent)
  | kvEditEnd (ag : Agent)
  | kvRescanDone
  -- 12 Skein
  | skeinRead (who : MemAgent) (addr : BitVec 48) (len : Nat) (found : EccFind)
  | skeinWrite (who : MemAgent) (addr : BitVec 48) (data : List Byte)
  | migrationSwitch
  | plcSet (ag : Agent)
  | plcFree (ag : Agent)
  | plcRead (ag : Agent)
  | plcDone
  | pfStart (ag : Agent) (slot : Fin 16)
  | pfStop (ag : Agent) (slot : Fin 16)
  | tileLend (t : Fin 64)
  | nbReclaim (ag : Agent) (n : Fin 4)
  | nbReclaimTimeout (n : Fin 4)
  | nbLenderRelease (n : Fin 4)
  | neighbourLoss (n : Fin 4)
  | hbmInitDone
  -- 13 Shuttle
  | submitDirect (ag : Agent) (ring : Fin 64) (d15 : Word)
  | submitBatch (ag : Agent) (ring : Fin 64) (n : Fin 512)
  | batchFetchDone (ag : Agent) (ring : Fin 64)
  | dispatch (c : EngineClass)
  | moverRetire (m : Fin 4)
  | completionPost (ring : Fin 64)
  | taskTimeout (slot : Fin 4096)
  | taskAbort (ag : Agent) (ring : Fin 64) (seq : Word)
  | dlEnable (ag : Agent) (d : Fin 4)
  | dlFlush (ag : Agent) (d : Fin 4)
  | ringFlush (ag : Agent) (ring : Fin 64)
  | traceClockExpiry
  -- 14 Error log
  | logClose (ag : Agent) (eseq : Word)
  | clrOvf (ag : Agent) (value : Word)
  | recordWriteTimeout (ring : Fin 64)
  -- 16 Spindle instructions
  | add (core : Fin 16) (rd ra rb : Fin 32)
  | sub (core : Fin 16) (rd ra rb : Fin 32)
  | and (core : Fin 16) (rd ra rb : Fin 32)
  | or (core : Fin 16) (rd ra rb : Fin 32)
  | xor (core : Fin 16) (rd ra rb : Fin 32)
  | nor (core : Fin 16) (rd ra rb : Fin 32)
  | andn (core : Fin 16) (rd ra rb : Fin 32)
  | cmplt (core : Fin 16) (rd ra rb : Fin 32)
  | cmpltu (core : Fin 16) (rd ra rb : Fin 32)
  | shl (core : Fin 16) (rd ra rb : Fin 32)
  | shr (core : Fin 16) (rd ra rb : Fin 32)
  | shra (core : Fin 16) (rd ra rb : Fin 32)
  | mul (core : Fin 16) (rd ra rb : Fin 32)
  | mulhs (core : Fin 16) (rd ra rb : Fin 32)
  | mulhu (core : Fin 16) (rd ra rb : Fin 32)
  | div (core : Fin 16) (rd ra rb : Fin 32)
  | divu (core : Fin 16) (rd ra rb : Fin 32)
  | rem (core : Fin 16) (rd ra rb : Fin 32)
  | remu (core : Fin 16) (rd ra rb : Fin 32)
  | min (core : Fin 16) (rd ra rb : Fin 32)
  | max (core : Fin 16) (rd ra rb : Fin 32)
  | abs (core : Fin 16) (rd ra : Fin 32)
  | clz (core : Fin 16) (rd ra : Fin 32)
  | shli (core : Fin 16) (rd ra : Fin 32) (sx : Fin 32)
  | shri (core : Fin 16) (rd ra : Fin 32) (sx : Fin 32)
  | shrai (core : Fin 16) (rd ra : Fin 32) (sx : Fin 32)
  | addi (core : Fin 16) (rd ra : Fin 32) (imm : BitVec 15)
  | andi (core : Fin 16) (rd ra : Fin 32) (imm : BitVec 15)
  | ori (core : Fin 16) (rd ra : Fin 32) (imm : BitVec 15)
  | xori (core : Fin 16) (rd ra : Fin 32) (imm : BitVec 15)
  | cmplti (core : Fin 16) (rd ra : Fin 32) (imm : BitVec 15)
  | cmpltiu (core : Fin 16) (rd ra : Fin 32) (imm : BitVec 15)
  | ldhi (core : Fin 16) (rd : Fin 32) (imm : BitVec 20)
  | beq (core : Fin 16) (ra rb : Fin 32) (n : Bool) (off : BitVec 14)
  | bne (core : Fin 16) (ra rb : Fin 32) (n : Bool) (off : BitVec 14)
  | blt (core : Fin 16) (ra rb : Fin 32) (n : Bool) (off : BitVec 14)
  | bge (core : Fin 16) (ra rb : Fin 32) (n : Bool) (off : BitVec 14)
  | bltu (core : Fin 16) (ra rb : Fin 32) (n : Bool) (off : BitVec 14)
  | bgeu (core : Fin 16) (ra rb : Fin 32) (n : Bool) (off : BitVec 14)
  | jmpr (core : Fin 16) (ra : Fin 32)
  | callr (core : Fin 16) (ra : Fin 32)
  | jmp (core : Fin 16) (off : BitVec 25)
  | call (core : Fin 16) (off : BitVec 25)
  | lb (core : Fin 16) (rd ra : Fin 32) (imm : BitVec 15)
  | lbu (core : Fin 16) (rd ra : Fin 32) (imm : BitVec 15)
  | lh (core : Fin 16) (rd ra : Fin 32) (imm : BitVec 15)
  | lhu (core : Fin 16) (rd ra : Fin 32) (imm : BitVec 15)
  | lw (core : Fin 16) (rd ra : Fin 32) (imm : BitVec 15)
  | sb (core : Fin 16) (rd ra : Fin 32) (imm : BitVec 15)
  | sh (core : Fin 16) (rd ra : Fin 32) (imm : BitVec 15)
  | sw (core : Fin 16) (rd ra : Fin 32) (imm : BitVec 15)
  | loop (core : Fin 16) (level : Fin 32) (ra : Fin 32) (off : BitVec 14)
  | mset (core : Fin 16) (imm : BitVec 15)
  | crd (core : Fin 16) (rd : Fin 32) (cr : Fin 32)
  | cwr (core : Fin 16) (cr : Fin 32) (ra : Fin 32)
  | xret (core : Fin 16)
  | trap (core : Fin 16) (sx : Fin 32)
  | break (core : Fin 16)
  | fence (core : Fin 16)
  | wfi (core : Fin 16)
  | wfiWake (core : Fin 16)
  | twait (core : Fin 16)
  | tdone (core : Fin 16) (ra rb : Fin 32)
  | tdoneRetire (core : Fin 16)
  | stake (core : Fin 16) (rd ra : Fin 32)
  | sgive (core : Fin 16) (rd ra : Fin 32)
  -- 15 Spindle events and debug
  | interruptEntry (core : Fin 16)
  | timerInterrupt (core : Fin 16)
  | ipiWrite (ag : Agent) (cores : BitVec 16)
  | debugHaltReq (ag : Agent) (core : Fin 16)
  | debugResume (ag : Agent) (core : Fin 16)
  | debugStep (ag : Agent) (core : Fin 16)
  | dbgDataAccess (ag : Agent) (core : Fin 16) (write : Option Word)
  | coreKill (ag : Agent) (core : Fin 16)
  -- 17 Power
  | quiesceAnswer (r : Fin 96) (page : Fin 8192) (ans : Quiesce)
  | quiesceTimeout (r : Fin 96)
  | retryHoldoffExpiry (r : Fin 96)
  | entryRetryWrite (ag : Agent) (w : Fin 3) (bitsSet : Word)
  | ungateTimeout (r : Fin 96) (page : Fin 8192)
  | phase2Done (r : Fin 96)
  | wakeStepReady (r : Fin 96)
  | wakeTableStep (r : Fin 96) (allReady : Bool)
  | wakeTimeout (r : Fin 96)
  | avsStep (r : Fin 96) (margin : Bool)
  | dvfsInterval (anyBusy90 allBelow50 : Bool)
  | thermalSample (temps : List Int)
  | droopEngage (r : Fin 96) (k : DroopKind)
  | phaseLoss (r : Fin 96) (phase : Fin 8)
  | dropMonitorSample (c : Fin 512) (mv expectedMv : BitVec 12)
  | crackPreset (ag : Agent) (r : Fin 96)
  | offRequest (ag : Agent) (value : Word)
  | wakeNArm
  | wakeNAccept
  | wakeNStuck
  | brownout (r : Rail)
  | por (c : PorCause)
  -- 20 Resets, boot, fuses, flash, debug port
  | chipReset
  | resetNPin (lowUs : Nat)
  | warmReset (value : Word)
  | watchdogExpiry
  | wdtKick (value : Word)
  | hostGo (ag : Agent) (value : Word)
  | fuseProgSvn (ag : Agent) (value : Word)
  | fuseProgRevoke (ag : Agent) (value : Word)
  | fuseProgDone
  | journalCommit (ag : Agent) (value : Word)
  | journalCommitDone (ok : Bool)
  | flashRead (ag : Agent)
  | flashProgram (ag : Agent)
  | flashErase4k (ag : Agent)
  | flashErase64k (ag : Agent)
  | flashOpDone (ok : Bool)
  | debugUnlock (ag : Agent) (value : Word)
  | debugUnlockDone
  | jtagBypass
  | jtagIdcode
  | jtagSamplePreload
  | jtagExtest (cells : Word)
  | jtagCoreDbg (core : Fin 16)
  | jtagRegAccess (r : RegAddr) (write : Option Word)
  -- 18 Clocks
  | rootSwitch (ag : Agent) (value : Word)
  | rootSwitchDone
  | muxSwitch (ag : Agent) (m : Mux) (value : Word)
  | muxSwitchDone (m : Mux)
  | muxSwitchTimeout (m : Mux)
  | muxForce (ag : Agent) (m : Mux)
  | sourceLost (src : Source)
  | sourceGood (src : Source)
  | pllLock (n : Fin 3)
  | holdoverTimeout
  | rcvAutoReturn
  -- 19 Host ports and Kakan
  | bar2Request (p : Port) (addr : BitVec 41) (req : Request) (poisoned : Bool)
  | bar2ReadTimeout (p : Port)
  | msixUnmask (p : Port) (vector : Option (Fin 128))
  | portLinkDown (p : Port) (c : LinkDownCause)
  | portLinkUp (p : Port) (speed : Fin 8) (width : Fin 64)
  | flrDone (p : Port)
  | linkDetectPoll (k : Fin 4) (partner : Bool)
  | linkEqDone (k : Fin 4) (code : Fin 64)
  | linkAlignDone (k : Fin 4)
  | linkConfig (k : Fin 4) (dev : BitVec 12) (link : Fin 4) (clX clY : BitVec 7)
  | linkLockLost (k : Fin 4)
  | linkRetrainDone (k : Fin 4)
  | linkRetrainTimeout (k : Fin 4)
  | flitReceive (k : Fin 4) (seq : BitVec 12) (f : FlitKind) (check : FlitCheck)
  | flitNak (k : Fin 4) (seq : BitVec 12)
  | creditReceive (k : Fin 4) (vc : Fin 3) (n : Fin 257)
  | epochSend
  | epochFlit (k : Fin 4) (number : BitVec 16)
  | eqStep (k : Fin 4) (want : Fin 64)
  | kakanWrite (p : KPacket)
  | kakanRedWrite (p : KPacket)
  | kakanSig (p : KPacket)
  | kakanRead (p : KPacket)
  | kakanReadData (p : KPacket)
  | kakanAck (p : KPacket)
  | kakanNakRoute (p : KPacket)
  | remoteTimeout (tag : Word)
  -- added rows
  | timeBaseTick
  | hbmPatrolScrub (addr : BitVec 48) (found : EccFind)
  | i3cTransferDone (r : BusResult)
  | csiLinkUp (p : Fin 4)
  | micStuckClear (m : Fin 8)
  deriving DecidableEq, Repr

end Sys2Proof
end

