-- ==== Sys2Proof/Decode.lean ====
section
/-!
DEFINITION. The command that a table word spells. The rows of the command table carry no bit fields: a command is an
event or a register access and has no encoding, so no word spells one.
-/
namespace Sys2Proof

/-- The command that a word of the command table spells: none, because no row gives any bits. -/
def decodeTableWord (nbits w : Nat) : Option Instr :=
  match nbits, w with
  | _, _ => none

end Sys2Proof
end

