-- ==== Sys2Proof/Config.lean ====
section
/-!
DEFINITION. What the spec leaves open. Every constant here has no body: no statement can rest on its value, and a claim
about it holds for every value.
-/
namespace Sys2Proof.Config

/-- A value the spec leaves open, one for each use: the step applies it to the counter `free` of the state and advances
the counter. -/
opaque freeValue : Nat → Nat

/-- A filter stage of the microphone front end, whose coefficients the spec does not give (R115, R116): stage 0–2 HB1, HB2 and the
compensation of the low-power path; 3–7 HB1, HB2, the compensation, HB3 and the ÷ 3 filter of the high-quality path; over its
newest inputs, newest first, before it saturates. -/
opaque micFir : Nat → List Int → Int

/-- The first-order high-pass filter of a path (R117; 0 low power, 1 high quality): its input, and its last input and output. -/
opaque micHpf : Nat → Int → Int → Int → Int

/-- The elementary functions of the array and of Flyer, whose results the spec gives by an accuracy bound or not at all
(R182, R207, R230, R260): FP32 in, FP32 out. -/
opaque fexp : Word → Word
opaque flog : Word → Word
opaque fsigmoid : Word → Word
opaque ftanh : Word → Word
opaque fsilu : Word → Word
opaque fgelu : Word → Word
opaque fsoftplus : Word → Word
opaque frecip : Word → Word
opaque frsqrt : Word → Word

/-- What Wivan writes and the spec does not give of a Flyer model (R181, R182, R189, R190): of a weight slot in a weight block the
rows, columns, format (0 INT8, 1 FP16, 2 BF16) and offset (fields 0 to 3), and where the weight of a row and a column stands in a
slot of so many rows and columns; whether an op of code 0x22 is PUTH, and the register it writes; the head output of a step whose
window is incomplete, from the op list and the states there are; and the bytes of a capture that a task feeds, with its values. -/
opaque flyerSlot : (Nat → Byte) → Nat → Nat → Nat
opaque flyerIndex : Nat → Nat → Nat → Nat → Nat
opaque flyerPut : Word → Bool
opaque flyerPutReg : Word → Nat
opaque flyerTail : List Word → List (List Word) → Word
opaque fedBytes : Nat
opaque fedVals : List Byte → List Word

/-- The TILED layout, which the tool Wivan writes and the spec does not give (R209): where element (p, c) of a tensor of P
positions and C channels stands, how many elements the tensor takes, which logical element stands at a place, and the
clocks of R210 for one row of a TILED input. -/
opaque tiledIndex : Nat → Nat → Nat → Nat → Nat
opaque tiledCount : Nat → Nat → Nat
opaque tiledElem : Nat → Nat → Nat → Nat
opaque tiledRate : Nat

/-- Where weight (k, n) of K × N weights stands for an OP, and how many elements the weights take (R209). -/
opaque weightIndex : Nat → Nat → Nat → Nat → Nat → Nat
opaque weightCount : Nat → Nat → Nat → Nat

/-- The element of its input that stands at place i of a COPY's output, from one layout into another one (R207). -/
opaque layoutElem : Nat → Nat → Nat → Nat → Nat

/-- Element i of a row that NORM of a KIND normalises with EPS and a gain vector (R207): the order of its roundings is not
given. -/
opaque normElem : Nat → Word → List Word → List Word → Nat → Word

/-- A dot product and a sum in FP32 whose order of roundings the spec does not give (R230, R231, R234, R235). -/
opaque fdot : List Word → List Word → Word
opaque fsum : List Word → Word

/-- The fused minimum VLOG in mV at a frequency in MHz (R382, R414). -/
opaque fusedMv : Nat → Nat

/-- The region whose bump cluster c it is (R390): the spec gives no map. -/
opaque clusterRegion : Nat → Nat

/-- SHA-384 and the check of an ECDSA P-384 signature (20): message, public key and signature as bytes. -/
opaque sha384 : List Byte → List Byte
opaque ecdsaP384 : List Byte → List Byte → List Byte → Bool

/-- The manufacturer code of IDCODE (R478), given in the board kit. -/
opaque mfrCode : BitVec 11

/-- The contents of the boot ROM (R337, R457). -/
opaque bootRom : Nat → Byte

end Sys2Proof.Config
end

