-- ==== Sys2Proof/Machine/RegMap.lean ====
section
/-!
DEFINITION. The register map: which block each page number belongs to (R42), what its header offers, and each register
of the chapters' register tables with its reset value and the bits each access code covers (R5).
-/
namespace Sys2Proof.Machine

/-- The two packages of R1, told apart by the PACKAGE identity fuse. -/
inductive Package where
  | rm
  | tc
  deriving DecidableEq, Repr

/-- What a register page holds (R42): one name for each layout the chapters give. -/
inductive PageKind where
  | unassigned | fuses | sems | boot | update | flash | debug
  | pwr | dvfs | regionStates | wakeTable | wakeN | pmuHeader
  | clkSources | clkPlls | clkRoot | clkMux | thermal
  | reelCommon | reelChannels | reelMarks
  | stream (n : Nat) | csi | aer | mic | cliff | halt | pack
  | whorlCommon | whorlMaps | whorlCores | whorlTicks | whorlMesh | whorlWakes
  | flyer | lanes | streamTable | esc
  | tile | loom | carder | kv | formats
  | skein | plc | frames | slots | lending | hbm | hbmTraining
  | shuttle | flows | delays | engines | mover
  | errlog | spindles | ring (n : Nat) | core | port | kakan (n : Nat) | trace | traceRead
  | region (r : Nat) | drops (k : Nat)
  deriving DecidableEq, Repr

/-- The block of a page and the first page of its index row (R42). -/
def pageRow (p : Nat) : PageKind × Nat :=
  if p = 0x000 then (.fuses, 0x000)
  else if p = 0x001 then (.sems, 0x001)
  else if p = 0x002 then (.boot, 0x002)
  else if p = 0x003 then (.update, 0x003)
  else if p = 0x004 then (.flash, 0x004)
  else if p = 0x005 then (.debug, 0x005)
  else if p < 0x008 then (.unassigned, 0)
  else if p = 0x008 then (.pwr, 0x008)
  else if p = 0x009 then (.dvfs, 0x008)
  else if p = 0x00A then (.regionStates, 0x008)
  else if p = 0x00B then (.wakeTable, 0x008)
  else if p = 0x00C then (.wakeN, 0x008)
  else if p < 0x010 then (.pmuHeader, 0x008)
  else if p = 0x010 then (.clkSources, 0x010)
  else if p = 0x011 then (.clkPlls, 0x010)
  else if p = 0x012 then (.clkRoot, 0x010)
  else if p = 0x013 then (.clkMux, 0x010)
  else if p = 0x014 then (.thermal, 0x014)
  else if p < 0x018 then (.unassigned, 0)
  else if p = 0x018 then (.reelCommon, 0x018)
  else if p < 0x01B then (.reelChannels, 0x018)
  else if p = 0x01B then (.reelMarks, 0x018)
  else if p < 0x020 then (.unassigned, 0)
  else if p < 0x038 then (.stream (p - 0x020), 0x020)
  else if p = 0x038 then (.csi, 0x038)
  else if p = 0x039 then (.aer, 0x038)
  else if p = 0x03A then (.mic, 0x038)
  else if p < 0x040 then (.unassigned, 0)
  else if p = 0x040 then (.cliff, 0x040)
  else if p = 0x041 then (.halt, 0x041)
  else if p = 0x042 then (.pack, 0x042)
  else if p < 0x050 then (.unassigned, 0)
  else if p = 0x050 then (.whorlCommon, 0x050)
  else if p = 0x051 then (.whorlMaps, 0x050)
  else if p < 0x056 then (.whorlCores, 0x050)
  else if p = 0x056 then (.whorlTicks, 0x050)
  else if p = 0x057 then (.whorlMesh, 0x050)
  else if p = 0x058 then (.whorlWakes, 0x050)
  else if p < 0x060 then (.unassigned, 0)
  else if p = 0x060 then (.flyer, 0x060)
  else if p = 0x061 then (.lanes, 0x060)
  else if p < 0x067 then (.streamTable, 0x060)
  else if p = 0x067 then (.esc, 0x060)
  else if p < 0x080 then (.unassigned, 0)
  else if p < 0x0C0 then (.tile, 0x080)
  else if p = 0x0C0 then (.loom, 0x0C0)
  else if p = 0x0C1 then (.carder, 0x0C1)
  else if p = 0x0C4 then (.kv, 0x0C4)
  else if p = 0x0C8 then (.formats, 0x0C8)
  else if p < 0x0D0 then (.unassigned, 0)
  else if p = 0x0D0 then (.skein, 0x0D0)
  else if p = 0x0D1 then (.plc, 0x0D0)
  else if p = 0x0D2 then (.frames, 0x0D0)
  else if p = 0x0D3 then (.slots, 0x0D0)
  else if p = 0x0D4 then (.lending, 0x0D0)
  else if p = 0x0D5 then (.hbm, 0x0D0)
  else if p < 0x0D8 then (.hbmTraining, 0x0D0)
  else if p < 0x0E0 then (.unassigned, 0)
  else if p = 0x0E0 then (.shuttle, 0x0E0)
  else if p = 0x0E1 then (.flows, 0x0E0)
  else if p = 0x0E2 then (.delays, 0x0E0)
  else if p = 0x0E3 then (.engines, 0x0E0)
  else if p < 0x0E8 then (.mover, 0x0E4)
  else if p = 0x0F0 then (.errlog, 0x0F0)
  else if p = 0x0F8 then (.spindles, 0x0F8)
  else if p < 0x100 then (.unassigned, 0)
  else if p < 0x140 then (.ring (p - 0x100), 0x100)
  else if p < 0x150 then (.core, 0x140)
  else if p < 0x152 then (.port, 0x150)
  else if p < 0x158 then (.unassigned, 0)
  else if p < 0x15C then (.kakan (p - 0x158), 0x158)
  else if p = 0x160 then (.trace, 0x160)
  else if p = 0x161 then (.traceRead, 0x160)
  else if p < 0x200 then (.unassigned, 0)
  else if p < 0x260 then (.region (p - 0x200), 0x200)
  else if p < 0x268 then (.drops (p - 0x260), 0x260)
  else (.unassigned, 0)

/-- The block of a page (R42). -/
def pageKind (p : Nat) : PageKind := (pageRow p).1

/-- The pages that are ABSENT on a package (R2, R43). -/
def absent : Package → Nat → Bool
  | .rm, p => p == 0x15A || p == 0x15B
  | .tc, p => (0x020 ≤ p && p < 0x036) || (0x038 ≤ p && p < 0x03B) || p == 0x040 || p == 0x041

/-- CAPS.HAS_EN: the page has an enable and follows R37. -/
def PageKind.hasEn : PageKind → Bool
  | .stream _ | .aer | .mic | .cliff | .pack | .whorlCommon | .flyer | .esc | .loom | .ring _ | .core
  | .kakan _ => true
  | _ => false

/-- CAPS.CLAIMABLE: OWNER applies. -/
def PageKind.claimable : PageKind → Bool
  | .unassigned | .sems | .tile | .carder | .errlog | .drops 1 | .drops 2 | .drops 3 | .drops 4 | .drops 5
  | .drops 6 | .drops 7 => false
  | _ => true

/-- CAPS.HAS_VOTE: VOTE applies. -/
def PageKind.hasVote : PageKind → Bool
  | .stream _ | .mic | .whorlCommon | .flyer | .tile | .loom | .spindles | .port | .kakan _ | .region _ => true
  | _ => false

/-- One row of a register table: `count` registers, `stride` bytes apart from `off`, with the bits that each access code
covers; the bits that no code covers are RO or WO. `hi` is the offset of the other half of a pair, 0 for none. -/
structure RegRow where
  off    : Nat
  stride : Nat := 4
  count  : Nat := 1
  reset  : Nat := 0
  rw     : Nat := 0
  rwl    : Nat := 0
  w1c    : Nat := 0
  hi     : Nat := 0
  deriving DecidableEq, Repr

/-- An RO row. -/
def ro (off : Nat) (reset : Nat := 0) : RegRow := { off := off, reset := reset }
/-- `n` RO rows. -/
def ros (off n : Nat) (stride : Nat := 4) : RegRow := { off := off, count := n, stride := stride }
/-- An RWL row. -/
def rwl (off mask : Nat) (reset : Nat := 0) : RegRow := { off := off, rwl := mask, reset := reset }
/-- `n` RWL rows. -/
def rwls (off n mask : Nat) (reset : Nat := 0) (stride : Nat := 4) : RegRow :=
  { off := off, count := n, stride := stride, rwl := mask, reset := reset }
/-- An RW row. -/
def rw (off mask : Nat) (reset : Nat := 0) : RegRow := { off := off, rw := mask, reset := reset }
/-- A W1C row. -/
def w1c (off mask : Nat) : RegRow := { off := off, w1c := mask }
/-- The two rows of an RWL pair x_LO at `off`, x_HI at `off + 4`, `hiMask` the bits x_HI implements (R34). -/
def pairL (off hiMask : Nat) (reset : Nat := 0) : List RegRow :=
  [{ off := off, rwl := 0xFFFFFFFF, reset := reset, hi := off + 4 }, { off := off + 4, rwl := hiMask }]
/-- The two rows of an RO pair. -/
def pairR (off : Nat) (reset : Nat := 0) (hiReset : Nat := 0) : List RegRow :=
  [{ off := off, reset := reset, hi := off + 4 }, { off := off + 4, reset := hiReset }]

/-- All 32 bits. -/
def full : Nat := 0xFFFFFFFF

/-- 01 page 0x067 (R30). -/
def escRows : List RegRow :=
  [rw 0x040 0x3 1, rw 0x044 0xFFFF 0x6000, rw 0x048 0xFFFF 0xC000, rw 0x04C 0xFFFF 0x1388,
   { off := 0x050, rw := full, hi := 0x054 }, rw 0x054 0xFFFF, ro 0x058, rw 0x05C 0x3F 0x19] ++ [ros 0x060 10]

/-- 02 page 0x001. -/
def semRows : List RegRow :=
  [ros 0x040 64, { off := 0x140, hi := 0x144 }, ro 0x144, { off := 0x148, w1c := full, hi := 0x14C }, w1c 0x14C full]

/-- 03 page 0x018. -/
def reelCommonRows : List RegRow :=
  [rwls 0x040 4 0x37FF 0x8, rwl 0x050 0x33 0x10, rwl 0x054 0xFF0FF1FF 0x190040C8, ro 0x058 1, ro 0x060] ++
  [{ off := 0x080, stride := 8, count := 8, hi := 0x084 }, { off := 0x084, stride := 8, count := 8 }]

/-- 03 pages 0x019 and 0x01A: channel k mod 4 at 0x040 + 0x40 × (k mod 4). -/
def reelChannelRows : List RegRow :=
  [rwls 0x040 4 0x1F733F 0x2300 0x40, rwls 0x044 4 full 0x01000000 0x40, rwls 0x048 4 full 0x01000000 0x40,
   rwls 0x04C 4 full full 0x40, rwls 0x050 4 0xFFFF 0x32 0x40, ros 0x054 4 0x40,
   { off := 0x058, stride := 0x40, count := 4, rwl := full, hi := 0x05C },
   { off := 0x05C, stride := 0x40, count := 4, rwl := 0xFFFF },
   ros 0x060 4 0x40, ros 0x064 4 0x40, ros 0x068 4 0x40, ros 0x06C 4 0x40, ros 0x070 4 0x40]

/-- 03 page 0x01B: MARKn at 0x040 + 0x20 × n. -/
def reelMarkRows : List RegRow :=
  [rwls 0x040 32 0xFF073F 0 0x20, { off := 0x044, stride := 0x20, count := 32, rwl := full, hi := 0x048 },
   { off := 0x048, stride := 0x20, count := 32, rwl := 0xFFFF }, rwls 0x04C 32 full 0 0x20,
   rwls 0x050 32 0xFFFFFF 0 0x20, ros 0x054 32 0x20, ros 0x058 32 0x20, w1c 0x440 full]

/-- KIND of channel SCn (R84): 0 camera, 1 event, 2 audio, 3 IMU, 4 ToF, 5 encoder, 6 cliff, 7 general. -/
def streamKind (n : Nat) : Nat :=
  if n < 8 then 0 else if n < 10 then 1 else if n < 18 then 2 else if n = 18 then 3 else if n = 19 then 4
  else if n = 20 then 5 else if n = 21 then 6 else 7

/-- 04 channel page 0x020 + n: the common block and the kind block. The table gives the kind block's offsets for CAM and EVT
only; the places of the IMU, TOF, ENC and GEN fields in it are this model's (IMU: MODE[0], REG[15:8], RD_MASK[23:16],
BURST[30:24]; PERIOD; INT_LOST. TOF: MODE[0], ADDR[14:8], REG[23:16]; PERIOD; BURST. ENC: MARK_SEL[4:0], MARK_EN[8],
PERIOD[31:16]. GEN: PUSH_LO, PUSH_HI; PUSH_LEN[12:0], TYPE[23:16]). -/
def streamRows (n : Nat) : List RegRow :=
  [rwl 0x040 0x7 (streamKind n * 256)] ++ pairL 0x044 0xFFFF ++
  [rwl 0x04C full 0x10000, ro 0x050, rw 0x054 full, ro 0x058, ro 0x05C, ro 0x060, rwl 0x064 0xFF3F (0x101 + n)] ++
  (if n < 8 then
    [rwl 0x080 0x1FFF1FFF, rwl 0x084 0xFF03] ++ pairL 0x088 0xFFFF ++
    [rwl 0x090 full, rwl 0x094 0x3F 10, ro 0x098, ro 0x09C]
  else if n < 10 then [rwl 0x080 0x313FF (256 + (n - 8) * 0x10000), rwl 0x084 0xFFFF0000 (1000 * 0x10000)]
  else if n < 18 then []
  else if n = 18 then [rwl 0x080 0x7FFFFF01, rwl 0x084 full, ro 0x088]
  else if n = 19 then [rwl 0x080 0xFF7F01, rwl 0x084 full, rwl 0x088 0x1FF]
  else if n = 20 then [rwl 0x080 0xFFFF011F (100 * 0x10000)]
  else if n = 21 then []
  else pairL 0x080 0xFFFF ++ [rwl 0x088 0xFF1FFF])

/-- 04 page 0x038. The reset routing of R94 is in `regReset`. -/
def csiRows : List RegRow :=
  [rwls 0x040 4 0x37 4, ros 0x050 4, rwls 0x060 16 0x9F, ro 0x0A0, rwl 0x0B0 0x8000FFFF, rw 0x0B4 full,
   rwl 0x0C0 0xF1 0x10, rwl 0x0D0 0xFFFFFF01] ++ pairL 0x0D4 0xFFFF

/-- 04 page 0x039. -/
def aerRows : List RegRow := [rwl 0x040 0xFF01, ro 0x044]

/-- 05 page 0x03A. The default coefficient bank of R125 is in `regReset`. -/
def micRows : List RegRow :=
  [rwl 0x040 0x3, ro 0x044, rwl 0x048 0xF1FF 0xF, ro 0x04C, rwl 0x050 0x313 0x103, rwl 0x054 full 0xA,
   rwl 0x058 full 0xA0, rwl 0x05C 0xFFFF 0x3000, rwl 0x060 0xFFFF 0x08F4, ro 0x064, rwl 0x068 0xFF 0xF] ++
  pairL 0x06C 0xFFFF ++
  [rwl 0x074 0x73FF01 0x10101, rwl 0x078 0x7F0F 4, ro 0x07C,
   rwls 0x800 32 full 0 32, rwls 0x804 32 full 0 32, rwls 0x808 32 0xFFFF 0 32, rwls 0x80C 32 full 0 32,
   rwls 0x810 32 full 0 32, rwls 0x814 32 0xFFFF 0 32]

/-- 06 page 0x040: channel n at 0x040 + 0x20 × n. -/
def cliffRows : List RegRow :=
  [rwls 0x040 8 0x3FF77 0xC800 0x20, rwls 0x044 8 0xFF0FFF 0x280258 0x20,
   { off := 0x048, stride := 0x20, count := 8, reset := 200 * 256 }, ros 0x04C 8 0x20, ros 0x050 8 0x20,
   ros 0x054 8 0x20, ros 0x058 8 0x20, ro 0x140, rwl 0x144 full 0x1C2, rwl 0x148 full 0xF3C, ro 0x14C, ro 0x150,
   ro 0x154, ro 0x158]

/-- 06 page 0x041: the halt unit's registers read its own state, except the configuration held here. -/
def haltRows : List RegRow :=
  [ro 0x040, ro 0x044, ro 0x048, ro 0x04C, ro 0x050, rwl 0x054 full 0x32, rwl 0x058 full 0x14,
   rwl 0x05C 0xFF3F 0x323F, ro 0x060, ro 0x064, ro 0x068]

/-- 06 page 0x042. -/
def packRows : List RegRow :=
  [rwl 0x040 0x7F07 0xB04, rwl 0x044 full 0x1F400FA] ++ [ros 0x048 7]

/-- 07 page 0x050. APER is the Whorl aperture of R265. -/
def whorlCommonRows : List RegRow :=
  [rwl 0x040 1 1] ++ pairR 0x044 0 0x100 ++ [ros 0x04C 4]

/-- 07 page 0x051. -/
def whorlMapRows : List RegRow :=
  [rwls 0x040 32 0x8001FF7F, rwls 0x0C0 2 0x83FF 0 16, rwls 0x0C4 2 0xFFF0FFF 0 16, rwls 0x0C8 2 0x7F7F 0 16,
   ros 0x0CC 2 16, rwls 0x0E0 2 0x8001FF7F, ros 0x0F0 5]

/-- 07 pages 0x052–0x055: core c at 0x040 + 0x40 × (c mod 32). -/
def whorlCoreRows : List RegRow :=
  [rwls 0x040 32 0x1FFF1 0 0x40, rwls 0x044 32 full 0xFFFF0001 0x40, rwls 0x048 32 0xFFFFF 0x40100 0x40,
   ros 0x04C 32 0x40, ros 0x050 32 0x40, ros 0x054 32 0x40, ros 0x058 32 0x40, ros 0x05C 32 0x40, ros 0x060 32 0x40]

/-- 07 page 0x056. -/
def whorlTickRows : List RegRow := [ro 0x040, rwl 0x044 0xFFFF 0x3E8, ros 0x060 8, ro 0x080]

/-- 07 page 0x058: entry e at 0x040 + 16 × e. -/
def whorlWakeRows : List RegRow :=
  [rwls 0x040 64 0xF700FF7F 0 16, rwls 0x044 64 0xFFFFFF 0x1000 16, ros 0x048 64 16, ros 0x04C 64 16, ro 0x440]

/-- 08 page 0x060. SRAM is the Flyer home window of R265. -/
def flyerRows : List RegRow := pairR 0x040 0x08000000 0 ++ [ro 0x048 0xFFFF, ros 0x04C 6]

/-- 08 page 0x061. -/
def laneRows : List RegRow := [ros 0x040 16, ro 0x080]

/-- 08 pages 0x062–0x066: 63 stream entries of 16 words (R179), STAT and SCORE read-only. -/
def streamTableRows : List RegRow :=
  [rwls 0x040 63 0x3FFF 0 0x40, rwls 0x044 63 0x1FF000F 0 0x40] ++
  [{ off := 0x048, stride := 0x40, count := 63, rwl := full, hi := 0x04C },
   { off := 0x04C, stride := 0x40, count := 63, rwl := 0xFFFF },
   { off := 0x050, stride := 0x40, count := 63, rwl := full, hi := 0x054 },
   { off := 0x054, stride := 0x40, count := 63, rwl := 0xFFFF },
   rwls 0x058 63 0xFFF001F 0 0x40, rwls 0x05C 63 0xFFFF 0 0x40,
   { off := 0x060, stride := 0x40, count := 63, rwl := full, hi := 0x064 },
   { off := 0x064, stride := 0x40, count := 63, rwl := 0xF00FFFF },
   ros 0x068 63 0x40, ros 0x06C 63 0x40, rwls 0x070 63 full 0 0x40,
   { off := 0x074, stride := 0x40, count := 63, rwl := full, hi := 0x078 },
   { off := 0x078, stride := 0x40, count := 63, rwl := 0xFFFF },
   rwls 0x07C 63 full 0 0x40]

/-- 09 page 0x080 + n. -/
def tileRows : List RegRow := [ros 0x040 3]

/-- 09 page 0x0C0. -/
def loomRows : List RegRow :=
  [{ off := 0x040, stride := 8, count := 15, rwl := full, hi := 0x044 },
   { off := 0x044, stride := 8, count := 15, rwl := full }] ++
  pairR 0x0C0 ++ pairR 0x0C8 ++ pairR 0x0D0 ++ [ros 0x0D8 6]

/-- 09 page 0x0C1. -/
def carderRows : List RegRow := [ros 0x040 4 0x10, ros 0x044 4 0x10, ros 0x048 4 0x10]

/-- 10 page 0x0C4. -/
def kvRows : List RegRow :=
  [rwl 0x040 0x3F3FFFF 0x110820, rwl 0x044 0xFF0FFF0F 0x1060401] ++ pairL 0x048 0xFFFF ++ [rwl 0x050 0x1FFFFF, ro 0x054] ++
  pairL 0x058 0xFFFF ++ pairL 0x060 0xFFFF ++ pairL 0x068 0xFFFF ++ [rwl 0x070 0x1FFFFF, rwl 0x074 0x1F 0x10] ++
  pairL 0x078 0xFFFF ++ [rwl 0x080 1, ros 0x084 10]

/-- 11 page 0x0C8. -/
def formatRows : List RegRow := [rwl 0x040 0xF1F01 0xA00] ++ pairL 0x044 0xFFFF ++ [ros 0x04C 8]

/-- 12 page 0x0D0. -/
def skeinRows : List RegRow := [rwl 0x040 0xFFF 0x408, ros 0x044 9]
/-- 12 page 0x0D1. -/
def plcRows : List RegRow :=
  pairL 0x040 0xFFFF ++ [rwl 0x048 0x1FFFF 1, rwl 0x04C 0x1FFFF8, rwl 0x050 0xF, ro 0x054, ro 0x058] ++ pairR 0x05C
/-- 12 page 0x0D2. -/
def frameRows : List RegRow := [ros 0x040 10]
/-- 12 page 0x0D3: slot j at 0x040 + 0x10 × j. -/
def slotRows : List RegRow :=
  [{ off := 0x040, stride := 0x10, count := 16, rwl := full, hi := 0x044 },
   { off := 0x044, stride := 0x10, count := 16, rwl := 0xFFFF }, rwls 0x048 16 0x8FFF 0x100 0x10, ros 0x04C 16 0x10]
/-- 12 page 0x0D4: entry n at 0x050 + 0x10 × n. The offsets of BORROW_MAX and NBn_STAT are as the table prints them. -/
def lendingRows : List RegRow :=
  [{ off := 0x040, rwl := full, hi := 0x044 }, rwl 0x044 full, rwls 0x050 4 0xBFFF 0 0x10, rwls 0x054 4 full 0 0x10, rwls 0x058 4 full 0 0x10,
   ros 0x05C 4 0x10, rwl 0x090 0xFFFF00FF 0x7D00014]
/-- 12 page 0x0D5. -/
def hbmRows : List RegRow := [ro 0x040, ro 0x044] ++ pairR 0x048 ++ [rwl 0x050 full 24]

/-- 13 page 0x100 + n. The reset values that depend on n are in `regReset`. -/
def ringRows : List RegRow :=
  [rwl 0x040 0xFFFF0173, rwl 0x044 0x1FFF1FFF] ++ pairL 0x048 0xFFFF ++
  [rwl 0x050 0x1F 8, ro 0x054, rw 0x058 0xFFFF, rwl 0x05C full, rwl 0x060 0xFFFFFF, ro 0x064, ro 0x068, ro 0x06C, ro 0x070,
   { off := 0x074, rw := full, hi := 0x078 }, rw 0x078 0xFFFF, ro 0x07C, ro 0x080, ro 0x084, ro 0x088, ro 0x08C,
   ros 0x090 4, ros 0x0C0 16]

/-- 13 page 0x0E0. -/
def shuttleRows : List RegRow := [ros 0x040 4]
/-- 13 page 0x0E1. -/
def flowRows : List RegRow := [ros 0x040 128]
/-- 13 page 0x0E2: list d at 0x040 + 0x20 × d. -/
def delayRows : List RegRow :=
  [rwls 0x040 4 0x7FF0071 0 0x20, rwls 0x044 4 0xFFFFFF 0 0x20, ros 0x048 4 0x20, ros 0x04C 4 0x20,
   { off := 0x050, stride := 0x20, count := 4, hi := 0x054 }, ros 0x054 4 0x20]
/-- 13 page 0x0E4 + m. -/
def moverRows : List RegRow := [ros 0x040 3]
/-- 13 pages 0x160 and 0x161. -/
def traceRows : List RegRow := [rwl 0x040 0xFFFF0003, ro 0x044]
def traceReadRows : List RegRow := [rw 0x040 0x1FFF, ros 0x044 4]

/-- 14 page 0x0F0. -/
def errlogRows : List RegRow := [ro 0x040, ro 0x044 1, ros 0x048 8, ros 0x100 256]

/-- 15 page 0x0F8. -/
def spindleRows : List RegRow :=
  [ro 0x040, rwl 0x044 0xFFFF 1, rwl 0x048 0xFFFF 1, rwl 0x04C 0xFFFF, rwls 0x080 32 0x800F5FFF]
/-- 15 page 0x140 + n. -/
def coreRows : List RegRow :=
  [rwl 0x040 full 0x08000000, ro 0x044 4, ros 0x048 3, ro 0x054, ro 0x058, ro 0x05C, ros 0x060 3, rwl 0x080 0xF100, ro 0x084,
   ro 0x088, rwl 0x08C full, ro 0x090, rwls 0x0A0 4 full, rwls 0x0B0 4 full, rwl 0x0C0 0x707]

/-- 17 page 0x008. -/
def pwrRows : List RegRow :=
  [rwl 0x040 0xF03FF 0x80010, rwl 0x044 0xFFFF 0x7D0, ro 0x048, ro 0x04C, ro 0x050, { off := 0x054, count := 3, w1c := full },
   ros 0x060 3, ro 0x070, rwl 0x074 0x3FF 0x3FF, ro 0x078, ro 0x07C, ro 0x080, ros 0x084 16]
/-- 17 page 0x009. -/
def dvfsRows : List RegRow := [ro 0x040, rwl 0x044 0xFFF0FFF 0xC800320, rwl 0x048 0x80000FFF, ro 0x04C 3200, ro 0x050]
/-- 17 page 0x00B: the step durations. -/
def wakeTableRows : List RegRow :=
  [rwl 0x040 0xFFF 20, rwl 0x044 0xFFF 1000, rwl 0x048 0xFFF 1, rwl 0x04C 0xFFF 10, rwl 0x050 0xFFF 1810, rwl 0x054 0xFFF 15,
   rwl 0x058 0xFFF 140, rwl 0x05C 0xFFF 9, rwl 0x060 0xFFF 50, rwl 0x064 0xFFFF 0x1388]
/-- 17 page 0x00C. -/
def wakeNRows : List RegRow := [rwl 0x040 0x1F1FF, ro 0x044 1, ros 0x048 2]
/-- 17 page 0x014. -/
def thermalRows : List RegRow := [ros 0x040 16, rwl 0x080 0xFF 0x64, ro 0x084]
/-- 17 page 0x200 + n. -/
def regionRows : List RegRow :=
  [rwl 0x040 0x377, ro 0x044, rwl 0x048 0x3FF03FF 0x3840226, rwl 0x04C 0x800003FF, ros 0x050 6]
/-- 17 page 0x260 + k. -/
def dropRows (k : Nat) : List RegRow := ros 0x040 64 :: if k = 0 then [rwl 0x140 0xFFFF 0x1018] else []

/-- 18 page 0x010. -/
def clkSourceRows : List RegRow :=
  [ro 0x040 3, w1c 0x044 0xFF, rwl 0x048 0xFF 0xFF, rwl 0x04C 1, rwl 0x050 0x7, rwl 0x054 0x3, ro 0x058, ro 0x05C]
/-- 18 page 0x011. -/
def clkPllRows : List RegRow :=
  [rwl 0x040 1, rwl 0x044 1, rwl 0x048 0x3F05 0x2804, rwl 0x04C 1, ro 0x050, ro 0x054]
/-- 18 page 0x012. -/
def clkRootRows : List RegRow := [rwl 0x040 0x13 0x10, ro 0x044 0x600000, rwl 0x048 0x7F 3, ro 0x04C]
/-- 18 page 0x013. -/
def clkMuxRows : List RegRow := [ro 0x040, ro 0x044, rwl 0x048 0x3FF 0x14]

/-- 19 pages 0x150 and 0x151. -/
def portRows : List RegRow :=
  [ro 0x040, ro 0x044, { off := 0x048, rwl := full, hi := 0x04C }, rwl 0x04C full, rwls 0x080 16 0x7F7F7F7F,
   rwl 0x0C0 0x7F7F7F7F 0x43424140, rwl 0x0C4 3, rwls 0x0C8 16 0x807F1FFF, ros 0x110 3]
/-- 19 page 0x158 + n; the cluster block stands on page 0x158. -/
def kakanRows (n : Nat) : List RegRow :=
  [ro 0x040, rwl 0x044 0x3F3F 0x3F00, ro 0x048, rwl 0x04C 0xF 4, ros 0x050 4] ++
  if n = 0 then
    [rwl 0x200 0xFFF, rwl 0x204 0x17F7F 0x101] ++ pairL 0x208 0xFFFF ++
    [rwl 0x210 0x3FFFF, rwl 0x214 0xF, { off := 0x240, count := 16, rw := full }, rwls 0x280 16 full, rwl 0x2C0 0xFFFF0001 0x3E80000,
     ros 0x2C4 3]
  else []

/-- 20 page 0x000: the identity reads the fuses. -/
def fuseRows : List RegRow :=
  [{ off := 0x040, hi := 0x044 }, ros 0x044 3, { off := 0x050, hi := 0x054 }, ros 0x054 2, ros 0x060 48]
/-- 20 page 0x002. -/
def bootRows : List RegRow :=
  [w1c 0x040 0x7F, ro 0x044, ro 0x048, ro 0x04C, ro 0x050, ro 0x054, rwl 0x058 full, ro 0x05C, rwl 0x060 0xFFFFF, ro 0x064, ro 0x068]
/-- 20 page 0x003. -/
def updateRows : List RegRow := [ros 0x040 4, rwls 0x100 64 full]
/-- 20 page 0x004. -/
def flashRows : List RegRow := [rwl 0x040 0x80000007, rwl 0x044 full, rwl 0x048 full] ++ pairL 0x04C 0xFFFF ++ [ros 0x054 3]
/-- 20 page 0x005. -/
def debugRows : List RegRow := [ros 0x040 12, rwls 0x100 64 full]

/-- The register tables. -/
def rowsOf : PageKind → List RegRow
  | .unassigned | .pmuHeader | .hbmTraining => []
  | .fuses => fuseRows
  | .sems => semRows
  | .boot => bootRows
  | .update => updateRows
  | .flash => flashRows
  | .debug => debugRows
  | .pwr => pwrRows
  | .dvfs => dvfsRows
  | .regionStates => [ros 0x040 3, ros 0x050 3, ros 0x060 3, ros 0x070 3, ros 0x080 3]
  | .wakeTable => wakeTableRows
  | .wakeN => wakeNRows
  | .clkSources => clkSourceRows
  | .clkPlls => clkPllRows
  | .clkRoot => clkRootRows
  | .clkMux => clkMuxRows
  | .thermal => thermalRows
  | .reelCommon => reelCommonRows
  | .reelChannels => reelChannelRows
  | .reelMarks => reelMarkRows
  | .stream n => streamRows n
  | .csi => csiRows
  | .aer => aerRows
  | .mic => micRows
  | .cliff => cliffRows
  | .halt => haltRows
  | .pack => packRows
  | .whorlCommon => whorlCommonRows
  | .whorlMaps => whorlMapRows
  | .whorlCores => whorlCoreRows
  | .whorlTicks => whorlTickRows
  | .whorlMesh => [ros 0x040 2]
  | .whorlWakes => whorlWakeRows
  | .flyer => flyerRows
  | .lanes => laneRows
  | .streamTable => streamTableRows
  | .esc => escRows
  | .tile => tileRows
  | .loom => loomRows
  | .carder => carderRows
  | .kv => kvRows
  | .formats => formatRows
  | .skein => skeinRows
  | .plc => plcRows
  | .frames => frameRows
  | .slots => slotRows
  | .lending => lendingRows
  | .hbm => hbmRows
  | .shuttle => shuttleRows
  | .flows => flowRows
  | .delays => delayRows
  | .engines => [ro 0x040]
  | .mover => moverRows
  | .errlog => errlogRows
  | .spindles => spindleRows
  | .ring _ => ringRows
  | .core => coreRows
  | .port => portRows
  | .kakan n => kakanRows n
  | .trace => traceRows
  | .traceRead => traceReadRows
  | .region _ => regionRows
  | .drops k => dropRows k

/-- Whether a row holds the register at offset `off`. -/
def RegRow.holds (r : RegRow) (off : Nat) : Bool :=
  decide (r.off ≤ off) && (off - r.off) % r.stride == 0 && decide ((off - r.off) / r.stride < r.count)

/-- The row of the register at offset `off` of a block, if its table has one (R35). -/
def regRow (k : PageKind) (off : Nat) : Option RegRow := (rowsOf k).find? fun r => r.holds off

/-- CFG of ring n at reset (13, Ring reset values). -/
def ringCfgReset (n : Nat) : Nat :=
  if n = 0 then 1 else if n < 25 then 0xFFFF0020 else if n = 25 then 0x12 else 0xFFFF0040
/-- QUOTA and RESERVE of ring n at reset (13, Ring reset values). -/
def ringQuotaReset (n : Nat) : Nat :=
  if n = 0 then 256 + 16 * 0x10000 else if n < 25 then 64 + 4 * 0x10000 else if n = 25 then 64 + 8 * 0x10000 else 64

/-- RCFG of region r at reset (17). -/
def rcfgReset (r : Nat) : Nat :=
  if r < 64 then 0x74 else if (68 ≤ r && r ≤ 76) || 80 ≤ r then 0x171 else 0x174

/-- ILIM_BASE of region r in mA (R381). -/
def ilimBase (r : Nat) : Nat :=
  if r < 64 then 12000 else if r < 68 then 6000 else if r < 76 then 1500 else if r < 80 then 3000
  else if r < 88 then 8000 else if r < 92 then 2000 else 4000

/-- The default mel bank (R125): b0, a1 and a2 of each band's sections in S2.13, rounded from the formulas of R125; b1 is 0 and
b2 is −b0. -/
def melBank : List (Int × Int × Int) :=
  [(94, -16175, 8003), (101, -16138, 7989), (109, -16087, 7974), (117, -16020, 7959), (125, -15935, 7942), (134, -15827, 7924), (144, -15694, 7905), (154, -15530, 7885),
   (164, -15330, 7863), (175, -15090, 7841), (187, -14801, 7818), (200, -14457, 7793), (212, -14049, 7767), (225, -13569, 7741), (239, -13006, 7714), (253, -12348, 7687)] ++
  [(266, -11586, 7660), (280, -10705, 7633), (293, -9693, 7607), (305, -8539, 7583), (316, -7231, 7561), (324, -5758, 7543), (331, -4113, 7530), (334, -2296, 7524),
   (333, -309, 7525), (327, 1833, 7537), (315, 4101, 7562), (296, 6453, 7601), (267, 8822, 7657), (230, 11112, 7733), (181, 13196, 7829), (122, 14910, 7947)]

/-- The reset value of coefficient word j (0–5) of band k: b0 and b1; b2 and a1; a2; and the same for the second section. -/
def melWord (k j : Nat) : Nat :=
  let (b0, a1, a2) := melBank.getD k (0, 0, 0)
  let h (x : Int) : Nat := (BitVec.ofInt 16 x).toNat
  match j % 3 with
  | 0 => h b0
  | 1 => h (-b0) + h a1 * 0x10000
  | _ => h a2

/-- The reset values that the tables give by formula: the ones that depend on the page's number. `none` where the row's
own reset value holds. -/
def regReset (k : PageKind) (off : Nat) : Option Nat :=
  match k with
  | .ring n => if off = 0x040 then some (ringCfgReset n) else if off = 0x044 then some (ringQuotaReset n) else none
  | .region r =>
    if off = 0x040 then some (rcfgReset r) else none
  | .csi => if 0x060 ≤ off && off < 0x0A0 then
      let i := (off - 0x060) / 4; some (if i % 4 < 2 then 0x80 + 2 * (i / 4) + i % 4 else 0) else none
  | .mic => if 0x800 ≤ off && off % 32 < 24 then some (melWord ((off - 0x800) / 32) (off % 32 / 4)) else none
  | .port => if 0x080 ≤ off && off < 0x0C0 then
      let n := off - 0x080; some (n + (n + 1) * 0x100 + (n + 2) * 0x10000 + (n + 3) * 0x1000000) else none
  | _ => none

/-- The first page of the index row of page `p`. -/
def firstPage (p : Nat) : Nat := (pageRow p).2

/-- The header's reset value (R57): PAGE_ID, PAGE_REV, CAPS (with NO_PINS of page 0x042, R157) and the state code; an ABSENT page
reads as R3 says. -/
def headerReset (pkg : Package) (p off : Nat) : Nat :=
  let k := pageKind p
  if k = .unassigned then 0
  else if off = 0x000 then 0x80000000 + firstPage p * 0x10000 + p
  else if off = 0x004 then 0x100
  else if off = 0x008 then
    if absent pkg p then 1
    else k.hasEn.toNat * 2 + k.claimable.toNat * 4 + k.hasVote.toNat * 8 + (if p = 0x042 && pkg = .tc then 2 ^ 16 else 0)
  else if off = 0x00C then if p = 0x140 then 1 else 0
  else if off = 0x010 then
    if p = 0x140 then 1 else if absent pkg p then 6 else if k.hasEn then 0 else 1
  else 0

/-- The value every register holds until something writes it: its reset value, by page number and offset. -/
def regDefault (pkg : Package) (key : Nat) : Word :=
  let p := key / 4096
  let off := key % 4096
  BitVec.ofNat 32 <|
    if off < 0x040 then headerReset pkg p off
    else if absent pkg p then 0
    else match regReset (pageKind p) off with
      | some v => v
      | none => match regRow (pageKind p) off with
        | some r => r.reset
        | none => 0

end Sys2Proof.Machine
end

