-- ==== Sys2Proof/Machine/Sparse.lean ====
section
/-!
DEFINITION. Sparse stores: a list of (index, value) pairs in one canonical form. Registers, memory bytes, flash, task
slots and every numbered unit of the device are held this way, so that equal contents are equal data.
-/
namespace Sys2Proof.Machine

/-- A store by index: the pairs are those whose value differs from what an unlisted index reads as, with strictly
rising indexes. -/
abbrev Sparse (α : Type) := List (Nat × α)

namespace Sparse

variable {α : Type}

/-- The value at index `k`; `dflt` says what an unlisted index reads as. -/
def get (dflt : Nat → α) : Sparse α → Nat → α
  | [], k => dflt k
  | (j, v) :: r, k => if k = j then v else get dflt r k

/-- The store without index `k`. -/
def erase : Sparse α → Nat → Sparse α
  | [], _ => []
  | (j, v) :: r, k => if k = j then erase r k else (j, v) :: erase r k

/-- The store with `v` listed at index `k`, in its place. -/
def insert : Sparse α → Nat → α → Sparse α
  | [], k, v => [(k, v)]
  | (j, w) :: r, k, v =>
    if k < j then (k, v) :: (j, w) :: r
    else if k = j then (k, v) :: r
    else (j, w) :: insert r k v

/-- The store with `v` at index `k`, in canonical form: a value that an unlisted index reads as is not listed. -/
def put [DecidableEq α] (dflt : Nat → α) (m : Sparse α) (k : Nat) (v : α) : Sparse α :=
  if v = dflt k then erase m k else insert m k v

/-- The store with every index that `p` picks back at what an unlisted index reads as. -/
def forget (m : Sparse α) (p : Nat → Bool) : Sparse α := m.filter fun e => !p e.1

/-- The canonical form: indexes strictly rise, and no entry equals what an unlisted index reads as. -/
def wf [DecidableEq α] (dflt : Nat → α) : Sparse α → Bool
  | [] => true
  | (j, v) :: r => (r.all fun e => decide (j < e.1)) && decide (v ≠ dflt j) && wf dflt r

end Sparse

end Sys2Proof.Machine
end

