-- ==== Sys2Proof/Machine/State.lean ====
section
/-!
DEFINITION. The state of the device: the queue of waiting commands, the fuses, the halt unit, and everything else
(`Dev`). Every register of the register tables is a word of `Dev.regs`, read through `Dev.reg`; the state that the text
gives a block beside its registers is a typed field.
-/
namespace Sys2Proof.Machine

/-- Why the machine stops on a command it cannot carry out. -/
inductive Fault where
  /-- Raised by no command of this model: every command has an effect in every state. Safe, because a run that stops claims
  nothing. -/
  | none
  deriving DecidableEq, Repr

/-- Why a command has no meaning here. -/
inductive Refusal where
  /-- Raised by `exec` alone, for a command whose meaning is not written; no command of this model is. Safe, because nothing is
  claimed of a run that stops. -/
  | notModelled (mnemonic : String)
  deriving DecidableEq, Repr

/-! ## Bus -/

/-- How an access ended, as its agent sees it. -/
inductive Completion where
  | data (w : List Word)
  | bytes (b : List Byte)
  | done
  | unsupported
  | completerAbort
  | poisoned
  | waiting
  deriving DecidableEq, Repr

/-! ## 01 The cascade -/

/-- The state of a stream's cascade episode (R15). -/
inductive EpState where
  | quiet
  | verify
  | pre
  | held
  deriving DecidableEq, Repr

/-- The cascade episode of one Flyer stream (R15, R19): its state and what the handoff record will hold. -/
structure Episode where
  st       : EpState := .quiet
  kind     : Nat := 0
  src      : Nat := 0
  score    : Nat := 0
  reelCh   : Nat := 0
  reelPos  : Nat := 0
  wakeAt   : Nat := 0
  merged   : Bool := false
  denied   : Bool := false
  reached  : Bool := false
  skipped  : Bool := false
  voted    : Bool := false
  deadline : Nat := 0
  deriving DecidableEq, Repr

/-- An escalation under way on a stream (R22, R197): its handoff slot, the score, the SEQ of the escalating step's first
capture, its time, and whether the lookback snapshot is written. -/
structure Escalation where
  stream : Nat
  slot   : Nat
  score  : Nat
  seq    : Option Word
  at_    : Nat
  snapped : Bool := false
  deriving DecidableEq, Repr

/-! ## 03 Reel -/

/-- An encoder (R61, R70): its filtered levels, its signed net count, and the times of its recent legal edges. -/
structure Encoder where
  a     : Bool := false
  b     : Bool := false
  net   : Word := 0
  edges : List Nat := []
  deriving DecidableEq, Repr

/-- What a Reel channel keeps beside its registers (R62, R64, R69–R73): the fraction in 2⁻²⁴, the odd half of ODO, the units of
the current window in 2⁻²⁴, its illegal transitions of the one or two encoders, whether the last window made the source
lost, whether an encoder is too fast in this window, whether this window has seen an invalid source, the valid windows in a
row, the windows over RATE_MAX in a row, the time of the last source count, and the start of the window. -/
structure ReelCh where
  frac     : Nat := 0
  half     : Nat := 0
  units    : Nat := 0
  illegalA : Nat := 0
  illegalB : Nat := 0
  lossWin  : Bool := false
  edgeOver : Bool := false
  bad      : Bool := false
  validRun : Nat := 0
  overRun  : Nat := 0
  last     : Nat := 0
  opened   : Nat := 0
  deriving DecidableEq, Repr

/-- The zero-crossing input (R63): whether it ever accepted a crossing, when it last did, and whether it is lost. -/
structure ZeroCross where
  any  : Bool := false
  last : Nat := 0
  lost : Bool := false
  deriving DecidableEq, Repr

/-! ## 04 Sensor intake -/

/-- A position tag (R86): the tag channel's position, the channel, and the DR and STALE flags at capture. -/
structure Tag where
  pos   : Nat := 0
  ch    : Nat := 0
  dr    : Bool := false
  stale : Bool := false
  deriving DecidableEq, Repr

/-- A camera frame being received (R95, R96). -/
structure OpenFrame where
  buf     : Nat
  tag     : Tag
  trig    : Bool
  lines   : Nat := 0
  dt      : Nat := 0
  lineErr : Bool := false
  short   : Bool := false
  long    : Bool := false
  deriving DecidableEq, Repr

/-- A completed frame of a camera's lookback (R109, R110). -/
structure DoneFrame where
  buf    : Nat
  tag    : Tag
  seq    : Word
  stride : Nat
  dt     : Nat
  marked : Bool := false
  deriving DecidableEq, Repr

/-- An EVENTS record of an event channel's lookback (R109, R110): its offset, its bytes in the buffer and its SEQ. -/
structure EvtRec where
  off : Nat
  len : Nat
  seq : Word
  deriving DecidableEq, Repr

/-- What a stream channel keeps beside its registers: the losses not written yet, the records since the last notification,
the camera's open frame, whether the frame under way was discarded, its newest completed frames, its trigger with the start
of the pulse, the open event record with its flags and whether words were discarded since its last word, the event records
still in the buffer, the read, the held request and the push of the sampled kinds, when the last record was written, and the notifications (SEQ and
offset) that wait until their records are visible. -/
structure Chan where
  gaps    : List (Nat × Nat) := []
  since   : Nat := 0
  frame   : Option OpenFrame := none
  skip    : Bool := false
  done    : List DoneFrame := []
  trig    : Option Tag := none
  trigOn  : Option Nat := none
  words   : List (BitVec 64) := []
  tag     : Tag := {}
  opened  : Nat := 0
  eflags  : Nat := 0
  lost    : Bool := false
  recs    : List EvtRec := []
  busy    : Bool := false
  edge    : Bool := false
  readTag : Tag := {}
  period  : Nat := 0
  push    : Option (Nat × Nat × Nat) := none
  wroteAt : Nat := 0
  owed    : List (Word × Nat) := []
  dt      : Option Nat := none
  deriving DecidableEq, Repr

/-- A lookback snapshot of one handoff slot (R21, R110): the frame buffers of each camera, the event records of each event
channel (channel, Skein address, bytes), and the audio lookback, none of which changes until the slot is released; and the
addresses of its frames that are SHORT or have a LINE_ERR (R212). -/
structure Snapshot where
  bufs  : List (Nat × Nat) := []
  marks : List Nat := []
  evts  : List (Nat × Nat × Nat) := []
  audio : Bool := false
  deriving DecidableEq, Repr

/-- The AER port (R102, R103): the first beat of a word, when ACK last rose for a request that has not been seen to fall, and
whether a stuck request waits to fall. -/
structure Aer where
  beat0 : Option Nat := none
  ackAt : Option Nat := none
  stuck : Bool := false
  deriving DecidableEq, Repr

/-- The I3C controller (R104): the software transfer under way, one that waits for a channel transfer, and the data FIFO. -/
structure I3c where
  cur   : Option Word := none
  queue : Option Word := none
  fifo  : List Byte := []
  deriving DecidableEq, Repr

/-! ## 06 Cliff watch and pack supervisor -/

/-- A cliff channel beside its registers (R132, R134, R137, R140, R145): its pending request with what asked for it, when its
last check started, whether it completed a check since its enable, the last trip and the last HOLD entry, that check's
RESULT, and the current of the next check. -/
structure CliffCh where
  pending : Bool := false
  guarded : Bool := false
  retry   : Bool := false
  started : Nat := 0
  checked : Bool := false
  result  : Nat := 0
  untr    : Bool := false
  iUse    : Nat := 200
  deriving DecidableEq, Repr

/-- The check in its slot (R133, R142, R158): its channel, its request, the configuration it runs under, latched at its start, and
the tag of its first sample (R87). -/
structure CliffRun where
  ch      : Nat
  guarded : Bool
  retry   : Bool
  iUse    : Nat
  cfg     : Word := 0
  thr     : Word := 0
  ambMax  : Word := 0
  headMin : Word := 0
  tag     : Tag := {}
  deriving DecidableEq, Repr

/-- The pack supervisor beside its registers (R153–R156): the PACK_PRES pin with the time of its last change, the time from
which it has been accepted as present, the words read so far in the poll in progress with its start, the complete polls in
a row since the lockout's presence began, and the Voltage of the last complete poll. -/
structure PackSup where
  pin      : Bool := false
  pinAt    : Nat := 0
  presAt   : Nat := 0
  reading  : Option (List Nat) := none
  pollAt   : Nat := 0
  polls    : Nat := 0
  volt     : Option Nat := none
  deriving DecidableEq, Repr

/-! ## 07 Whorl -/

/-- What waits at a Whorl core's input, in arrival order (R168, R177): an input event with its VALUE, or a tick. -/
inductive WItem where
  | event (input : Nat) (value : Int)
  | tick (group : Nat)
  deriving DecidableEq, Repr

/-- A packet on the event mesh (R159, R161): the destination that travels in its header, and the graded event word. -/
structure WPacket where
  core  : Nat
  input : Nat
  word  : Word
  deriving DecidableEq, Repr

/-- A Whorl core beside its registers (R165, R177): its input queue with the ticks between the events, the groups of the
ticks held since its window opened (TICK_HELD), and when the window opened. -/
structure WCore where
  inbox  : List WItem := []
  held   : List Nat := []
  opened : Nat := 0
  deriving DecidableEq, Repr

/-- A wake-storm limiter beside its registers (R175, R409): the times of the requests passed in its window and of the last
request. -/
structure Storm where
  passed : List Nat := []
  last   : Nat := 0
  deriving DecidableEq, Repr

/-- A wake request on its way to Shuttle (R174): TRIG_SRC (the core and neuron), the score, the Flyer stream, TRIG_KIND, and
the position of REEL_CH at the firing; with the firing's time (R19). -/
structure WakeReq where
  src      : Nat
  score    : Nat
  stream   : Nat
  kind     : Nat
  reelCh   : Nat
  pos      : Nat
  at_      : Nat
  deriving DecidableEq, Repr

/-! ## 05 The listening path -/

/-- A microphone's open record (R118, R119, R128): its samples as written, its tag, the grid period of the first sample, and
whether a sample saturated. -/
structure MicRec where
  samples : List Int := []
  tag     : Tag := {}
  period  : Nat := 0
  clip    : Bool := false
  deriving DecidableEq, Repr

/-- The decimation path of a microphone (R115–R117): the newest inputs of the CIC and of each filter stage, newest first, the phases of
the decimating stages, and the high-pass filter's last input and output. -/
structure MicPath where
  pdm   : List Int := []
  hb1   : List Int := []
  hb2   : List Int := []
  comp  : List Int := []
  third : List Int := []
  hb3   : List Int := []
  odd   : Bool := false
  hpX   : Int := 0
  hpY   : Int := 0
  deriving DecidableEq, Repr

/-- One section of a band filter (R123): its two last inputs and outputs, 32 bits each. -/
structure Biquad where
  x1 : Int := 0
  x2 : Int := 0
  y1 : Int := 0
  y2 : Int := 0
  deriving DecidableEq, Repr

/-- One band of the filterbank (R123). -/
structure Band where
  s1   : Biquad := {}
  s2   : Biquad := {}
  env  : Int := 0
  last : Int := 0
  deriving DecidableEq, Repr

/-- The microphone front end beside its registers (R115–R128): which clock runs (0 none, 1 listening, 2 active) and whether it has
just been switched, AUTO_ON_ESC as it acts, the decimation paths, the settle periods left, the grid periods since READY, those of the
open record with its mode, largest magnitude and records, when TO_ACTIVE began, the quiet records in a row, the filterbank's periods
and bands, and the lookback: the next frame, the frames held, the frames written, the record that each run of frames belongs to (its
first frame, and its SEQ once it is written), whether writing has been stopped, and the period of the newest frame. -/
structure Mic where
  clk     : Nat := 0
  fresh   : Bool := false
  auto    : Bool := false
  paths   : Sparse MicPath := []
  settle  : Nat := 0
  periods : Nat := 0
  len     : Nat := 0
  active  : Bool := false
  settled : Bool := false
  peak    : Nat := 0
  recs    : Sparse MicRec := []
  toAt    : Nat := 0
  quiet   : Nat := 0
  frame   : Nat := 0
  bands   : Sparse Band := []
  lbPos   : Nat := 0
  lbHeld  : Nat := 0
  lbTotal : Nat := 0
  lbSeqs  : List (Nat × Option Nat) := []
  lbStop  : Bool := false
  lbLast  : Nat := 0
  deriving DecidableEq, Repr

/-! ## 18 Clocks -/

/-- The clocks beside their registers (R413–R425): the oscillator and PLL that AUTO started, the front end's request for
PLL1, the target of a root switch, the input each mux passes with the start of its switch, the start of the holdover, and
since when RCV has been good. -/
structure Clk where
  xtaAuto  : Bool := false
  pll0Auto : Bool := false
  pll1Req  : Bool := false
  target   : Option Nat := none
  aonSel   : Bool := false
  aonAt    : Nat := 0
  rcvSel   : Bool := false
  rcvAt    : Nat := 0
  holdAt   : Option Nat := none
  rcvGood  : Option Nat := none
  deriving DecidableEq, Repr

/-! ## 08 Flyer -/

/-- What is known of a step that is processed and not scored yet (R185, R190, R191): the SEQ of its first capture, if the
capture is a record's, and its GAP and NAN flags. -/
structure StepInfo where
  seq : Option Word
  gap : Bool
  nan : Bool
  deriving DecidableEq, Repr

/-- A Flyer stream beside its table entry (R181–R197): its start task, the lanes of its group, the model's header, weight block and op
list as read at the start, where it reads its channel (record offset, captures taken of that record), the lookback frames still
to read (next frame, frames left) with the grid period after which live samples begin, the buffers that steps were fed from
(address, captures left), the steps processed and scored, the steps processed and not scored, the chunk in progress (steps to
process, steps to score), its scores while its writes are not visible yet, the most steps ever seen with the time, the status of the end asked for, whether it ends once its
handoff record is written, and the escalating score (with its step's SEQ and its time) that waits for a handoff slot. -/
structure FStream where
  task   : Option Nat := none
  lanes  : Nat := 0
  gated  : Bool := false
  layers : Nat := 1
  head   : Nat := 0
  dim    : Nat := 64
  weights : Nat := 0
  ops    : List Word := []
  off    : Nat := 0
  used   : Nat := 0
  lbNext : Nat := 0
  lbLeft : Nat := 0
  after  : Option Nat := none
  fed    : List (Nat × Nat) := []
  taken  : Nat := 0
  scored : Nat := 0
  infos  : List StepInfo := []
  chunk  : Option (Nat × Nat) := none
  due    : Option (List (Nat × Option Word)) := none
  seen   : Nat := 0
  seenAt : Nat := 0
  status : Nat := 0
  stop   : Bool := false
  hold   : Option (Nat × Option Word × Nat) := none
  deriving DecidableEq, Repr

/-! ## 09 Loom -/

/-- A forwarded tensor (R206): the tiles that produced it and its bytes. -/
structure Fwd where
  tiles : Nat
  data  : List Byte
  deriving DecidableEq, Repr

/-- Loom's task in service (R201, R205, R216): its slot, whether its list is fetched, the commands completed, the LAYER of the
command in service, the tiles and Carder engines its commands name, the data forwarded to the next command, and, while writes of a
command that has run are not visible on another device, its LAST flag and what it forwards. -/
structure LoomRun where
  slot    : Option Nat := none
  started : Bool := false
  cmd     : Nat := 0
  layer   : Option Nat := none
  tiles   : Nat := 0
  cards   : Nat := 0
  fwd     : Option Fwd := none
  drain   : Option (Bool × Option Fwd) := none
  deriving DecidableEq, Repr

/-! ## 12 Skein -/

/-- A placement entry (R269) with what the loops of R271 and R276 keep beside it: the frame, the shadow, the last access,
and the accesses of the current 100 µs interval. -/
structure Place where
  tier     : Nat := 7
  best     : Nat := 3
  worst    : Nat := 4
  fix      : Nat := 0
  pin      : Bool := false
  trap     : Bool := false
  tile     : Nat := 0
  anyTile  : Bool := false
  clean    : Bool := false
  ndev     : Nat := 0
  frame    : Nat := 0
  allWritten : Bool := false
  lostAll  : Nat := 0
  last     : Nat := 0
  hits     : Nat := 0
  interval : Nat := 0
  deriving DecidableEq, Repr

/-- What asks for a migration (R274): a reclaim, a prefetch schedule, or adaptation. -/
inductive MigPrio where
  | reclaim
  | prefetch
  | adapt
  deriving DecidableEq, Repr

/-- A queued migration of one page (R273, R274): where to, what asks for it, whether a task or a Loom command waits on the page,
and the prefetch slot and LAYER that asked for it. -/
structure Migration where
  page  : Nat
  dest  : Nat
  tile  : Nat := 0
  prio  : MigPrio
  demand : Bool := false
  slot  : Option Nat := none
  layer : Nat := 0
  svc   : Bool := false
  deriving DecidableEq, Repr

/-- A write held until its page's migration switches (R273) or the placed range can be reached (R267). -/
structure HeldWrite where
  who  : MemAgent
  addr : Nat
  data : List Byte
  deriving DecidableEq, Repr

/-- An access to the placed range that waits until the range can be reached (R267, R394): a read of `len` bytes, or a write. -/
structure WaitAccess where
  who   : MemAgent
  addr  : Nat
  len   : Nat := 0
  data  : Option (List Byte) := none
  found : EccFind := .clean
  since : Nat := 0
  deriving DecidableEq, Repr

/-- A prefetch slot (R279): whether it runs, whether its header is read, and its next layer entry of how many. -/
structure PfSlot where
  run     : Bool := false
  head    : Bool := false
  next    : Nat := 0
  layers  : Nat := 0
  deriving DecidableEq, Repr

/-- What the placement command in progress answers when it is done (R277): RESULT and DONE. -/
structure Plc where
  result : Nat := 0
  done   : Nat := 0
  deriving DecidableEq, Repr

/-! ## 13 Shuttle -/

/-- The states of a task (R298). ELIGIBLE is passed through in one step. -/
inductive TaskSt where
  | delayed
  | flowWait
  | ready
  | dispatched
  | retired
  deriving DecidableEq, Repr

/-- Who submitted a task (R331): an agent, or a hardware producer (R295). -/
inductive Submitter where
  | agent (a : Agent)
  | hardware
  deriving DecidableEq, Repr

/-- A task slot (R290–R298): the descriptor's words, the task's ring and SEQ, its state with the order in which it
entered it, its completion, an abort under way (whether a write of ABORT asked for it, whether TASK_TMO did), the TASK_TMO that holds
for it, and, while a move's writes are not visible on another device, the status, bytes and flags it retires with. -/
structure Task where
  ring     : Nat
  seq      : Word
  words    : List Word
  by_      : Submitter
  st       : TaskSt
  order    : Nat
  start    : Nat := 0
  status   : Nat := 0
  progress : Nat := 0
  cflags   : Nat := 0
  unit     : Nat := 0xFF
  abort    : Bool := false
  asked    : Bool := false
  tmo      : Bool := false
  limit    : Nat := 0
  voted    : List Nat := []
  bad      : Bool := false
  esc      : Option Nat := none
  moved    : Option (Nat × Nat × Nat) := none
  deriving DecidableEq, Repr

/-- A domain that an open record stops (R328, R329): a fenced ring or a flow kept busy, with the record's ESEQ. -/
structure Hold where
  ring : Bool
  idx  : Nat
  eseq : Nat
  deriving DecidableEq, Repr

/-- A batch being fetched (R292). -/
structure Batch where
  agent : Agent
  ring  : Nat
  addr  : Nat
  count : Nat
  deriving DecidableEq, Repr

/-- A trace record (R311). -/
structure TraceRec where
  w0 : Word := 0
  w1 : Word := 0
  w2 : Word := 0
  w3 : Word := 0
  deriving DecidableEq, Repr

/-! ## 14 Error log -/

/-- The state of a log entry (R321). -/
inductive RecState where
  | free
  | opened
  | closed
  deriving DecidableEq, Repr

/-- The severities of R318 and R321. -/
inductive Severity where
  | corrected
  | contained
  | device
  | safety
  deriving DecidableEq, Repr

/-- The ordering domain a record names (R321). -/
inductive Domain where
  | none
  | ring (n : Nat)
  | port (n : Nat)
  | neighbour (n : Nat)
  | region (n : Nat)
  | page (n : Nat)
  deriving DecidableEq, Repr

/-- One entry of the error log (R321). -/
structure LogEntry where
  eseq      : Nat := 0
  sev       : Severity := .corrected
  st        : RecState := .free
  nested    : Bool := false
  escalated : Bool := false
  origSev   : Severity := .corrected
  dom       : Domain := .none
  flow      : Option Nat := none
  srcPage   : Nat := 0
  srcBit    : Nat := 0
  status    : Nat := 0
  taskSeq   : Word := 0
  addr      : Nat := 0
  ring      : Nat := 0
  unit      : Nat := 0
  time      : Word := 0
  nestCnt   : Nat := 0
  deriving DecidableEq, Repr

/-! ## 15 Spindle cores -/

/-- What a core does at the next boundary (R360 CSTATE). -/
inductive CoreState where
  | run
  | wfi
  | twait
  | dbgHalt
  | stopped
  deriving DecidableEq, Repr

/-- A branch whose delay slot is the next instruction (R344): the branch's address and where it goes after the slot. -/
structure Slot where
  branch : Word
  target : Word
  deriving DecidableEq, Repr

/-- An MSET whose shadow is running (R343): its address, the MODE it computed, whether it clears SATF, and the shadow
instructions still to run. -/
structure Shadow where
  mset : Word
  mode : Nat
  clr  : Bool := false
  left : Nat
  deriving DecidableEq, Repr

/-- A TDONE waiting for the core's stores (R348): the status and progress it gives. -/
structure Done where
  status   : Nat
  progress : Nat
  deriving DecidableEq, Repr

/-- One Spindle core (R337–R360): its registers, where it is in a delay slot, a shadow or a loop, its task, and its debug
state: whether a step is under way, whether the next instruction passes a breakpoint after a RESUME, whether a watchpoint was
hit, and where and why it halted. -/
structure Core where
  g       : Sparse Word := []
  pc      : Word := 0
  mode    : Nat := 0
  eflags  : Nat := 0
  epc     : Word := 0
  ecause  : Nat := 0
  ebad    : Word := 0
  evec    : Word := 0
  escr    : Word := 0
  ls0     : Word := 0
  le0     : Word := 0
  lc0     : Word := 0
  ls1     : Word := 0
  le1     : Word := 0
  lc1     : Word := 0
  intEn   : Nat := 0
  intPend : Nat := 0
  cyc     : Word := 0
  win     : Sparse Word := []
  tcmp    : Word := 0
  tcmpOn  : Bool := false
  st      : CoreState := .stopped
  slot    : Option Slot := none
  shadow  : Option Shadow := none
  task    : Option Nat := none
  abort   : Bool := false
  done    : Option Done := none
  voteInt : Bool := false
  voteWake : Bool := false
  step    : Bool := false
  passBp  : Bool := false
  hit     : Bool := false
  dpc     : Word := 0
  dbd     : Bool := false
  dsh     : Bool := false
  reason  : Nat := 0
  deriving DecidableEq, Repr

/-- Core n at reset: S0 runs the boot ROM at its RESET_PC, the others are held in reset (R359). -/
def Core.atReset (n : Nat) : Core := if n = 0 then { st := .run, pc := 0x08000000, mode := 1 } else {}

/-! ## 17 Power -/

/-- The state of a power region (R391, RSTAT.STATE). -/
inductive RegSt where
  | run
  | idle
  | sleep
  | deep
  | off
  | retired
  | entering
  | waking
  deriving DecidableEq, Repr

/-- A two-phase entry in progress (R395–R399): the state to reach, the state left, the blocks that acknowledged in
order, and whether phase 2 has begun. -/
structure Entry where
  target : RegSt
  former : RegSt
  acked  : List Nat := []
  phase2 : Bool := false
  start  : Nat := 0
  offReq : Bool := false
  deriving DecidableEq, Repr

/-- A wake in progress (R400–R403): the step under way (0 regulator to 3 logic), the state left, and when it began. -/
structure Wake where
  step   : Nat := 0
  former : RegSt
  start  : Nat := 0
  stepAt : Nat := 0
  early  : Bool := false
  deriving DecidableEq, Repr

/-- One region and its regulator (R381–R404): its state, the live phases, CRACK, the AVS target in mV, the retries of the entry
under way and whether the attempt after the hold-off is one of them, the entry or wake in progress, the hold-off's end, the last
target, whether the entry failed, the wake timeouts in a row, the blocks left gated, and those that a rollback ungates with its
time. -/
structure Region where
  st       : RegSt
  phases   : Nat := 0xFF
  crack    : Bool := false
  mv       : Nat := 750
  retries  : Nat := 0
  again    : Bool := false
  entry    : Option Entry := none
  wake     : Option Wake := none
  holdoff  : Option Nat := none
  lastTarget : Nat := 0
  failed   : Bool := false
  timeouts : Nat := 0
  gated    : List Nat := []
  ungating : List Nat := []
  ungateAt : Nat := 0
  deriving DecidableEq, Repr

/-- The state of region r at reset: RUN where its NOVOTE code is RUN, DEEP otherwise (R393). -/
def Region.atReset (r : Nat) : Region :=
  { st := if (68 ≤ r && r ≤ 76) || 80 ≤ r then .run else .deep }

/-- Where the board's supplies stand (R379, R380, R406, R407): all up; in OFF, with SYS_PWR_EN low; waking from OFF, with
SYS_PWR_EN high and the rails rising; below the VSTBY threshold. -/
inductive PowerSt where
  | on
  | off
  | waking
  | brownedOut
  deriving DecidableEq, Repr

/-! ## 20 Boot -/

/-- What the board gives the device: the strap pins (R456: BOOT_SEL in [1:0], PLIM in [6:4]), the flash's size and its read mode
(R465). -/
structure Board where
  straps    : BitVec 7 := 0
  flashSize : Nat := 0x2000000
  flashMode : Word := 0
  deriving DecidableEq, Repr

/-- A flash operation in progress (20, page 0x004): its OP, flash offset, length and Skein buffer. -/
structure FlashOp where
  op   : Nat
  addr : Nat
  len  : Nat
  buf  : Nat
  deriving DecidableEq, Repr

/-- The debug port's current instruction (R478); EXTEST with the cells it drives. -/
inductive JtagIr where
  | bypass
  | idcode
  | sample
  | extest (cells : Word)
  | coreDbg (core : Nat)
  | regAccess
  deriving DecidableEq, Repr

/-! ## 19 Kakan links -/

/-- One Kakan link (R437–R440): the packets waiting, the transmitter's next sequence number with the packets sent and not
acknowledged, the number of the flit that failed with how often it did, the receiver's expected number, the credits held for
each virtual channel, the last epoch received and the last one sent (R451), and when the link entered its state. -/
structure KLink where
  queue   : List KPacket := []
  txSeq   : Nat := 0
  unacked : List (Nat × KPacket) := []
  failed  : Option (Nat × Nat) := none
  rxSeq   : Nat := 0
  credits : List Nat := [256, 256, 256]
  epoch   : Option Nat := none
  epochTx : Option Nat := none
  since   : Nat := 0
  deriving DecidableEq, Repr

/-- A remote request without its response yet (R446, R449). -/
structure Remote where
  tag   : Nat
  read  : Bool
  who   : MemAgent
  addr  : Nat
  len   : Nat
  sent  : Nat
  deriving DecidableEq, Repr

/-! ## The device -/

/-- Everything but the queue, the fuses and the halt unit. -/
structure Dev where
  pkg      : Package := .rm
  now      : Nat := 0
  aonFrac  : Nat := 0
  latLast  : Option Nat := none
  free     : Nat := 0
  bus      : Completion := .done
  regs     : Sparse Word := []
  latched  : Sparse (Option Word) := []
  staged   : Sparse Word := []
  released : List (Port × Nat) := []
  -- 01
  episodes : Sparse Episode := []
  escs     : List Escalation := []
  wakes    : List WakeReq := []
  hoSeq    : Nat := 0
  -- 03
  encoders : Sparse Encoder := []
  reels    : Sparse ReelCh := []
  zc       : ZeroCross := {}
  armed    : Sparse Nat := []
  -- 04
  chans    : Sparse Chan := []
  snaps    : Sparse (Option Snapshot) := []
  aer      : Aer := {}
  i3c      : I3c := {}
  -- 05
  mic      : Mic := {}
  -- 06
  cliffs   : Sparse CliffCh := []
  cliffRun : Option CliffRun := none
  roundAt  : Option Nat := none
  packSup  : PackSup := {}
  thermIn  : Bool := false
  -- 07
  wcores   : Sparse WCore := []
  mesh     : List WPacket := []
  storms   : Sparse Storm := []
  -- 08
  streams  : Sparse FStream := []
  -- 09
  loom     : LoomRun := {}
  -- 10
  kvScan   : Bool := false
  -- 12
  mem      : Sparse Byte := []
  written  : Sparse Bool := []
  poison   : Sparse Nat := []
  places   : Sparse Place := []
  migs     : List Migration := []
  held     : List HeldWrite := []
  pf       : Sparse PfSlot := []
  plc      : Option Plc := none
  hbmReady : Bool := false
  accesses : Nat := 0
  demand   : Bool := false
  waits    : List WaitAccess := []
  reclaims : List Nat := []
  nbAt     : Sparse (Option Nat) := []
  nbBack   : List Nat := []
  -- 13
  tasks    : Sparse (Option Task) := []
  orders   : Nat := 0
  holds    : List Hold := []
  batches  : List Batch := []
  phase    : Sparse Bool := []
  trace    : Sparse TraceRec := []
  traceOff : Bool := false
  -- 14
  log      : Sparse LogEntry := []
  -- 15
  cores    : Sparse Core := []
  -- 17
  regions  : Sparse Region := []
  power    : PowerSt := .on
  offReq   : Bool := false
  drops    : Sparse Nat := []
  throttle : Bool := false
  capAt    : Nat := 0
  fWant    : Option Nat := none
  wakeN    : Storm := {}
  sio      : Nat := 0
  -- 18
  clk      : Clk := {}
  -- 19
  msix     : Sparse Word := []
  pba      : Sparse Bool := []
  unmasked : Sparse Bool := []
  sent     : Option (Port × Nat) := none
  links    : Sparse KLink := []
  remotes  : List Remote := []
  nextTag  : Nat := 0
  -- 20
  board    : Board := {}
  flash    : Sparse Byte := []
  flashOp  : Option FlashOp := none
  commit   : Option (List Byte) := none
  wdtAt    : Nat := 0
  unlock   : Option (List Byte) := none
  unlockAt : Option Nat := none
  fuseOp   : Option (Nat × Nat) := none
  jtag     : JtagIr := .idcode
  deriving DecidableEq, Repr

/-! ## 06 The halt unit -/

/-- The states of the halt unit (R144). -/
inductive HaltSt where
  | safe
  | armed
  | hold
  | tripped
  deriving DecidableEq, Repr

/-- The halt unit (R144–R151), which drives the motor enables and the brake releases: its state with the last trip's cause
and channel, OUT_CMD, the six output pins, their readbacks and stuck bits with the time each output last changed, the last
accepted heartbeat with its time, and when HOLD began. -/
structure Halt where
  st      : HaltSt := .safe
  cause   : Nat := 0
  ch      : Nat := 0
  cmd     : BitVec 6 := 0
  pins    : BitVec 6 := 0
  fb      : BitVec 6 := 0
  stuck   : BitVec 6 := 0
  changed : Sparse Nat := []
  hb      : Nat := 0
  hbFresh : Bool := true
  hbAt    : Nat := 0
  holdAt  : Nat := 0
  deriving DecidableEq, Repr

/-! ## 20 Fuses -/

/-- The fuses (R463, R464), which nothing unprograms: the identity, the SVN thermometer, the four key hashes (byte i of hash k at
48k + i), the revoked slots, DEBUG_OPEN, and whether their CRC holds (R457). PACKAGE is `Dev.pkg`. -/
structure Fuses where
  lot       : BitVec 42 := 0
  wafer     : BitVec 5 := 0
  dieX      : BitVec 8 := 0
  dieY      : BitVec 8 := 0
  bin       : BitVec 4 := 0
  speed     : BitVec 4 := 0
  uid       : BitVec 64 := 0
  svn       : BitVec 127 := 0
  keyHash   : Sparse Byte := []
  revoke    : BitVec 4 := 0
  debugOpen : Bool := false
  crcOk     : Bool := true
  deriving DecidableEq, Repr

/-- The machine. -/
structure State where
  pending : List Instr
  fuses   : Fuses
  halt    : Halt
  dev     : Dev
  deriving DecidableEq, Repr

/-- The device right after reset (R37, R359, R393): every register at its reset value, page 0x140 READY with EN = 1, core
S0 at RESET_PC, no memory listed, no command waiting. -/
def State.reset : State :=
  { pending := []
    fuses := {}
    halt := {}
    dev := {} }

end Sys2Proof.Machine
end

