-- ==== Sys2Proof/Machine/Ops.lean ====
section
/-!
DEFINITION. The operations every block uses: reading and writing a register and its fields, counters, free values, the
agents' identities and claims, page states, the votes of a region and what a change of target starts, interrupts of the
cores, messages of the ports, error bits and page error events, and the error log.
-/
namespace Sys2Proof.Machine

/-! ## Registers -/

namespace Dev

/-- The register at offset `off` of page `p`. -/
def reg (d : Dev) (p off : Nat) : Word := Sparse.get (regDefault d.pkg) d.regs (p * 4096 + off)

/-- The device with register `off` of page `p` holding `v`. -/
def setReg (d : Dev) (p off : Nat) (v : Word) : Dev :=
  { d with regs := Sparse.put (regDefault d.pkg) d.regs (p * 4096 + off) v }

/-- A bit field of a register. -/
def field (d : Dev) (p off hi lo : Nat) : Nat := bits (d.reg p off) hi lo

/-- One bit of a register. -/
def flag (d : Dev) (p off i : Nat) : Bool := bit (d.reg p off) i

/-- A bit field of a register set to `v`. -/
def setField (d : Dev) (p off hi lo v : Nat) : Dev := d.setReg p off (putBits (d.reg p off) hi lo v)

/-- One bit of a register set or cleared. -/
def setFlag (d : Dev) (p off i : Nat) (v : Bool) : Dev := d.setReg p off (putBit (d.reg p off) i v)

/-- A counter of the register tables advanced by `n`, saturating at 0xFFFF_FFFF. -/
def count (d : Dev) (p off : Nat) (n : Nat := 1) : Dev := d.setReg p off (satAdd (d.reg p off) n)

/-- The 48-bit value of the pair at `off` (R34). -/
def pair48 (d : Dev) (p off : Nat) : Nat := (d.reg p off).toNat + d.field p (off + 4) 15 0 * 2 ^ 32

/-- The pair at `off` set to a 48-bit value. -/
def setPair48 (d : Dev) (p off v : Nat) : Dev :=
  (d.setReg p off (BitVec.ofNat 32 v)).setReg p (off + 4) (BitVec.ofNat 32 (v / 2 ^ 32 % 2 ^ 16))

/-- A value the spec leaves open, and the device with the next one due. -/
def fresh (d : Dev) : Nat × Dev := (Config.freeValue d.free, { d with free := d.free + 1 })

/-- What the next access's agent sees. -/
def answer (d : Dev) (c : Completion) : Dev := { d with bus := c }

end Dev

/-- Applies an operation at every number of a list, in order. -/
def forEach (l : List Nat) (f : Nat → Dev → Dev) (d : Dev) : Dev := l.foldl (fun d n => f n d) d

/-- `f` where `c` holds, nothing elsewhere. -/
def onlyIf (c : Bool) (f : Dev → Dev) (d : Dev) : Dev := if c then f d else d

end Sys2Proof.Machine

namespace Sys2Proof

/-! ## Agents and claims -/

/-- The code of an agent in OWNER.HOLDER (R57). -/
def Agent.code : Agent → Nat
  | .portA => 1
  | .portB => 2
  | .spindle _ => 3

/-- The core field of an agent (R57). -/
def Agent.core : Agent → Nat
  | .spindle n => n.val
  | _ => 0

/-- A number for each agent, in the order of R46. -/
def Agent.index : Agent → Nat
  | .portA => 0
  | .portB => 1
  | .spindle n => 2 + n.val

/-- A port's number: 0 for A, 1 for B. -/
def Port.index : Port → Nat
  | .a => 0
  | .b => 1

/-- The port's register page (R42). -/
def Port.page (p : Port) : Nat := 0x150 + p.index

/-- A word that names an agent (R57): HOLDER in the two bits from `lo` up, CORE in [15:12]. -/
def Agent.put (a : Agent) (w : Word) (lo : Nat) : Word := putBits (putBits w (lo + 1) lo a.code) 15 12 a.core

end Sys2Proof

namespace Sys2Proof.Machine

namespace Dev

/-- Whether an agent holds the claim of a page (R47). -/
def claimedBy (d : Dev) (a : Agent) (p : Nat) : Bool :=
  d.field p 0x024 9 8 == a.code && d.field p 0x024 15 12 == a.core

/-- The claim of a page cleared (R47). -/
def unclaim (d : Dev) (p : Nat) : Dev := (d.setField p 0x024 9 8 0).setField p 0x024 15 12 0

/-! ## Page states -/

/-- STATUS.STATE of a page (R37): 0 OFF, 1 READY, 2 ACTIVE, 3 DRAINING, 4 DISABLED, 5 FAULT, 6 ABSENT. -/
def pageState (d : Dev) (p : Nat) : Nat := d.field p 0x010 3 0

def setPageState (d : Dev) (p v : Nat) : Dev := d.setField p 0x010 3 0 v

/-- Whether a page is READY or ACTIVE: its block accepts work. -/
def running (d : Dev) (p : Nat) : Bool := d.pageState p == 1 || d.pageState p == 2

/-- Whether a page is OFF or DISABLED. -/
def idlePage (d : Dev) (p : Nat) : Bool := d.pageState p == 0 || d.pageState p == 4

/-- CTRL.FRZ of a page (R41). -/
def frozen (d : Dev) (p : Nat) : Bool := d.flag p 0x00C 2

/-- A counter that FRZ holds (R41). -/
def countFrz (d : Dev) (p off : Nat) (n : Nat := 1) : Dev := if d.frozen p then d else d.count p off n

/-- Whether page `p` is ABSENT on this package (R2, R43). -/
def absentPage (d : Dev) (p : Nat) : Bool := absent d.pkg p

/-- The read-only registers that are no counter, pointer or occupancy, which DISABLED leaves as they are (R38): the GUARD set
(R139), the latest readings of the cliff watch and the pack supervisor, the link state and equaliser of a Kakan page, the front
end's gain and stuck inputs, the last faults, refused writes, aborts and exceptions, ORPHANED (R332), the lent tiles, and the last
latency. -/
def keptStatus (k : PageKind) (off : Nat) : Bool :=
  match k with
  | .cliff => off == 0x140 || off == 0x158 || (off < 0x140 && (off % 0x20 == 0x08 || off % 0x20 == 0x0C))
  | .pack => off < 0x060
  | .kakan _ => off == 0x040 || off == 0x048
  | .mic => off == 0x04C || off == 0x064
  | .ring _ => 0x080 ≤ off && off ≤ 0x088
  | .core => off == 0x04C || off == 0x050
  | .flyer => off == 0x060
  | .loom => 0x0D0 ≤ off && off ≤ 0x0D4 || off == 0x0E4 || off == 0x0E8
  | .esc => off == 0x084
  | .whorlCommon => off == 0x04C || off == 0x050
  | _ => false

/-- The registers among them that SRST leaves too, since they show what is no state of the block (R39): the GUARD set (R139), the link
and its equaliser, ORPHANED, and the lent tiles; the pack's status is cleared with its block. -/
def srstKept (k : PageKind) (off : Nat) : Bool :=
  match k with
  | .cliff => off == 0x140
  | .pack => off == 0x048
  | .kakan _ => off == 0x040 || off == 0x048
  | .ring _ => off == 0x088
  | .loom => 0x0D0 ≤ off && off ≤ 0x0D4
  | _ => false

/-- A register that no agent writes. -/
def readOnly (p off : Nat) : Bool :=
  match regRow (pageKind p) off with
  | some r => r.rw == 0 && r.rwl == 0 && r.w1c == 0
  | none => false

/-- The read-only registers of page p back at their reset values, but for the kept ones. -/
def resetRegs (d : Dev) (p : Nat) (kept : PageKind → Nat → Bool) : Dev :=
  { d with regs := Sparse.forget d.regs fun k =>
      k / 4096 == p && decide (0x040 ≤ k % 4096) && readOnly p (k % 4096) && !kept (pageKind p) (k % 4096) }

/-- The counters, pointers and occupancies of a page back at their reset values (R38). -/
def resetCounters (d : Dev) (p : Nat) : Dev := d.resetRegs p keptStatus

/-- A page's entry to DISABLED (R37, R38): its counters reset; a pending enable stays pending until the page leaves
DISABLED. -/
def disabled (d : Dev) (p : Nat) : Dev := (d.resetCounters p).setPageState p 4

/-! ## The numbered units -/

def core (d : Dev) (n : Nat) : Core := Sparse.get Core.atReset d.cores n
def setCore (d : Dev) (n : Nat) (c : Core) : Dev := { d with cores := Sparse.put Core.atReset d.cores n c }
def region (d : Dev) (r : Nat) : Region := Sparse.get Region.atReset d.regions r
def setRegion (d : Dev) (r : Nat) (x : Region) : Dev := { d with regions := Sparse.put Region.atReset d.regions r x }
def episode (d : Dev) (n : Nat) : Episode := Sparse.get (fun _ => {}) d.episodes n
def setEpisode (d : Dev) (n : Nat) (e : Episode) : Dev := { d with episodes := Sparse.put (fun _ => {}) d.episodes n e }
def chan (d : Dev) (n : Nat) : Chan := Sparse.get (fun _ => {}) d.chans n
def setChan (d : Dev) (n : Nat) (c : Chan) : Dev := { d with chans := Sparse.put (fun _ => {}) d.chans n c }
def cliff (d : Dev) (n : Nat) : CliffCh := Sparse.get (fun _ => {}) d.cliffs n
def setCliff (d : Dev) (n : Nat) (c : CliffCh) : Dev := { d with cliffs := Sparse.put (fun _ => {}) d.cliffs n c }
def encoder (d : Dev) (n : Nat) : Encoder := Sparse.get (fun _ => {}) d.encoders n
def setEncoder (d : Dev) (n : Nat) (e : Encoder) : Dev := { d with encoders := Sparse.put (fun _ => {}) d.encoders n e }
def reel (d : Dev) (n : Nat) : ReelCh := Sparse.get (fun _ => {}) d.reels n
def setReel (d : Dev) (n : Nat) (e : ReelCh) : Dev := { d with reels := Sparse.put (fun _ => {}) d.reels n e }
/-- When MARK n was armed or last fired: its floor timer's start (R78, R79). -/
def armedAt (d : Dev) (n : Nat) : Nat := Sparse.get (fun _ => 0) d.armed n
def setArmed (d : Dev) (n t : Nat) : Dev := { d with armed := Sparse.put (fun _ => 0) d.armed n t }
def task (d : Dev) (n : Nat) : Option Task := Sparse.get (fun _ => none) d.tasks n
def setTask (d : Dev) (n : Nat) (t : Option Task) : Dev := { d with tasks := Sparse.put (fun _ => none) d.tasks n t }

/-- The accepted tasks with their slots. -/
def taskList (d : Dev) : List (Nat × Task) := d.tasks.filterMap fun e => e.2.map fun t => (e.1, t)

end Dev

/-! ## Votes and targets (R392–R404) -/

/-- The region of Spindle core n (R358). -/
def coreRegion (n : Nat) : Nat := 76 + n / 4

/-- The region of Whorl core c: sixteen cores a region (R381). -/
def whorlRegion (c : Nat) : Nat := 68 + c / 16

/-- The register of Whorl core c at offset `o` of its block. -/
def whorlReg (c o : Nat) : Nat × Nat := (0x052 + c / 32, 0x040 + 0x40 * (c % 32) + o)

namespace Dev

/-- Whether Whorl region r holds an enabled core (R178). -/
def whorlEnabled (d : Dev) (r : Nat) : Bool :=
  (List.range 16).any fun i =>
    let c := (r - 68) * 16 + i
    d.flag (whorlReg c 0).1 (whorlReg c 0).2 0

/-- Whether core n holds its region up: a pending interrupt (R358) or WAKE_N (R408). -/
def coreVotes (d : Dev) (r : Nat) : Bool :=
  d.cores.any fun e => coreRegion e.1 == r && (e.2.voteInt || e.2.voteWake)

/-- The votes that the hardware clients place on region r (R394), as vote codes. -/
def hwVotes (d : Dev) (r : Nat) : List Nat :=
  (if r < 64 && d.episodes.any (fun e => e.2.voted) then [1] else []) ++
  (if d.taskList.any (fun e => e.2.voted.contains r) then [1] else []) ++
  (if 68 ≤ r && r < 76 && d.flag 0x050 0x040 0 && d.whorlEnabled r then [1] else []) ++
  (if 76 ≤ r && r < 80 && d.coreVotes r then [1] else []) ++
  (if r < 64 && d.flag (0x080 + r) 0x040 4 then [2] else []) ++
  (if 80 ≤ r && r < 88 && (d.demand || !d.waits.isEmpty || !d.held.isEmpty || !d.migs.isEmpty || d.pf.any fun e => e.2.run && !e.2.head) then [1] else []) ++
  (if (r == 92 && d.flag 0x150 0x040 0) || (r == 93 && d.flag 0x151 0x040 0) then [2] else [])

end Dev

/-- The block pages whose votes count for region r, beside its own page (R392). -/
def votePages (r : Nat) : List Nat :=
  if r < 64 then [0x080 + r, 0x0C0]
  else if r < 68 then [0x060]
  else if r < 76 then [0x050]
  else if r < 80 then [0x0F8]
  else if r < 88 then []
  else if r < 92 then (List.range 24).map (· + 0x020) ++ [0x03A]
  else if r = 92 then [0x150]
  else if r = 93 then [0x151]
  else if r = 94 then [0x158, 0x159]
  else [0x15A, 0x15B]

/-- The regions a page's VOTE counts for (R392). -/
def voteRegions (p : Nat) : List Nat :=
  match pageKind p with
  | .tile => [p - 0x080]
  | .loom => List.range 64
  | .flyer => [64, 65, 66, 67]
  | .whorlCommon => (List.range 8).map (· + 68)
  | .spindles => [76, 77, 78, 79]
  | .stream _ | .mic => [88, 89, 90, 91]
  | .port => [92 + (p - 0x150)]
  | .kakan n => [94 + n / 2]
  | .region r => [r]
  | _ => []

/-- The blocks of a region that answer its quiesce request, by the page each reports as (R395). -/
def regionBlocks (r : Nat) : List Nat :=
  if r < 64 then [0x080 + r]
  else if r < 68 then [0x060, 0x061]
  else if r < 76 then [0x050]
  else if r < 80 then [0x0F8]
  else if r < 88 then [0x0D0]
  else if r < 92 then [0x03A]
  else if r = 92 then [0x150]
  else if r = 93 then [0x151]
  else if r = 94 then [0x158, 0x159]
  else [0x15A, 0x15B]

/-- The lowest nonzero code of a list of votes, 0 where there is none (R393). -/
def shallowest (l : List Nat) : Nat := (l.filter (· ≠ 0)).foldl (fun a v => if a = 0 then v else min a v) 0

namespace Dev

/-- The votes of software that count for region r (R392): one field of each agent class on each page, if VMASK has it. -/
def swVotes (d : Dev) (r : Nat) : List Nat :=
  let vmask := d.field (0x200 + r) 0x040 6 4
  ((0x200 + r) :: votePages r).flatMap fun p =>
    [0, 1, 2].map fun c => if vmask.testBit c then d.field p 0x028 (4 * c + 3) (4 * c) else 0

/-- The target of region r (R393): the lowest nonzero code among its counted votes, else NOVOTE. -/
def target (d : Dev) (r : Nat) : Nat :=
  match shallowest (d.swVotes r ++ d.hwVotes r) with
  | 0 => d.field (0x200 + r) 0x040 2 0
  | v => v

end Dev

/-- The depth code of a state that a region rests in (R393). -/
def RegSt.code : RegSt → Nat
  | .run => 1
  | .idle => 2
  | .sleep => 3
  | .deep => 4
  | _ => 0

/-- The resting state of a depth code. -/
def RegSt.ofCode (c : Nat) : RegSt := if c = 3 then .sleep else .deep

/-- The quadrant of a tile (R199). -/
def quadrant (n : Nat) : Nat := 2 * (n / 8 / 4) + n % 8 / 4

/-- The distance between two numbers. -/
def gap (a b : Nat) : Nat := (a - b) + (b - a)

/-- The Manhattan distance of two tiles. -/
def tileDist (a b : Nat) : Nat := gap (a / 8) (b / 8) + gap (a % 8) (b % 8)

namespace Dev

/-- Whether a region is retired. -/
def retired (d : Dev) (r : Nat) : Bool := (d.region r).st == .retired

/-- The substitute of tile n: the live tile of its quadrant with the lowest distance, lower number first (R220). -/
def substitute (d : Dev) (n : Nat) : Option Nat :=
  ((List.range 64).filter fun m => quadrant m == quadrant n && !d.retired m).foldl (fun (a : Option Nat) m =>
    match a with
    | none => some m
    | some b => if tileDist n m < tileDist n b then some m else a) none

/-- The tile that runs tile n's share. -/
def liveTile (d : Dev) (n : Nat) : Option Nat := if d.retired n then d.substitute n else some n

/-- Tile n runs a share of the Loom task in service: a group of the task's commands names it, or a tile that it stands for (R216, R220). -/
def loomRuns (d : Dev) (n : Nat) : Bool :=
  d.loom.slot.isSome && (List.range 64).any fun m => d.loom.tiles.testBit m && d.liveTile m == some n

/-- Core n executes: it is out of reset and in neither WFI nor TWAIT (R358). -/
def coreBusy (d : Dev) (n : Nat) : Bool :=
  (d.running (0x140 + n) || d.pageState (0x140 + n) == 3) && ((d.core n).st == .run || (d.core n).st == .dbgHalt)

/-- Whether a block of region r has work (R391): its page is ACTIVE, a tile runs a share of a task, or a core executes. -/
def regionBusy (d : Dev) (r : Nat) : Bool :=
  if r < 64 then d.loomRuns r
  else if 76 ≤ r && r < 80 then (List.range 4).any fun i => d.coreBusy (4 * (r - 76) + i)
  else (regionBlocks r).any fun p => d.pageState p == 2

/-- The state of region r (R391): in RUN or IDLE it follows its blocks' work while its target is IDLE, and is RUN while its target is
RUN. -/
def regionNow (d : Dev) (r : Nat) : RegSt :=
  match (d.region r).st with
  | .run | .idle =>
    let t := d.target r
    if t = 1 then .run else if t = 2 then (if d.regionBusy r then .run else .idle) else (d.region r).st
  | s => s

/-- What region r does under its target (R391, R395, R396, R399, R404): a shallower target in phase 1 abandons the entry
and ungates its blocks; a target of SLEEP or DEEP starts phase 1; a shallower target than the state reached starts the
wake. An entry in phase 2 and a wake run on. -/
def settle (d : Dev) (r : Nat) : Dev :=
  let t := d.target r
  let x := d.region r
  let x := if x.lastTarget = t then x else { x with lastTarget := t, failed := false, retries := 0, again := false }
  let start (x : Region) : Dev :=
    d.setRegion r { x with st := .entering, entry := some { target := RegSt.ofCode t, former := x.st, start := d.now } }
  let wake (x : Region) : Dev :=
    d.setRegion r { x with st := .waking, wake := some { former := x.st, start := d.now, stepAt := d.now } }
  match x.st with
  | .run | .idle =>
    if t = 1 || t = 2 then d.setRegion r { x with st := d.regionNow r }
    else if t = 3 || t = 4 then
      if x.failed || x.holdoff.isSome then d.setRegion r x else start x
    else d.setRegion r x
  | .sleep => if t = 1 || t = 2 then wake x else if t = 4 then (if x.failed || x.holdoff.isSome then d.setRegion r x else start x) else d.setRegion r x
  | .deep => if t = 1 || t = 2 || t = 3 then wake x else d.setRegion r x
  | .entering =>
    match x.entry with
    | some e =>
      if e.phase2 || e.offReq then d.setRegion r x
      else if (t = 3 || t = 4) && e.target.code ≤ t then
        d.setRegion r { x with entry := some { e with target := RegSt.ofCode t } }
      else
        let x := { x with st := e.former, entry := none, ungating := e.acked.reverse, ungateAt := d.now, gated := [] }
        let d := d.count 0x008 0x050
        if e.former = .sleep && (t = 1 || t = 2) then
          d.setRegion r { x with st := .waking, wake := some { former := .sleep, start := d.now, stepAt := d.now } }
        else if t = 3 then
          d.setRegion r { x with st := .entering, entry := some { target := .sleep, former := e.former, start := d.now } }
        else d.setRegion r (if t = 1 then { x with st := .run } else x)
    | none => d.setRegion r x
  | .waking | .off | .retired => d.setRegion r x

/-- The block registers of page `p` answer only while its block's regions are powered (R36): every region of a sleeping
page's block is in SLEEP or DEEP, or off. -/
def asleepRegion (d : Dev) (r : Nat) : Bool :=
  match (d.region r).st with
  | .sleep | .deep | .off | .retired => true
  | .run | .idle | .entering | .waking => false

end Dev

/-- The regions that power a page's block registers; none for a page of the always-on domain. -/
def pageRegions (p : Nat) : List Nat :=
  match pageKind p with
  | .tile => [p - 0x080]
  | .loom | .carder | .kv | .formats => List.range 64
  | .flyer | .lanes | .streamTable | .esc => [64, 65, 66, 67]
  | .whorlCommon | .whorlMaps | .whorlTicks | .whorlWakes => (List.range 8).map (· + 68)
  | .whorlCores => [68 + 2 * (p - 0x052), 69 + 2 * (p - 0x052)]
  | .spindles => [76, 77, 78, 79]
  | .core => [coreRegion (p - 0x140)]
  | .skein | .plc | .frames | .slots | .lending | .hbm | .hbmTraining | .shuttle | .flows | .delays | .engines | .mover
  | .ring _ | .trace | .traceRead | .errlog => (List.range 8).map (· + 80)
  | .stream _ | .csi | .aer | .mic => [88, 89, 90, 91]
  | .port => [92 + (p - 0x150)]
  | .kakan n => [94 + n / 2]
  | _ => []

/-- Whether a page's block registers are out of reach (R36). -/
def Dev.asleep (d : Dev) (p : Nat) : Bool :=
  let rs := pageRegions p
  !rs.isEmpty && rs.all d.asleepRegion

/-! ## Interrupts of the cores (R354, R358) -/

namespace Dev

/-- Source s becomes pending at core n. An enabled one at a core of a sleeping region places the core's RUN vote. -/
def pend (d : Dev) (n s : Nat) : Dev :=
  let c := d.core n
  let c := { c with intPend := c.intPend ||| (1 <<< s) }
  let r := coreRegion n
  if c.intEn.testBit s && d.asleepRegion r then (d.setCore n { c with voteInt := true }).settle r
  else d.setCore n c

/-- Source s becomes pending at every core of a mask. -/
def pendMask (d : Dev) (m s : Nat) : Dev :=
  forEach ((List.range 16).filter m.testBit) (fun n d => d.pend n s) d

/-! ## Messages of the ports (R431, R432) -/

/-- A port sends an event on a vector (R431): a message, or the vector's PBA bit while the vector or the function is
masked; nothing more while the PBA bit is set. -/
def message (d : Dev) (p : Port) (v : Nat) : Dev :=
  let k := p.index * 128 + v
  if Sparse.get (fun _ => false) d.pba k then d
  else if Sparse.get (fun _ => false) d.unmasked k && Sparse.get (fun _ => false) d.unmasked (1000 + p.index) then
    { (d.count p.page 0x110) with sent := some (p, v) }
  else { d with pba := Sparse.put (fun _ => false) d.pba k true }

/-- The vector of a page's error events at a port: the first enabled PVEC entry that names the page, else EVT_VEC.PERR
(R432). -/
def perrVector (d : Dev) (p : Port) (page : Nat) : Nat :=
  match (List.range 16).find? (fun i => d.flag p.page (0x0C8 + 4 * i) 31 && d.field p.page (0x0C8 + 4 * i) 12 0 == page) with
  | some i => d.field p.page (0x0C8 + 4 * i) 22 16
  | none => d.field p.page 0x0C0 6 0

/-- The cores that an enabled EVT_ROUTE entry of a kind names for a page (R354, R360). -/
def routedCores (d : Dev) (kind page : Nat) : List Nat :=
  ((List.range 32).filter fun i =>
    d.flag 0x0F8 (0x080 + 4 * i) 31 && d.field 0x0F8 (0x080 + 4 * i) 14 14 == kind &&
    d.field 0x0F8 (0x080 + 4 * i) 12 0 == page).map fun i => d.field 0x0F8 (0x080 + 4 * i) 19 16

/-- The page error event of a page (R57): to each port with EVT_EN.PERR, and to the cores its routes name. -/
def pageEvent (d : Dev) (page : Nat) : Dev :=
  let send (p : Port) (d : Dev) : Dev := if d.flag p.page 0x0C4 0 then d.message p (d.perrVector p page) else d
  forEach (d.routedCores 0 page) (fun n d => d.pend n 5) (send .b (send .a d))

/-- The ERRLOG event (R327, R432): to both ports and to the cores of ROUTE_ERRLOG. -/
def errlogEvent (d : Dev) : Dev :=
  let d := d.message .a (d.field 0x150 0x0C0 14 8)
  let d := d.message .b (d.field 0x151 0x0C0 14 8)
  d.pendMask (d.field 0x0F8 0x044 15 0) 0

/-- The halt TRIP or pack PACK_LOST event (R150, R432). -/
def safetyEvent (d : Dev) : Dev :=
  let d := d.message .a (d.field 0x150 0x0C0 22 16)
  let d := d.message .b (d.field 0x151 0x0C0 22 16)
  d.pendMask (d.field 0x0F8 0x048 15 0) 1

/-- The Reel mark event (R79, R432): to each port with EVT_EN.MARK, and to the cores of ROUTE_MARK. -/
def markEvent (d : Dev) : Dev :=
  let send (p : Port) (d : Dev) : Dev := if d.flag p.page 0x0C4 1 then d.message p (d.field p.page 0x0C0 30 24) else d
  (send .b (send .a d)).pendMask (d.field 0x0F8 0x04C 15 0) 3

/-! ## Error bits (R57) -/

/-- ERR_SUM bit `b` of page `p` set, ERR_FIRST taken if it was free, ERR_COUNT advanced. -/
def errBit (d : Dev) (p b : Nat) : Dev :=
  let d := if d.flag p 0x01C 31 then d else d.setReg p 0x01C (BitVec.ofNat 32 (2 ^ 31 + b))
  (d.setFlag p 0x014 b true).count p 0x020

/-- An error of a page: its bit, and the page error event unless ERR_MASK masks the bit (R57). -/
def err (d : Dev) (p b : Nat) : Dev :=
  let d := d.errBit p b
  if d.flag p 0x018 b then d else d.pageEvent p

/-- An error of page 0x0F0 that is an ERRLOG event (R327). -/
def errlogErr (d : Dev) (b : Nat) : Dev := (d.errBit 0x0F0 b).errlogEvent

/-- A denied RWL write (R50): CLAIM_DENIED, and the writer's class in LAST_DENIED. -/
def deny (d : Dev) (a : Agent) (p : Nat) : Dev := (d.setField p 0x024 25 24 a.code).err p 31

/-- A register write as every agent may make it: without effect on an ABSENT page (R3), dropped with ASLEEP_ACCESS while the
page's region sleeps (R36). -/
def anyWrite (p : Nat) (f : Dev → Dev) (d : Dev) : Dev :=
  if d.absentPage p then d else if d.asleep p then d.err p 30 else f d

/-- A write of an RWL register (R48, R50): only the holder of the page's claim has its effect. -/
def rwlWrite (a : Agent) (p : Nat) (f : Dev → Dev) (d : Dev) : Dev :=
  anyWrite p (fun d => if d.claimedBy a p then f d else d.deny a p) d

/-- A page follows its block's work (R37): READY and ACTIVE by whether work is in flight; a draining page without work
enters DISABLED, where `ended` says what its block does there. -/
def work (p : Nat) (busy : Dev → Bool) (ended : Dev → Dev) (d : Dev) : Dev :=
  if d.pageState p = 1 then (if busy d then d.setPageState p 2 else d)
  else if d.pageState p = 2 then (if busy d then d else d.setPageState p 1)
  else if d.pageState p = 3 then (if busy d then d else ended (d.disabled p))
  else d

/-! ## The error log (R318–R327) -/

def logEntry (d : Dev) (i : Nat) : LogEntry := Sparse.get (fun _ => {}) d.log i
def setLogEntry (d : Dev) (i : Nat) (e : LogEntry) : Dev := { d with log := Sparse.put (fun _ => {}) d.log i e }

/-- The entries of the log that `p` picks. -/
def logWhere (d : Dev) (p : LogEntry → Bool) : List Nat := (List.range 32).filter fun i => p (d.logEntry i)

/-- How many entries are OPEN. -/
def openCount (d : Dev) : Nat := (d.logWhere fun e => e.st == .opened).length

/-- LSTAT.OVERFLOW (R325). -/
def overflowed (d : Dev) : Bool := d.flag 0x0F0 0x040 9

/-- The DEVICE state of R325. -/
def deviceState (d : Dev) : Bool :=
  d.overflowed || !(d.logWhere fun e => e.st == .opened && e.sev == .device).isEmpty

/-- The entry with the lowest ESEQ among some. -/
def lowestEseq (d : Dev) : List Nat → Option Nat
  | [] => none
  | i :: r =>
    match d.lowestEseq r with
    | none => some i
    | some j => if (d.logEntry i).eseq ≤ (d.logEntry j).eseq then some i else some j

/-- The entry a new record takes (R319): the lowest FREE one, else the CLOSED one with the lowest ESEQ. -/
def logSlot (d : Dev) : Option Nat :=
  match d.logWhere fun e => e.st == .free with
  | i :: _ => some i
  | [] => d.lowestEseq (d.logWhere fun e => e.st == .closed)

/-- A record entered in slot `i` with the next ESEQ (R319, R321). -/
def logEnter (d : Dev) (i : Nat) (e : LogEntry) : Dev :=
  let n := (d.reg 0x0F0 0x044).toNat
  (d.setLogEntry i { e with eseq := n, time := BitVec.ofNat 32 d.now }).setReg 0x0F0 0x044 (BitVec.ofNat 32 (n + 1))

/-- Does DEVICE state begin between two states of the device (R327). -/
def deviceBegan (old new : Dev) : Dev := if !old.deviceState && new.deviceState then new.errlogErr 3 else new

/-- A record that is entered OPEN (R319, R325, R327); with all 32 entries open it is lost. -/
def logOpen (d : Dev) (e : LogEntry) : Dev :=
  match (if d.openCount = 32 then none else d.logSlot) with
  | none => d.deviceBegan (((d.count 0x0F0 0x054).setFlag 0x0F0 0x040 9 true).err 0x0F0 2)
  | some i =>
    let d' := (d.logEnter i { e with st := .opened }).errlogErr 0
    let d' := if e.sev = .safety then d'.errlogErr 4 else d'
    d.deviceBegan d'

/-- A record that is entered raised from CORRECTED (R324); of the bits of one clock the lowest is set first (R57). -/
def logRaised (d : Dev) (e : LogEntry) : Dev :=
  let e := { e with sev := .contained, origSev := .corrected, escalated := true }
  if d.openCount = 32 then (d.err 0x0F0 1).logOpen e else (d.logOpen e).err 0x0F0 1

/-- A CORRECTED condition (R320). -/
def logCorrected (d : Dev) (e : LogEntry) : Dev :=
  let d := d.count 0x0F0 0x05C
  match (if 32 - d.openCount ≥ 9 then d.logSlot else none) with
  | some i => d.logEnter i { e with st := .closed, sev := .corrected }
  | none => d.count 0x0F0 0x058

/-- The OPEN CONTAINED record that an error nests into (R323): its domain or its flow matches, lowest ESEQ first. -/
def nestInto (d : Dev) (e : LogEntry) : Option Nat :=
  d.lowestEseq (d.logWhere fun o =>
    o.st == .opened && o.sev == .contained &&
    ((o.dom == e.dom && !(e.dom == .none)) || (e.flow.isSome && o.flow == e.flow)))

/-- A CONTAINED error: nested into an open record of its domain, else entered OPEN (R318, R323). -/
def logContained (d : Dev) (e : LogEntry) : Dev :=
  let e := { e with sev := .contained, origSev := .contained }
  match d.nestInto e with
  | some i =>
    let o := d.logEntry i
    d.setLogEntry i { o with nested := true, nestCnt := satAddN 16 o.nestCnt 1 }
  | none => d.logOpen e

/-- The ESEQ of the record that holds an error's domain after it was logged: the one it nested into, else the one just
entered, or 0 where it was lost (R325). -/
def holderEseq (before : Dev) (e : LogEntry) : Nat :=
  match before.nestInto { e with sev := .contained } with
  | some i => (before.logEntry i).eseq
  | none => if before.openCount = 32 then 0 else (before.reg 0x0F0 0x044).toNat

/-- A SAFETY record (R318). -/
def logSafety (d : Dev) (e : LogEntry) : Dev := d.logOpen { e with sev := .safety, origSev := .safety }

/-- The record in entry `i` raised one level (R324). -/
def escalate (d : Dev) (i : Nat) : Dev :=
  let e := d.logEntry i
  match e.sev with
  | .corrected =>
    d.deviceBegan (((d.setLogEntry i { e with sev := .contained, st := .opened, escalated := true, origSev := .corrected }).errlogErr 0).err 0x0F0 1)
  | .contained => d.deviceBegan ((d.setLogEntry i { e with sev := .device, escalated := true, origSev := .contained }).err 0x0F0 1)
  | .device | .safety => d

end Dev

end Sys2Proof.Machine
end

