-- ==== Sys2Proof/Machine/Links.lean ====
section
/-!
DEFINITION. The Kakan links' shared operations: the state of a link, the route of a packet (R444), and its sending under
credits (R439).
-/
namespace Sys2Proof.Machine

namespace Dev

def link (d : Dev) (k : Nat) : KLink := Sparse.get (fun _ => {}) d.links k
def setLink (d : Dev) (k : Nat) (l : KLink) : Dev := { d with links := Sparse.put (fun _ => {}) d.links k l }

/-- KSTAT.LSTATE of link k (R437): 0 DOWN, 1 DETECT, 2 EQ, 3 ALIGN, 4 CONFIG, 5 UP, 6 RETRAIN. -/
def lstate (d : Dev) (k : Nat) : Nat := d.field (0x158 + k) 0x040 2 0
def setLstate (d : Dev) (k v : Nat) : Dev := d.setField (0x158 + k) 0x040 2 0 v

/-- This device's address and the torus size (R442, R445). -/
def devX (d : Dev) : Nat := d.field 0x158 0x200 5 0
def devY (d : Dev) : Nat := d.field 0x158 0x200 11 6
def clX (d : Dev) : Nat := d.field 0x158 0x204 6 0
def clY (d : Dev) : Nat := d.field 0x158 0x204 14 8

end Dev

/-- One dimension of the route (R444): from `a` to `b` around a ring of `n`, the link to take; `none` where `a` is there. -/
def ringLink (a b n plus : Nat) : Option Nat :=
  if a = b then none
  else
    let dx := (b + n - a) % n
    some (if dx ≤ n / 2 then plus else plus + 1)

/-- The link a packet to device `dst` leaves by (R444): X then Y with ORDER = 0, Y then X with ORDER = 1. -/
def Dev.route (d : Dev) (dst : Nat) : Option Nat :=
  let x := ringLink d.devX (dst % 64) d.clX 0
  let y := ringLink d.devY (dst / 64) d.clY 2
  if d.flag 0x158 0x204 16 then (match y with | some k => some k | none => x)
  else (match x with | some k => some k | none => y)

/-- The length of a packet in bytes: its 32-byte header and payload, at least 256 and a multiple of 64 (R438). -/
def packetLen (payload : Nat) : Nat := max 256 (roundUp (32 + payload) 64)

/-- The credits a packet needs (R439). -/
def packetCredits (p : KPacket) : Nat := ceilDiv (packetLen p.payload.length) 256

/-- The first packet of a queue that heads its virtual channel and that the link's credits cover whole (R439): the packets of
one channel go in order (R446), and no channel waits for another. -/
def KLink.next (l : KLink) : Option KPacket :=
  l.queue.find? fun p => l.queue.find? (fun q => q.vc == p.vc) == some p && decide (packetCredits p ≤ l.credits.getD p.vc.val 0)

/-- Sends the packets of a link's queue as its credits cover them (R439); each leaves its queue for the list of what the peer
has not acknowledged. `n` bounds how many. -/
def Dev.pump (k : Nat) : Nat → Dev → Dev
  | 0, d => d
  | n + 1, d =>
    let l := d.link k
    if d.lstate k ≠ 5 then d
    else
      match l.next with
      | none => d
      | some p =>
        let have_ := l.credits.getD p.vc.val 0
        Dev.pump k n (d.setLink k
          { l with queue := l.queue.erase p, credits := l.credits.set p.vc.val (have_ - packetCredits p),
                   unacked := l.unacked ++ [(l.txSeq, p)], txSeq := (l.txSeq + 1) % 4096 })

/-- Queues a packet on the link its route takes (R444): it waits there until the link is UP and its credits cover it. -/
def Dev.sendPacket (d : Dev) (p : KPacket) : Dev :=
  match d.route p.dst.toNat with
  | none => d
  | some k =>
    let l := d.link k
    Dev.pump k (l.queue.length + 1) (d.setLink k { l with queue := l.queue ++ [p] })

end Sys2Proof.Machine
end

