-- ==== Sys2Proof/Machine/Memory.lean ====
section
/-!
DEFINITION. Skein memory (12): the address map, placement of pages in frames, the switch of a migration, written bits and
poison of 64-byte lines, and one read and one write that every agent uses.
-/
namespace Sys2Proof.Machine

/-! ## The address map (R265, R266) -/

/-- What a Skein address reaches (R265). -/
inductive Span where
  | placed
  | whorl
  | aon
  | local_
  | cluster
  | unmapped
  deriving DecidableEq, Repr

/-- What a Skein address reaches (R265); an address above 48 bits reaches nothing. -/
def spanOf (a : Nat) : Span :=
  if a < 0x4000000000 then .placed
  else if 0x10000000000 ≤ a && a < 0x10002000000 then .whorl
  else if 0x10004000000 ≤ a && a < 0x10004100000 then .aon
  else if 0x10008000000 ≤ a && a < 0x10008400000 then .local_
  else if 0x800000000000 ≤ a && a < 0x1000000000000 then .cluster
  else .unmapped

/-- A page's placement entry at reset (R269). -/
def Place.atReset (p : Nat) : Place :=
  if p < 2048 then { best := 0, worst := 0, tile := p / 32 }
  else if p < 2176 then { best := 1, worst := 3 }
  else if p < 2240 then { best := 2, worst := 3 }
  else {}

/-- The page of an address. -/
def pageOf (a : Nat) : Nat := a / 65536

/-- What an address reads as that nothing has written (R284, R286): the one place that says so (log entry 10). -/
def unlistedByte (_ : Nat) : Byte := 0

/-- The canonical form of a memory: strictly rising addresses, no byte listed that reads as an unlisted one. -/
def Memory.wf (m : Sparse Byte) : Bool := Sparse.wf unlistedByte m

namespace Dev

def place (d : Dev) (p : Nat) : Place := Sparse.get Place.atReset d.places p
def setPlace (d : Dev) (p : Nat) (x : Place) : Dev := { d with places := Sparse.put Place.atReset d.places p x }

/-- The byte at a Skein address of this device. -/
def byte (d : Dev) (a : Nat) : Byte := Sparse.get unlistedByte d.mem a
def setByte (d : Dev) (a : Nat) (b : Byte) : Dev := { d with mem := Sparse.put unlistedByte d.mem a b }

/-- `n` bytes from an address. -/
def bytes (d : Dev) (a n : Nat) : List Byte := (List.range n).map fun i => d.byte (a + i)

/-- Bytes stored from an address on. -/
def setBytes (d : Dev) (a : Nat) (l : List Byte) : Dev :=
  (l.foldl (fun (x : Dev × Nat) b => (x.1.setByte x.2 b, x.2 + 1)) (d, a)).1

/-- Written bit of a line (R283): HBM and lent frames always count as written. -/
def lineWritten (d : Dev) (line : Nat) : Bool :=
  match spanOf (line * 64) with
  | .placed =>
    let p := d.place (line / 1024)
    (p.tier == 3 || p.tier == 4 || p.allWritten) && p.tier != 7 || Sparse.get (fun _ => false) d.written line
  | .aon | .local_ => Sparse.get (fun _ => false) d.written line
  | _ => true

/-- The poison of a line: 0 none, 1 POISON, 2 NEIGHBOUR_LOST (R287, R282). -/
def linePoison (d : Dev) (line : Nat) : Nat := Sparse.get (fun l => (d.place (l / 1024)).lostAll) d.poison line

def setLinePoison (d : Dev) (line v : Nat) : Dev :=
  { d with poison := Sparse.put (fun l => (d.place (l / 1024)).lostAll) d.poison line v }

/-- Every line of a page poisoned (R282, R288). -/
def poisonPage (d : Dev) (p v : Nat) : Dev :=
  ({ d with poison := Sparse.forget d.poison fun l => l / 1024 == p }).setPlace p { d.place p with lostAll := v }

/-- Whether a line of the page is poisoned (R269, POISONED): one that is listed as poisoned, or, where every line of the page was
poisoned at once (R282, R288), one of its 1,024 lines that was not cleared since. -/
def pagePoisoned (d : Dev) (p : Nat) : Bool :=
  let mine := d.poison.filter fun e => e.1 / 1024 == p
  mine.any (fun e => e.2 != 0) || ((d.place p).lostAll != 0 && decide ((mine.filter fun e => e.2 == 0).length < 1024))

/-! ## Frames (R268, R270, R272) -/

/-- The numbers of the frames of a tier that hold a page. -/
def usedFrames (d : Dev) (t : Nat) : List Nat := (d.places.filter fun e => e.2.tier == t).map fun e => e.2.frame

/-- The HBM frames in use: the pages placed there and the shadows (R276). -/
def hbmUsed (d : Dev) : Nat := (d.places.filter fun e => e.2.tier == 3 || e.2.clean).length

/-- The frames a tier has (R268); the frames of a retired region have left it (R288). -/
def totalFrames (d : Dev) (t : Nat) : Nat :=
  if t = 0 then 32 * ((List.range 64).filter fun n => !d.retired n).length
  else if t = 1 then 32 * ((List.range 4).filter fun n => !d.retired (64 + n)).length
  else if t = 2 then 6 * ((List.range 8).filter fun n => !d.retired (80 + n)).length
  else if t = 3 then (match d.pkg with | .rm => 523264 | .tc => 1571840)
  else ((List.range 4).map fun n =>
    if d.flag 0x0D4 (0x050 + 0x10 * n) 15 then (d.reg 0x0D4 (0x058 + 0x10 * n)).toNat else 0).sum

/-- The pages of HBM that lending entry n has lent out (R282): LEND_OUT while the entry is enabled and its frames are not released
(log entry 196). -/
def lentOut (d : Dev) (n : Nat) : Nat :=
  if d.flag 0x0D4 (0x050 + 0x10 * n) 15 && !d.nbBack.contains n then (d.reg 0x0D4 (0x054 + 0x10 * n)).toNat else 0

/-- The frames of a tier in use; HBM frames lent to a neighbour count (R282). -/
def usedCount (d : Dev) (t : Nat) : Nat :=
  if t = 3 then d.hbmUsed + ((List.range 4).map d.lentOut).sum else (d.usedFrames t).length

def freeCount (d : Dev) (t : Nat) : Nat := d.totalFrames t - d.usedCount t

/-- Whether tile `n` lends its frames (R280, TSTAT.LENT). -/
def lent (d : Dev) (n : Nat) : Bool := d.flag (0x080 + n) 0x040 4

/-- Whether a page with these attributes may take a frame of tile `n` (R270, R280): tile TILE or its substitute (R288), any tile
with ANY_TILE = 1; another tile that lends only with BEST = 0. -/
def tileFits (d : Dev) (x : Place) (n : Nat) : Bool :=
  d.liveTile x.tile == some n || (x.anyTile && (x.best == 0 || !d.lent n))

/-- A free frame of a tier for a page with these attributes (R270): of its own tile first. -/
def freeFrame (d : Dev) (t : Nat) (x : Place) : Option Nat :=
  let used := d.usedFrames t
  if t = 0 then
    let own := match d.liveTile x.tile with
      | some n => (List.range 32).map (· + 32 * n)
      | none => []
    let pool := if x.anyTile then own ++ List.range 2048 else own
    pool.find? fun f => d.tileFits x (f / 32) && !used.contains f && !d.retired (f / 32)
  else if t = 1 then (List.range 128).find? fun f => !used.contains f && !d.retired (64 + f / 32)
  else if t = 2 then (List.range 48).find? fun f => !used.contains f && !d.retired (80 + f / 6)
  else if 0 < d.freeCount t then some 0
  else none

/-- FIX, BEST and WORST of a page as they act: clamped to the tiers there are (R25, R26); WORST below BEST acts as BEST. -/
def fixTier (x : Place) : Nat := min 4 x.fix
def bestTier (x : Place) : Nat := min 4 x.best
def worstTier (x : Place) : Nat := max (bestTier x) (min 4 x.worst)

/-- The tiers a page may take, fastest first: FIX alone with PIN = 1 (R270). -/
def tiersOf (x : Place) : List Nat :=
  if x.pin then [fixTier x] else (List.range (worstTier x - bestTier x + 1)).map (· + bestTier x)

/-- NBn_CFG.DEV of lending entry n. -/
def nbDev (d : Dev) (n : Nat) : Nat := d.field 0x0D4 (0x050 + 0x10 * n) 11 0

/-- The pages placed at a neighbour device. -/
def nbPages (d : Dev) (dev : Nat) : List Nat := (d.places.filter fun e => e.2.tier == 4 && e.2.ndev == dev).map (·.1)

/-- The neighbour that a page placed in tier 4 goes to (R282): the first enabled entry with frames left. -/
def nbPick (d : Dev) : Nat :=
  match (List.range 4).find? fun n => d.flag 0x0D4 (0x050 + 0x10 * n) 15 &&
      decide ((d.nbPages (d.nbDev n)).length < (d.reg 0x0D4 (0x058 + 0x10 * n)).toNat) with
  | some n => d.nbDev n
  | none => 0

/-- The fastest tier with a free frame for a page, and the frame (R270). -/
def findFrame (d : Dev) (x : Place) : Option (Nat × Nat) :=
  (tiersOf x).findSome? fun t => (d.freeFrame t x).map fun f => (t, f)

/-! ## The switch of a migration (R273, R276) -/

/-- The lines of a page forgotten by a store keyed by line. -/
def forgetPage (d : Dev) (p : Nat) : Dev :=
  { d with written := Sparse.forget d.written fun l => l / 1024 == p
           poison := Sparse.forget d.poison fun l => l / 1024 == p
           mem := Sparse.forget d.mem fun a => a / 65536 == p }

/-- Page `p` placed in frame `f` of tier `t` in one step (R273, R276): a page promoted from HBM keeps its frame there as a
shadow while it stays on chip; a CLEAN page demoted to HBM goes back to it; a page moved to HBM counts every line as written. -/
def switchPage (d : Dev) (p t f : Nat) : Dev :=
  let x := d.place p
  let y : Place :=
    { x with tier := t, frame := f, clean := (x.tier == 3 || x.clean) && decide (t < 3), ndev := if t = 4 then d.nbPick else 0,
             allWritten := x.allWritten || x.tier == 3 || x.tier == 4 || t == 3 || t == 4 }
  let d := (d.setPlace p y).count 0x0D0 0x050
  let d := if t < x.tier then d.count 0x0D0 0x054 else d
  let d := if x.tier < t then d.count 0x0D0 0x058 else d
  if x.clean && t == 3 then d.count 0x0D0 0x05C else d

/-- The frame that a placed page moves to in tier `t`: its shadow where it has one there (R276), else a free one. -/
def moveFrame (d : Dev) (t : Nat) (x : Place) : Option Nat := if t = 3 && x.clean then some 0 else d.freeFrame t x

/-- The pages of a tier that may be demoted (R271), least recently used first: not pinned, and above their WORST tier. -/
def demotables (d : Dev) (t : Nat) : List (Nat × Place) :=
  sortBy (fun a b => decide (a.2.last ≤ b.2.last)) (d.places.filter fun e => e.2.tier == t && !e.2.pin && decide (t < worstTier e.2) &&
    !(d.migs.any fun m => m.page == e.1))

/-- The least recently used page of a tier that may be demoted to a frame of the tier below it (R271). -/
def demotable (d : Dev) (t : Nat) : Option Nat :=
  ((d.demotables t).find? fun e => (d.moveFrame (t + 1) e.2).isSome).map (·.1)

/-- A demotion out of tier `t` that leaves a frame for a page with attributes `x` (R271, R272): of the least recently used page
whose frame it may take; where the tier below is full, a page of that tier is demoted first. `k` bounds the depth. -/
def makeRoom (x : Place) : Nat → Nat → Dev → Option Dev
  | 0, _, _ => none
  | k + 1, t, d =>
    ((d.demotables t).filter fun e => t ≠ 0 || d.tileFits x (e.2.frame / 32)).findSome? fun e =>
      match d.moveFrame (t + 1) e.2 with
      | some f => some (d.switchPage e.1 (t + 1) f)
      | none => (makeRoom e.2 k (t + 1) d).bind fun d => (d.moveFrame (t + 1) e.2).map fun f => d.switchPage e.1 (t + 1) f

/-- Skein demotes other pages until tier `t` has a frame for a page (R272); as it was where none frees. -/
def roomIn (d : Dev) (t : Nat) (x : Place) : Dev :=
  if (d.moveFrame t x).isSome then d else (makeRoom x 5 t d).getD d

/-- A frame for page `p` (R270, R272): the fastest tier of its bounds with a free one; with none free, Skein first demotes
a page of those tiers. -/
def giveFrame (d : Dev) (p : Nat) : Option Dev :=
  let x := d.place p
  let take (d : Dev) (tf : Nat × Nat) : Dev :=
    d.setPlace p { d.place p with tier := tf.1, frame := tf.2, allWritten := false, clean := false, ndev := if tf.1 = 4 then d.nbPick else 0 }
  match d.findFrame x with
  | some tf => some (take d tf)
  | none => ((tiersOf x).findSome? fun t => makeRoom x 5 t d).bind fun d' => (d'.findFrame x).map (take d')

/-! ## The migration queues (R271, R274) -/

def migrating (d : Dev) (p : Nat) : Bool := d.migs.any fun m => m.page == p

/-- A migration queued, unless the page has one to the same tier; migrations of one page are served one after another
(R273). -/
def queueMig (d : Dev) (m : Migration) : Dev :=
  if d.migs.any (fun x => x.page == m.page && x.dest == m.dest && x.slot == m.slot) then d else { d with migs := d.migs ++ [m] }

/-- A page accessed (R271): its place in the order of use, and a promotion by one tier once it was accessed PROMOTE_HITS
times in this 100 µs interval, if the next faster tier in its bounds has a free frame. -/
def touch (d : Dev) (p : Nat) : Dev :=
  let x := d.place p
  let iv := d.now / 100
  let hits := (if x.interval = iv then x.hits else 0) + 1
  let d := { d.setPlace p { x with last := d.accesses, hits := hits, interval := iv } with accesses := d.accesses + 1 }
  let need := max 1 (d.field 0x0D0 0x040 11 8)
  if x.tier ≤ 4 && 0 < x.tier && !x.pin && bestTier x < x.tier && need ≤ hits && (d.freeFrame (x.tier - 1) x).isSome &&
      !d.migrating p then
    d.queueMig { page := p, dest := x.tier - 1, tile := x.tile, prio := .adapt }
  else d

/-- A tier whose free frames are below LOW_WATER queues a demotion of its least recently used page (R271). -/
def lowWater (d : Dev) : Dev :=
  forEach [0, 1, 2, 3] (fun t d =>
    if d.freeCount t * 256 < d.field 0x0D0 0x040 7 0 * d.totalFrames t then
      match d.demotable t with
      | some p => d.queueMig { page := p, dest := t + 1, prio := .adapt }
      | none => d
    else d) d

/-- Whether the placed range can be reached: HBM is ready, and the regions 80–87 that are left run (R267, R288, R394). -/
def placedOpen (d : Dev) : Bool :=
  d.hbmReady && ((List.range 8).all fun i => match (d.region (80 + i)).st with
    | .run | .idle | .entering | .retired => true
    | .sleep | .deep | .off | .waking => false)

/-! ## Reading and writing -/

/-- The lines an access covers. -/
def linesOf (a n : Nat) : List Nat :=
  if n = 0 then [] else (List.range ((a + n - 1) / 64 - a / 64 + 1)).map (· + a / 64)

/-- The parts of an access that fall in each 64 KiB page: the address and length of each. Every range of R265 is a whole number of
pages. -/
def pageParts (a n : Nat) : List (Nat × Nat) :=
  if n = 0 then []
  else (List.range ((a + n - 1) / 65536 - a / 65536 + 1)).map fun i =>
    let lo := max a ((a / 65536 + i) * 65536)
    (lo, min (a + n) ((a / 65536 + i + 1) * 65536) - lo)

/-- An access to an unmapped address (R266). -/
def unmappedAccess (d : Dev) : Dev := (d.count 0x0D0 0x04C).err 0x0D0 2

end Dev

/-- What a read of Skein gives: the bytes, whether it met an unwritten line of a TRAP page (R284), and the poison it met
(R287). -/
structure ReadOut where
  bytes  : List Byte := []
  trap   : Bool := false
  poison : Nat := 0
  deriving DecidableEq, Repr

namespace Dev

/-- The writes of an agent that wait (R267, R273). -/
def heldOf (d : Dev) (who : MemAgent) : List HeldWrite := d.held.filter fun h => h.who == who

/-- The bytes an agent reads: the old frame's, with its own waiting writes applied, since its accesses to one page take effect in
issue order (R273). -/
def view (d : Dev) (who : MemAgent) (a n : Nat) : List Byte :=
  ((d.heldOf who).foldl (fun d h => d.setBytes h.addr h.data) d).bytes a n

/-- Whether a waiting write covers a byte of a line, and whether it covers all of it. -/
def heldMeets (h : HeldWrite) (line : Nat) : Bool := decide (h.addr < 64 * line + 64) && decide (64 * line < h.addr + h.data.length)
def heldCovers (h : HeldWrite) (line : Nat) : Bool := decide (h.addr ≤ 64 * line) && decide (64 * line + 64 ≤ h.addr + h.data.length)

/-- One line of a read by an agent (R284, R285, R287): an unwritten line counts, and traps on a TRAP page. A line that the
agent's own waiting write reaches is written, and clear of poison where the write covers it. -/
def readLine (who : MemAgent) (x : Dev × Bool × Nat) (line : Nat) : Dev × Bool × Nat :=
  let (d, tr, po) := x
  let own := d.heldOf who
  let placed := spanOf (line * 64) == .placed
  let wr := d.lineWritten line || own.any fun h => heldMeets h line
  let trap := placed && (d.place (line / 1024)).trap && !wr
  let d' := if wr then d else d.count 0x0D0 0x048
  (d', tr || trap, max po (if placed && !(own.any fun h => heldCovers h line) then d.linePoison line else 0))

/-- A cluster address outside CL_SIZE is unmapped (R445). -/
def inCluster (d : Dev) (a : Nat) : Bool :=
  decide ((a / 2 ^ 35) % 64 < d.clX) && decide ((a / 2 ^ 41) % 64 < d.clY)

/-- Whether a cluster address is in this device's own window, which reaches its export range (R445). -/
def ownWindow (d : Dev) (a : Nat) : Bool := (a / 2 ^ 35) % 4096 == (d.reg 0x158 0x200).toNat % 4096

/-- Whether an address is in another device's memory (R445). -/
def remoteAddr (d : Dev) (a : Nat) : Bool := spanOf a == .cluster && d.inCluster a && !d.ownWindow a

/-- The part of a read that falls in one page (R265–R267, R284, R287), joined to what was read before it; the last flag says that
part of the read was unmapped. A read of another device's memory through the cluster window gives bytes that this device does not
hold: free values. -/
def readPart (who : MemAgent) (x : ReadOut × Dev × Bool) (part : Nat × Nat) : ReadOut × Dev × Bool :=
  let (r, d, un) := x
  let (a, n) := part
  let more (l : List Byte) : ReadOut := { r with bytes := r.bytes ++ l }
  let none_ : ReadOut × Dev × Bool := (more (List.replicate n 0), d, true)
  match spanOf a with
  | .unmapped => none_
  | .cluster =>
    if !d.inCluster a then none_
    else if d.ownWindow a then
      let off := a % 2 ^ 34
      if off < 65536 * (d.reg 0x158 0x210).toNat then (more (d.view who (d.pair48 0x158 0x208 + off) n), d, un) else none_
    else
      (more ((List.range n).map fun i => BitVec.ofNat 8 (Config.freeValue (d.free + i))), { d with free := d.free + n }, un)
  | .whorl => (more (d.bytes a n), d, un)
  | .aon | .local_ =>
    let (d', _, _) := (linesOf a n).foldl (readLine who) (d, false, 0)
    (more (d.bytes a n), d', un)
  | .placed =>
    let (d', tr, po) := (linesOf a n).foldl (readLine who) (d, false, 0)
    ({ bytes := r.bytes ++ d.view who a n, trap := r.trap || tr, poison := max r.poison po }, d'.touch (pageOf a), un)

/-- A read of `n` bytes of Skein by an agent (R265–R267, R284, R287). -/
def read (d : Dev) (who : MemAgent) (a n : Nat) : ReadOut × Dev :=
  let (r, d, un) := (pageParts a n).foldl (readPart who) ({}, d, false)
  (r, if un then d.unmappedAccess else d)

/-- The writer of a dropped write (NF_AGENT, R272): class in [1:0], core in [7:4]. -/
def nfAgent : MemAgent → Nat
  | .engine _ => 0
  | .producer => 0
  | .port .a => 1
  | .port .b => 2
  | .core n => 3 + n.val * 16

/-- One line's part of a write to the placed range or to direct SRAM (R270, R276, R283, R287): the page gets a frame, W is
set, a full line clears its poison, and a shadow is given up. The flag says whether a frame was found. -/
def writeLine (x : Dev × Bool) (l : Nat × List Byte) : Dev × Bool :=
  let (d, ok) := x
  let (a, data) := l
  let line := a / 64
  let store (d : Dev) : Dev :=
    let d := d.setBytes a data
    { d with written := Sparse.put (fun _ => false) d.written line true }
  match spanOf a with
  | .placed =>
    let p := pageOf a
    let d? := if (d.place p).tier = 7 then d.giveFrame p else some d
    match d? with
    | none => (d, false)
    | some d =>
      let d := d.setPlace p { d.place p with clean := false }
      let d := store d
      (if data.length = 64 then d.setLinePoison line 0 else d, ok)
  | _ => (store d, ok)

/-- The parts of a write that fall in each line, the first `k` of them. -/
def splitLines : Nat → Nat → List Byte → List (Nat × List Byte)
  | 0, _, _ => []
  | k + 1, a, data =>
    let room := 64 - a % 64
    if data.isEmpty then [] else (a, data.take room) :: splitLines k (a + room) (data.drop room)

/-- Every line part of a write, in ascending address order. -/
def lineParts (a : Nat) (data : List Byte) : List (Nat × List Byte) := splitLines (data.length / 64 + 2) a data

/-- A write without a frame (R272). -/
def dropWrite (d : Dev) (who : MemAgent) : Dev :=
  ((d.count 0x0D0 0x060).setReg 0x0D0 0x064 (BitVec.ofNat 32 (nfAgent who))).err 0x0D0 1

/-- Stores bytes into memory this device holds, line by line. The flag is false where a line found no frame (R272). -/
def storeLines (d : Dev) (a : Nat) (data : List Byte) : Dev × Bool := (lineParts a data).foldl writeLine (d, true)

/-- A store without waiting for a migration, dropped where a line found no frame (R272). -/
def store (d : Dev) (who : MemAgent) (a : Nat) (data : List Byte) : Dev × Bool :=
  let (d', ok) := d.storeLines a data
  if ok then (d', true) else (d'.dropWrite who, false)

/-- Whorl core `c` takes writes into its store: it is OFF or in WINDOW (R176, R177). -/
def whorlOpen (d : Dev) (c : Nat) : Bool := d.field (whorlReg c 0x10).1 (whorlReg c 0x10).2 9 8 != 1

/-- TH of neuron `n` of core `c` after a write of its NCFG (`cfg`) or NSTATE (R164, R166): THR_BASE while ADAPT_EN = 0, and
at a write of NCFG with ADAPT_EN = 1. -/
def syncTh (d : Dev) (c n : Nat) (cfg : Bool) : Dev :=
  let base := 0x10000000000 + 0x40000 * c
  let w := ofBytesLE (d.bytes (base + 0x20000 + 8 * n) 4)
  if cfg || !w.testBit 29 then d.setBytes (base + 0x20800 + 8 * n + 4) (bytesLE 2 (max 1 (w % 65536))) else d

/-- The bits of byte `o` of a Whorl core's store that hold something (R164): NCFG[63:50] and NSTATE[63:48] are zero. -/
def whorlMask (o : Nat) : Byte :=
  if 0x20000 ≤ o && o < 0x20800 then (if o % 8 = 7 then 0 else if o % 8 = 6 then 3 else 0xFF)
  else if 0x20800 ≤ o && o < 0x21000 then (if o % 8 = 6 || o % 8 = 7 then 0 else 0xFF)
  else 0xFF

/-- One line's part of a write into the Whorl aperture (R163, R164, R166, R176): bytes above the store are ignored; bytes of a
core that is running are refused. -/
def whorlPart (d : Dev) (l : Nat × List Byte) : Dev :=
  let off := l.1 - 0x10000000000
  let c := off / 0x40000
  let o := off % 0x40000
  let data := (l.2.take (0x22000 - min 0x22000 o)).zipIdx.map fun e => e.1 &&& whorlMask (o + e.2)
  if data.isEmpty then d
  else if d.whorlOpen c then
    let d := d.setBytes l.1 data
    let touched (lo : Nat) : List Nat :=
      (List.range 256).filter fun n => decide (o < lo + 8 * n + 8) && decide (lo + 8 * n < o + data.length)
    let d := forEach (touched 0x20800) (fun n d => d.syncTh c n false) d
    forEach (touched 0x20000) (fun n d => d.syncTh c n true) d
  else (d.setField 0x050 0x04C 6 0 c).err 0x050 1

/-- A write into the Whorl aperture (R163, R176). -/
def whorlStore (d : Dev) (a : Nat) (data : List Byte) : Dev := (lineParts a data).foldl whorlPart d

/-- A packet of the given kind to the device of a cluster address. -/
def clusterPacket (d : Dev) (op : KOp) (vc : Fin 3) (a len : Nat) (payload : List Byte) : KPacket :=
  { op := op, vc := vc, src := BitVec.ofNat 12 (d.reg 0x158 0x200).toNat, dst := BitVec.ofNat 12 (a / 2 ^ 35),
    offset := BitVec.ofNat 48 (a % 2 ^ 35), tag := BitVec.ofNat 32 d.nextTag, len := len, payload := payload }

/-- A remote request sent to the device of a cluster address (R446), with its time for R449. -/
def remoteRequest (d : Dev) (who : MemAgent) (rd : Bool) (a len : Nat) (payload : List Byte) : Dev :=
  let sig := !rd && (a / 2 ^ 34) % 2 = 1 && 0x3FFFF0000 ≤ a % 2 ^ 34
  let p := d.clusterPacket (if rd then .read else if sig then .sig else .write) (if sig then 2 else 0) a len payload
  let r : Remote := { tag := d.nextTag, read := rd, who := who, addr := a, len := len, sent := d.now }
  let d : Dev := { d with nextTag := d.nextTag + 1, remotes := d.remotes ++ [r] }
  d.sendPacket p

/-- The part of a write that falls in one page (R265, R266, R270–R273, R283), after those before it: the data left, whether a part
was unmapped, and whether every part found a frame. A write waits, in issue order, while its page migrates (R273) or the placed
range cannot be reached (R267). -/
def writePart (who : MemAgent) (x : Dev × List Byte × Bool × Bool) (part : Nat × Nat) : Dev × List Byte × Bool × Bool :=
  let (d, data, un, ok) := x
  let (a, n) := part
  let here := data.take n
  let rest := data.drop n
  match spanOf a with
  | .unmapped => (d, rest, true, ok)
  | .whorl => (d.whorlStore a here, rest, un, ok)
  | .aon | .local_ => let (d, k) := d.storeLines a here; (d, rest, un, ok && k)
  | .placed =>
    if d.migrating (pageOf a) || !d.placedOpen then
      let h : HeldWrite := { who := who, addr := a, data := here }
      let d : Dev := { d with held := d.held ++ [h] }
      (d.touch (pageOf a), rest, un, ok)
    else
      let fresh := (d.place (pageOf a)).tier == 7
      let (d, k) := d.storeLines a here
      ((if fresh then d.lowWater else d).touch (pageOf a), rest, un, ok && k)
  | .cluster =>
    if !d.inCluster a then (d, rest, true, ok)
    else if d.ownWindow a then
      let off := a % 2 ^ 34
      if off < 65536 * (d.reg 0x158 0x210).toNat then
        let (d, k) := d.storeLines (d.pair48 0x158 0x208 + off) here
        (d, rest, un, ok && k)
      else (d, rest, true, ok)
    else (d.remoteRequest who false a n here, rest, un, ok)

/-- A write of bytes to Skein by an agent (R265, R266, R270–R273, R283). The flag is false where a part was dropped for want of a
frame. -/
def write (d : Dev) (who : MemAgent) (a : Nat) (data : List Byte) : Dev × Bool :=
  let (d, _, un, ok) := (pageParts a data.length).foldl (writePart who) (d, data, false, true)
  let d := if un then d.unmappedAccess else d
  if ok then (d, true) else (d.dropWrite who, false)

/-- A write whose writer sees nothing of a drop (R272). -/
def put (d : Dev) (who : MemAgent) (a : Nat) (data : List Byte) : Dev := (d.write who a data).1

/-- A write of an agent that another device has not answered yet (R446). -/
def unanswered (d : Dev) (who : MemAgent) : Bool := d.remotes.any fun r => !r.read && r.who == who

/-- A little-endian number of `n` bytes read from Skein. -/
def num (d : Dev) (a n : Nat) : Nat := ofBytesLE (d.bytes a n)

end Dev

end Sys2Proof.Machine
end

