-- ==== Sys2Proof/Machine/Tasks.lean ====
section
/-!
DEFINITION. Shuttle's shared operations (13): the descriptor's fields, acceptance of a task, its passage through delay
list, flow and ready order, its retirement with the log and the fence (14), and the trace.
-/
namespace Sys2Proof.Machine

/-! ## The positions and registers of Reel that delay lists use (R64, R65, R81) -/

/-- The register of Reel channel k at offset `o` of its block. -/
def reelReg (k o : Nat) : Nat × Nat := (0x019 + k / 4, 0x040 + 0x40 * (k % 4) + o)

/-- A position P has reached a target T (R65). -/
def reached (p t : Nat) : Bool := decide ((p + 2 ^ 48 - t % 2 ^ 48) % 2 ^ 48 < 2 ^ 47)

namespace Dev

/-- POS of Reel channel k. -/
def reelPos (d : Dev) (k : Nat) : Nat := d.pair48 (reelReg k 0x18).1 (reelReg k 0x18).2

/-- RSTATE of Reel channel k (R73): 0 OFF, 1 TRACK, 2 DEAD_RECKON, 3 HELD. -/
def rstate (d : Dev) (k : Nat) : Nat := d.field (reelReg k 0x14).1 (reelReg k 0x14).2 1 0

/-- STAT.STALE of Reel channel k (R75): OFF or HELD; DEAD_RECKON at FALLBACK_RATE = 0 behaves as HELD (R74). -/
def reelStale (d : Dev) (k : Nat) : Bool :=
  d.rstate k == 0 || d.rstate k == 3 || (d.rstate k == 2 && d.reg (reelReg k 8).1 (reelReg k 8).2 == 0)

end Dev

/-! ## Descriptors (R290, R291) -/

namespace Task

def word (t : Task) (i : Nat) : Word := t.words.getD i 0
def kind (t : Task) : Nat := bits (t.word 0) 7 0
def irq (t : Task) : Bool := bit (t.word 0) 8
def delay (t : Task) : Bool := bit (t.word 0) 9
def hasFlow (t : Task) : Bool := bit (t.word 0) 10
def flow (t : Task) : Nat := bits (t.word 0) 27 16
def tag (t : Task) : Word := t.word 1
def key (t : Task) : Nat := (t.word 2).toNat + bits (t.word 3) 15 0 * 2 ^ 32
def list (t : Task) : Nat := bits (t.word 3) 17 16
/-- An 8-byte field of the body at byte offset `o`, as a 48-bit address. -/
def addr (t : Task) (o : Nat) : Nat := (t.word (o / 4)).toNat + bits (t.word (o / 4 + 1)) 15 0 * 2 ^ 32

end Task

/-- The engine class a KIND belongs to (R290): 0 SPINDLE, 1 FLYER, 2 LOOM, 3 MOVER; 4 any. -/
def kindClass (k : Nat) : Option Nat :=
  if k = 1 || k = 8 then some 0 else if k = 2 || k = 3 || k = 9 then some 1 else if k = 4 then some 2
  else if k = 5 || k = 6 then some 3 else if k = 7 then some 4 else none

/-- The statuses that create a record (14, Error status). -/
def errorStatus (s : Nat) : Bool := s == 0x20 || s == 0x21 || s == 0x30 || s == 0x31 || s == 0x40 || s == 0x50 || s == 0xF0

/-- The register page of ring n. -/
def ringPage (n : Nat) : Nat := 0x100 + n

namespace Dev

/-- ENGINE and PRIO of a ring. -/
def ringClass (d : Dev) (n : Nat) : Nat := d.field (ringPage n) 0x040 1 0
def ringPrio (d : Dev) (n : Nat) : Nat := d.field (ringPage n) 0x040 6 4
/-- CFG.POLICY: whether a ring is a FENCE ring (R310). -/
def ringFence (d : Dev) (n : Nat) : Bool := d.flag (ringPage n) 0x040 8

/-- An enabled delay list. -/
def dlOn (d : Dev) (l : Nat) : Bool := d.flag 0x0E2 (0x040 + 0x20 * l) 0

/-- A descriptor that fails with FORMAT (R291). -/
def badDescriptor (d : Dev) (ring : Nat) (t : Task) : Bool :=
  (match kindClass t.kind with
    | none => true
    | some c => c != 4 && c != d.ringClass ring) ||
  bits (t.word 0) 15 11 != 0 || bits (t.word 0) 31 28 != 0 ||
  (t.delay && (bits (t.word 3) 31 18 != 0 || !d.dlOn t.list))

/-! ## The trace (R311) -/

/-- A trace record of an event, if TRACE_CFG takes it; the FABR clock count is a free value. -/
def traceEv (d : Dev) (evt slot : Nat) (t : Task) (w3 : Nat) : Dev :=
  if d.flag 0x160 0x040 0 && d.flag 0x160 0x040 (16 + evt) && !d.traceOff then
    let i := d.field 0x160 0x044 12 0
    let (v, d) := d.fresh
    let w1 := evt + t.ring * 16 + d.ringPrio t.ring * 1024 + d.ringClass t.ring * 8192 + slot * 65536
    let r : TraceRec := { w0 := BitVec.ofNat 32 v, w1 := BitVec.ofNat 32 w1, w2 := t.seq, w3 := BitVec.ofNat 32 w3 }
    let d : Dev := { d with trace := Sparse.put (fun _ => {}) d.trace i r
                            traceOff := d.flag 0x160 0x040 1 && evt != 8 && w3 % 256 != 0 }
    d.setField 0x160 0x044 12 0 (i + 1)
  else d

/-! ## Slots and acceptance (R293, R294) -/

/-- The slots a ring holds (RSTAT.HELD). -/
def heldSlots (d : Dev) (n : Nat) : Nat := (d.taskList.filter fun e => e.2.ring == n).length

/-- RESERVE of a ring; above QUOTA it acts as QUOTA (R294). -/
def reserve (d : Dev) (n : Nat) : Nat := min (d.field (ringPage n) 0x044 28 16) (d.field (ringPage n) 0x044 12 0)

/-- The free task slots. -/
def slotsFree (d : Dev) : Nat := 4096 - d.taskList.length

/-- The unmet reserves of all rings but n (R294). -/
def unmet (d : Dev) (n : Nat) : Nat :=
  (((List.range 64).filter (· ≠ n)).map fun m => d.reserve m - d.heldSlots m).sum

/-- Whether the reserve rule gives ring n a free slot (R294). -/
def slotAllowed (d : Dev) (n : Nat) : Bool :=
  if d.heldSlots n < d.reserve n then decide (0 < d.slotsFree) else decide (d.unmet n < d.slotsFree)

/-- The outcome of a submission (R293, R325): 0 OK, 1 FULL, 2 REFUSED. -/
def submitResult (d : Dev) (n : Nat) : Nat :=
  if d.deviceState || !d.running (ringPage n) then 2
  else if d.heldSlots n < d.field (ringPage n) 0x044 12 0 && d.slotAllowed n then 0 else 1

/-- The lowest free slot. -/
def freeSlot (d : Dev) : Nat := ((List.range 4096).find? fun i => (d.task i).isNone).getD 0

/-- The next place in the order in which tasks change state. -/
def nextOrder (d : Dev) : Nat × Dev := (d.orders, { d with orders := d.orders + 1 })

/-! ## Flows (R304, R328) -/

/-- Whether every one of some regions is in RUN (R300). -/
def regionsRun (d : Dev) (rs : List Nat) : Bool := rs.all fun r => d.regionNow r == .run

/-- A task's RUN votes on those of some regions that are not in RUN (R300). -/
def voteFor (d : Dev) (s : Nat) (t : Task) (rs : List Nat) : Dev :=
  let new := rs.filter fun r => !t.voted.contains r && d.regionNow r != .run
  forEach new (fun r d => d.settle r) (d.setTask s (some { t with voted := t.voted ++ new }))

/-- Whether a flow is busy: a task of it is READY or in service, or an open record keeps it (R304, R328). -/
def flowBusy (d : Dev) (f : Nat) : Bool :=
  d.taskList.any (fun e => e.2.hasFlow && e.2.flow == f && (e.2.st == .ready || e.2.st == .dispatched)) ||
  d.holds.any fun h => !h.ring && h.idx == f

/-- Whether a ring is fenced (R329). -/
def fenced (d : Dev) (n : Nat) : Bool := d.ringFence n && d.holds.any fun h => h.ring && h.idx == n

/-- A task enters READY (R298). -/
def makeReady (d : Dev) (s : Nat) (t : Task) : Dev :=
  let (o, d) := d.nextOrder
  (d.setTask s (some { t with st := .ready, order := o })).traceEv 2 s t (if t.hasFlow then t.flow * 256 else 0)

/-- A task becomes ELIGIBLE (R298): READY if it has no flow or its flow is idle with no waiter ahead, else a waiter. -/
def makeEligible (d : Dev) (s : Nat) (t : Task) : Dev :=
  if t.hasFlow && (d.flowBusy t.flow || d.taskList.any fun e => e.2.st == .flowWait && e.2.flow == t.flow) then
    let (o, d) := d.nextOrder
    d.setTask s (some { t with st := .flowWait, order := o })
  else d.makeReady s t

/-- The first of some tasks in the order of their last change of state. -/
def oldest : List (Nat × Task) → Option (Nat × Task)
  | [] => none
  | e :: r =>
    match oldest r with
    | none => some e
    | some f => if e.2.order ≤ f.2.order then some e else some f

/-! ## Delay lists (R305–R307) -/

/-- The entries of list `l`, nearest key first, equal keys in insertion order. -/
def dlEntries (d : Dev) (l : Nat) : List (Nat × Task) :=
  let pos := d.reelPos (d.field 0x0E2 (0x040 + 0x20 * l) 6 4)
  let dist (t : Task) : Nat := (t.key + 2 ^ 48 - pos % 2 ^ 48) % 2 ^ 48
  sortBy (fun a b => decide (dist a.2 < dist b.2) || (dist a.2 == dist b.2 && decide (a.2.order ≤ b.2.order)))
    (d.taskList.filter fun e => e.2.st == .delayed && e.2.list == l)

/-- MARK(28 + l) and the list's registers follow the head of list `l` (R81, R306); a change of head restarts the floor. While the list is
empty the MARK keeps the TGT of the last head (log entry 186). -/
def dlArm (d : Dev) (l : Nat) : Dev :=
  let m := 0x040 + 0x20 * (28 + l)
  let c := 0x040 + 0x20 * l
  let es := d.dlEntries l
  let d := d.setReg 0x0E2 (c + 8) (BitVec.ofNat 32 es.length)
  match es with
  | [] => ((d.setFlag 0x01B m 0 false).setPair48 0x0E2 (c + 0x10) 0)
  | e :: _ =>
    let same := d.flag 0x01B m 0 && d.pair48 0x01B (m + 4) == e.2.key
    let d := d.setReg 0x01B m (BitVec.ofNat 32 (1 + d.field 0x0E2 c 6 4 * 2 + 7 * 256))
    let d := (d.setPair48 0x01B (m + 4) e.2.key).setPair48 0x0E2 (c + 0x10) e.2.key
    let d := d.setReg 0x01B (m + 0x10) (d.reg 0x0E2 (c + 4))
    if same then d else d.setArmed (28 + l) d.now

/-- The registers of MARK m back at their reset values (R81). -/
def markForget (d : Dev) (m : Nat) : Dev :=
  let lo := 0x01B * 4096 + 0x040 + 0x20 * m
  { d with regs := Sparse.forget d.regs fun k => lo ≤ k && decide (k < lo + 0x20) }

/-- A delayed task is released with some completion flags (R298, R306). -/
def dlRelease (d : Dev) (s : Nat) (t : Task) (cf : Nat) : Dev :=
  let dr := if d.rstate (d.field 0x0E2 (0x040 + 0x20 * t.list) 6 4) = 2 then 1 else 0
  let t := { t with cflags := t.cflags ||| cf ||| dr }
  (d.traceEv 7 s t 0).makeEligible s t

/-- Delay list `l` is released by its MARK (R306): every reached entry on a distance firing, the head alone with FLOOR on a
floor-only firing. -/
def dlFire (d : Dev) (l : Nat) (floorOnly : Bool) : Dev :=
  let es := d.dlEntries l
  let pos := d.reelPos (d.field 0x0E2 (0x040 + 0x20 * l) 6 4)
  let go := if floorOnly then es.take 1 else es.filter fun e => reached pos e.2.key
  (go.foldl (fun d e => d.dlRelease e.1 e.2 (if floorOnly then 2 else 0)) d).dlArm l

/-! ## Retirement (R298, R328, R329) -/

/-- ESC's page follows its episodes (R29): on DISABLED the handoff ring is empty, so every slot is released. -/
def escWork (d : Dev) : Dev :=
  d.work 0x067 (fun d => d.episodes.any fun e => e.2.st == .pre || e.2.st == .held) fun d =>
    ({ d with snaps := [], hoSeq := 0 } : Dev).setReg 0x067 0x058 0

/-- The episode of a stream whose escalation task retired leaves HELD (R15), to QUIET if the stream has ended: if its SSTATE is OFF. A
stream in FAULT has not (log entry 185). -/
def leaveHeld (d : Dev) (stream : Nat) (ended : Bool) : Dev :=
  let e := d.episode stream
  if e.st = .held then
    let d := d.setEpisode stream (if ended then {} else { e with st := .verify, voted := false })
    (forEach (List.range 64) (fun r d => d.settle r) d).escWork
  else d

/-- SSTATE of a stream (R194), in its table entry (R179). -/
def streamReg (e o : Nat) : Nat × Nat := (0x062 + e / 63, 0x040 + 0x40 * (e % 63) + o)
def sstate (d : Dev) (e : Nat) : Nat := d.field (streamReg e 0x28).1 (streamReg e 0x28).2 2 0

/-- A task that has not been dispatched completes with a status, progress 0 (R298, R307, R329, R331). -/
def cancelTask (d : Dev) (s status cf : Nat) : Dev :=
  match d.task s with
  | none => d
  | some t =>
    let d := (d.setTask s (some { t with st := .retired, status := status, progress := 0, cflags := t.cflags ||| cf, voted := [] })).traceEv 4 s t (status + t.unit * 256)
    let d := forEach t.voted (fun r d => d.settle r) d
    let d := match t.esc with
      | some stream => d.leaveHeld stream (d.sstate stream == 0)
      | none => d
    if t.st = .delayed then d.dlArm t.list else d

/-- SEQ b comes after SEQ a on a ring (R308, R329). -/
def seqAfter (a b : Word) : Bool := a != b && decide ((b - a).toNat < 2 ^ 31)

/-- The tasks of a ring that are accepted and not dispatched, by SEQ (R309, R329). -/
def undispatched (d : Dev) (n : Nat) : List (Nat × Task) :=
  sortBy (fun a b => !seqAfter b.2.seq a.2.seq)
    (d.taskList.filter fun e => e.2.ring == n && e.2.st != .dispatched && e.2.st != .retired)

/-- A failure on a FENCE ring cancels its later undispatched tasks with 0x12 (R329). -/
def fenceCancel (d : Dev) (n : Nat) (seq : Word) : Dev :=
  (d.undispatched n).foldl (fun d e => if seqAfter seq e.2.seq then d.cancelTask e.1 0x12 0 else d) d

/-- The record of a task's error status (R318, R321). -/
def taskRecord (t : Task) (status : Nat) : LogEntry :=
  { dom := .ring t.ring, flow := if t.hasFlow then some t.flow else none, srcPage := ringPage t.ring, status := status,
    taskSeq := t.seq, ring := t.ring, unit := t.unit }

/-- The effects of a task's status at its retirement (R328): an error is logged, keeps its flow, and fences its ring. -/
def taskFailed (d : Dev) (t : Task) (status : Nat) : Dev :=
  let r := taskRecord t status
  let es := d.holderEseq r
  let d := d.logContained r
  let d : Dev := if t.hasFlow then { d with holds := d.holds ++ [{ ring := false, idx := t.flow, eseq := es }] } else d
  let d : Dev := { d with holds := d.holds ++ [{ ring := true, idx := t.ring, eseq := es }] }
  if d.ringFence t.ring then d.fenceCancel t.ring t.seq else d

/-- The answer to an abort of a dispatched task at its retire point (R308): 1 ABORTED, or 2 TOO_LATE with LATE_ABORT. -/
def abortAnswer (d : Dev) (t : Task) (status : Nat) : Dev :=
  if t.asked then
    let p := ringPage t.ring
    let d := d.setReg p 0x084 (if status = 0x10 then 1 else 2)
    if status = 0x10 then d.count p 0x09C else d
  else d

/-- A task reaches its retire point (R298): its status and progress are fixed, its votes withdrawn (R300), and an error has
its effects (R328). Waiters of its flow and tasks that need no dispatch follow in `Dev.promote`. -/
def retireTask (d : Dev) (s status progress cf : Nat) : Dev :=
  match d.task s with
  | none => d
  | some t =>
    if t.st = .retired then d
    else
      let late := if t.asked && status != 0x10 then 16 else 0
      let d := (d.setTask s (some { t with st := .retired, status := status, progress := progress,
                                           cflags := t.cflags ||| cf ||| late, voted := [] })).traceEv 4 s t (status + t.unit * 256)
      let d := d.abortAnswer t status
      let d := forEach t.voted (fun r d => d.settle r) d
      let d := if errorStatus status then d.taskFailed t status else d
      match t.esc with
      | some stream => d.leaveHeld stream (d.sstate stream == 0)
      | none => d

/-- What follows from a change of the tasks: the oldest waiter of an idle flow becomes READY (R304), and a READY task of
FORMAT or of KIND NOP retires without dispatch (R298). `n` bounds how many. The order of tasks that one command makes READY is log
entry 210. -/
def promote : Nat → Dev → Dev
  | 0, d => d
  | n + 1, d =>
    match oldest (d.taskList.filter fun e => e.2.st == .ready && (e.2.bad || e.2.kind == 7)) with
    | some e => promote n (d.retireTask e.1 (if e.2.bad then 0x50 else 0x00) 0 0)
    | none =>
      match oldest (d.taskList.filter fun e => e.2.st == .flowWait && !d.flowBusy e.2.flow) with
      | some e => promote n (d.makeReady e.1 e.2)
      | none => d

/-- Everything that follows from a change of the tasks. -/
def advance (d : Dev) : Dev := promote (2 * d.taskList.length + 2) d

/-! ## Submission (R292–R295, R305) -/

/-- A delayed task enters its list (R305): released at once where its key is reached (log entry 211), completed with 0xF0 where the
list is full. -/
def dlInsert (d : Dev) (s : Nat) (t : Task) : Dev :=
  let l := t.list
  let c := 0x040 + 0x20 * l
  if reached (d.reelPos (d.field 0x0E2 c 6 4)) t.key then (d.count 0x0E2 (c + 0x0C)).dlRelease s t 0
  else if max 1 (min 1024 (d.field 0x0E2 c 26 16)) ≤ (d.dlEntries l).length then
    (((d.setTask s (some t)).retireTask s 0xF0 0 0).err 0x0E2 l)
  else
    let (o, d) := d.nextOrder
    let t := { t with st := .delayed, order := o }
    ((d.setTask s (some t)).traceEv 6 s t 0).dlArm l

/-- A task accepted on ring n (R293, R298): it takes the lowest free slot and the ring's next SEQ, and enters its first
state; on a fenced ring it is cancelled at once (R329). -/
def accept (d : Dev) (n : Nat) (by_ : Submitter) (words : List Word) (esc : Option Nat) : Dev :=
  let p := ringPage n
  let s := d.freeSlot
  let seq := d.reg p 0x064
  let t : Task := { ring := n, seq := seq, words := words, by_ := by_, st := .ready, order := 0, esc := esc }
  let bad := d.badDescriptor n t
  let t := { t with bad := bad }
  let d := (d.setReg p 0x064 (seq + 1)).count p 0x090
  let d := if d.pageState p = 1 then d.setPageState p 2 else d
  let d := (d.setTask s (some t)).traceEv 1 s t 0
  let d := if bad then d.err p 3 else d
  let d :=
    if d.fenced n then d.cancelTask s 0x12 0
    else if t.delay && !bad then d.dlInsert s t
    else d.makeEligible s t
  d.advance

/-- A per-agent register of a page (R292, R293). -/
def agentReg (d : Dev) (a : Agent) (p off : Nat) : Word :=
  Sparse.get (fun _ => 0) d.staged (a.index * 2 ^ 25 + p * 4096 + off)
def setAgentReg (d : Dev) (a : Agent) (p off : Nat) (v : Word) : Dev :=
  { d with staged := Sparse.put (fun _ => 0) d.staged (a.index * 2 ^ 25 + p * 4096 + off) v }

/-- What the submitting agent sees (R293): RESULT and TAKEN in SUB_STAT, SUB_LAST after an acceptance. -/
def subStat (d : Dev) (a : Agent) (n result taken : Nat) : Dev :=
  d.setAgentReg a (ringPage n) 0x06C (BitVec.ofNat 32 (result + taken * 16))

/-- One descriptor of an agent submitted to ring n (R293); `taken` counts those of the same commit before it. -/
def submitOne (d : Dev) (a : Agent) (n taken : Nat) (words : List Word) : Dev × Bool :=
  let p := ringPage n
  match d.submitResult n with
  | 0 =>
    let seq := d.reg p 0x064
    (((d.accept n (.agent a) words none).subStat a n 0 (taken + 1)).setAgentReg a p 0x070 seq, true)
  | r =>
    let t : Task := { ring := n, seq := d.reg p 0x064, words := words, by_ := .agent a, st := .ready, order := 0 }
    ((((d.count p 0x098).traceEv 10 0 t 0).subStat a n r taken).err p (if r = 1 then 0 else 1), false)

/-- A submission of a hardware producer (R295): accepted, or dropped and counted. The flag says which. -/
def submitHw (d : Dev) (n : Nat) (words : List Word) (esc : Option Nat) : Dev × Bool :=
  let p := ringPage n
  if d.submitResult n = 0 then (d.accept n .hardware words esc, true)
  else
    let t : Task := { ring := n, seq := d.reg p 0x064, words := words, by_ := .hardware, st := .ready, order := 0 }
    (((d.count p 0x094).traceEv 9 0 t 0).err p 2, false)

/-! ## Drain (R309) -/

/-- A draining ring enters DISABLED once its last record is posted (R309). -/
def ringDrained (d : Dev) (n : Nat) : Dev :=
  let p := ringPage n
  if d.heldSlots n = 0 then
    if d.pageState p = 3 then
      let d := (d.disabled p).setReg p 0x058 0
      { d with phase := Sparse.put (fun _ => false) d.phase n false }
    else if d.pageState p = 2 then d.setPageState p 1
    else d
  else d

end Dev

end Sys2Proof.Machine
end

