-- ==== Sys2Proof/Machine/Cores.lean ====
section
/-!
DEFINITION. What a core's reset and a port's departure take away (R55, R56), and a core's way into and out of reset (R359).
-/
namespace Sys2Proof.Machine

namespace Dev

/-! ## Semaphores (R52–R54) -/

/-- The register of semaphore n. -/
def semOff (n : Nat) : Nat := 0x040 + 4 * n

def semHeld (d : Dev) (n : Nat) : Bool := d.flag 0x001 (semOff n) 8

/-- Whether an agent holds semaphore n. -/
def semHeldBy (d : Dev) (a : Agent) (n : Nat) : Bool :=
  d.semHeld n && d.field 0x001 (semOff n) 10 9 == a.code && d.field 0x001 (semOff n) 15 12 == a.core

/-- Semaphore n freed, its bit in REL set (R54). -/
def semFree (d : Dev) (n : Nat) : Dev :=
  (d.setReg 0x001 (semOff n) (d.reg 0x001 (semOff n) &&& 0xFF0000)).setFlag 0x001 (0x148 + 4 * (n / 32)) (n % 32) true

/-- A TAKE (R52): the writer holds the semaphore if it was free, with the next GEN. -/
def semTake (d : Dev) (a : Agent) (n : Nat) : Dev :=
  if d.semHeld n then d
  else
    let w := putBits (d.reg 0x001 (semOff n)) 23 16 (d.field 0x001 (semOff n) 23 16 + 1)
    d.setReg 0x001 (semOff n) (a.put (putBit w 8 true) 9)

/-- A GIVE (R52): frees the semaphore if the writer holds it, else GIVE_DENIED. -/
def semGive (d : Dev) (a : Agent) (n : Nat) : Dev :=
  if d.semHeldBy a n then d.semFree n else d.err 0x001 0

/-- A write of SEM_FORCE (R53). -/
def semForce (d : Dev) (n : Nat) (gen : Nat) : Dev :=
  if d.semHeld n && d.field 0x001 (semOff n) 23 16 == gen then d.semFree n else d

/-! ## An agent that goes away (R55, R56) -/

/-- The pages whose header register `off` is not at its reset value. -/
def headerPages (d : Dev) (off : Nat) : List Nat := (d.regs.filter fun e => e.1 % 4096 == off).map fun e => e.1 / 4096

/-- An agent's semaphores freed and its claims cleared (R55, R56). -/
def releaseAgent (d : Dev) (a : Agent) : Dev :=
  let d := forEach ((List.range 64).filter fun n => d.semHeldBy a n) (fun n d => d.semFree n) d
  forEach ((d.headerPages 0x024).filter fun p => d.claimedBy a p) (fun p d => d.unclaim p) d

/-! ## Core reset (R56, R359) -/

/-- The register page of core n. -/
def corePage (n : Nat) : Nat := 0x140 + n

/-- Core n enters reset (R359): its semaphores and claims are released (R56) and it stops. -/
def coreEnterReset (d : Dev) (n : Fin 16) : Dev :=
  let d := d.releaseAgent (.spindle n)
  d.setCore n { d.core n with st := .stopped, slot := none, shadow := none, task := none, abort := false, done := none,
                              voteInt := false, voteWake := false }

/-- Core n, in reset, loses its internal state (R39). -/
def coreCleared (d : Dev) (n : Nat) : Dev := (d.setCore n {}).settle (coreRegion n)

/-- Core n leaves reset (R359); the control registers that the rule does not name keep their values. -/
def coreLeaveReset (d : Dev) (n : Nat) : Dev :=
  d.setCore n { d.core n with
    g := [], pc := d.reg (corePage n) 0x040 &&& 0xFFFFFFFC, mode := 1, eflags := 0, evec := 0, lc0 := 0, lc1 := 0,
    intEn := 0, intPend := 0, tcmp := 0, tcmpOn := false, win := [], st := .run, slot := none, shadow := none,
    step := false, passBp := false, hit := false }

end Dev

end Sys2Proof.Machine
end

