-- ==== Sys2Proof/Machine/HaltUnit.lean ====
section
/-!
DEFINITION. The halt unit (06, R144–R151): trips, the hold of a Spindle or warm reset, arming, the outputs, the heartbeat and
the readback.
-/
namespace Sys2Proof.Machine

/-- A meaning that changes the state; nothing happens while the device has no power (R406; log entry 3). -/
def onState (f : State → State) (s : State) : Host.Outcome State Fault Refusal :=
  .next (if s.dev.power = .on then f s else s)

/-- A meaning that changes the device alone. -/
def onDev (f : Dev → Dev) (s : State) : Host.Outcome State Fault Refusal :=
  onState (fun s => { s with dev := f s.dev }) s

/-- Whether the halt unit drives its outputs: ARMED or HOLD (R144). -/
def HaltSt.driving : HaltSt → Bool
  | .armed => true
  | .hold => true
  | .safe => false
  | .tripped => false

namespace Halt

/-- The level of output n (R149). -/
def pin (h : Halt) (n : Nat) : Bool := h.pins.toNat.testBit n

/-- The outputs set to `v` at time `t`: each that changes starts its readback time anew (R149). -/
def drive (h : Halt) (v : BitVec 6) (t : Nat) : Halt :=
  { h with pins := v
           changed := ((List.range 6).filter fun n => h.pins.toNat.testBit n != v.toNat.testBit n).foldl
             (fun m n => Sparse.put (fun _ => 0) m n t) h.changed }

/-- The unit tripped: all six outputs inactive, cause and channel recorded (R144, R146). -/
def tripped (h : Halt) (cause ch t : Nat) : Halt := { h.drive 0 t with st := .tripped, cause := cause, ch := ch }

/-- The unit in HOLD: outputs held, HOLD_WINDOW begun (R144). -/
def held (h : Halt) (t : Nat) : Halt := { h with st := .hold, holdAt := t }

end Halt

namespace Dev

/-- No cliff channel counts as checked: the unit tripped or entered HOLD (R145). -/
def uncheck (d : Dev) : Dev :=
  { d with cliffs := forEachCliff d.cliffs }
where
  forEachCliff (m : Sparse CliffCh) : Sparse CliffCh :=
    (m.map fun e => (e.1, { e.2 with checked := false })).filter fun e => e.2 != ({} : CliffCh)

/-- FB_CFG.FB_EN and FB_TMO (R149). -/
def fbEn (d : Dev) (n : Nat) : Bool := d.flag 0x041 0x05C n
def fbTmo (d : Dev) : Nat := max 1 (d.field 0x041 0x05C 15 8)

/-- A SAFETY record of page 0x041 (R318). -/
def haltSafety (d : Dev) (bit : Nat) : Dev := d.logSafety { srcPage := 0x041, srcBit := bit }

/-- A trip's bits (R150): TRIPS, ERR_SUM.TRIP, the safety event. -/
def tripBits (d : Dev) : Dev := ((d.uncheck.countFrz 0x041 0x068).errBit 0x041 0).safetyEvent

/-- A trip's report (R150, R318): its bits, and a SAFETY record for FEEDBACK and THERMTRIP. -/
def tripReport (d : Dev) (cause : Nat) : Dev :=
  let d := d.tripBits
  if cause = 6 || cause = 7 then d.haltSafety 0 else d

/-- THERMTRIP_N is low: this device's thermal trip drives it (R388), or another device does. -/
def thermLow (d : Dev) : Bool := d.flag 0x014 0x084 0 || d.thermIn

/-- CHG_EN (R152, R155–R157): CHG_REQ and PRES outside LOCKOUT on an enabled page, and low while THERMTRIP_N is asserted; held
low on the SV960-TC. -/
def packChg (d : Dev) : Dev :=
  d.setFlag 0x042 0x048 2
    (d.flag 0x042 0x040 0 && d.flag 0x042 0x048 0 && !d.flag 0x042 0x048 3 && d.running 0x042 && !d.thermLow &&
      d.pkg == .rm)

/-- Whether cliff channel n lets the unit arm (R145): disabled, or checked with a latest result of FLOOR, or of UNTRUSTED with
ACT = 2. -/
def cliffAllows (d : Dev) (n : Nat) : Bool :=
  let b := 0x040 + 0x20 * n
  let c := d.cliff n
  !d.flag 0x040 b 0 || (c.checked && (c.result == 0 || (c.result == 2 && d.field 0x040 b 2 1 == 2)))

end Dev

namespace State

/-- A trip cause (R144–R146): acts only while the unit is ARMED or in HOLD. -/
def trip (s : State) (cause ch : Nat) : State :=
  if s.halt.st.driving then
    { s with halt := s.halt.tripped cause ch s.dev.now, dev := s.dev.tripReport cause }
  else s

/-- THERMTRIP_N asserted: the unit is TRIPPED from every state (R145, R152, R388). This device's own thermal trip has entered its
SAFETY record already (`logged`). -/
def thermTrip (s : State) (logged : Bool) : State :=
  if s.halt.st = .tripped || s.dev.absentPage 0x041 then s
  else { s with halt := s.halt.tripped 7 0 s.dev.now, dev := if logged then s.dev.tripBits else s.dev.tripReport 7 }

/-- A Spindle reset or a system warm reset: HOLD if the unit was ARMED (R144, R152). -/
def haltHold (s : State) : State :=
  if s.halt.st = .armed then { s with halt := s.halt.held s.dev.now, dev := s.dev.uncheck } else s

/-- A chip reset: SAFE with the outputs inactive and the unit's registers at their reset values (R144, R152). -/
def haltReset (s : State) : State := { s with halt := { fb := s.halt.fb } }

/-- A readback enabled in FB_EN that differs from its output (R149). -/
def fbBad (s : State) (n : Nat) : Bool := s.dev.fbEn n && s.halt.fb.toNat.testBit n != s.halt.pin n

/-- The arming conditions (R145): every enabled cliff channel allows it, every enabled readback matches, THERMTRIP_N is
inactive. -/
def armable (s : State) : Bool :=
  (List.range 8).all s.dev.cliffAllows && (List.range 6).all (fun n => !s.fbBad n) &&
  !s.dev.thermLow

/-- A write of ARM (R144, R145, R147): from SAFE the outputs follow OUT_CMD; from HOLD they keep their levels. -/
def writeArm (s : State) (v : Word) : State :=
  let h := s.halt
  let t := s.dev.now
  if v = 0xA5A5 && s.armable then
    match h.st with
    | .safe => { s with halt := { h.drive h.cmd t with st := .armed, hbFresh := true, hbAt := t } }
    | .hold => { s with halt := { h with st := .armed, hbFresh := true, hbAt := t } }
    | .armed | .tripped => s
  else
    match h.st with
    | .safe => { s with dev := s.dev.err 0x041 2 }
    | .armed | .hold | .tripped => s

/-- A write of OUT_CMD (R144): while ARMED the outputs follow at once. -/
def writeOutCmd (s : State) (v : Word) : State :=
  let c : BitVec 6 := BitVec.ofNat 6 v.toNat
  let h := { s.halt with cmd := c }
  match h.st with
  | .armed => { s with halt := h.drive c s.dev.now }
  | .safe | .hold | .tripped => { s with halt := h }

/-- A write of HB (R147): 0x55 or 0xAA that differs from the last accepted value, or either after ARM, refreshes; any other
write sets HB_BAD. -/
def writeHb (s : State) (v : Word) : State :=
  let n := v.toNat
  if (n = 0x55 || n = 0xAA) && (s.halt.hbFresh || n ≠ s.halt.hb) then
    { s with halt := { s.halt with hb := n, hbFresh := false, hbAt := s.dev.now } }
  else { s with dev := s.dev.err 0x041 3 }

/-- A write of TRIP_ACK (R144). -/
def writeTripAck (s : State) (v : Word) : State :=
  if bit v 0 && s.halt.st = .tripped then { s with halt := { s.halt with st := .safe } } else s

/-- A write of FORCE, which any agent may make (R145). -/
def writeForce (s : State) (v : Word) : State := if bit v 0 then s.trip 5 0 else s

/-- HB_PERIOD in µs (R147). -/
def hbPeriod (s : State) : Nat := 1000 * max 1 (min 1000 (s.dev.reg 0x041 0x054).toNat)

/-- HOLD_WINDOW in µs (R148). -/
def holdWindow (s : State) : Nat := 1000 * max 1 (min 100 (s.dev.reg 0x041 0x058).toNat)

/-- A readback mismatch of output n that has lasted FB_TMO since the output's last change (R149): a trip while ARMED or in
HOLD; where the output was inactive, FB_FAULT, its stuck bit and a SAFETY record. -/
def feedback (s : State) (n : Nat) : State :=
  if s.fbBad n && Sparse.get (fun _ => 0) s.halt.changed n + s.dev.fbTmo ≤ s.dev.now then
    let s' := s.trip 6 0
    if s.halt.pin n || s.halt.stuck.toNat.testBit n then s'
    else
      { s' with halt := { s'.halt with stuck := s'.halt.stuck ||| BitVec.ofNat 6 (2 ^ n) }
                dev := (s'.dev.err 0x041 1).haltSafety 1 }
  else s

end State

namespace Dev

/-- A core page has entered OFF or DISABLED between two states of the device: a Spindle reset (R359, R452). -/
def spindleReset (old new : Dev) : Bool :=
  (List.range 16).any fun n => !old.idlePage (0x140 + n) && new.idlePage (0x140 + n)

end Dev

/-- A meaning that changes the device alone and may put a Spindle core in reset, which takes an armed halt unit to HOLD (R144). -/
def onCores (f : Dev → Dev) (s : State) : Host.Outcome State Fault Refusal :=
  onState (fun s =>
    let s' : State := { s with dev := f s.dev }
    if Dev.spindleReset s.dev s'.dev then s'.haltHold else s') s

/-! ## The commands of the halt unit -/

/-- HALT_ARM: a write of ARM by the holder of page 0x041; another agent's write is denied (R48, R50, R144). -/
def haltWrite (a : Agent) (f : State → State) (s : State) : State :=
  if s.dev.absentPage 0x041 then s
  else if s.dev.claimedBy a 0x041 then f s else { s with dev := s.dev.deny a 0x041 }

def execHaltArm (ag : Agent) (value : Word) (s : State) : Host.Outcome State Fault Refusal :=
  onState (haltWrite ag fun s => s.writeArm value) s

/-- HALT_OUT_CMD (R144). -/
def execHaltOutCmd (ag : Agent) (value : Word) (s : State) : Host.Outcome State Fault Refusal :=
  onState (haltWrite ag fun s => s.writeOutCmd value) s

/-- HEARTBEAT_REFRESH (R147). -/
def execHeartbeatRefresh (ag : Agent) (value : Word) (s : State) : Host.Outcome State Fault Refusal :=
  onState (haltWrite ag fun s => s.writeHb value) s

/-- TRIP_ACK (R144). -/
def execTripAck (ag : Agent) (value : Word) (s : State) : Host.Outcome State Fault Refusal :=
  onState (haltWrite ag fun s => s.writeTripAck value) s

/-- HALT_FORCE (R145): the field is not RWL, so any agent may write it; the agent has no part in the effect. -/
def execHaltForce (_ag : Agent) (value : Word) (s : State) : Host.Outcome State Fault Refusal :=
  onState (fun s => if s.dev.absentPage 0x041 then s else s.writeForce value) s

/-- HEARTBEAT_EXPIRY (R147): acts once HB_PERIOD has passed since the last refresh while ARMED. -/
def execHeartbeatExpiry (s : State) : Host.Outcome State Fault Refusal :=
  onState (fun s => if s.halt.st = .armed && s.halt.hbAt + s.hbPeriod ≤ s.dev.now then s.trip 3 0 else s) s

/-- HOLD_WINDOW_EXPIRY (R144, R148). -/
def execHoldWindowExpiry (s : State) : Host.Outcome State Fault Refusal :=
  onState (fun s => if s.halt.st = .hold && s.halt.holdAt + s.holdWindow ≤ s.dev.now then s.trip 4 0 else s) s

/-- DRV_FB_CHANGE (R149): a readback pin changes; a mismatch outside the time after its output's change acts at once, and a
match ends its stuck bit. -/
def State.drvFb (n : Fin 6) (level : Bool) (s : State) : State :=
  let fb := if level then s.halt.fb ||| BitVec.ofNat 6 (2 ^ n.val) else s.halt.fb &&& ~~~ BitVec.ofNat 6 (2 ^ n.val)
  let s : State := { s with halt := { s.halt with fb := fb } }
  if s.fbBad n then s.feedback n
  else { s with halt := { s.halt with stuck := s.halt.stuck &&& ~~~ BitVec.ofNat 6 (2 ^ n.val) } }

def execDrvFbChange (n : Fin 6) (level : Bool) (s : State) : Host.Outcome State Fault Refusal := onState (State.drvFb n level) s

/-- FB_TMO_EXPIRY (R149): FB_TMO after a change of output n. -/
def execFbTmoExpiry (n : Fin 6) (s : State) : Host.Outcome State Fault Refusal := onState (fun s => s.feedback n) s

/-- THERMTRIP_INPUT (R145, R388): another device drives THERMTRIP_N low or lets it go; low trips the unit and holds CHG_EN
low (R152). -/
def execThermtripInput (low : Bool) (s : State) : Host.Outcome State Fault Refusal :=
  onState (fun s =>
    let s : State := { s with dev := { s.dev with thermIn := low } }
    let s := if low then s.thermTrip false else s
    { s with dev := s.dev.packChg }) s

end Sys2Proof.Machine
end

