-- ==== Sys2Proof/Machine/Formats.lean ====
section
/-!
DEFINITION. The number formats (11): exact values, rounding to nearest with ties to even, the fourteen formats with their
conversions, packing, FP32 arithmetic, and the accumulation of a matrix command.
-/
namespace Sys2Proof.Machine

/-! ## Exact values -/

/-- What an element stands for: a NaN, an infinity, or ±m × 2^e exactly. -/
inductive FVal where
  | nan
  | inf (neg : Bool)
  | fin (neg : Bool) (m : Nat) (e : Int)
  deriving DecidableEq, Repr

namespace FVal

/-- +0. -/
def zero : FVal := .fin false 0 0

/-- An integer. -/
def ofInt (i : Int) : FVal := .fin (decide (i < 0)) i.natAbs 0

/-- An integer times a power of two. -/
def scaled (i e : Int) : FVal := .fin (decide (i < 0)) i.natAbs e

def isNan : FVal → Bool
  | .nan => true
  | _ => false

def isInf : FVal → Bool
  | .inf _ => true
  | _ => false

def isZero : FVal → Bool
  | .fin _ m _ => m == 0
  | _ => false

def neg : FVal → FVal
  | .nan => .nan
  | .inf s => .inf (!s)
  | .fin s m e => .fin (!s) m e

def abs : FVal → FVal
  | .nan => .nan
  | .inf _ => .inf false
  | .fin _ m e => .fin false m e

/-- The exact product; ∞ × 0 is a NaN (R258). -/
def mul : FVal → FVal → FVal
  | .nan, _ => .nan
  | _, .nan => .nan
  | .inf s, .inf t => .inf (s != t)
  | .inf s, .fin t m _ => if m = 0 then .nan else .inf (s != t)
  | .fin s m _, .inf t => if m = 0 then .nan else .inf (s != t)
  | .fin s m e, .fin t n f => .fin (s != t) (m * n) (e + f)

/-- A magnitude with its sign, in units of 2^u, where u is at most its own exponent. -/
def units (s : Bool) (m : Nat) (e u : Int) : Int :=
  let n : Int := m * 2 ^ (e - u).toNat
  if s then -n else n

/-- The exact sum; infinities of opposite sign give a NaN (R258), and a zero sum is +0 unless both terms are negative. -/
def add : FVal → FVal → FVal
  | .nan, _ => .nan
  | _, .nan => .nan
  | .inf s, .inf t => if s = t then .inf s else .nan
  | .inf s, .fin _ _ _ => .inf s
  | .fin _ _ _, .inf t => .inf t
  | .fin s m e, .fin t n f =>
    let u := min e f
    let x := units s m e u + units t n f u
    if x = 0 then .fin (s && t) 0 0 else .fin (decide (x < 0)) x.natAbs u

/-- Whether `a` is less than `b`; a NaN is not ordered. -/
def lt : FVal → FVal → Bool
  | .nan, _ => false
  | _, .nan => false
  | .inf s, .inf t => s && !t
  | .inf s, .fin _ _ _ => s
  | .fin _ _ _, .inf t => !t
  | .fin s m e, .fin t n f => decide (units s m e (min e f) < units t n f (min e f))

/-- Whether two ordered values are equal. -/
def eq (a b : FVal) : Bool := !a.isNan && !b.isNan && !a.lt b && !b.lt a

/-- The exact quotient to 64 bits, with the rest folded into one more bit that decides every rounding; division of zero by
zero is a NaN. -/
def div : FVal → FVal → FVal
  | .nan, _ => .nan
  | _, .nan => .nan
  | .inf _, .inf _ => .nan
  | .inf s, .fin t _ _ => .inf (s != t)
  | .fin s _ _, .inf t => .fin (s != t) 0 0
  | .fin s m e, .fin t n f =>
    if n = 0 then (if m = 0 then .nan else .inf (s != t))
    else
      let k := 66 + n.log2 - m.log2
      let q := (m <<< k) / n
      .fin (s != t) (2 * q + (if q * n = m <<< k then 0 else 1)) (e - f - k - 1)

end FVal

/-! ## Floating-point formats (R248, R250) -/

/-- A floating-point format: its exponent and mantissa bits, its bias, its specials, the code of its Emax and of its canonical
NaN, without the sign. -/
structure FFmt where
  ebits : Nat
  mbits : Nat
  bias  : Int
  inf   : Bool
  nan   : Option Nat
  emax  : Nat
  deriving DecidableEq, Repr

namespace FFmt

def fp32 : FFmt := { ebits := 8, mbits := 23, bias := 127, inf := true, nan := some 0x7FC00000, emax := 0x7F7FFFFF }
def fp16 : FFmt := { ebits := 5, mbits := 10, bias := 15, inf := true, nan := some 0x7E00, emax := 0x7BFF }
def bf16 : FFmt := { ebits := 8, mbits := 7, bias := 127, inf := true, nan := some 0x7FC0, emax := 0x7F7F }
def e4m3 : FFmt := { ebits := 4, mbits := 3, bias := 7, inf := false, nan := some 0x7F, emax := 0x7E }
def e5m2 : FFmt := { ebits := 5, mbits := 2, bias := 15, inf := true, nan := some 0x7E, emax := 0x7B }
def e3m2 : FFmt := { ebits := 3, mbits := 2, bias := 3, inf := false, nan := none, emax := 0x1F }
def e2m1 : FFmt := { ebits := 2, mbits := 1, bias := 1, inf := false, nan := none, emax := 0x7 }

/-- The exponent of the format's smallest unit. -/
def unit (f : FFmt) : Int := 1 - f.bias - f.mbits

/-- The bits of a format without its sign. -/
def width (f : FFmt) : Nat := f.ebits + f.mbits

/-- The value of a code (R248). -/
def decode (f : FFmt) (w : Nat) : FVal :=
  let s := w.testBit f.width
  let x := w % 2 ^ f.width
  let ex := x / 2 ^ f.mbits
  let m := x % 2 ^ f.mbits
  if f.inf && ex = 2 ^ f.ebits - 1 then (if m = 0 then .inf s else .nan)
  else if !f.inf && f.nan = some x then .nan
  else if ex = 0 then .fin s m f.unit
  else .fin s (m + 2 ^ f.mbits) (f.unit + (ex - 1))

/-- The nearest code magnitude of m × 2^e, ties to the even one, with the exponent range unbounded above (R254). -/
def nearest (f : FFmt) (m : Nat) (e : Int) : Nat :=
  if m = 0 then 0
  else
    let top : Int := (m.log2 : Int) + e
    let q := max (top - f.mbits) f.unit
    let n : Nat :=
      if q ≤ e then m <<< (e - q).toNat
      else
        let k := (q - e).toNat
        let n := m >>> k
        let r := m % 2 ^ k
        if 2 ^ (k - 1) < r || (r = 2 ^ (k - 1) && n % 2 = 1) then n + 1 else n
    ((q - f.unit).toNat <<< f.mbits) + n

/-- The sign bit of a code. -/
def sign (f : FFmt) (s : Bool) : Nat := if s then 2 ^ f.width else 0

/-- Conversion into the format (R254): the code, whether the value saturated, and whether a NaN had no code. -/
def convert (f : FFmt) : FVal → Nat × Bool × Bool
  | .nan => match f.nan with
    | some c => (c, false, false)
    | none => (0, false, true)
  | .inf s => if f.inf then ((2 ^ f.ebits - 1) * 2 ^ f.mbits + f.sign s, false, false) else (f.emax + f.sign s, true, false)
  | .fin s m e =>
    let c := f.nearest m e
    if f.emax < c then (f.emax + f.sign s, true, false) else (c + f.sign s, false, false)

end FFmt

/-! ## FP32 arithmetic (R182, R258) -/

/-- The value of an FP32 word. -/
def f32 (w : Word) : FVal := FFmt.fp32.decode w.toNat

/-- RNE: rounds to FP32 as IEEE 754 binary32 does; every NaN is the canonical one (R182, R250, R258). -/
def rne (v : FVal) : Word :=
  match v with
  | .nan => 0x7FC00000
  | .inf s => BitVec.ofNat 32 (0x7F800000 + FFmt.fp32.sign s)
  | .fin s m e => BitVec.ofNat 32 (min 0x7F800000 (FFmt.fp32.nearest m e) + FFmt.fp32.sign s)

/-- A value rounded to FP32, as a value. -/
def rneV (v : FVal) : FVal := f32 (rne v)

def fadd (a b : Word) : Word := rne ((f32 a).add (f32 b))
def fsub (a b : Word) : Word := rne ((f32 a).add (f32 b).neg)
def fmul (a b : Word) : Word := rne ((f32 a).mul (f32 b))
/-- a × b + c with one rounding. -/
def ffma (a b c : Word) : Word := rne (((f32 a).mul (f32 b)).add (f32 c))
def fdiv (a b : Word) : Word := rne ((f32 a).div (f32 b))
def isNan32 (w : Word) : Bool := (f32 w).isNan

/-- maxNum and minNum; a zero of either sign is ordered by its sign. -/
def fmax (a b : Word) : Word :=
  if (f32 a).isNan then b else if (f32 b).isNan then a
  else if (f32 a).lt (f32 b) then b else if (f32 b).lt (f32 a) then a else if bit a 31 then b else a
def fmin (a b : Word) : Word :=
  if (f32 a).isNan then b else if (f32 b).isNan then a
  else if (f32 a).lt (f32 b) then a else if (f32 b).lt (f32 a) then b else if bit a 31 then a else b

/-- Subnormals flushed to a zero of the same sign (R183). -/
def flush (w : Word) : Word := if bits w 30 23 = 0 then w &&& 0x80000000 else w

/-! ## The formats by code (R248, R249, R251–R253) -/

/-- The bits of an element; codes 0xE and 0xF are reserved. -/
def fmtBits (c : Nat) : Nat :=
  match c with
  | 0 => 32 | 1 => 16 | 2 => 16 | 3 => 8 | 4 => 8 | 5 => 6 | 6 => 4 | 7 => 16 | 8 => 8 | 9 => 4 | 10 => 8 | 11 => 4 | 12 => 8 | 13 => 4
  | _ => 0

/-- The floating-point format of a code. -/
def fmtFloat (c : Nat) : Option FFmt :=
  match c with
  | 0 => some .fp32 | 1 => some .fp16 | 2 => some .bf16 | 3 => some .e4m3 | 4 => some .e5m2 | 5 => some .e3m2 | 6 => some .e2m1
  | _ => none

/-- The integer formats: INT16, INT8, INT4, UINT8. -/
def fmtInt (c : Nat) : Bool := 7 ≤ c && c ≤ 10

/-- The limits of an integer format. -/
def intRange (c : Nat) : Int × Int :=
  match c with
  | 7 => (-32768, 32767)
  | 8 => (-128, 127)
  | 9 => (-8, 7)
  | _ => (0, 255)

/-- The FP16 value of an NG4 magnitude code (R251). -/
def ng4 (k : Nat) : Nat := [0x0000, 0x2E66, 0x32B8, 0x3548, 0x375C, 0x38E1, 0x3A3D, 0x3C00].getD k 0

/-- What an NG4 code stands for; code 0x8 is ERASED (R251, R252). -/
def ng4Val (c : Nat) : FVal :=
  if c = 8 then .zero else FFmt.fp16.decode (ng4 (c % 8) + (if 8 < c then 0x8000 else 0))

/-- decode (R257): exact for every format; a codebook element is the entry at its index. -/
def decodeElem (c : Nat) (book : List Nat) (x : Nat) : FVal :=
  match fmtFloat c with
  | some f => f.decode x
  | none =>
    if c = 7 then .ofInt (signedOf 16 x)
    else if c = 8 then .ofInt (signedOf 8 x)
    else if c = 9 then .ofInt (signedOf 4 x)
    else if c = 10 then .ofInt (x : Int)
    else if c = 13 then ng4Val x
    else FFmt.fp16.decode (book.getD x 0)

/-- Rounded to the nearest integer, ties to even (R254). -/
def roundInt (s : Bool) (m : Nat) (e : Int) : Int :=
  let n : Nat :=
    if 0 ≤ e then m <<< e.toNat
    else
      let k := (-e).toNat
      let n := m >>> k
      let r := m % 2 ^ k
      if 2 ^ (k - 1) < r || (r = 2 ^ (k - 1) && n % 2 = 1) then n + 1 else n
  if s then -(n : Int) else n

/-- The code of the low `w` bits of an integer. -/
def intCode (w : Nat) (i : Int) : Nat := (BitVec.ofInt w i).toNat

/-- The nearest NG4 magnitude code, a midway value to the even one (R254). -/
def ng4Nearest (v : FVal) : Nat :=
  let val (k : Nat) : FVal := FFmt.fp16.decode (ng4 k)
  ((List.range 7).find? fun k =>
    let two : FVal := v.add v
    let mid := (val k).add (val (k + 1))
    two.lt mid || (two.eq mid && k % 2 = 0)).getD 7

/-- Conversion of a value into a format (R254): the code, whether it saturated, and whether a NaN had no code. -/
def convertTo (c : Nat) (v : FVal) : Nat × Bool × Bool :=
  match fmtFloat c with
  | some f => f.convert v
  | none =>
    if c = 13 then
      match v with
      | .nan => (0, false, true)
      | .inf s => (if s then 15 else 7, true, false)
      | .fin s m e =>
        let k := ng4Nearest (.fin false m e)
        (if s && 0 < k then k + 8 else k, (FVal.fin false 1 0).lt (.fin false m e), false)
    else
      let (lo, hi) := intRange c
      match v with
      | .nan => (0, false, true)
      | .inf s => (intCode (fmtBits c) (if s then lo else hi), true, false)
      | .fin s m e =>
        let i := roundInt s m e
        let j := max lo (min hi i)
        (intCode (fmtBits c) j, j != i, false)

/-! ## Packing (R249) -/

/-- The bytes of `n` elements of a format. -/
def packedBytes (c n : Nat) : Nat :=
  match fmtBits c with
  | 4 => ceilDiv n 2
  | 6 => ceilDiv n 4 * 3
  | b => n * (b / 8)

/-- Element `i` of a packed tensor. -/
def elemAt (c : Nat) (b : List Byte) (i : Nat) : Nat :=
  let at_ (k : Nat) : Nat := (b.getD k 0).toNat
  match fmtBits c with
  | 4 => if i % 2 = 0 then at_ (i / 2) % 16 else at_ (i / 2) / 16
  | 6 =>
    let k := i / 4 * 3
    (at_ k + at_ (k + 1) * 256 + at_ (k + 2) * 65536) / 2 ^ (6 * (i % 4)) % 64
  | w => ofBytesLE ((b.drop (i * (w / 8))).take (w / 8))

/-- A list of element codes packed, padded with zero bits. -/
def packElems (c : Nat) : List Nat → List Byte
  | l =>
    match fmtBits c with
    | 4 => (List.range (ceilDiv l.length 2)).map fun j => BitVec.ofNat 8 (l.getD (2 * j) 0 + l.getD (2 * j + 1) 0 * 16)
    | 6 => (List.range (ceilDiv l.length 4)).flatMap fun j =>
        bytesLE 3 (((List.range 4).map fun i => l.getD (4 * j + i) 0 * 2 ^ (6 * i)).sum)
    | w => l.flatMap fun x => bytesLE (w / 8) x

/-! ## Accumulation (R258) -/

/-- A product's two elements with whether either is ERASED (R252). -/
structure Prod where
  a      : FVal
  b      : FVal
  erased : Bool := false
  deriving DecidableEq, Repr

/-- The exact sum of a chunk's products; an ERASED element's products are zero. -/
def chunkSum (l : List Prod) : FVal := l.foldl (fun s p => s.add (if p.erased then .zero else p.a.mul p.b)) .zero

/-- A list cut into pieces of `n`; `k` bounds how many. -/
def pieces {α : Type} (n : Nat) : Nat → List α → List (List α)
  | 0, _ => []
  | k + 1, l => if l.isEmpty then [] else l.take n :: pieces n k (l.drop n)

def chunksOf {α : Type} (n : Nat) (l : List α) : List (List α) := pieces (max 1 n) (l.length + 1) l

/-- The sum of one group (R258): chunks ascending, each scaled by its S1 pair. -/
def groupSum (c : Nat) (l : List Prod) (s1 : Nat → FVal × FVal) (base : Nat) : FVal :=
  ((chunksOf c l).foldl (fun (x : FVal × Nat) ch =>
    let p := rneV (chunkSum ch)
    let s := s1 x.2
    (rneV (x.1.add (rneV (p.mul (rneV (s.1.mul s.2))))), x.2 + 1)) (.zero, base)).1

/-- The lengths of the groups of `n` products, each of which begins at 0 or where `cut` says. -/
def cutLens (n : Nat) (cut : Nat → Bool) : List Nat :=
  let starts := (List.range n).filter fun k => k == 0 || cut k
  (starts.zip (starts.drop 1 ++ [n])).map fun e => e.2 - e.1

/-- The accumulator of a matrix command's output element (R258), before its tensor scales: groups ascending, of the given lengths,
each scaled by the S2 pair of where it begins; `c` is the products of a chunk. -/
def accumulate (c : Nat) (lens : List Nat) (l : List Prod) (s1 s2 : Nat → FVal × FVal) : FVal :=
  (lens.foldl (fun (x : FVal × List Prod × Nat) n =>
    let (acc, rest, k) := x
    let s := s2 k
    (rneV (acc.add (rneV ((groupSum c (rest.take n) s1 (k / max 1 c)).mul (rneV (s.1.mul s.2))))), rest.drop n, k + n)) (.zero, l, 0)).1

/-- The integer accumulator (R258): exact, saturating to INT32; the flag says whether it saturated. -/
def intAccumulate (l : List Prod) : FVal × Bool :=
  let v := chunkSum l
  let hi : FVal := .ofInt 2147483647
  let lo : FVal := .ofInt (-2147483648)
  if hi.lt v then (rneV hi, true) else if v.lt lo then (rneV lo, true) else (rneV v, false)

/-! ## The format counters (R254, R264) -/

/-- A counter of page 0x0C8 advanced by `n`; its ERR_SUM bit is set by its first event after the bit was cleared. -/
def Dev.fmtCount (d : Dev) (off bitn n : Nat) : Dev :=
  if n = 0 then d
  else
    let d := d.count 0x0C8 off n
    if d.flag 0x0C8 0x014 bitn then d else d.err 0x0C8 bitn

/-- The saturations and NaNs of conversions (R254). -/
def Dev.convCount (d : Dev) (sat nan : Nat) : Dev := (d.fmtCount 0x054 0 sat).fmtCount 0x058 1 nan

end Sys2Proof.Machine
end

