-- ==== Sys2Proof/Machine/Skein.lean ====
section
/-!
DEFINITION. Skein's commands (12): accesses, migrations, the placement command, prefetch schedules, lending between tiles and
to neighbours, and HBM.
-/
namespace Sys2Proof.Machine

/-- The register page of stream channel n. -/
def chanPage (n : Nat) : Nat := 0x020 + n

namespace Dev

/-- The record buffer of channel n (R85). -/
def recBase (d : Dev) (n : Nat) : Nat := d.pair48 (chanPage n) 0x044
def recSize (d : Dev) (n : Nat) : Nat := (d.reg (chanPage n) 0x04C).toNat

/-! ## Placement as a bounded loop (R271, R274) -/

/-- The regions of Skein follow a change of what Skein has to do (R394). -/
def skeinVotes (d : Dev) : Dev := forEach ((List.range 8).map (· + 80)) (fun r d => d.settle r) d

/-- The tier one step nearer to where a page's FIX or bounds hold it (R26, R271), if it is elsewhere. -/
def slewTier (x : Place) : Option Nat :=
  if x.tier = 7 then none
  else if x.pin then (if x.tier < fixTier x then some (x.tier + 1) else if fixTier x < x.tier then some (x.tier - 1) else none)
  else if x.tier < bestTier x then some (x.tier + 1)
  else if worstTier x < x.tier then some (x.tier - 1)
  else none

/-- A page moves one tier toward its bounds or FIX at adaptation priority. The flag is false where no frame frees (R272). -/
def slewPage (d : Dev) (p : Nat) : Dev × Bool :=
  let x := d.place p
  match slewTier x with
  | none => (d, true)
  | some t =>
    let d := d.roomIn t x
    if (d.moveFrame t x).isSome then (d.queueMig { page := p, dest := t, tile := x.tile, prio := .adapt }, true)
    else (d.err 0x0D0 1, false)

/-- The rank of a migration's queue (R274). -/
def migRank (m : Migration) : Nat :=
  if m.demand then 0 else match m.prio with
  | .reclaim => 1
  | .prefetch => 2
  | .adapt => 3

/-- The attributes a migration looks for a frame with. -/
def migPlace (d : Dev) (m : Migration) : Place :=
  if m.prio = .prefetch then { d.place m.page with tile := m.tile, anyTile := false } else d.place m.page

/-- The fastest other local tier within a page's bounds with a free frame (R281, R282). -/
def reclaimTier (d : Dev) (x : Place) : Option Nat :=
  (tiersOf x).find? fun t => t != x.tier && decide (t < 4) && (d.moveFrame t x).isSome

/-- The tier a migration goes to: a reclaim goes to the fastest one that is free when it is served. -/
def migDest (d : Dev) (m : Migration) : Nat :=
  if m.prio = .reclaim then (d.reclaimTier (d.place m.page)).getD m.dest else m.dest

/-- A migration that can switch: its page has a frame elsewhere, and its tier a free one. -/
def migReady (d : Dev) (m : Migration) : Bool :=
  let x := d.place m.page
  x.tier == 7 || x.tier == d.migDest m || (d.moveFrame (d.migDest m) (d.migPlace m)).isSome

/-- The migrations in the order in which they are served (R274). -/
def migOrder (d : Dev) : List Migration :=
  sortBy (fun a b => decide (migRank a < migRank b) || (migRank a == migRank b && decide (a.page ≤ b.page))) d.migs

/-- The migration in flight: the first in order that can switch, or, a reclaim aside, be given up (R272); with FRZ set, only the one
that was in flight when it was set (R41). -/
def migHead (d : Dev) : Option Migration :=
  d.migOrder.find? fun m => (d.migReady m || m.prio != .reclaim) && (m.svc || !d.frozen 0x0D0)

/-- Migrations that a task or a Loom command waits on go to the demand queue (R274). -/
def demandMigs (d : Dev) (p : Migration → Bool) : Dev :=
  { d with migs := d.migs.map fun m => if p m then { m with demand := true } else m }

/-- An access to an address waits for the placed range (R267). -/
def closedAt (d : Dev) (a : Nat) : Bool := spanOf a == .placed && !d.placedOpen

/-- An access to the placed range that need not wait ends the demand for its regions (R394). -/
def placedServed (d : Dev) : Dev := if d.demand then skeinVotes { d with demand := false } else d

/-- What a task's engine or a producer does in one command, if every access of it can be served (R267, R273): where an access to
the placed range must wait for HBM or a region, or a write for a migration, the command has not happened yet; the regions are
asked for (R394) and the migrations it waits on go to the demand queue (R274). -/
def whenServed (f : Dev → Dev) (d : Dev) : Dev :=
  let d' := f d
  let held := d'.held.drop d.held.length
  if !d.placedOpen && d'.accesses != d.accesses then skeinVotes { d with demand := true }
  else if held.isEmpty then (if d'.accesses != d.accesses then d'.placedServed else d')
  else d.demandMigs fun m => held.any fun h => pageOf h.addr == m.page

/-! ## Writes that waited, and the notifications that wait for them (R92, R273) -/

/-- Whether a record of channel n, or a part of one, is not visible in Skein yet: a write of its buffer is held or unanswered. -/
def recHeld (d : Dev) (n : Nat) : Bool :=
  let inside (a : Nat) : Bool := decide (d.recBase n ≤ a) && decide (a < d.recBase n + d.recSize n)
  (d.held.any fun h => h.who == .producer && inside h.addr) || d.remotes.any fun r => !r.read && r.who == .producer && inside r.addr

/-- A notification task of channel n (R92, R290). -/
def notifyTask (d : Dev) (n : Nat) (seq : Word) (off : Nat) : Dev :=
  let words : List Word := [8, 0, 0, 0, BitVec.ofNat 32 n, seq, BitVec.ofNat 32 off]
  (d.submitHw (d.field (chanPage n) 0x064 5 0) words none).1

/-- The notifications of channel n whose records are visible are posted, in order (R92, P3). -/
def postOwedOf (n : Nat) (d : Dev) : Dev :=
  let owed := (d.chan n).owed
  if owed.isEmpty || d.recHeld n then d
  else owed.foldl (fun d e => d.notifyTask n e.1 e.2) (d.setChan n { d.chan n with owed := [] })

def postOwed (d : Dev) : Dev := forEach (List.range 24) postOwedOf d

/-- The notification of channel n for its last record (R92): posted once the record is visible. -/
def notify (d : Dev) (n : Nat) (seq : Word) (off : Nat) : Dev :=
  postOwedOf n (d.setChan n { d.chan n with owed := (d.chan n).owed ++ [(seq, off)] })

/-! ## Prefetch schedules (R278, R279) -/

def pfSlot (d : Dev) (j : Nat) : PfSlot := Sparse.get (fun _ => {}) d.pf j

/-- A slot's record; PF_CTRL.RUN shows whether it runs. -/
def setPf (d : Dev) (j : Nat) (x : PfSlot) : Dev :=
  ({ d with pf := Sparse.put (fun _ => {}) d.pf j x } : Dev).setFlag 0x0D3 (0x04C + 0x10 * j) 8 x.run

def pfBase (d : Dev) (j : Nat) : Nat := d.pair48 0x0D3 (0x040 + 0x10 * j)

/-- Whether any slot runs. -/
def pfRunning (d : Dev) : Bool := (List.range 16).any fun j => (d.pfSlot j).run

/-- The writes held for the pages that no longer migrate are applied in issue order, once the placed range can be reached
(R267, R273), and the notifications that waited for them are posted (R92). -/
def releaseHeld (d : Dev) : Dev :=
  if !d.placedOpen then d
  else
    let mine := d.held.filter fun h => !d.migrating (pageOf h.addr)
    let d : Dev := { d with held := d.held.filter fun h => d.migrating (pageOf h.addr) }
    if mine.isEmpty then d else postOwed (lowWater (mine.foldl (fun d h => (d.store h.who h.addr h.data).1) d))

/-- Migrations given up: the one in flight completes (R16, R277). -/
def cancelMigs (d : Dev) (p : Migration → Bool) : Dev :=
  let h := d.migHead
  releaseHeld { d with migs := d.migs.filter fun m => !p m || some m == h }

/-- A slot stops: it issues no further moves, and what it placed stays (R16, R279). -/
def pfStop (d : Dev) (j : Nat) : Dev :=
  (d.cancelMigs fun m => m.slot == some j).setPf j { d.pfSlot j with run := false }

/-- A malformed part met (R278). -/
def pfBad (d : Dev) (j : Nat) : Dev := (d.pfStop j).err 0x0D0 3

/-- One page of a run (R279): skipped where its bounds or PIN exclude the tier or tile, passed over where it is in place or has
no data, else queued at prefetch priority. -/
def pfPage (j layer p tier tile : Nat) (d : Dev) : Dev :=
  let x := d.place p
  let skip := !(tiersOf x).contains tier || (tier = 0 && !x.anyTile && x.tile != tile)
  if skip then
    let o := 0x04C + 0x10 * j
    d.setField 0x0D3 o 31 16 (satAddN 16 (d.field 0x0D3 o 31 16) 1)
  else if x.tier = 7 || (x.tier = tier && (tier ≠ 0 || some (x.frame / 32) = d.liveTile tile)) then d
  else d.queueMig { page := p, dest := tier, tile := tile, prio := .prefetch, slot := some j, layer := layer }

/-- One run at an address (R278); `none` where it is malformed. -/
def pfRun (j layer a : Nat) (d : Dev) : Option Dev :=
  let (r, d) := d.read .producer a 16
  let num (o n : Nat) : Nat := ofBytesLE ((r.bytes.drop o).take n)
  let addr := num 0 6
  let cnt := num 6 2
  let tier := num 8 1
  let tile := num 9 1
  let fl := num 10 1
  if addr % 65536 ≠ 0 || cnt = 0 || 0x4000000000 < addr + 65536 * cnt || 3 < tier || 63 < tile || 1 < fl || num 11 5 ≠ 0 then none
  else
    some (forEach (List.range cnt) (fun i d =>
      pfPage j layer (addr / 65536 + i) tier (if fl = 1 then (tile + i) % 64 else tile) d) d)

/-- The address of layer entry `i` of slot j. -/
def pfEntry (d : Dev) (j i : Nat) : Nat := d.pfBase j + 16 + 16 * i

/-- The header of slot j is read (R278), once it can be: its base is 64-byte aligned. -/
def pfHead (d : Dev) (j : Nat) : Dev :=
  let a := d.pfBase j
  if d.closedAt a then d
  else
    let (r, d) := d.read .producer a 16
    let num (o n : Nat) : Nat := ofBytesLE ((r.bytes.drop o).take n)
    if a % 64 ≠ 0 || num 0 1 ≠ 1 || num 1 1 ≠ 0 || num 4 12 ≠ 0 || num 2 2 = 0 || 4096 < num 2 2 then d.pfBad j
    else d.setPf j { run := true, head := true, next := 0, layers := num 2 2 }

/-- The layer entries due are queued (R279): every entry with LAYER ≤ C + LOOKAHEAD, where C is the LAYER in service or −1; the
slot stops after its last run. `k` bounds how many. -/
def pfQueue (j : Nat) : Nat → Dev → Dev
  | 0, d => d
  | k + 1, d =>
    let x := d.pfSlot j
    if !x.run || !x.head then d
    else if x.layers ≤ x.next then (if d.migs.any fun m => m.slot == some j then d else d.pfStop j)
    else
      let e := d.pfEntry j x.next
      let layer := d.num e 2
      let runs := d.num (e + 4) 4
      let ptr := d.num (e + 8) 8
      let c1 := match d.loom.layer with | some c => c + 1 | none => 0
      if d.closedAt e then d
      else if d.num (e + 2) 2 ≠ 0 || runs = 0 || 65535 < runs || ptr % 64 ≠ 0 || 2 ^ 48 ≤ ptr ||
          (0 < x.next && layer ≤ d.num (d.pfEntry j (x.next - 1)) 2) then (d.read .producer e 16).2.pfBad j
      else if layer < c1 + d.field 0x0D3 (0x048 + 0x10 * j) 11 8 then
        if d.closedAt ptr then d
        else
          match (List.range runs).foldl (fun (o : Option Dev) i => o.bind (pfRun j layer (ptr + 16 * i)))
              (some (d.read .producer e 16).2) with
          | none => (d.read .producer e 16).2.pfBad j
          | some d' => pfQueue j k (d'.setPf j { x with next := x.next + 1 })
      else d

/-- One running slot goes on: its header, then what is due. -/
def pfGo (j : Nat) (d : Dev) : Dev :=
  let x := d.pfSlot j
  pfQueue j 4098 (if x.run && !x.head then d.pfHead j else d)

/-- The migrations of a LAYER that running slots asked for. -/
def pfMigs (d : Dev) (layer : Nat) (m : Migration) : Bool :=
  m.layer == layer && (match m.slot with | some j => (d.pfSlot j).run | none => false)

/-- Whether a Loom command of a LAYER waits for a running slot's entry (R279). -/
def pfGates (d : Dev) (layer : Nat) : Bool :=
  d.migs.any (d.pfMigs layer) ||
  (List.range 16).any fun j =>
    let x := d.pfSlot j
    x.run && (!x.head || (List.range (x.layers - x.next)).any fun i => d.num (d.pfEntry j (x.next + i)) 2 == layer)

/-- Every running slot queues what is due (R279); the migrations that the command in service waits for go to the demand queue (R274). -/
def pfAdvance (d : Dev) : Dev :=
  let d := forEach (List.range 16) pfGo d
  match d.loom.layer with
  | some l => if d.pfGates l then d.demandMigs (d.pfMigs l) else d
  | none => d

/-! ## Lending between tiles (R280, R281) -/

/-- The tile pages' LENT bit and Loom's TILES_LENT set or cleared. -/
def setLent (d : Dev) (t : Nat) (v : Bool) : Dev :=
  ((d.setFlag (0x080 + t) 0x040 4 v).setFlag 0x0C0 (0x0D0 + 4 * (t / 32)) (t % 32) v).settle t

/-- The pages that borrow a frame of tile t. -/
def borrowed (d : Dev) (t : Nat) : List Nat :=
  (d.places.filter fun e => e.2.tier == 0 && e.2.frame / 32 == t && d.liveTile e.2.tile != some t).map (·.1)

/-- The lent tiles whose pages have all gone stop being LENT (R281). -/
def reclaimEnd (d : Dev) : Dev :=
  let done := d.reclaims.filter fun t => (d.borrowed t).isEmpty
  forEach done (fun t d => d.setLent t false) { d with reclaims := d.reclaims.filter fun t => !done.contains t }

/-- A tile stops lending and reclaims (R281). -/
def reclaimTile (d : Dev) (t : Nat) : Dev :=
  if d.lent t && !d.reclaims.contains t then
    let d := forEach (d.borrowed t) (fun p d =>
      d.queueMig { page := p, dest := (d.place p).tier + 1, tile := (d.place p).tile, prio := .reclaim }) d
    reclaimEnd { d with reclaims := d.reclaims ++ [t] }
  else d

/-- Every lent tile of a set reclaims. -/
def reclaimTiles (d : Dev) (p : Nat → Bool) : Dev :=
  forEach ((List.range 64).filter p) (fun t d => d.reclaimTile t) d

/-- Tile t may lend (R280): its LEND_EN bit, no Loom task that names it, no slot running, its region not retired. -/
def mayLend (d : Dev) (t : Nat) : Bool :=
  d.flag 0x0D4 (0x040 + 4 * (t / 32)) (t % 32) && !(d.loom.slot.isSome && d.loom.tiles.testBit t) && !d.loomRuns t && !d.pfRunning &&
  !d.retired t

/-- A write of LEND_EN: a tile whose bit is cleared reclaims (R281). -/
def lendWritten (d : Dev) : Dev := d.reclaimTiles fun t => !d.flag 0x0D4 (0x040 + 4 * (t / 32)) (t % 32)

/-- A slot starts (R279): every lent tile reclaims, and its header is read. -/
def pfStart (d : Dev) (j : Nat) : Dev :=
  (pfGo j ((d.setPf j { run := true }).reclaimTiles fun _ => true)).skeinVotes

/-- A pre-ramp of a stream starts the slots set up for it, with ESC.CFG.PREFETCH_EN = 1 (R10, R279). -/
def pfPreRamp (d : Dev) (stream : Nat) : Dev :=
  if d.flag 0x067 0x040 1 then
    forEach (List.range 16) (fun j d =>
      if d.flag 0x0D3 (0x048 + 0x10 * j) 15 && d.field 0x0D3 (0x048 + 0x10 * j) 7 0 == stream && !(d.pfSlot j).run then d.pfStart j
      else d) d
  else d

/-- A cancelled pre-ramp stops its stream's slots (R16). -/
def pfCancel (d : Dev) (stream : Nat) : Dev :=
  forEach (List.range 16) (fun j d =>
    if (d.pfSlot j).run && d.field 0x0D3 (0x048 + 0x10 * j) 7 0 == stream then d.pfStop j else d) d

/-! ## Migration (R273, R276) -/

/-- One migration served (R272, R273): its page switches to a free frame, if need be after a demotion; a promotion, PIN or
prefetch that finds none leaves its page where it is, and a reclaim waits. -/
def serveMig (d : Dev) (m : Migration) : Dev :=
  let x := d.place m.page
  let t := d.migDest m
  let gone (d : Dev) : Dev := { d with migs := d.migs.erase m }
  if x.tier = 7 || (x.tier = t && (t ≠ 0 || m.slot.isNone)) then gone d
  else
    let d := d.roomIn t (d.migPlace m)
    match d.moveFrame t (d.migPlace m) with
    | some f => (gone d).switchPage m.page t f
    | none => (gone d).err 0x0D0 1

/-- What follows a switch: the page's held writes, its further slew, the demotions, the slots, the lent tiles. -/
def migTail (d : Dev) (p : Nat) : Dev :=
  let d := d.releaseHeld
  let d := if d.migrating p then d else (d.slewPage p).1
  (d.lowWater.pfAdvance.reclaimEnd).skeinVotes

/-- MIGRATION_SWITCH (R273, R274): the migration in flight switches. -/
def migSwitch (d : Dev) : Dev :=
  match d.migHead with
  | none => d
  | some m => (d.serveMig m).migTail m.page

/-! ## The placement command (R277) -/

/-- SET on one page. The flag is false where R272 held. -/
def plcSetPage (d : Dev) (p : Nat) : Dev × Bool :=
  let v := d.reg 0x0D1 0x04C
  let m := d.reg 0x0D1 0x050
  let x := d.place p
  let x := if bit m 0 then { x with best := bits v 5 3, worst := bits v 8 6 } else x
  let x := if bit m 1 then { x with fix := bits v 11 9, pin := bit v 12 } else x
  let x := if bit m 2 then { x with trap := bit v 13 } else x
  let x := if bit m 3 then { x with tile := bits v 19 14, anyTile := bit v 20 } else x
  let d := d.setPlace p x
  let d := if bit m 0 && x.worst < x.best then d.err 0x0D0 0 else d
  d.slewPage p

/-- FREE on one page (R277, R283, R287): a migration of it in flight completes, its queued ones are cancelled, the accesses
accepted before it end, its frame and shadow are released, and every W bit and all poison clear; its attributes stay. -/
def freePage (d : Dev) (p : Nat) : Dev :=
  let d := match d.migHead with
    | some m => if m.page = p then d.serveMig m else d
    | none => d
  let d := releaseHeld { d with migs := d.migs.filter fun m => m.page != p }
  (d.forgetPage p).setPlace p { d.place p with tier := 7, frame := 0, clean := false, ndev := 0, allWritten := false, lostAll := 0 }

/-- A placement entry as READ shows it (R269). -/
def plcEntry (d : Dev) (p : Nat) : Nat :=
  let x := d.place p
  x.tier + x.best * 2 ^ 3 + x.worst * 2 ^ 6 + x.fix * 2 ^ 9 + x.pin.toNat * 2 ^ 12 + x.trap.toNat * 2 ^ 13 + x.tile * 2 ^ 14 +
  x.anyTile.toNat * 2 ^ 20 + (d.migrating p).toNat * 2 ^ 21 + (d.pagePoisoned p).toNat * 2 ^ 22 + x.clean.toNat * 2 ^ 23 +
  x.ndev * 2 ^ 24

/-- PLC_STAT (R277). -/
def plcStat (d : Dev) (busy : Bool) (result done : Nat) : Dev :=
  d.setReg 0x0D1 0x058 (BitVec.ofNat 32 (busy.toNat + result * 16 + done * 256))

/-- A write of PLC_OP (R277): BUSY from now to PLC_DONE. -/
def plcOp (d : Dev) (op : Nat) : Dev :=
  let a := d.pair48 0x0D1 0x040
  let n := if op = 3 then 1 else max 1 (min 65536 (d.reg 0x0D1 0x048).toNat)
  if d.flag 0x0D1 0x058 0 then d.setField 0x0D1 0x058 7 4 3
  else if 0x4000000000 < a / 65536 * 65536 + 65536 * n then d.plcStat false 2 0
  else
    let pages := (List.range n).map (· + a / 65536)
    let start (d : Dev) (ok : Bool) : Dev :=
      (({ d with plc := some { result := if ok then 0 else 1, done := n } } : Dev).plcStat true 0 0).skeinVotes
    if op = 1 then
      let (d, ok) := pages.foldl (fun (x : Dev × Bool) p => let (d, k) := x.1.plcSetPage p; (d, x.2 && k)) (d, true)
      start d ok
    else if op = 2 then start (forEach pages (fun p d => d.freePage p) d) true
    else if op = 3 then
      let e := d.plcEntry (a / 65536)
      start ((d.setReg 0x0D1 0x05C (BitVec.ofNat 32 e)).setReg 0x0D1 0x060 (BitVec.ofNat 32 (e / 2 ^ 32))) true
    else d

/-! ## Neighbours (R282, R333) -/

/-- RECLAIM_TMO in µs. -/
def reclaimTmo (d : Dev) : Nat := 1000 * d.field 0x0D4 0x090 7 0

/-- When a reclaim of entry n was asked for. -/
def nbAsked (d : Dev) (n : Nat) : Option Nat := Sparse.get (fun _ => none) d.nbAt n

def nbOn (d : Dev) (n : Nat) : Bool := d.flag 0x0D4 (0x050 + 0x10 * n) 15

/-- A reclaim is asked for: the pages placed at the entry's device go back at reclaim priority (R282). -/
def nbReclaim (d : Dev) (n : Nat) : Dev :=
  let d : Dev := { d with nbAt := Sparse.put (fun _ => none) d.nbAt n (some d.now) }
  (forEach (d.nbPages (d.nbDev n)) (fun p d =>
    d.queueMig { page := p, dest := 3, tile := (d.place p).tile, prio := .reclaim }) d).skeinVotes

/-- A neighbour's pages are lost (R282): poisoned with NEIGHBOUR_LOST in ascending order, without a tier. -/
def nbPoison (d : Dev) (n : Nat) : Dev :=
  releaseHeld (forEach (d.nbPages (d.nbDev n)) (fun p d =>
    let d : Dev := { d with migs := d.migs.filter fun m => m.page != p }
    let d := d.poisonPage p 2
    d.setPlace p { d.place p with tier := 7, frame := 0, ndev := 0 }) d)

/-- The record of a lost neighbour or of a reclaim that timed out (R318). -/
def nbRecord (n : Nat) : LogEntry := { dom := .neighbour n, srcPage := 0x0D4, srcBit := 5 }

/-! ## HBM (R286, R287) -/

/-- What the ECC of an HBM word finds (R287). -/
def hbmEcc (d : Dev) (a : Nat) (f : EccFind) : Dev :=
  match f with
  | .clean => d
  | .corrected => (d.count 0x0D5 0x040).logCorrected { srcPage := 0x0D5, addr := a }
  | .uncorrectable =>
    let d := (d.count 0x0D5 0x044).setPair48 0x0D5 0x048 a
    let d := d.setLinePoison (a / 64) 1
    ((d.err 0x0D0 4).logContained { srcPage := 0x0D0, srcBit := 4, addr := a })

/-! ## Accesses (R267, R284, R287, R394) -/

/-- A core's access that waits for the placed range: Skein demand votes RUN (R394), and the instruction waits. -/
def placedWait (d : Dev) : Dev := (({ d with demand := true } : Dev).answer .waiting).skeinVotes

/-- Any other access that waits joins those that are served in order once the range can be reached. -/
def accessWait (x : WaitAccess) (d : Dev) : Dev := (({ d with waits := d.waits ++ [{ x with since := d.now }] } : Dev).answer .waiting).skeinVotes

/-- The status with which a task that reads this completes (R218, R284, R330). -/
def readStatus (r : ReadOut) : Option Nat :=
  if r.poison = 2 then some 0x31 else if r.poison ≠ 0 then some 0x30 else if r.trap then some 0x20 else none

/-- What a reader sees (R284, R330): a task's engine that meets poison or a trap completes its task with the status; a port gets
poisoned data; any other reader gets the bytes. -/
def readAnswer (d : Dev) (who : MemAgent) (r : ReadOut) : Dev :=
  match who with
  | .engine slot =>
    match readStatus r, d.task slot.val with
    | some st, some (t : Task) => if t.st = TaskSt.dispatched then ((d.retireTask slot.val st 0 0).advance).answer .poisoned else d.answer (.bytes r.bytes)
    | _, _ => d.answer (.bytes r.bytes)
  | .port _ => if r.poison ≠ 0 then d.answer .poisoned else d.answer (.bytes r.bytes)
  | .core _ | .producer => d.answer (.bytes r.bytes)

/-- SKEIN_READ (R265–R267, R284, R287, R445). A read of another device's memory sends its packet and waits for the answer. -/
def skeinRead (d : Dev) (who : MemAgent) (a n : Nat) (f : EccFind) : Dev :=
  if spanOf a = .placed && !d.placedOpen then d.accessWait { who := who, addr := a, len := n, found := f }
  else if d.remoteAddr a then (d.remoteRequest who true a n []).answer .waiting
  else
    let d := if spanOf a = .placed && (d.place (pageOf a)).tier = 3 then d.hbmEcc a f else d
    let (r, d) := d.read who a n
    onlyIf (spanOf a == .placed) placedServed (d.readAnswer who r).skeinVotes

/-- SKEIN_WRITE (R265–R267, R272, R283). -/
def skeinWrite (d : Dev) (who : MemAgent) (a : Nat) (data : List Byte) : Dev :=
  if spanOf a = .placed && !d.placedOpen then d.accessWait { who := who, addr := a, data := some data }
  else
    let (d, ok) := d.write who a data
    let d :=
      match who with
      | .engine slot =>
        if ok then d else (match d.task slot.val with
          | some t => if t.st = TaskSt.dispatched then (d.retireTask slot.val 0xF0 0 0).advance else d
          | none => d)
      | .core n => if ok then d else d.err (corePage n.val) 4
      | .port _ | .producer => d
    onlyIf (spanOf a == .placed) placedServed (d.answer .done).skeinVotes

/-- The accesses that waited are served in order once the placed range can be reached (R267, R394), and the schedules go on. -/
def serveWaits (d : Dev) : Dev :=
  if d.placedOpen then
    let d := d.releaseHeld
    (pfAdvance <| d.waits.foldl (fun (d : Dev) (x : WaitAccess) => match x.data with
      | none => d.skeinRead x.who x.addr x.len x.found
      | some l => d.skeinWrite x.who x.addr l) { d with waits := [] }).skeinVotes
  else d

end Dev

/-! ## The commands -/

/-- SKEIN_READ (R284). -/
def execSkeinRead (who : MemAgent) (addr : BitVec 48) (len : Nat) (found : EccFind) (s : State) :
    Host.Outcome State Fault Refusal := onDev (fun d => d.skeinRead who addr.toNat len found) s

/-- SKEIN_WRITE (R283). -/
def execSkeinWrite (who : MemAgent) (addr : BitVec 48) (data : List Byte) (s : State) : Host.Outcome State Fault Refusal :=
  onDev (fun d => d.skeinWrite who addr.toNat data) s

/-- MIGRATION_SWITCH (R273). -/
def execMigrationSwitch (s : State) : Host.Outcome State Fault Refusal := onDev Dev.migSwitch s

/-- PLC_SET (R277). -/
def execPlcSet (ag : Agent) (s : State) : Host.Outcome State Fault Refusal :=
  onDev (Dev.rwlWrite ag 0x0D1 fun d => d.plcOp 1) s

/-- PLC_FREE (R277). -/
def execPlcFree (ag : Agent) (s : State) : Host.Outcome State Fault Refusal :=
  onDev (Dev.rwlWrite ag 0x0D1 fun d => d.plcOp 2) s

/-- PLC_READ (R277). -/
def execPlcRead (ag : Agent) (s : State) : Host.Outcome State Fault Refusal :=
  onDev (Dev.rwlWrite ag 0x0D1 fun d => d.plcOp 3) s

/-- PLC_DONE (R277). -/
def execPlcDone (s : State) : Host.Outcome State Fault Refusal :=
  onDev (fun d =>
    match d.plc with
    | some x => ({ d with plc := none } : Dev).plcStat false x.result x.done
    | none => d) s

/-- PF_START (R279). -/
def execPfStart (ag : Agent) (slot : Fin 16) (s : State) : Host.Outcome State Fault Refusal :=
  onDev (Dev.rwlWrite ag 0x0D3 fun d => d.pfStart slot.val) s

/-- PF_STOP (R279). -/
def execPfStop (ag : Agent) (slot : Fin 16) (s : State) : Host.Outcome State Fault Refusal :=
  onDev (Dev.rwlWrite ag 0x0D3 fun d => if (d.pfSlot slot.val).run then (d.pfStop slot.val).skeinVotes else d) s

/-- TILE_LEND (R280). -/
def execTileLend (t : Fin 64) (s : State) : Host.Outcome State Fault Refusal :=
  onDev (fun d => if d.mayLend t.val && !d.lent t.val then d.setLent t.val true else d) s

/-- NB_RECLAIM (R282). -/
def execNbReclaim (ag : Agent) (n : Fin 4) (s : State) : Host.Outcome State Fault Refusal :=
  onDev (Dev.rwlWrite ag 0x0D4 fun d => if d.nbOn n.val then d.nbReclaim n.val else d) s

/-- NB_RECLAIM_TIMEOUT (R282, R318): RECLAIM_TMO after the reclaim was asked for. -/
def execNbReclaimTimeout (n : Fin 4) (s : State) : Host.Outcome State Fault Refusal :=
  onDev (fun d =>
    match d.nbAsked n.val with
    | some t =>
      if t + d.reclaimTmo ≤ d.now && !(d.nbPages (d.nbDev n.val)).isEmpty then
        ((d.nbPoison n.val).err 0x0D0 5).logContained (Dev.nbRecord n.val)
      else d
    | none => d) s

/-- NB_LENDER_RELEASE (R282): once all frames are returned, or RECLAIM_TMO + 5 ms after the reclaim; the entry's frames are released
and it lends none until its NBn_CFG or LEND_OUT is written (log entry 196). -/
def execNbLenderRelease (n : Fin 4) (s : State) : Host.Outcome State Fault Refusal :=
  onDev (fun d =>
    match d.nbAsked n.val with
    | some t =>
      if t + d.reclaimTmo + 5000 ≤ d.now || (d.nbPages (d.nbDev n.val)).isEmpty then
        { d with nbAt := Sparse.put (fun _ => none) d.nbAt n.val none, nbBack := n.val :: d.nbBack.filter (· != n.val) }
      else d
    | none => d) s

/-- NEIGHBOUR_LOSS (R282, R333). -/
def execNeighbourLoss (n : Fin 4) (s : State) : Host.Outcome State Fault Refusal :=
  onDev (fun d =>
    if d.nbOn n.val then
      let d := d.logContained (Dev.nbRecord n.val)
      let d := (d.setFlag 0x0D4 (0x050 + 0x10 * n.val) 15 false).setFlag 0x0D4 (0x05C + 0x10 * n.val) 31 true
      ((d.nbPoison n.val).err 0x0D0 5).skeinVotes
    else d) s

/-- HBM_INIT_DONE (R286). -/
def execHbmInitDone (s : State) : Host.Outcome State Fault Refusal :=
  onDev (fun d => ({ d with hbmReady := true } : Dev).serveWaits) s

/-- HBM_PATROL_SCRUB (R287): the scrubber reads a word of HBM. -/
def execHbmPatrolScrub (addr : BitVec 48) (found : EccFind) (s : State) : Host.Outcome State Fault Refusal :=
  onDev (fun d =>
    if d.reg 0x0D5 0x050 ≠ 0 && d.hbmReady && spanOf addr.toNat = .placed && (d.place (pageOf addr.toNat)).tier = 3 then
      d.hbmEcc addr.toNat found
    else d) s

end Sys2Proof.Machine
end

