-- ==== Sys2Proof/Machine/Records.lean ====
section
/-!
DEFINITION. The record buffers of the stream channels (04): tags, records, PAD and GAP records, notifications, frame
buffers and camera triggers.
-/
namespace Sys2Proof.Machine

namespace Dev

/-- A tag of Reel channel k as it stands now (R86). -/
def tagOf (d : Dev) (k : Nat) : Tag :=
  { pos := d.reelPos k, ch := k, dr := d.rstate k == 2, stale := d.reelStale k }

/-- The tag of stream channel n (CFG.TAG_CH). -/
def chanTag (d : Dev) (n : Nat) : Tag := d.tagOf (d.field (chanPage n) 0x040 2 0)

def recWr (d : Dev) (n : Nat) : Nat := (d.reg (chanPage n) 0x050).toNat
def recRd (d : Dev) (n : Nat) : Nat := (d.reg (chanPage n) 0x054).toNat

/-- The snapshot of handoff slot s, if it is held (R21). -/
def snap (d : Dev) (s : Nat) : Option Snapshot := Sparse.get (fun _ => none) d.snaps s

/-- The parts of channel n's buffer that snapshots hold (R21, R111): the offset and length of each, where the buffer now lies. -/
def heldParts (d : Dev) (n : Nat) : List (Nat × Nat) :=
  let lo := d.recBase n
  let hi := lo + d.recSize n
  (List.range 8).flatMap fun s =>
    match d.snap s with
    | some x => (x.evts.filter fun e => e.1 == n && decide (e.2.1 < hi) && decide (lo < e.2.1 + e.2.2)).map fun e =>
        (max e.2.1 lo - lo, min (e.2.1 + e.2.2) hi - max e.2.1 lo)
    | none => []

/-- The free bytes of channel n's buffer from WR on (R85, R111): up to the first record that is unread or held. -/
def recFree (d : Dev) (n : Nat) : Nat :=
  let sz := d.recSize n
  let wr := d.recWr n
  let dist (o : Nat) : Nat := (o + sz - wr % sz) % sz
  (d.heldParts n).foldl (fun a e => min a (if e.1 ≤ wr && wr < e.1 + e.2 then 0 else dist e.1))
    (if d.recRd n % sz = wr % sz then sz else dist (d.recRd n % sz))

/-- The bytes a record of LEN payload bytes takes (R86). -/
def recBytes (len : Nat) : Nat := roundUp (32 + len) 64

/-- The bytes a record takes from offset `wr` on, with the PAD before it (R88). -/
def recNeed (d : Dev) (n wr len : Nat) : Nat :=
  let sz := d.recSize n
  recBytes len + (if sz < wr + recBytes len then sz - wr else 0)

/-- The bytes that a GAP record and the record after it take (R91). -/
def gapNeed (d : Dev) (n len : Nat) : Nat :=
  let wr := d.recWr n
  let g := d.recNeed n wr 0
  g + d.recNeed n (if d.recSize n ≤ wr + g then wr + g - d.recSize n else wr + g) len

/-- Whether records that take `need` bytes fit with 64 bytes left free (R85). -/
def recRoom (d : Dev) (n need : Nat) : Bool := decide (need + 64 ≤ d.recFree n)

/-- The payload of the largest record that channel n writes under its configuration (R91). -/
def maxPayload (d : Dev) (n : Nat) : Nat :=
  let p := chanPage n
  if n < 8 then 0
  else if n < 10 then 8 * max 1 (min 512 (d.field p 0x080 9 0))
  else if n < 18 then 8 + 12 * max 16 (min 1000 (d.reg 0x03A 0x058).toNat)
  else if n = 18 then max 1 (min 64 (d.field p 0x080 30 24))
  else if n = 19 then max 1 (min 256 (d.field p 0x088 8 0))
  else if n = 20 then 80
  else if n = 21 then 16
  else 4096

end Dev

/-- A record to write (R86). -/
structure Rec where
  type    : Nat
  flags   : Nat := 0
  tag     : Tag := {}
  count   : Nat := 0
  aux     : Nat := 0
  payload : List Byte := []
  deriving DecidableEq, Repr

/-- The 32-byte header of a record whose LEN is `len` (R86). -/
def recHeader (n : Nat) (seq : Word) (len : Nat) (r : Rec) : List Byte :=
  bytesLE 1 r.type ++ bytesLE 1 n ++
  bytesLE 2 (r.flags ||| r.tag.dr.toNat ||| (r.tag.stale.toNat * 2)) ++ bytesLE 4 seq.toNat ++
  bytesLE 8 (r.tag.pos + r.tag.ch * 2 ^ 48) ++ bytesLE 4 len ++ bytesLE 4 r.count ++ bytesLE 8 r.aux

namespace Dev

/-- A stream channel's page follows its work (R37): an open frame, an open event record, a read or a push in progress. -/
def streamBusy (d : Dev) (n : Nat) : Bool :=
  let c := d.chan n
  c.frame.isSome || !c.words.isEmpty || c.busy || c.push.isSome

/-- A channel's buffer is empty after DISABLED (R38): the Flyer streams that read it go on at its start. -/
def rewind (n : Nat) (d : Dev) : Dev :=
  forEach ((d.streams.map (·.1)).filter fun e => d.field (streamReg e 0x18).1 (streamReg e 0x18).2 4 0 == n) (fun e d =>
    { d with streams := Sparse.put (fun _ => {}) d.streams e { Sparse.get (fun _ => {}) d.streams e with off := 0, used := 0 } }) d

def streamWork (n : Nat) (d : Dev) : Dev :=
  d.work (chanPage n) (fun d => d.streamBusy n) (fun d => (d.setChan n {}).rewind n)

/-- Writes one record, with a PAD before it where it would not fit before the end of the buffer (R86, R88, R89), and posts
the notification that is due (R92). The caller has checked the room. A PAD is its header alone: nothing reads the rest (log
entry 48). -/
def writeRecord (d : Dev) (n : Nat) (r : Rec) : Dev :=
  let p := chanPage n
  let sz := d.recSize n
  let total := recBytes r.payload.length
  let wrap := decide (sz < d.recWr n + total)
  let pad : List Byte := recHeader n 0 (sz - d.recWr n - 32) { type := 0 }
  let d := if wrap then d.put .producer (d.recBase n + d.recWr n) pad else d
  let off := if wrap then 0 else d.recWr n
  let seq := d.reg p 0x058
  let body := recHeader n seq r.payload.length r ++ r.payload
  let d := d.put .producer (d.recBase n + off) (body ++ List.replicate (total - body.length) 0)
  let d := (d.setReg p 0x050 (BitVec.ofNat 32 (if off + total = sz then 0 else off + total))).setReg p 0x058 (seq + 1)
  let d := if r.type = 0x0F then d.countFrz p 0x060 else d
  let c := { d.chan n with wroteAt := d.now }
  let every := max 1 (d.field p 0x064 15 8)
  let overlaps (e : EvtRec) : Bool := (decide (e.off < off + total) && decide (off < e.off + e.len)) || (wrap && decide (d.recWr n ≤ e.off))
  let kept := c.recs.filter fun e => !overlaps e
  let c := if r.type = 0x03 && (n = 8 || n = 9) then { c with recs := kept ++ [{ off := off, len := total, seq := seq }] }
    else { c with recs := kept }
  if r.type = 0x0F || every ≤ c.since + 1 then (d.setChan n { c with since := 0 }).notify n seq off
  else d.setChan n { c with since := c.since + 1 }

/-- The GAP records of channel n that can be written now, oldest first (R90, R91): an OVERFLOW gap once it and a record of `next`
payload bytes fit, any other once it fits. While CTRL.FRZ is set none is written, but for those of losses before an item that was
in service (`svc`), which are no FREEZE gaps. `k` bounds how many. -/
def flushGaps (n : Nat) (svc : Bool) (next : Nat) : Nat → Dev → Dev
  | 0, d => d
  | k + 1, d =>
    match (d.chan n).gaps with
    | [] => d
    | (cause, cnt) :: rest =>
      if d.frozen (chanPage n) && (!svc || cause = 6) then d
      else if d.recRoom n (if cause = 1 then d.gapNeed n next else d.recNeed n (d.recWr n) 0) then
        let d := d.setChan n { d.chan n with gaps := rest }
        flushGaps n svc next k (d.writeRecord n { type := 0x0F, tag := d.chanTag n, count := cnt, aux := cause })
      else d

/-- Whether channel n's page takes captures: enabled, or draining what it accepted. -/
def capturing (d : Dev) (n : Nat) : Bool :=
  !d.absentPage (chanPage n) && (d.running (chanPage n) || d.pageState (chanPage n) == 3)

/-- Captures of channel n lost to a cause (R90, R91): they join the last gap if its cause is the same, and the gaps that fit
are written. A channel that is not enabled loses nothing. -/
def addLoss (d : Dev) (n cause cnt : Nat) : Dev :=
  if !d.capturing n then d
  else
    let c := d.chan n
    let gaps := match c.gaps.getLast? with
      | some (k, m) => if k = cause then c.gaps.dropLast ++ [(k, m + cnt)] else c.gaps ++ [(cause, cnt)]
      | none => [(cause, cnt)]
    let d := (d.setChan n { c with gaps := gaps, lost := true }).countFrz (chanPage n) 0x05C cnt
    let d := if cause = 1 then d.err (chanPage n) 0 else if cause = 5 then d.err (chanPage n) 1 else d
    flushGaps n false (d.maxPayload n) 8 d

/-- A capture of channel n becomes a record (R85–R91): discarded and counted while frozen, unless it was in service (`svc`),
while a gap before it cannot be written, or while it does not fit; ignored while the page is not enabled. The flag says
whether the record was written. -/
def captureOk (d : Dev) (n : Nat) (svc : Bool) (r : Rec) (lostCount : Nat) : Dev × Bool :=
  if !d.capturing n then (d, false)
  else if d.frozen (chanPage n) && !svc then (d.addLoss n 6 lostCount, false)
  else
    let d := flushGaps n svc r.payload.length 8 d
    let before := (d.chan n).gaps.filter fun g => !(d.frozen (chanPage n) && g.1 == 6)
    if before.isEmpty && d.recRoom n (d.recNeed n (d.recWr n) r.payload.length) then (d.writeRecord n r, true)
    else (d.addLoss n 1 lostCount, false)

/-- A capture of channel n that was not in service before. -/
def capture (d : Dev) (n : Nat) (r : Rec) (lostCount : Nat) : Dev := (d.captureOk n false r lostCount).1

/-- The open record of event channel n is written (R101). -/
def closeEvents (d : Dev) (n : Nat) : Dev :=
  let c := d.chan n
  if c.words.isEmpty then d
  else
    let r : Rec := { type := 3, flags := c.eflags, tag := c.tag, count := c.words.length,
                     payload := c.words.flatMap fun w => bytesLE 8 w.toNat }
    let d := d.setChan n { c with words := [], eflags := 0 }
    streamWork n (d.captureOk n true r c.words.length).1

/-- A loss at channel n: an open event record, whose words came before it, closes first, so that records and gaps stay in capture
order (R89; log entry 182). -/
def lose (d : Dev) (n cause cnt : Nat) : Dev := (d.closeEvents n).addLoss n cause cnt

/-! ## Frame buffers and triggers (R97, R98) -/

/-- The frame buffers of camera n that a snapshot holds (R21). -/
def heldBufs (d : Dev) (n : Nat) : List Nat :=
  (List.range 8).flatMap fun s =>
    match d.snap s with
    | some x => (x.bufs.filter fun e => e.1 == n).map (·.2)
    | none => []

/-- Whether buffer k of camera n is free (R97): released in BUF_FREE, not one of the newest completed frames, not in a
snapshot, and not the one that the open frame fills. -/
def bufIsFree (d : Dev) (n k : Nat) : Bool :=
  d.flag (chanPage n) 0x098 k && !((d.chan n).done.any fun f => f.buf == k) && !(d.heldBufs n).contains k &&
  (d.chan n).frame.map (·.buf) != some k

/-- The lowest-numbered free buffer of camera n (R95). -/
def freeBuf (d : Dev) (n : Nat) : Option Nat :=
  (List.range (max 10 (min 32 (d.field (chanPage n) 0x094 5 0)))).find? fun k => d.bufIsFree n k

/-- A FRAME MARK triggers camera n (R98): its trigger output becomes active, or the trigger is skipped while its previous
frame, kept or discarded, has not reached its frame end. -/
def camTrigger (d : Dev) (n : Nat) : Dev :=
  let c := d.chan n
  if c.frame.isSome || c.skip then d.countFrz (chanPage n) 0x09C
  else d.setChan n { c with trig := some (d.chanTag n), trigOn := some d.now }

end Dev

end Sys2Proof.Machine
end

