-- ==== Sys2Proof/Machine/Cliff.lean ====
section
/-!
DEFINITION. The cliff watch (06, R132–R142) and the pack supervisor (R153–R157) with their commands.
-/
namespace Sys2Proof.Machine

namespace Dev

/-- The register base of cliff channel n. -/
def cliffBase (n : Nat) : Nat := 0x040 + 0x20 * n

/-- The pending channels whose slot is still ahead in the round (R133); before a round, all of them. -/
def cliffAhead (d : Dev) : List Nat :=
  (List.range 8).filter fun n => (d.cliff n).pending && decide (d.roundAt.getD 0 ≤ n)

/-- The cliff page follows its checks: a round or a pending request is work; a draining page finishes its round (R158), and gives up
the round's place and the requests behind it as it ends (R38). -/
def cliffWork (d : Dev) : Dev :=
  d.work 0x040 (fun d => d.cliffRun.isSome || !d.cliffAhead.isEmpty || (d.pageState 0x040 != 3 && d.cliffs.any fun e => e.2.pending))
    fun d =>
      let d := forEach (List.range 8) (fun n d => d.setCliff n { d.cliff n with pending := false, guarded := false, retry := false }) d
      { d with roundAt := none }

/-- A check of channel n is requested (R132): ignored while the channel is disabled or the page takes no work, merged while one
is pending. -/
def cliffRequest (guarded retry : Bool) (n : Nat) (d : Dev) : Dev :=
  let c := d.cliff n
  if !d.flag 0x040 (cliffBase n) 0 || !d.running 0x040 then d
  else if c.pending then d.countFrz 0x040 0x150
  else cliffWork (d.setCliff n { c with pending := true, guarded := guarded, retry := retry })

/-- The channels that a request mask names. -/
def cliffRequests (d : Dev) (mask : Nat) : Dev :=
  forEach ((List.range 8).filter mask.testBit) (cliffRequest false false) d

/-- The round ends with its last slot (R133): no channel is ahead in it. -/
def cliffRoundEnd (d : Dev) : Dev := if d.cliffAhead.isEmpty then { d with roundAt := none } else d

/-- A slot starts (R133): the lowest channel ahead is served; VEMIT is measured, the request is no longer pending, the check's
configuration holds for it from now on (R158), and its record's tag is taken with the first ambient conversion (R87). -/
def cliffSlot (d : Dev) (vemit : Nat) : Dev :=
  match d.cliffRun, d.cliffAhead.head? with
  | none, some n =>
    let c := d.cliff n
    let d := d.setCliff n { c with pending := false, guarded := false, retry := false, started := d.now }
    let d := if d.frozen 0x040 then d else d.setReg 0x040 0x158 (BitVec.ofNat 32 vemit)
    let run : CliffRun :=
      { ch := n, guarded := c.guarded, retry := c.retry, iUse := c.iUse, cfg := d.reg 0x040 (cliffBase n),
        thr := d.reg 0x040 (cliffBase n + 4), ambMax := d.reg 0x040 0x148, headMin := d.reg 0x040 0x144, tag := d.chanTag 21 }
    { d with cliffRun := some run, roundAt := some (n + 1) }
  | _, _ => d

end Dev

/-- Half of a sum, rounded to nearest with ties to even (R134). -/
def rneHalf (s : Nat) : Nat := if s % 2 = 1 && s / 2 % 2 = 1 then s / 2 + 1 else s / 2

/-- What a check measures (R133–R136): the two ambient and the two lit conversions, the lowest V(EMITn), the lowest level at which
it stayed for more than 200 ns at a stretch while the headroom monitor was armed (the least, over such stretches, of the highest
V(EMITn) in the stretch), the emitter current, and whether the current exceeded its limit. -/
structure CliffSample where
  a1      : Nat
  a2      : Nat
  l1      : Nat
  l2      : Nat
  headMv  : Nat
  stayMv  : Nat
  iMeas   : Nat
  overI    : Bool
  deriving DecidableEq, Repr

/-- A check's outcome (R134, R136). -/
structure CliffOut where
  amb    : Nat
  lit    : Nat
  thr    : Nat
  cause  : Nat
  result : Nat
  deriving DecidableEq, Repr

namespace Dev

/-- I_CMD of channel n: below 10 acts as 10. -/
def iCmd (d : Dev) (n : Nat) : Nat := max 10 (d.field 0x040 (cliffBase n) 15 8)

end Dev

namespace CliffRun

/-- The configuration of a check (R134–R137): I_CMD below 10 acts as 10, I_MIN is held to 10–250 and above I_CMD acts as I_CMD,
HEAD_MIN is held to 200–1,000. -/
def iCmd (r : CliffRun) : Nat := max 10 (bits r.cfg 15 8)
def iMin (r : CliffRun) : Nat := min r.iCmd (max 10 (min 250 (bits r.thr 23 16)))
def act (r : CliffRun) : Nat := bits r.cfg 2 1
def reelCh (r : CliffRun) : Nat := bits r.cfg 6 4
def minHead (r : CliffRun) : Nat := max 200 (min 1000 r.headMin.toNat)

end CliffRun

namespace Dev

/-- The decision of a check (R134–R136). -/
def cliffDecide (d : Dev) (r : CliffRun) (x : CliffSample) : CliffOut :=
  let amb := rneHalf (x.a1 + x.a2)
  let lit := rneHalf (x.l1 + x.l2)
  let thr := bits r.thr 11 0 * r.iUse / r.iCmd
  let cause :=
    if x.stayMv < r.minHead then 1
    else if d.reelStale r.reelCh then 2
    else if r.ambMax.toNat < amb || x.l1 = 4095 || x.l2 = 4095 then 3
    else if x.overI then 4
    else 0
  { amb := amb, lit := lit, thr := thr, cause := cause,
    result := if cause ≠ 0 then 2 else if (lit : Int) - amb < thr then 1 else 0 }

end Dev

/-- The halt cause of a check's outcome (R137, R138): 1 CLIFF, 2 UNTRUSTED, 0 no trip. -/
def CliffRun.trip (r : CliffRun) (o : CliffOut) : Nat :=
  if o.result = 1 then 1
  else if o.result = 2 then
    match r.act with
    | 1 => if o.cause = 1 && r.iMin < r.iUse then 0 else 2
    | 2 => 0
    | _ => 2
  else 0

namespace Dev

/-- CH_STAT and CH_LAST of channel n after a check, held by FRZ (R41). -/
def cliffStatus (d : Dev) (n : Nat) (o : CliffOut) (x : CliffSample) : Dev :=
  let c := d.cliff n
  if d.frozen 0x040 then d
  else
    let st := o.result + o.cause * 16 + c.untr.toNat * 128 + c.iUse * 256 + x.iMeas * 2 ^ 16 + min 255 (x.headMv / 25) * 2 ^ 24
    (d.setReg 0x040 (cliffBase n + 8) (BitVec.ofNat 32 st)).setReg 0x040 (cliffBase n + 0x0C)
      (BitVec.ofNat 32 (o.amb + o.lit * 2 ^ 16))

/-- The record of a check (R142). -/
def cliffRecord (d : Dev) (r : CliffRun) (o : CliffOut) (x : CliffSample) (tripped : Bool) : Dev :=
  let dr := d.rstate r.reelCh == 2
  let flags := r.guarded.toNat + r.retry.toNat * 2 + tripped.toNat * 4 + dr.toNat * 8
  let payload := bytesLE 1 r.ch ++ bytesLE 1 o.result ++ bytesLE 1 o.cause ++ bytesLE 1 flags ++ bytesLE 1 r.iUse ++
    bytesLE 1 x.iMeas ++ bytesLE 2 o.amb ++ bytesLE 2 o.lit ++
    bytesLE 2 (BitVec.ofInt 16 ((o.lit : Int) - o.amb)).toNat ++ bytesLE 2 o.thr ++ bytesLE 2 x.headMv
  d.capture 21 { type := 4, tag := r.tag, count := 1, payload := payload } 1

/-- The counters and status of a check, before its trip (R137, R141, R145). -/
def cliffCounts (d : Dev) (r : CliffRun) (o : CliffOut) (x : CliffSample) : Dev :=
  let b := cliffBase r.ch
  let d := d.countFrz 0x040 (b + 0x10)
  let d := if o.result = 1 then d.countFrz 0x040 (b + 0x14) else d
  let d := if o.result = 2 then (d.countFrz 0x040 (b + 0x18)).err 0x040 (8 + r.ch) else d
  let d := if x.overI then d.countFrz 0x040 0x154 else d
  d.setCliff r.ch { d.cliff r.ch with checked := true, result := o.result, untr := o.result == 2 }

/-- COMPLIANCE under REDUCE (R137): I_USE is lowered and a retry requested at once. -/
def cliffReduce (d : Dev) (r : CliffRun) (o : CliffOut) : Dev :=
  if o.cause = 1 && r.act = 1 && r.iMin < r.iUse then
    cliffRequest false true r.ch (d.setCliff r.ch { d.cliff r.ch with iUse := max r.iMin (3 * r.iUse / 4) })
  else d

/-! ## Configuration (R139) -/

/-- The GUARD set. -/
def guardSet (d : Dev) (chs : Nat) : Dev :=
  forEach ((List.range 8).filter chs.testBit) (fun n d =>
    let d := d.setFlag 0x040 0x140 n true
    if d.field 0x040 (cliffBase n) 2 1 = 2 then d.setField 0x040 (cliffBase n) 2 1 0 else d) d

/-- A write of CH_CFG of channel n (R33, R139, R145), merged with the bytes that `m` does not enable: a GUARD channel keeps its EN,
and its ACT where 2 is written; I_USE follows I_CMD where that byte is written (R137). -/
def writeCliffCfg (d : Dev) (n : Nat) (v m : Word) : Dev :=
  let b := cliffBase n
  let old := d.reg 0x040 b
  let v := putBits (v &&& 0x3FF77) 15 8 (max 10 (bits v 15 8))
  let guarded := d.flag 0x040 0x140 n
  let keepEn := guarded && bit m 0 && !bit v 0
  let keepAct := guarded && bit m 0 && bits v 2 1 == 2
  let v := if keepEn then putBit v 0 (bit old 0) else v
  let v := if keepAct then putBits v 2 1 (bits old 2 1) else v
  let d := d.setReg 0x040 b v
  let c := d.cliff n
  let c := { c with iUse := if bit m 8 then bits v 15 8 else c.iUse, checked := c.checked && bit old 0 && bit v 0, pending := c.pending && bit v 0 }
  let d := d.setCliff n c
  let d := if d.frozen 0x040 then d else d.setField 0x040 (b + 8) 15 8 c.iUse
  let d := if keepEn || keepAct then d.err 0x040 0 else d
  cliffWork d

/-- CTRL.EN = 0 is refused, with CTRL_REFUSED, while GUARD is not zero (R139). -/
def cliffDisableRefused (d : Dev) : Bool := d.field 0x040 0x140 7 0 != 0

/-! ## The pack supervisor (R153–R157) -/

/-- The period of polls in µs (R153). -/
def pollPeriod (d : Dev) : Nat := 1000 * max 50 (min 10000 (d.field 0x042 0x044 15 0))

/-- A pack-loss trigger (R155, R150). -/
def packLoss (d : Dev) (trig : Nat) : Dev :=
  let d := (d.setFlag 0x042 0x048 3 true).setField 0x042 0x048 9 8 trig
  let d := ((d.countFrz 0x042 0x060).errBit 0x042 0).safetyEvent
  ({ d with packSup := { d.packSup with polls := 0 } } : Dev).packChg

/-- The pack page follows its polls (R37): the counters of failed and of complete polls reset as it ends (R38). -/
def packWork (d : Dev) : Dev :=
  d.work 0x042 (fun d => d.packSup.reading.isSome) fun d =>
    (({ d with packSup := { d.packSup with polls := 0 } } : Dev).setField 0x042 0x048 7 4 0).packChg

/-- A poll starts (R153, R157). -/
def packPoll (d : Dev) : Dev :=
  if d.pkg = .rm && d.running 0x042 && d.packSup.reading.isNone && d.packSup.pollAt + d.pollPeriod ≤ d.now then
    packWork { d with packSup := { d.packSup with reading := some [], pollAt := d.now } }
  else d

/-- A poll fails (R153, R155). -/
def packFail (d : Dev) (bit : Nat) : Dev :=
  let d := (({ d with packSup := { d.packSup with reading := none, polls := 0 } } : Dev).err 0x042 bit).setFlag 0x042 0x048 1 false
  let fails := satAddN 4 (d.field 0x042 0x048 7 4) 1
  let d := d.setField 0x042 0x048 7 4 fails
  if fails = 3 then d.packLoss 2 else d

/-- LOCKOUT clears (R156): presence for 500 ms and two complete polls. -/
def packUnlock (d : Dev) : Dev :=
  if d.flag 0x042 0x048 0 && d.packSup.presAt + 500000 ≤ d.now && 2 ≤ d.packSup.polls then
    (d.setFlag 0x042 0x048 3 false).packChg
  else d

/-- A complete poll (R153, R155, R156): its five words in order. -/
def packComplete (d : Dev) (ws : List Nat) : Dev :=
  let set (i off : Nat) (d : Dev) : Dev :=
    if d.frozen 0x042 then d else d.setReg 0x042 off (BitVec.ofNat 32 (ws.getD i 0))
  let curr := BitVec.ofInt 32 (signedOf 16 (ws.getD 1 0))
  let v := ws.getD 0 0
  let last := d.packSup.volt
  let d := set 4 0x05C (set 3 0x058 (set 2 0x054 (set 0 0x04C d)))
  let d := if d.frozen 0x042 then d else d.setReg 0x042 0x050 curr
  let d := (d.setFlag 0x042 0x048 1 true).setField 0x042 0x048 7 4 0
  let d : Dev := { d with packSup := { d.packSup with reading := none, polls := d.packSup.polls + 1, volt := some v } }
  let step := match last with
    | some u => decide (d.field 0x042 0x044 31 16 < max u v - min u v)
    | none => false
  if step then d.packLoss 3 else d.packUnlock

/-- The next word of a poll; with the fifth the poll is complete (R153). -/
def packWord (d : Dev) (ws : List Nat) (bytes : List Byte) : Dev :=
  let ws := ws ++ [ofBytesLE (bytes.take 2)]
  if ws.length = 5 then d.packComplete ws else { d with packSup := { d.packSup with reading := some ws } }

/-- A Read Word of the poll ends (R153): with a NACK, with a timeout (25 ms of clock stretching among them), with a wrong PEC, which
counts where PEC_EN = 1, or with its word. -/
def packRead (d : Dev) (r : BusResult) : Dev :=
  match d.packSup.reading with
  | none => d
  | some ws =>
    match r with
    | .nack | .timeout => d.packFail 1
    | .pecError bytes => if d.flag 0x042 0x040 1 then d.packFail 2 else d.packWord ws bytes
    | .data bytes => d.packWord ws bytes

/-- PACK_PRES has been stable for 100 µs (R154, R155): PRES follows it. -/
def packAccept (d : Dev) : Dev :=
  let present := d.packSup.pin == d.flag 0x042 0x040 2
  if d.pkg = .rm && d.packSup.pinAt + 100 ≤ d.now && present != d.flag 0x042 0x048 0 then
    let d := d.setFlag 0x042 0x048 0 present
    if present then ({ d with packSup := { d.packSup with presAt := d.now, polls := 0 } } : Dev).packChg
    else if d.running 0x042 then d.packLoss 1
    else d.packChg
  else d

end Dev

/-! ## The commands -/

/-- CLIFF_CHECK_WRITE (R132): a W1S register, so any agent may write it. -/
def execCliffCheckWrite (_ag : Agent) (chs : BitVec 8) (s : State) : Host.Outcome State Fault Refusal :=
  onDev (Dev.anyWrite 0x040 fun d => d.cliffRequests chs.toNat) s

/-- CLIFF_GUARD_EXPIRY (R140): acts 10,000 µs after the channel's last check start, with no request pending. -/
def execCliffGuardExpiry (ch : Fin 8) (s : State) : Host.Outcome State Fault Refusal :=
  onDev (fun d =>
    let c := d.cliff ch.val
    if d.flag 0x040 0x140 ch.val && d.flag 0x040 (Dev.cliffBase ch.val) 0 && d.running 0x040 && !c.pending &&
        c.started + 10000 ≤ d.now then
      (Dev.cliffRequest true false ch.val d).countFrz 0x040 0x154
    else d) s

/-- CLIFF_SLOT_START (R133). -/
def execCliffSlotStart (vemit : BitVec 16) (s : State) : Host.Outcome State Fault Refusal :=
  onDev (fun d => d.cliffSlot vemit.toNat) s

/-- The decision of the check in its slot (R134–R138, R141, R142). -/
def State.cliffDecision (s : State) (x : CliffSample) : State :=
  match s.dev.cliffRun with
  | none => s
  | some r =>
    let d : Dev := { s.dev with cliffRun := none }
    let o := d.cliffDecide r x
    let cause := r.trip o
    let s1 : State := { s with dev := ((d.cliffCounts r o x).cliffReduce r o).cliffRoundEnd }
    let s2 := if cause = 0 then s1 else s1.trip cause r.ch
    let tripped := cause != 0 && s1.halt.st.driving
    { s2 with dev := Dev.cliffWork ((s2.dev.cliffStatus r.ch o x).cliffRecord r o x tripped) }

/-- CLIFF_DECISION (R134). -/
def execCliffDecision (a1 a2 l1 l2 : BitVec 12) (headMv stayMv : BitVec 16) (iMeas : BitVec 8) (overI : Bool)
    (s : State) : Host.Outcome State Fault Refusal :=
  onState (fun s => s.cliffDecision { a1 := a1.toNat, a2 := a2.toNat, l1 := l1.toNat, l2 := l2.toNat, headMv := headMv.toNat,
                                      stayMv := stayMv.toNat, iMeas := iMeas.toNat, overI := overI }) s

/-- GUARD_SET (R139): a W1S register, so any agent may write it. -/
def execGuardSet (_ag : Agent) (chs : BitVec 8) (s : State) : Host.Outcome State Fault Refusal :=
  onDev (Dev.anyWrite 0x040 fun d => d.guardSet chs.toNat) s

/-- PACK_POLL (R153). -/
def execPackPoll (s : State) : Host.Outcome State Fault Refusal := onDev Dev.packPoll s

/-- PACK_READ_DONE (R153). -/
def execPackReadDone (r : BusResult) (s : State) : Host.Outcome State Fault Refusal := onDev (fun d => (d.packRead r).packWork) s

/-- PACK_PRES_CHANGE (R154). -/
def execPackPresChange (level : Bool) (s : State) : Host.Outcome State Fault Refusal :=
  onDev (fun d => { d with packSup := { d.packSup with pin := level, pinAt := d.now } }) s

/-- PACK_PRES_ACCEPT (R154). -/
def execPackPresAccept (s : State) : Host.Outcome State Fault Refusal := onDev Dev.packAccept s

end Sys2Proof.Machine
end

