-- ==== Sys2Proof/Machine/Whorl.lean ====
section
/-!
DEFINITION. Whorl (07): the mesh and the sensor ingress, the neuron model of R165, ticks, wake neurons with their storm
limiters, configuration windows, and Whorl's commands.
-/
namespace Sys2Proof.Machine

/-! ## The neuron store (R163, R164) -/

/-- The address of core c's part of the Whorl aperture. -/
def whorlBase (c : Nat) : Nat := 0x10000000000 + 0x40000 * c

/-- A neuron's configuration (R164, NCFG). -/
structure NCfg where
  thrBase    : Nat
  outShift   : Nat
  leakShift  : Nat
  leakGroup  : Nat
  subtract   : Bool
  negEn      : Bool
  adaptEn    : Bool
  refract    : Nat
  foBase     : Nat
  foCnt      : Nat
  deriving DecidableEq, Repr

/-- A neuron's state (R164, NSTATE). -/
structure NState where
  v   : Int
  ref : Nat
  th  : Nat
  deriving DecidableEq, Repr

/-- The bits `hi` down to `lo` of a number. -/
def slice (n hi lo : Nat) : Nat := (n >>> lo) % 2 ^ (hi + 1 - lo)

namespace Dev

/-- NCFG of neuron n of core c. -/
def ncfg (d : Dev) (c n : Nat) : NCfg :=
  let w := d.num (whorlBase c + 0x20000 + 8 * n) 8
  { thrBase := max 1 (slice w 15 0), outShift := slice w 19 16, leakShift := slice w 23 20, leakGroup := slice w 26 24,
    subtract := w.testBit 27, negEn := w.testBit 28, adaptEn := w.testBit 29, refract := slice w 35 32,
    foBase := slice w 45 36, foCnt := min 8 (slice w 49 46) }

/-- NSTATE of neuron n of core c; TH is THR_BASE while ADAPT_EN = 0 (R166). -/
def nstate (d : Dev) (c n : Nat) : NState :=
  let w := d.num (whorlBase c + 0x20800 + 8 * n) 8
  let g := d.ncfg c n
  { v := signedOf 24 (slice w 23 0), ref := slice w 27 24, th := if g.adaptEn then max 1 (slice w 47 32) else g.thrBase }

/-- NSTATE of neuron n of core c stored. -/
def setNstate (d : Dev) (c n : Nat) (s : NState) : Dev :=
  d.setBytes (whorlBase c + 0x20800 + 8 * n) (bytesLE 8 ((BitVec.ofInt 24 s.v).toNat + s.ref * 2 ^ 24 + s.th * 2 ^ 32))

/-- The synapse W[i][n] of core c. -/
def syn (d : Dev) (c i n : Nat) : Int := (d.byte (whorlBase c + i * 256 + n)).toInt

/-- A core's register field or bit. -/
def wfield (d : Dev) (c o hi lo : Nat) : Nat := d.field (whorlReg c o).1 (whorlReg c o).2 hi lo
def wcount (d : Dev) (c o : Nat) (n : Nat := 1) : Dev := d.count (whorlReg c o).1 (whorlReg c o).2 n

/-- CSTAT.STATE of core c (R177): 0 OFF, 1 RUN, 2 WINDOW. -/
def wstate (d : Dev) (c : Nat) : Nat := d.wfield c 0x10 9 8
def setWstate (d : Dev) (c v : Nat) : Dev := d.setField (whorlReg c 0x10).1 (whorlReg c 0x10).2 9 8 v

def wcore (d : Dev) (c : Nat) : WCore := Sparse.get (fun _ => {}) d.wcores c
def setWcore (d : Dev) (c : Nat) (x : WCore) : Dev := { d with wcores := Sparse.put (fun _ => {}) d.wcores c x }

/-- CCFG.EN of core c. -/
def wenabled (d : Dev) (c : Nat) : Bool := d.wfield c 0 0 0 == 1

/-- The events in core c's input queue (QDEPTH). -/
def wdepth (d : Dev) (c : Nat) : Nat := ((d.wcore c).inbox.filter fun i => match i with | .event _ _ => true | .tick _ => false).length

/-- Whether core c's router is asleep (R178). -/
def wasleep (d : Dev) (c : Nat) : Bool := d.asleepRegion (whorlRegion c)

/-! ## Work on page 0x050 (R37, R38) -/

/-- Whorl has work in flight: a packet on the mesh or an item at a core. -/
def whorlBusy (d : Dev) : Bool := !d.mesh.isEmpty || d.wcores.any fun e => !e.2.inbox.isEmpty

/-- DISABLED resets every counter in pages 0x050–0x058 and leaves every core OFF. -/
def whorlEnded (d : Dev) : Dev :=
  forEach ((List.range 8).map (· + 0x051)) (fun p d => d.resetCounters p) { d with wcores := [], mesh := [], storms := [] }

/-- Page 0x050 follows Whorl's work. -/
def whorlWork (d : Dev) : Dev := d.work 0x050 whorlBusy whorlEnded

/-! ## The mesh and the ingress (R161, R162, R168) -/

/-- A link is held back: a running core's full queue with a packet waiting for it (R161). -/
def backPressure (d : Dev) : Bool := d.mesh.any fun p => d.wstate p.core == 1 && d.wdepth p.core == 64

/-- A sensor word at the ingress (R162), from source k of SENS_DROP: with a link held back, whether the first router can
accept it is open. A page that is not READY or ACTIVE accepts no new work. -/
def ingress (d : Dev) (k core input : Nat) (w : Word) : Dev :=
  let drop (d : Dev) : Dev := (d.count 0x051 (0x0F0 + 4 * k)).err 0x050 4
  let send (d : Dev) : Dev := whorlWork { d with mesh := d.mesh ++ [{ core := core, input := input, word := w }] }
  if !d.running 0x050 then drop d
  else if d.backPressure then
    let (v, d) := d.fresh
    if v % 2 = 0 then send d else drop d
  else send d

/-- An item that reaches core c: an input event into its queue. `full` says what a full queue does. -/
def enqueue (d : Dev) (c : Nat) (i : WItem) : Dev :=
  let x := d.wcore c
  d.setWcore c { x with inbox := x.inbox ++ [i] }

/-- The oldest packet for core c reaches its input (R159, R161, R168, R177, R178): a core holds back its link with 64 events
while it runs, and drops in a window; an OFF core and a sleeping region drop. -/
def arrive (d : Dev) (c : Nat) : Dev :=
  match d.mesh.find? fun p => p.core == c with
  | none => d
  | some p =>
    let took : Dev := { d with mesh := d.mesh.erase p }
    let kind := bits p.word 31 30
    let dropped := whorlWork (took.wcount c 0x1C)
    if d.wasleep c then whorlWork (took.count 0x057 0x040)
    else if d.wstate c = 0 || kind = 2 then dropped
    else if kind = 3 && d.wfield c 0 7 7 = 0 then dropped
    else if d.wdepth c = 64 then (if d.wstate c = 2 then dropped else d)
    else if kind = 3 then whorlWork (took.enqueue c (.event (d.wfield c 0 16 8) 127))
    else whorlWork (took.enqueue c (.event p.input (signedOf 8 (bits p.word 7 0))))

/-! ## Wake neurons (R173–R175) -/

/-- The limiter of an entry, by its index (R175); index 64 is WAKE_N's (R409). -/
def storm (d : Dev) (e : Nat) : Storm := Sparse.get (fun _ => {}) d.storms e
def setStorm (d : Dev) (e : Nat) (x : Storm) : Dev := { d with storms := Sparse.put (fun _ => {}) d.storms e x }

/-- The passes of a limiter's window: those in the last 1,000,000 µs. -/
def recent (d : Dev) (e : Nat) : List Nat := (d.storm e).passed.filter fun t => decide (d.now < t + 1000000)

/-- STORM.MASKED of wake entry e, in its register. -/
def stormMasked (d : Dev) (e : Nat) : Bool := d.flag 0x058 (0x04C + 16 * e) 31

/-- A request that a wake entry does not pass: STORM + 1 (R175). -/
def stormCount (d : Dev) (e : Nat) : Dev :=
  let o := 0x04C + 16 * e
  ((d.setField 0x058 o 30 0 (satAddN 31 (d.field 0x058 o 30 0) 1)).count 0x058 0x440).setStorm e
    { d.storm e with last := d.now }

/-- A request of wake entry e through its limiter (R174, R175). -/
def wakeRequest (d : Dev) (e core neuron score : Nat) : Dev :=
  if d.stormMasked e then d.stormCount e
  else if 8 ≤ (d.recent e).length then ((d.stormCount e).setFlag 0x058 (0x04C + 16 * e) 31 true).err 0x058 0
  else
    let ch := d.field 0x058 (0x040 + 16 * e) 30 28
    let r : WakeReq :=
      { src := core * 256 + neuron, score := score, stream := d.field 0x058 (0x044 + 16 * e) 7 0,
        kind := d.field 0x058 (0x040 + 16 * e) 26 24, reelCh := ch, pos := d.reelPos ch, at_ := d.now }
    let d := (d.count 0x058 (0x048 + 16 * e)).setStorm e { passed := d.recent e ++ [d.now], last := d.now }
    { d with wakes := d.wakes ++ [r] }

/-- Whether wake entry e names a neuron and is enabled (R173). -/
def wakeNames (d : Dev) (e core neuron : Nat) : Bool :=
  d.flag 0x058 (0x040 + 16 * e) 31 && d.field 0x058 (0x040 + 16 * e) 6 0 == core &&
  d.field 0x058 (0x040 + 16 * e) 15 8 == neuron

/-- The wake check of a positive firing (R173). -/
def wakeCheck (d : Dev) (c n val : Nat) : Dev :=
  forEach ((List.range 64).filter fun e => d.wakeNames e c n) (fun e d =>
    let score := min 255 (val * d.field 0x058 (0x044 + 16 * e) 15 8 / 16)
    if d.field 0x058 (0x044 + 16 * e) 23 16 ≤ score then d.wakeRequest e c n score else d) d

/-! ## The neuron model (R165–R167) -/

/-- The slice of a Reel channel's position that an event word carries, `n` bits from TAG_SHIFT up (R68). -/
def reelSlice (d : Dev) (k n : Nat) : Nat :=
  (d.reelPos k / 2 ^ d.field (reelReg k 0).1 (reelReg k 0).2 20 16) % 2 ^ n

/-- THR_BOUNDS of core c: 0 acts as 1, and MAX below MIN acts as MIN (R25). -/
def thrMin (d : Dev) (c : Nat) : Nat := max 1 (d.wfield c 4 15 0)
def thrMax (d : Dev) (c : Nat) : Nat := max (d.thrMin c) (max 1 (d.wfield c 4 31 16))
/-- THR_INC and THR_DECAY of core c. -/
def thrInc (d : Dev) (c : Nat) : Nat := d.wfield c 8 15 0
def thrDecay (d : Dev) (c : Nat) : Nat := d.wfield c 8 19 16

/-- A graded event word (R159). -/
def gradedWord (kind src tag : Nat) (value : Int) : Word :=
  BitVec.ofNat 32 (kind * 2 ^ 30 + src % 2 ^ 15 * 2 ^ 15 + tag % 128 * 256 + (BitVec.ofInt 8 value).toNat)

/-- The fan-out of a firing (R164, R165): one packet for each VALID entry, in order. -/
def fanOut (d : Dev) (c n : Nat) (g : NCfg) (value : Int) : Dev :=
  let w := gradedWord 0 (c * 256 + n) (d.reelSlice (d.wfield c 0 6 4) 7) value
  let ps := (List.range g.foCnt).filterMap fun i =>
    let e := d.num (whorlBase c + 0x21000 + 4 * ((g.foBase + i) % 1024)) 4
    if e.testBit 31 then some { core := slice e 6 0, input := slice e 16 8, word := w : WPacket } else none
  { d with mesh := d.mesh ++ ps }

/-- Neuron n of core c fires with sign `neg` (R165). -/
def fire (d : Dev) (c n : Nat) (neg : Bool) : Dev :=
  let g := d.ncfg c n
  let s := d.nstate c n
  let mag := s.v.natAbs
  let val := min 127 (max 1 (mag / 2 ^ g.outShift))
  let sgn : Int := if neg then -1 else 1
  let d := d.fanOut c n g (sgn * val)
  let th := if g.adaptEn && d.thrMin c ≤ s.th && s.th ≤ d.thrMax c then min (d.thrMax c) (s.th + d.thrInc c) else s.th
  let d := d.setNstate c n { v := if g.subtract then s.v - sgn * s.th else 0, ref := g.refract, th := th }
  let d := (d.wcount c 0x18).count 0x050 0x058
  if neg then d else d.wakeCheck c n val

/-- The firing check of neuron n (R165). -/
def fireCheck (d : Dev) (c n : Nat) : Dev :=
  let s := d.nstate c n
  if (s.th : Int) ≤ s.v then d.fire c n false
  else if (d.ncfg c n).negEn && s.v ≤ -(s.th : Int) then d.fire c n true
  else d

/-- One neuron's part of an input event of VALUE x on input i (R165): saturation counts in SAT. -/
def integrate (c i : Nat) (x : Int) (n : Nat) (d : Dev) : Dev :=
  let w := d.syn c i n
  let s := d.nstate c n
  if w = 0 || 0 < s.ref then d
  else
    let v := s.v + x * w
    let d := if v < -8388608 || 8388607 < v then (d.wcount c 0x20).err 0x050 3 else d
    (d.setNstate c n { s with v := max (-8388608) (min 8388607 v) }).fireCheck c n

/-- The adapt step of R165: the bounded loop of R24 on TH. -/
def adaptTh (d : Dev) (c : Nat) (base th : Nat) : Nat :=
  let lo := d.thrMin c
  let hi := d.thrMax c
  let slew := max (d.thrInc c) 1
  if hi < th then max hi (th - slew)
  else if th < lo then min lo (th + slew)
  else
    let t := max lo (min hi base)
    let x : Int := (th : Int) - ((th : Int) - t) / 2 ^ d.thrDecay c
    max lo (min hi x.toNat)

/-- One neuron's part of a tick of group g (R165). -/
def leak (c g : Nat) (n : Nat) (d : Dev) : Dev :=
  let f := d.ncfg c n
  if f.leakGroup ≠ g then d
  else
    let s := d.nstate c n
    let v := if 0 < f.leakShift then s.v - s.v / 2 ^ f.leakShift else s.v
    let th := if f.adaptEn then d.adaptTh c f.thrBase s.th else s.th
    let d := d.setNstate c n { v := v, ref := s.ref - 1, th := th }
    if s.ref - 1 = 0 then d.fireCheck c n else d

/-! ## Service and ticks (R165, R168, R169, R177) -/

/-- Whether core c starts an item: it runs, its region is awake, and page 0x050 is not frozen (R41). -/
def wserves (d : Dev) (c : Nat) : Bool := d.wstate c == 1 && !d.wasleep c && !d.frozen 0x050

/-- Core c serves the event at the head of its queue (R165). -/
def serveEvent (d : Dev) (c : Nat) : Dev :=
  match (d.wcore c).inbox with
  | .event i x :: rest =>
    if d.wserves c then
      let d := ((d.setWcore c { d.wcore c with inbox := rest }).wcount c 0x14).count 0x050 0x054
      whorlWork (forEach (List.range 256) (integrate c i x) d)
    else d
  | _ => d

/-- Core c serves the tick at the head of its queue (R165). -/
def serveTick (d : Dev) (c : Nat) : Dev :=
  match (d.wcore c).inbox with
  | .tick g :: rest =>
    if d.wserves c then
      whorlWork (forEach (List.range 256) (leak c g) (d.setWcore c { d.wcore c with inbox := rest }))
    else d
  | _ => d

/-- A tick of group g reaches enabled core c (R169, R177, R178). -/
def tickCore (g c : Nat) (d : Dev) : Dev :=
  let x := d.wcore c
  if d.wasleep c then d.count 0x057 0x040
  else if d.wstate c = 0 || !d.running 0x050 then d.wcount c 0x1C
  else if d.wstate c = 2 then
    if (x.held.filter (· == g)).length < 15 then d.setWcore c { x with inbox := x.inbox ++ [.tick g], held := x.held ++ [g] }
    else d.count 0x056 0x080
  else d.enqueue c (.tick g)

/-- A tick delivered to every group of a mask at every enabled core (R169). -/
def whorlTicks (d : Dev) (groups : Nat) : Dev :=
  whorlWork (forEach ((List.range 8).filter groups.testBit) (fun g d =>
    forEach ((List.range 128).filter d.wenabled) (tickCore g) (d.count 0x056 (0x060 + 4 * g))) d)

/-! ## Input maps (R170–R172) -/

/-- Filterbank band k's event (R170). -/
def fbEvent (d : Dev) (k : Nat) (w : Word) : Dev :=
  let o := 0x040 + 4 * k
  if d.flag 0x051 o 31 then d.ingress 0 (d.field 0x051 o 6 0) (d.field 0x051 o 16 8) w else d

/-- A camera event of SC8 (`j` = 0) or SC9 through EVMAP (R171). -/
def evEvent (d : Dev) (j x y : Nat) (value : Int) (reelpos : Nat) : Dev :=
  let o := 0x0C0 + 16 * j
  if !d.flag 0x051 o 15 || value = 0 then d
  else
    let cx := x / 2 ^ d.field 0x051 o 3 0
    let cy := y / 2 ^ d.field 0x051 o 7 4
    let gw := d.field 0x051 (o + 4) 11 0
    let gh := d.field 0x051 (o + 4) 27 16
    let lost := d.count 0x051 (o + 0x0C)
    if gw ≤ cx || gh ≤ cy then lost
    else
      let c := cy * gw + cx
      let m := min 127 value.natAbs
      let mode := d.field 0x051 o 9 8
      let c' := if mode = 2 then 2 * c + (if value < 0 then 1 else 0) else c
      let v : Int := if mode = 0 then max (-127) value else m
      let core := d.field 0x051 (o + 8) 6 0 + c' / 512
      if d.field 0x051 (o + 8) 14 8 < core then lost
      else d.ingress (1 + j) core (c' % 512) (gradedWord 1 ((8 + j) * 256 + c' % 256) reelpos v)

/-- One word of an EVENTS record pushed to SC22 (`j` = 0) or SC23 (R172). -/
def genEvent (d : Dev) (j : Nat) (w : Word) : Dev :=
  let o := 0x0E0 + 4 * j
  if !d.flag 0x051 o 31 then d
  else if bits w 31 30 ≠ 1 then (d.count 0x051 (0x0FC + 4 * j)).err 0x050 4
  else d.ingress (3 + j) (d.field 0x051 o 6 0) ((d.field 0x051 o 16 8 + bits w 22 15) % 512) (putBits w 29 23 (0x16 + j))

/-- A Reel marker word toward a core (R80, R168); its REELTAG is 0 (log entry 195). -/
def markerWord (d : Dev) (core m : Nat) : Dev :=
  whorlWork { d with mesh := d.mesh ++ [{ core := core, input := 0, word := BitVec.ofNat 32 (3 * 2 ^ 30 + m * 2 ^ 15 + 0x7F) }] }

/-! ## Windows and enables (R177) -/

def winOpen (d : Dev) (c : Nat) : Dev :=
  if d.wstate c = 1 then (d.setWstate c 2).setWcore c { d.wcore c with held := [], opened := d.now } else d

def winClose (d : Dev) (c : Nat) : Dev :=
  if d.wstate c = 2 then (d.setWstate c 1).setWcore c { d.wcore c with held := [] } else d

/-- CCFG.EN = 1 (R177). -/
def coreOn (d : Dev) (c : Nat) : Dev :=
  if d.wstate c = 0 && d.running 0x050 then d.setWstate c 1 else d

/-- CCFG.EN = 0 (R177): the queue is discarded and counted. -/
def coreOff (d : Dev) (c : Nat) : Dev :=
  if d.wstate c = 0 then d
  else whorlWork (((d.wcount c 0x1C (d.wdepth c)).setWcore c {}).setWstate c 0)

/-- A write of CCFG of core c. -/
def writeCcfg (d : Dev) (c : Nat) (v : Word) : Dev :=
  let d := d.setReg (whorlReg c 0).1 (whorlReg c 0).2 (v &&& 0x1FFF1)
  let d := if bit v 0 then d.coreOn c else d.coreOff c
  d.settle (whorlRegion c)

/-- WIN_TMO in µs. -/
def winTmo (d : Dev) : Nat := max 1 (d.field 0x056 0x044 15 0)

/-- Page 0x050 becomes READY: every core with CCFG.EN = 1 runs (R177). -/
def whorlStart (d : Dev) : Dev := forEach ((List.range 128).filter d.wenabled) (fun c d => d.coreOn c) d

/-- A limiter's quiet time is over (R175). -/
def stormQuiet (d : Dev) (e : Nat) : Dev :=
  if d.stormMasked e && (d.storm e).last + 100000 ≤ d.now then
    (d.setFlag 0x058 (0x04C + 16 * e) 31 false).setStorm e { d.storm e with passed := [] }
  else d

end Dev

/-! ## The commands -/

/-- WHORL_EVENT_ARRIVAL (R161). -/
def execWhorlEventArrival (core : Fin 128) (s : State) : Host.Outcome State Fault Refusal :=
  onDev (fun d => d.arrive core.val) s

/-- WHORL_INPUT_EVENT (R165). -/
def execWhorlInputEvent (core : Fin 128) (s : State) : Host.Outcome State Fault Refusal :=
  onDev (fun d => d.serveEvent core.val) s

/-- STORM_QUIET_EXPIRY (R175). -/
def execStormQuietExpiry (e : Fin 64) (s : State) : Host.Outcome State Fault Refusal :=
  onDev (fun d => d.stormQuiet e.val) s

/-- WHORL_TICK (R165). -/
def execWhorlTick (core : Fin 128) (s : State) : Host.Outcome State Fault Refusal :=
  onDev (fun d => d.serveTick core.val) s

/-- SW_TICK (R169): a W1S register, so any agent may write it. -/
def execSwTick (_ag : Agent) (groups : BitVec 8) (s : State) : Host.Outcome State Fault Refusal :=
  onDev (Dev.anyWrite 0x056 fun d => d.whorlTicks groups.toNat) s

/-- WHORL_STORE_WRITE (R176): the effect does not depend on the writer. -/
def execWhorlStoreWrite (_who : MemAgent) (core : Fin 128) (offset : Fin 262144) (data : List Byte) (s : State) :
    Host.Outcome State Fault Refusal :=
  onDev (fun d => d.whorlStore (whorlBase core.val + offset.val) data) s

/-- WIN_OPEN (R177). -/
def execWinOpen (ag : Agent) (core : Fin 128) (s : State) : Host.Outcome State Fault Refusal :=
  onDev (Dev.rwlWrite ag (whorlReg core.val 0).1 fun d => d.winOpen core.val) s

/-- WIN_CLOSE (R177). -/
def execWinClose (ag : Agent) (core : Fin 128) (s : State) : Host.Outcome State Fault Refusal :=
  onDev (Dev.rwlWrite ag (whorlReg core.val 0).1 fun d => d.winClose core.val) s

/-- WIN_TIMEOUT (R177): acts once WIN_TMO has passed since the window opened. -/
def execWinTimeout (core : Fin 128) (s : State) : Host.Outcome State Fault Refusal :=
  onDev (fun d =>
    if d.wstate core.val = 2 && (d.wcore core.val).opened + d.winTmo ≤ d.now then (d.winClose core.val).err 0x050 2
    else d) s

/-- CORE_ENABLE (R177): CCFG written with EN = 1, its other fields kept. -/
def execCoreEnable (ag : Agent) (core : Fin 128) (s : State) : Host.Outcome State Fault Refusal :=
  onDev (Dev.rwlWrite ag (whorlReg core.val 0).1 fun d =>
    d.writeCcfg core.val (d.reg (whorlReg core.val 0).1 (whorlReg core.val 0).2 ||| 1)) s

/-- CORE_DISABLE (R177): CCFG written with EN = 0, its other fields kept. -/
def execCoreDisable (ag : Agent) (core : Fin 128) (s : State) : Host.Outcome State Fault Refusal :=
  onDev (Dev.rwlWrite ag (whorlReg core.val 0).1 fun d =>
    d.writeCcfg core.val (d.reg (whorlReg core.val 0).1 (whorlReg core.val 0).2 &&& 0xFFFFFFFE)) s

end Sys2Proof.Machine
end

