-- ==== Sys2Proof/Machine/Reel.lean ====
section
/-!
DEFINITION. Reel (03): channels and their sources, rate windows, loss and dead reckoning, the MARK compare units with their
actions, and Reel's commands.
-/
namespace Sys2Proof.Machine

namespace Dev

/-! ## Registers of a channel and of a MARK -/

def rfield (d : Dev) (k o hi lo : Nat) : Nat := d.field (reelReg k o).1 (reelReg k o).2 hi lo
def rword (d : Dev) (k o : Nat) : Nat := (d.reg (reelReg k o).1 (reelReg k o).2).toNat
def rset (d : Dev) (k o : Nat) (v : Word) : Dev := d.setReg (reelReg k o).1 (reelReg k o).2 v
def rsetField (d : Dev) (k o hi lo v : Nat) : Dev := d.setField (reelReg k o).1 (reelReg k o).2 hi lo v
def rcount (d : Dev) (k o : Nat) (n : Nat := 1) : Dev := d.countFrz (reelReg k o).1 (reelReg k o).2 n
def rerr (d : Dev) (k b : Nat) : Dev := d.err (reelReg k 0).1 (b + k % 4)

/-- CFG.SRC of channel k (R58). -/
def rsrc (d : Dev) (k : Nat) : Nat := d.rfield k 0 5 1
def renabled (d : Dev) (k : Nat) : Bool := d.rfield k 0 0 0 == 1

/-- The register base of MARK m on page 0x01B. -/
def markBase (m : Nat) : Nat := 0x040 + 0x20 * m
def mfield (d : Dev) (m o hi lo : Nat) : Nat := d.field 0x01B (markBase m + o) hi lo
/-- TGT of MARK m. -/
def markTgt (d : Dev) (m : Nat) : Nat := d.pair48 0x01B (markBase m + 4)
/-- STEP of MARK m; 0 acts as 1 (R79). -/
def markStep (d : Dev) (m : Nat) : Nat := max 1 (d.reg 0x01B (markBase m + 0x0C)).toNat

/-- The delay list that owns MARK m, if it does (R81). -/
def markOwner (d : Dev) (m : Nat) : Option Nat := if 28 ≤ m && d.dlOn (m - 28) then some (m - 28) else none

/-! ## Sources (R58, R71, R72) -/

/-- Whether the microphone front end is enabled and its clock runs (R71). -/
def micClocked (d : Dev) : Bool :=
  (d.pageState 0x03A == 1 || d.pageState 0x03A == 2 || d.pageState 0x03A == 3) && d.mic.clk != 0

/-- The CSI-2 port that ROUTE sends to camera n (R94). -/
def camPort (d : Dev) (n : Nat) : Option Nat :=
  ((List.range 16).find? fun i => d.flag 0x038 (0x060 + 4 * i) 7 && d.field 0x038 (0x060 + 4 * i) 4 0 == n).map (· / 4)

/-- Whether the CSI-2 port of camera n is down. -/
def camDown (d : Dev) (n : Nat) : Bool :=
  match d.camPort n with
  | some p => !d.flag 0x038 (0x050 + 4 * p) 0
  | none => false

/-- STALL_TMO of channel k in µs; 0 acts as 1. -/
def stallTmo (d : Dev) (k : Nat) : Nat := 1000 * max 1 (d.rfield k 0x10 15 0)

/-- No source count for STALL_TMO (R71, R72). -/
def stalled (d : Dev) (k : Nat) : Bool := decide ((d.reel k).last + d.stallTmo k ≤ d.now)

/-- Whether channel k's source is lost (R71). -/
def srcLost (d : Dev) (k : Nat) : Bool :=
  let s := d.rsrc k
  let r := d.reel k
  if s = 0 then false
  else if s < 5 then r.lossWin
  else if s = 5 then r.lossWin || r.edgeOver
  else if s < 0x10 then d.stalled k || d.camDown (s - 8)
  else if s = 0x10 then !d.micClocked
  else if s = 0x11 then d.zc.lost
  else d.stalled k || d.lstate 0 != 5

/-- Whether channel k is in OVERSPEED (R70). -/
def overspeed (d : Dev) (k : Nat) : Bool := (d.reel k).edgeOver || decide (2 ≤ (d.reel k).overRun)

/-- STAT of channel k as it reads: RSTATE and REVERSE are kept, OVERSPEED, LOSS, STALL and STALE follow the source and the state at the
read (R70–R75). After reset, a channel being OFF, STALE reads 1 as R75 says, although the register table prints 0 (log entry 179). -/
def reelStat (d : Dev) (k : Nat) : Word :=
  let s := d.rsrc k
  let w := d.reg (reelReg k 0x14).1 (reelReg k 0x14).2
  putBit (putBit (putBit (putBit w 4 (d.overspeed k)) 5 (d.srcLost k)) 6 ((1 ≤ s && s ≤ 5) && d.stalled k)) 7 (d.reelStale k)

/-- The state a channel without a valid source enters (R73). -/
def lossState (d : Dev) (k : Nat) : Nat := if d.rfield k 0 8 8 = 1 then 2 else 3

/-- Whether something beside the last window's counts makes channel k's source invalid now (R70, R71): a window in which this holds at
any time is no valid one (R73). -/
def liveBad (d : Dev) (k : Nat) : Bool := (decide (8 ≤ d.rsrc k) && d.srcLost k) || (d.reel k).edgeOver

/-- Channel k's source is judged (R70–R73): a source lost or too fast in TRACK takes it to DEAD_RECKON or HELD, and what makes it
invalid now spoils its window. -/
def judge (k : Nat) (d : Dev) : Dev :=
  let lost := d.srcLost k
  let tooFast := d.overspeed k
  let d := if d.liveBad k then d.setReel k { d.reel k with bad := true } else d
  if d.rstate k = 1 && (lost || tooFast) then
    let d := (d.rsetField k 0x14 1 0 (d.lossState k)).rcount k 0x28
    let d := if tooFast then d.rerr k 0 else d
    if lost then d.rerr k 4 else d
  else d

/-- Every channel's source is judged. -/
def judgeAll (d : Dev) : Dev := forEach (List.range 8) judge d

/-- `n` half or whole source counts of channel k with the position they add in TRACK (R62, R64): `half` says that each is half a
count. The MARKs are looked at once every channel has moved. -/
def addCounts (d : Dev) (k n : Nat) (half : Bool) : Dev :=
  let r := d.reel k
  let inc := d.rword k 4 * n
  let acc := inc + (if half then r.half else 0)
  let add := if half then acc / 2 else acc
  let r := { r with units := r.units + add, half := if half then acc % 2 else r.half, last := d.now }
  if d.rstate k = 1 then
    let f := r.frac + add
    let d := d.setReel k { r with frac := f % 2 ^ 24 }
    d.setPair48 (reelReg k 0x18).1 (reelReg k 0x18).2 ((d.reelPos k + f / 2 ^ 24) % 2 ^ 48)
  else d.setReel k r

/-! ## Encoder snapshots (R107) -/

/-- The payload of an encoder snapshot (R107). -/
def encPayload (d : Dev) : List Byte :=
  ((List.range 8).flatMap fun k =>
    bytesLE 6 (d.reelPos k) ++ bytesLE 1 (d.rstate k) ++ bytesLE 1 (bits (d.reelStat k) 7 4)) ++
  ((List.range 4).flatMap fun q =>
    bytesLE 4 (d.encoder q).net.toNat)

/-- SC20 takes an encoder snapshot (R107). -/
def encSnapshot (d : Dev) : Dev :=
  d.capture 20 { type := 4, tag := d.chanTag 20, count := 1, payload := d.encPayload } 1

/-! ## MARK firings (R79–R82) -/

/-- The action of a firing (R80): the SV960-TC performs no FRAME or CLIFF action. -/
def markAction (d : Dev) (m cause : Nat) : Dev :=
  let arg := d.mfield m 0 23 16
  match d.markOwner m with
  | some l => (d.dlFire l (cause == 2)).advance
  | none =>
    match d.mfield m 0 10 8 with
    | 1 => d.whorlTicks arg
    | 2 => if d.pkg = .rm then forEach ((List.range 8).filter arg.testBit) (fun n d => d.camTrigger n) d else d
    | 3 => if d.pkg = .rm then d.cliffRequests arg else d
    | 4 => d.markerWord (arg % 128) m
    | _ => d

/-- The re-arming of a firing (R79). -/
def markRearm (d : Dev) (m cause : Nat) : Dev :=
  let b := markBase m
  let pos := d.reelPos (d.mfield m 0 3 1)
  let next := (d.markTgt m + d.markStep m) % 2 ^ 48
  let ahead := (pos + d.markStep m) % 2 ^ 48
  if d.mfield m 0 4 4 = 0 then d.setFlag 0x01B b 0 false
  else if cause = 2 then d.setPair48 0x01B (b + 4) ahead
  else if reached pos next then ((d.setPair48 0x01B (b + 4) ahead).countFrz 0x01B (b + 0x18)).err 0x01B 0
  else d.setPair48 0x01B (b + 4) next

/-- MARK m fires (R79): its count and cause, PEND, the Reel mark event, the encoder snapshot bound to it (R107), the re-arming
with a new floor, and the action of its KIND. -/
def markFire (d : Dev) (m cause : Nat) : Dev :=
  let o := markBase m + 0x14
  let n := if d.frozen 0x01B then d.mfield m 0x14 23 0 else satAddN 24 (d.mfield m 0x14 23 0) 1
  let d := d.setReg 0x01B o (BitVec.ofNat 32 (n + cause * 2 ^ 24))
  let d := d.setFlag 0x01B 0x440 m true
  let d := if d.mfield m 0 5 5 = 1 then d.markEvent else d
  let d := (d.markRearm m cause).setArmed m d.now
  let d := if d.flag 0x034 0x080 8 && d.field 0x034 0x080 4 0 == m then d.encSnapshot else d
  d.markAction m cause

/-- Whether MARK m's floor is over (R78): FLOOR = 0 disables it. -/
def floorDue (d : Dev) (m : Nat) : Bool :=
  d.mfield m 0x10 23 0 != 0 && decide (d.armedAt m + d.mfield m 0x10 23 0 ≤ d.now)

/-- Whether channel k can fire MARKs by distance: it is neither OFF nor HELD (R82). -/
def rmoves (d : Dev) (k : Nat) : Bool := !d.reelStale k

/-- The armed MARKs of channel k whose target is reached fire (R65, R79); with the floor over too the cause is 3. -/
def checkMarks (d : Dev) (k : Nat) : Dev :=
  if d.rmoves k then
    forEach (List.range 32) (fun m d =>
      if d.mfield m 0 0 0 = 1 && d.mfield m 0 3 1 = k && reached (d.reelPos k) (d.markTgt m) then
        d.markFire m (if d.floorDue m then 3 else 1)
      else d) d
  else d

/-- MARK m's floor is over: it fires by the floor, or by both (R79, R82). -/
def markFloor (d : Dev) (m : Nat) : Dev :=
  let k := d.mfield m 0 3 1
  if d.mfield m 0 0 0 = 1 && d.floorDue m then
    d.markFire m (if d.rmoves k && reached (d.reelPos k) (d.markTgt m) then 3 else 2)
  else d

/-- The MARKs and the sources of some channels once they have moved together (R67, R79, R107). -/
def channelsMoved (ks : List Nat) (d : Dev) : Dev := forEach ks judge (forEach ks (fun k d => d.checkMarks k) d)

/-- One source count for every channel whose source is `src`. -/
def sourceCount (d : Dev) (src : Nat) : Dev :=
  let ks := (List.range 8).filter fun k => d.rsrc k == src
  channelsMoved ks (forEach ks (fun k d => d.addCounts k 1 false) d)

/-! ## Encoders (R61, R62, R70) -/

/-- The encoders that channel k counts: one of QDEC, the two of ODO. -/
def encodersOf (d : Dev) (k : Nat) : List Nat :=
  let s := d.rsrc k
  if 1 ≤ s && s ≤ 4 then [s - 1] else if s = 5 then [d.field 0x018 0x050 1 0, d.field 0x018 0x050 5 4] else []

/-- Whether a legal change is counted in the encoder's MODE (R61): X4 both pins, X2 changes of A, X1 rising edges of A. -/
def countedEdge (d : Dev) (q : Nat) (changedA risingA : Bool) : Bool :=
  match d.field 0x018 (0x040 + 4 * q) 9 8 with
  | 1 => changedA
  | 2 => changedA && risingA
  | _ => true

/-- An illegal transition of encoder q at channel k (R61, R71). -/
def illegalEdge (q k : Nat) (d : Dev) : Dev :=
  let r := d.reel k
  let first := (d.encodersOf k).head? == some q
  (d.setReel k (if first then { r with illegalA := r.illegalA + 1 } else { r with illegalB := r.illegalB + 1 })).rcount k 0x30

/-- A legal edge of encoder q at channel k (R61, R62, R70): `counted` adds to the position, a half count for each encoder of ODO that
q is; `fast` is more than 80 edges in 4 µs; `back` the direction of the quadrature phase. OVERSPEED by edges lasts to the end of the
channel's rate window (log entry 180). -/
def legalEdge (q : Nat) (counted fast back : Bool) (k : Nat) (d : Dev) : Dev :=
  let d := if fast then d.setReel k { d.reel k with edgeOver := true } else d
  if counted then (d.rsetField k 0x14 8 8 back.toNat).addCounts k ((d.encodersOf k).count q) (d.rsrc k == 5) else d

/-- New filtered levels of encoder q (R61). The direction is forward where A leads B; DIR_INV reverses the sign of NET alone. -/
def encoderLevels (d : Dev) (q : Nat) (a b : Bool) : Dev :=
  let e := d.encoder q
  let ks := (List.range 8).filter fun k => (d.encodersOf k).contains q
  let chA := a != e.a
  let chB := b != e.b
  if chA && chB then forEach ks (illegalEdge q) (d.setEncoder q { e with a := a, b := b })
  else if chA || chB then
    let back := if chA then a == b else a != b
    let counted := d.countedEdge q chA a
    let edges := d.now :: e.edges.filter fun t => decide (d.now < t + 4)
    let net := if counted then (if back == d.flag 0x018 (0x040 + 4 * q) 10 then e.net + 1 else e.net - 1) else e.net
    channelsMoved ks (forEach ks (legalEdge q counted (decide (80 < edges.length)) back)
      (d.setEncoder q { a := a, b := b, net := net, edges := edges }))
  else d

/-! ## Zero crossings (R63) -/

/-- A stable crossing on ZC_IN. -/
def zcCross (d : Dev) (rising : Bool) : Dev :=
  let z := d.zc
  if d.pkg ≠ .rm || !(rising || d.flag 0x018 0x054 8) then d
  else if z.any && d.now < z.last + 1000 * d.field 0x018 0x054 19 12 then d
  else ({ d with zc := { any := true, last := d.now, lost := false } } : Dev).sourceCount 0x11

/-- ZC_CFG.MAX ms without an accepted crossing. -/
def zcExpire (d : Dev) : Dev :=
  if d.zc.last + 1000 * d.field 0x018 0x054 31 24 ≤ d.now then
    ({ d with zc := { d.zc with lost := true } } : Dev).judgeAll
  else d

/-! ## Rate windows (R69–R73) -/

/-- The window of channel k in ms. -/
def rateWin (d : Dev) (k : Nat) : Nat := 2 ^ d.rfield k 0 14 12

/-- A channel in DEAD_RECKON or HELD returns to TRACK (R73). -/
def toTrack (d : Dev) (k : Nat) : Dev := (d.rsetField k 0x14 1 0 1).checkMarks k

/-- The end of channel k's rate window (R69–R73): RATE, the loss and OVERSPEED that the window's counts make, and recovery. The window is
valid where they leave the source valid and nothing spoiled it. -/
def windowEnd (d : Dev) (k : Nat) : Dev :=
  let r := d.reel k
  let w := d.rateWin k
  if r.opened + 1000 * w ≤ d.now then
    let rate := min 0xFFFFFFFF (r.units * 1000 / w / 2 ^ 24)
    let d := d.rset k 0x20 (BitVec.ofNat 32 rate)
    let r := { r with opened := r.opened + 1000 * w, units := 0, illegalA := 0, illegalB := 0,
                      lossWin := decide (4 ≤ r.illegalA) || decide (4 ≤ r.illegalB),
                      overRun := if d.rword k 0x0C < rate then r.overRun + 1 else 0 }
    let valid := !r.bad && !(d.setReel k r).srcLost k && !(d.setReel k r).overspeed k
    let d := judge k (d.setReel k r)
    let run := if valid then (d.reel k).validRun + 1 else 0
    let d := d.setReel k { d.reel k with validRun := run, edgeOver := false, bad := false }
    let d := d.setReel k { d.reel k with bad := d.liveBad k }
    if (d.rstate k = 2 || d.rstate k = 3) && 2 ≤ run && d.rfield k 0 9 9 = 1 then d.toTrack k else d
  else d

/-- STALL_TMO without a source count (R71, R72). -/
def stallExpire (d : Dev) (k : Nat) : Dev := if d.stalled k then judge k d else d

/-! ## Configuration (R59, R66, R73) -/

/-- The SRC codes a package accepts (R59). -/
def srcOk (d : Dev) (s : Nat) : Bool :=
  match d.pkg with
  | .rm => decide (s ≤ 5) || (8 ≤ s && s ≤ 0x12)
  | .tc => s == 0 || s == 0x12

/-- A write of CFG of channel k: SRC is refused while enabled or for a reserved code; EN and RECOVER act by R73. -/
def writeReelCfg (d : Dev) (k : Nat) (v : Word) : Dev :=
  let old := d.reg (reelReg k 0).1 (reelReg k 0).2
  let s := bits v 5 1
  let refuse := s != bits old 5 1 && (bit old 0 || !d.srcOk s)
  let w := putBits (v &&& 0x1F733F) 5 1 (if refuse then bits old 5 1 else s)
  let d := d.rset k 0 w
  let d := if refuse then d.rerr k 8 else d
  let d := if !refuse && s != bits old 5 1 then d.setReel k { d.reel k with last := d.now, lossWin := false, edgeOver := false, overRun := 0 } else d
  if !bit v 0 then d.rsetField k 0x14 1 0 0
  else if d.rstate k = 0 then
    if d.srcLost k || d.overspeed k then (d.rsetField k 0x14 1 0 (d.lossState k)).rcount k 0x28
    else d.toTrack k
  else if bit v 24 && (d.rstate k = 2 || d.rstate k = 3) && 1 ≤ (d.reel k).validRun && !d.srcLost k && !d.overspeed k then
    d.toTrack k
  else d

/-- A committed write of the POS pair (R66): it also clears the fraction and the kept half count (log entry 181). -/
def writePos (d : Dev) (k v : Nat) : Dev :=
  if d.rstate k = 0 then
    (d.setPair48 (reelReg k 0x18).1 (reelReg k 0x18).2 v).setReel k { d.reel k with frac := 0, half := 0 }
  else d.rerr k 12

/-- SNAP.TAKE (R67). -/
def snapTake (d : Dev) : Dev :=
  (forEach (List.range 8) (fun k d => d.setPair48 0x018 (0x080 + 8 * k) (d.reelPos k)) d).countFrz 0x018 0x060

/-- A write of MCTRL of MARK m (R78, R81): KIND 7 is read-only; `en` says that the write carries EN, and arms where it is 1. -/
def writeMctrl (d : Dev) (m : Nat) (v : Word) (en : Bool) : Dev :=
  match d.markOwner m with
  | some _ => d.err 0x01B 1
  | none =>
    let k := if bits v 10 8 = 7 then d.mfield m 0 10 8 else bits v 10 8
    let d := d.setReg 0x01B (markBase m) (putBits (v &&& 0xFF073F) 10 8 k)
    if en && bit v 0 then (d.setArmed m d.now).checkMarks (bits v 3 1) else d

/-- A write of TGT_HI of MARK m commits the pair with the agent's staged TGT_LO and arms the MARK: EN reads 1 and its floor restarts
(R34, R78). -/
def writeTgt (d : Dev) (m : Nat) (lo hi : Word) : Dev :=
  match d.markOwner m with
  | some _ => d.err 0x01B 1
  | none =>
    let d := d.setPair48 0x01B (markBase m + 4) (lo.toNat + bits hi 15 0 * 2 ^ 32)
    ((d.setFlag 0x01B (markBase m) 0 true).setArmed m d.now).checkMarks (d.mfield m 0 3 1)

/-! ## The time base (R74, R76) -/

/-- One tick at channel k: a count of TIME, and the fallback rate in DEAD_RECKON. -/
def tickChannel (k : Nat) (d : Dev) : Dev :=
  let d := if d.rstate k = 2 || d.rstate k = 3 then d.rcount k 0x2C else d
  let d :=
    if d.rstate k = 2 then
      let r := d.reel k
      let f := r.frac + d.rword k 8
      let d := d.setReel k { r with frac := f % 2 ^ 24 }
      d.setPair48 (reelReg k 0x18).1 (reelReg k 0x18).2 ((d.reelPos k + f / 2 ^ 24) % 2 ^ 48)
    else d
  if d.rsrc k = 0 then d.addCounts k 1 false else d

/-- Whether FIO runs (18, Clock plans; R77, R143): always but in device DEEP, where every region is in DEEP or off; there only while an
enabled channel has a QDEC, ODO or MAINS source or a cliff channel is enabled. -/
def fioOn (d : Dev) : Bool :=
  (List.range 96).any (fun r => match (d.region r).st with | .deep | .off | .retired => false | _ => true) ||
  (List.range 8).any (fun k => d.renabled k && ((1 ≤ d.rsrc k && d.rsrc k ≤ 5) || d.rsrc k == 0x11)) ||
  (List.range 8).any (fun n => d.running 0x040 && d.flag 0x040 (cliffBase n) 0)

/-- SRC_RDY of the clock sources (18): FIO is ready while it runs. -/
def srcRdy (d : Dev) (s : Nat) : Bool := d.flag 0x010 0x040 s && (s != 0 || d.fioOn)

/-- TIMEBASE.SRC (R76): the first available of XTA, FIO and the AON clock. -/
def timebaseSrc (d : Dev) : Nat := if d.srcRdy 2 then 0 else if d.srcRdy 0 then 1 else 2

/-- The links with packets that wait for credits count the time (CREDIT_STALL, R439). -/
def creditStall (d : Dev) : Dev :=
  forEach ((List.range 4).filter fun k => d.lstate k == 5 && !(d.link k).queue.isEmpty) (fun k d => d.countFrz (0x158 + k) 0x05C) d

/-- One time-base tick: the time advances, Whorl counts its back-pressure (STALL), and every channel follows; the MARKs see all
channels after the tick. Without power only the time of the VSTBY domain advances (R405). -/
def tickOne (d : Dev) : Dev :=
  let d : Dev := { d with sio := d.sio + 1 }
  if d.power ≠ .on then d
  else
  let d : Dev := { d with now := d.now + 1 }
  let d := if d.backPressure then d.count 0x057 0x044 else d
  let ks := (List.range 8).filter fun k => d.rstate k == 2 || (d.rstate k == 1 && d.rsrc k == 0)
  forEach ks (fun k d => d.checkMarks k) (forEach (List.range 8) tickChannel d.creditStall)

/-- An advance of the time base (R76): one tick; from the AON clock the 30 or 31 ticks of one of its periods of 15625/512 µs, whose
fraction is kept. -/
def tick (d : Dev) : Dev :=
  if d.power = .on && d.timebaseSrc = 2 then
    let f := d.aonFrac + 15625
    (List.range (f / 512)).foldl (fun d _ => d.tickOne) { d with aonFrac := f % 512 }
  else d.tickOne

end Dev

/-! ## The commands -/

/-- ENCODER_EDGE (R61): the encoder pins are not bonded on the SV960-TC (R60). -/
def execEncoderEdge (enc : Fin 4) (a b : Bool) (s : State) : Host.Outcome State Fault Refusal :=
  onDev (fun d => if d.pkg = .rm then d.encoderLevels enc.val a b else d) s

/-- ZC_CROSSING (R63). -/
def execZcCrossing (rising : Bool) (s : State) : Host.Outcome State Fault Refusal := onDev (fun d => d.zcCross rising) s

/-- ZC_TIMEOUT (R63). -/
def execZcTimeout (s : State) : Host.Outcome State Fault Refusal := onDev Dev.zcExpire s

/-- RATE_WINDOW_END (R69). -/
def execRateWindowEnd (ch : Fin 8) (s : State) : Host.Outcome State Fault Refusal := onDev (fun d => d.windowEnd ch.val) s

/-- STALL_TMO_EXPIRY (R71, R72). -/
def execStallTmoExpiry (ch : Fin 8) (s : State) : Host.Outcome State Fault Refusal := onDev (fun d => d.stallExpire ch.val) s

/-- A write of CFG of channel k by an agent, with some bits of the register set and others cleared. -/
def reelCfgWrite (ag : Agent) (k : Nat) (on off : Word) (s : State) : Host.Outcome State Fault Refusal :=
  onDev (Dev.rwlWrite ag (reelReg k 0).1 fun d =>
    d.writeReelCfg k ((d.reg (reelReg k 0).1 (reelReg k 0).2 &&& ~~~ off) ||| on)) s

/-- CHANNEL_ENABLE (R73): CFG written with CH_EN = 1, its other fields kept. -/
def execChannelEnable (ag : Agent) (ch : Fin 8) (s : State) : Host.Outcome State Fault Refusal :=
  reelCfgWrite ag ch.val 1 0 s

/-- CHANNEL_DISABLE (R73): CFG written with CH_EN = 0, its other fields kept. -/
def execChannelDisable (ag : Agent) (ch : Fin 8) (s : State) : Host.Outcome State Fault Refusal :=
  reelCfgWrite ag ch.val 0 1 s

/-- CHANNEL_RECOVER (R73): CFG written with RECOVER = 1, its other fields kept. -/
def execChannelRecover (ag : Agent) (ch : Fin 8) (s : State) : Host.Outcome State Fault Refusal :=
  reelCfgWrite ag ch.val 0x01000000 0 s

/-- SNAP_TAKE (R67): a WO register, so any agent may write it. -/
def execSnapTake (_ag : Agent) (s : State) : Host.Outcome State Fault Refusal := onDev (Dev.anyWrite 0x018 Dev.snapTake) s

/-- MARK_ARM (R78): a write of MCTRL, or of TGT_HI. -/
def execMarkArm (ag : Agent) (m : Fin 32) (form : ArmForm) (s : State) : Host.Outcome State Fault Refusal :=
  onDev (Dev.rwlWrite ag 0x01B fun d =>
    match form with
    | .control v => d.writeMctrl m.val v true
    | .target hi => d.writeTgt m.val (d.agentReg ag 0x01B (Dev.markBase m.val + 4)) hi) s

/-- MARK_FLOOR_EXPIRY (R79). -/
def execMarkFloorExpiry (m : Fin 32) (s : State) : Host.Outcome State Fault Refusal := onDev (fun d => d.markFloor m.val) s

/-- TIME_BASE_TICK (R74). -/
def execTimeBaseTick (s : State) : Host.Outcome State Fault Refusal := .next { s with dev := s.dev.tick }

end Sys2Proof.Machine
end

