-- ==== Sys2Proof/Machine/Clocks.lean ====
section
/-!
DEFINITION. The clocks' shared operations (18): which sources and PLLs run, the root and its frequency, CHECKED switches, the
needs of AUTO, and holdover.
-/
namespace Sys2Proof.Machine

namespace Dev

/-! ## Running sources (R411–R413, R419) -/

/-- The SRC_RDY bit of source s. -/
def setRdy (d : Dev) (s : Nat) (v : Bool) : Dev := d.setFlag 0x010 0x040 s v

/-- PLL_STAT.LOCK and PLLn_CFG.LOCK of PLL n. -/
def pllLocked (d : Dev) (n : Nat) : Bool := d.flag 0x011 0x050 n
def setLock (d : Dev) (n : Nat) (v : Bool) : Dev :=
  let d := d.setFlag 0x011 0x050 n v
  if n < 2 then d.setFlag 0x011 (0x040 + 4 * n) 8 v else d

/-- Whether XTA is kept running: forced on, or started by AUTO. -/
def xtaOn (d : Dev) : Bool := d.flag 0x010 0x050 0 || d.clk.xtaAuto

/-- Whether PLL n is kept running: held on, or started by AUTO or by the front end. -/
def pllOn (d : Dev) (n : Nat) : Bool :=
  match n with
  | 0 => d.flag 0x011 0x040 0 || d.clk.pll0Auto
  | 1 => d.flag 0x011 0x044 0 || d.clk.pll1Req
  | _ => d.flag 0x011 0x048 0

/-- Whether PLL n's reference runs: XTA or PLL2 for PLL0; XTA or FIO for PLL1, chosen at its start; RCV_MUX for
PLL2, which also runs in holdover. -/
def pllRef (d : Dev) (n : Nat) : Bool :=
  match n with
  | 0 => if d.flag 0x011 0x04C 8 then d.pllLocked 2 else d.srcRdy 2
  | 1 => if d.flag 0x011 0x044 9 then d.srcRdy 0 else d.srcRdy 2
  | _ => d.clk.holdAt.isSome || (if d.clk.rcvSel then d.srcRdy 7 else d.srcRdy 2)

/-! ## Frequencies (R414, R416) -/

/-- The applied frequency in MHz: min(F, T_CAP). -/
def appliedMhz (d : Dev) : Nat := min (d.reg 0x009 0x040).toNat (d.reg 0x009 0x04C).toNat

/-- ROOT_STAT.CUR: 0 FIO, 1 XTA, 2 PLL0. -/
def rootCur (d : Dev) : Nat := d.field 0x012 0x044 1 0

/-- The root's frequency in MHz. -/
def rootMhz (d : Dev) : Nat := match d.rootCur with | 0 => 96 | 1 => 38 | _ => d.appliedMhz

/-- The record of a FABR frequency change or of 2³¹ FABR clocks (R311). -/
def traceClock (d : Dev) : Dev :=
  if d.flag 0x160 0x040 0 && d.flag 0x160 0x040 31 && !d.traceOff then
    let (v, d) := d.fresh
    let i := d.field 0x160 0x044 12 0
    let r : TraceRec := { w0 := BitVec.ofNat 32 v, w1 := 15, w2 := BitVec.ofNat 32 d.now, w3 := BitVec.ofNat 32 (d.rootMhz / 4) }
    ({ d with trace := Sparse.put (fun _ => {}) d.trace i r } : Dev).setField 0x160 0x044 12 0 (i + 1)
  else d

/-- ROOT_STAT.MHZ follows the root; a change of the FABR frequency is traced. -/
def rootFollow (d : Dev) : Dev :=
  if d.field 0x012 0x044 27 16 = d.rootMhz then d else (d.setField 0x012 0x044 27 16 d.rootMhz).traceClock

/-- PLL0's SRC_RDY (R414): locked, and every region in RUN at the fused voltage of the applied frequency. -/
def pll0Good (d : Dev) : Bool :=
  d.pllLocked 0 && (List.range 96).all fun r =>
    d.regionNow r != .run || decide (Config.fusedMv d.appliedMhz ≤ (d.region r).mv)

/-! ## The root (R418, R419, R423) -/

/-- A CHECKED switch of the root to a source starts (R418). -/
def rootStart (d : Dev) (t : Nat) : Dev :=
  ({ d with clk := { d.clk with target := some t } } : Dev).setFlag 0x012 0x044 4 true

/-- The root is on a source (R418): the switch is over and counted. -/
def rootMove (d : Dev) (t : Nat) : Dev :=
  let d := ({ d with clk := { d.clk with target := none } } : Dev).setFlag 0x012 0x044 4 false
  ((d.setField 0x012 0x044 1 0 t).count 0x012 0x04C).rootFollow

/-- The SRC_RDY bit of a root source: FIO, XTA, PLL0. -/
def rootSrc (t : Nat) : Nat := if t = 0 then 0 else if t = 1 then 2 else 4

/-- Loss of the root's source: the root falls to FIO (R423). -/
def rootFall (d : Dev) : Dev := ((d.rootMove 0).setFlag 0x012 0x044 5 true).err 0x012 1

/-- The group of ROOT_CFG.NEED that a region belongs to (R419). -/
def needGroup (r : Nat) : Nat :=
  if r < 64 then 0 else if r < 68 then 1 else if r < 76 then 2 else if r < 80 then 3 else if r < 88 then 4
  else if r < 92 then 5 else 6

/-- Whether PLL0 is needed (R419): a region of a group in ROOT_CFG.NEED is in RUN, IDLE or WAKING, or leaves
RUN or IDLE and has not completed phase 2 (R395, R399). -/
def pll0Needed (d : Dev) : Bool :=
  (List.range 96).any fun r =>
    d.flag 0x012 0x048 (needGroup r) &&
    (match (d.region r).st with
      | .run | .idle | .waking => true
      | .entering => (match (d.region r).entry with | some e => e.former == .run || e.former == .idle | none => false)
      | .sleep | .deep | .off | .retired => false)

/-- Sources that are no longer kept running stop: their locks and SRC_RDY bits clear. -/
def clkStops (d : Dev) : Dev :=
  let d := if d.xtaOn then d else d.setRdy 2 false
  let stop (n : Nat) (d : Dev) : Dev := if d.pllOn n then d else (d.setLock n false).setRdy (4 + n) false
  stop 0 (stop 1 (stop 2 d))

/-- SRC_RDY of PLL0 follows its lock and the voltages (R414). -/
def pll0Follow (d : Dev) : Dev := if d.srcRdy 4 = d.pll0Good then d else d.setRdy 4 d.pll0Good

/-- AUTO (R419): a needed PLL0 starts XTA, then PLL0, and takes the root once it is ready; one no longer needed gives the root
back to FIO and stops, with XTA unless something else keeps it. -/
def clkAuto (d : Dev) : Dev :=
  if !d.flag 0x012 0x040 4 then d
  else if d.pll0Needed then
    let d : Dev := { d with clk := { d.clk with xtaAuto := true, pll0Auto := d.clk.pll0Auto || d.srcRdy 2 } }
    if d.srcRdy 4 && d.rootCur ≠ 2 && d.clk.target.isNone then d.rootStart 2 else d
  else if d.rootCur = 2 || d.clk.target == some 2 || (d.clk.xtaAuto && d.rootCur = 1) then
    if d.clk.target == some 0 then d else d.rootStart 0
  else if d.clk.pll0Auto || d.clk.xtaAuto then
    let keep := d.flag 0x010 0x050 1 || (d.pllOn 1 && !d.flag 0x011 0x044 9) || (d.pllOn 2 && !d.clk.rcvSel)
    clkStops { d with clk := { d.clk with pll0Auto := false, xtaAuto := d.clk.xtaAuto && keep } }
  else d

/-! ## Holdover (R424) -/

/-- HOLD_US of PLL2: 1–45. -/
def holdUs (d : Dev) : Nat := max 1 (min 45 (d.field 0x011 0x048 13 8))

/-- RCV is lost while PLL2 runs from it. -/
def holdoverStart (d : Dev) : Dev :=
  (({ d with clk := { d.clk with holdAt := some d.now } } : Dev).setFlag 0x011 0x050 4 true).count 0x011 0x054

/-- The register of a mux, its input and the start of its switch (R420). -/
def muxReg (m : Mux) : Nat := match m with | .aon => 0x040 | .rcv => 0x044
def muxSel (d : Dev) (m : Mux) : Bool := match m with | .aon => d.clk.aonSel | .rcv => d.clk.rcvSel
def muxAt (d : Dev) (m : Mux) : Nat := match m with | .aon => d.clk.aonAt | .rcv => d.clk.rcvAt
def setMux (d : Dev) (m : Mux) (sel : Bool) (t : Nat) : Dev :=
  match m with
  | .aon => { d with clk := { d.clk with aonSel := sel, aonAt := t } }
  | .rcv => { d with clk := { d.clk with rcvSel := sel, rcvAt := t } }

/-- BUSY of a mux. -/
def muxBusy (d : Dev) (m : Mux) : Bool := d.flag 0x013 (muxReg m) 8

/-- A switch of a mux to input `sel` starts (R420). -/
def muxStart (d : Dev) (m : Mux) (sel : Bool) : Dev :=
  if d.muxBusy m || sel == d.muxSel m then d
  else ((d.setFlag 0x013 (muxReg m) 0 sel).setFlag 0x013 (muxReg m) 8 true).setMux m (d.muxSel m) d.now

/-- The mux passes its new input (R420, R421). -/
def muxEnd (d : Dev) (m : Mux) : Dev :=
  if d.muxBusy m then (d.setFlag 0x013 (muxReg m) 8 false).setMux m (d.flag 0x013 (muxReg m) 0) d.now else d

/-- A mux forced to an input at once by hardware (R421, R422, R424): no HUNG bit. -/
def muxForceTo (d : Dev) (m : Mux) (sel : Bool) : Dev :=
  ((d.setFlag 0x013 (muxReg m) 0 sel).setFlag 0x013 (muxReg m) 8 false).setMux m sel d.now

/-- SWITCH_TMO in µs: 0 acts as 1, above 1,000 acts as 1,000 (R421). -/
def switchTmo (d : Dev) : Nat := max 1 (min 1000 (d.field 0x013 0x048 9 0))

end Dev

end Sys2Proof.Machine
end

