-- ==== Sys2Proof/Machine/Intake.lean ====
section
/-!
DEFINITION. Sensor intake (04): CSI-2 frames and event packets, the AER port, the I3C and SPI sensors, encoder snapshots and
pushed records, with their commands.
-/
namespace Sys2Proof.Machine

namespace Dev

/-! ## CSI-2 packets (R93, R94) -/

/-- An 8-bit counter of PORTp_STAT, saturating. -/
def portCount (d : Dev) (p lo : Nat) : Dev :=
  let o := 0x050 + 4 * p
  d.setField 0x038 o (lo + 7) lo (satAddN 8 (d.field 0x038 o (lo + 7) lo) 1)

/-- DT_UNSUP (`lo` = 0) or DT_MISMATCH (`lo` = 16), saturating. -/
def dtCount (d : Dev) (lo : Nat) : Dev := d.setField 0x038 0x0A0 (lo + 15) lo (satAddN 16 (d.field 0x038 0x0A0 (lo + 15) lo) 1)

/-- A packet header's ECC (R93): a 1-bit error is corrected and counted, a 2-bit error drops the packet. A port that is down
receives nothing. -/
def csiHeader (d : Dev) (p : Nat) (ecc : Ecc) (f : Dev → Dev) : Dev :=
  if d.absentPage 0x038 || !d.flag 0x038 (0x050 + 4 * p) 0 then d
  else
    match ecc with
    | .clean => f d
    | .corrected => f (d.portCount p 8)
    | .bad => d.portCount p 16

/-- The stream channel of a port and virtual channel (R94). -/
def csiRoute (d : Dev) (p vc : Nat) : Option Nat :=
  let o := 0x060 + 4 * (4 * p + vc)
  if d.flag 0x038 o 7 then some (d.field 0x038 o 4 0) else none

/-! ## Frames (R95–R98) -/

/-- The buffers of camera n (R95). -/
def camBuf (d : Dev) (n k : Nat) : Nat := d.pair48 (chanPage n) 0x088 + k * (d.reg (chanPage n) 0x090).toNat
def camWidth (d : Dev) (n : Nat) : Nat := d.field (chanPage n) 0x080 12 0
def camHeight (d : Dev) (n : Nat) : Nat := d.field (chanPage n) 0x080 28 16
def camUnpack (d : Dev) (n : Nat) : Bool := d.flag (chanPage n) 0x084 0

end Dev

/-- The bytes of a line of `w` pixels as stored (R95): RAW8 1, YUV422 2, RAW10 and RAW12 packed, or 2 when unpacked. -/
def lineBytes (dt w : Nat) (unpack : Bool) : Nat :=
  if dt = 0x1E then 2 * w
  else if dt = 0x2B then (if unpack then 2 * w else ceilDiv (10 * w) 8)
  else if dt = 0x2C then (if unpack then 2 * w else ceilDiv (12 * w) 8)
  else w

/-- RAW10 pixels unpacked to 16 bits: four high bytes, then a byte of low bits. -/
def unpack10 : Nat → List Byte → List Byte
  | k + 1, a :: b :: c :: e :: l :: rest =>
    let px (h : Byte) (i : Nat) : List Byte := bytesLE 2 (h.toNat * 4 + (l.toNat / 4 ^ i) % 4)
    px a 0 ++ px b 1 ++ px c 2 ++ px e 3 ++ unpack10 k rest
  | _, _ => []

/-- RAW12 pixels unpacked to 16 bits: two high bytes, then a byte of low bits. -/
def unpack12 : Nat → List Byte → List Byte
  | k + 1, a :: b :: l :: rest =>
    bytesLE 2 (a.toNat * 16 + l.toNat % 16) ++ bytesLE 2 (b.toNat * 16 + l.toNat / 16) ++ unpack12 k rest
  | _, _ => []

/-- A received line as it is stored (R95). -/
def storedLine (dt : Nat) (unpack : Bool) (line : List Byte) : List Byte :=
  if unpack && dt = 0x2B then unpack10 line.length line
  else if unpack && dt = 0x2C then unpack12 line.length line
  else line

namespace Dev

/-- The open frame of camera n is discarded and its buffer returned (R96). -/
def dropFrame (d : Dev) (n cause : Nat) : Dev :=
  match (d.chan n).frame with
  | none => d
  | some f =>
    ((d.setChan n { d.chan n with frame := none }).setFlag (chanPage n) 0x098 f.buf true).lose n cause 1

/-- A frame start at camera n (R95–R97). A draining page takes no new frame; the frame that is open on it is discarded too. -/
def frameStart (d : Dev) (n : Nat) : Dev :=
  let p := chanPage n
  if d.absentPage p || !d.running p then streamWork n (d.dropFrame n 4)
  else
    let d := d.dropFrame n 4
    let c := d.chan n
    let tag := c.trig.getD (d.chanTag n)
    let skip (cause : Nat) : Dev := (d.setChan n { c with skip := true, trig := none }).lose n cause 1
    if d.frozen p then skip 6
    else
      match d.freeBuf n with
      | none => skip 2
      | some k =>
        streamWork n ((d.setChan n { c with frame := some { buf := k, tag := tag, trig := c.trig.isSome }, skip := false,
                                            trig := none }).setFlag p 0x098 k false)

/-- A line of an image at camera n (R95, R96): it counts for CAMLINE, and is kept within the configured frame. -/
def frameLine (d : Dev) (n dt : Nat) (line : List Byte) (crcOk : Bool) : Dev :=
  if !d.capturing n then d
  else
    let d := d.sourceCount (8 + n)
    match (d.chan n).frame with
    | none => d
    | some f =>
      if 4096 ≤ f.lines then (d.dropFrame n 4).setChan n { (d.dropFrame n 4).chan n with skip := true }
      else
        let want := lineBytes dt (d.camWidth n) (d.camUnpack n)
        let got := storedLine dt (d.camUnpack n) line
        let fits := decide (f.lines < d.camHeight n)
        let stride := roundUp want 64
        let data := got.take want ++ List.replicate (want - got.length) 0
        let d := if fits then d.put .producer (d.camBuf n f.buf + f.lines * stride) data else d
        d.setChan n { d.chan n with
          dt := some dt
          frame := some { f with lines := f.lines + 1, dt := dt, lineErr := f.lineErr || !crcOk,
                                 short := f.short || (fits && decide (got.length < want)),
                                 long := f.long || !fits || decide (want < got.length) } }

/-- A frame end at camera n (R95, R96): the missing lines are zero, the FRAME record is written, and the frame joins the
lookback. -/
def frameEnd (d : Dev) (n : Nat) : Dev :=
  let p := chanPage n
  if !d.capturing n then d
  else
    match (d.chan n).frame with
    | none => if (d.chan n).skip then d.setChan n { d.chan n with skip := false } else d.lose n 3 1
    | some f =>
      let h := d.camHeight n
      let want := lineBytes f.dt (d.camWidth n) (d.camUnpack n)
      let stride := roundUp want 64
      let d := (List.range (h - f.lines)).foldl (fun d i =>
        d.put .producer (d.camBuf n f.buf + (f.lines + i) * stride) (List.replicate want 0)) d
      let flags := f.lineErr.toNat * 4 + (f.short || decide (f.lines < h)).toNat * 8 + f.long.toNat * 16 + f.trig.toNat * 32
      let seq := d.reg p 0x058
      let d := d.setChan n { d.chan n with frame := none }
      let r : Rec := { type := 1, flags := flags, tag := f.tag, count := min f.lines h, aux := d.camBuf n f.buf }
      let (d, ok) := d.captureOk n true r 1
      let c := d.chan n
      streamWork n <|
        if ok then
          let done := c.done ++ [{ buf := f.buf, tag := f.tag, seq := seq, stride := stride, dt := f.dt, marked := flags / 4 % 4 != 0 }]
          d.setChan n { c with done := done.drop (done.length - 8) }
        else d.setFlag p 0x098 f.buf true

/-! ## Event channels (R99–R103) -/

/-- EVT.BATCH and EVT.MAX_US; 0 acts as 1. -/
def evtBatch (d : Dev) (n : Nat) : Nat := max 1 (min 512 (d.field (chanPage n) 0x080 9 0))
def evtMaxUs (d : Dev) (n : Nat) : Nat := max 1 (d.field (chanPage n) 0x084 31 16)

/-- One event word at channel n (R99–R101): `raw` is the sensor's word, `pos` the REELPOS it receives. -/
def eventWord (n : Nat) (pos : Nat) (d : Dev) (raw : Nat) : Dev :=
  let p := chanPage n
  if d.absentPage p || !d.running p then d
  else if d.frozen p then d.lose n 6 1
  else
    let c := d.chan n
    let tag := d.chanTag n
    let rp := if d.flag p 0x080 12 then slice raw 31 8 else pos
    let flags := slice raw 0 0 + tag.dr.toNat * 2 + tag.stale.toNat * 4 + c.lost.toNat * 8 + slice raw 5 4 * 16
    let w := slice raw 63 32 * 2 ^ 32 + rp * 256 + d.field p 0x080 17 16 * 64 + flags
    let c := { c with words := c.words ++ [BitVec.ofNat 64 w], lost := false,
                      tag := if c.words.isEmpty then tag else c.tag, opened := if c.words.isEmpty then d.now else c.opened }
    let d := d.setChan n c
    let d := d.evEvent (n - 8) (slice raw 63 52) (slice raw 51 40) (signedOf 8 (slice raw 39 32)) rp
    if d.evtBatch n ≤ c.words.length then d.closeEvents n else streamWork n d

/-- The whole 64-bit words of a payload, and whether bytes are left over. -/
def eventWords : Nat → List Byte → List Nat × Bool
  | 0, l => ([], !l.isEmpty)
  | k + 1, l =>
    if l.length < 8 then ([], !l.isEmpty)
    else
      let (ws, t) := eventWords k (l.drop 8)
      (ofBytesLE (l.take 8) :: ws, t)

/-- Flags for the record that the next event word of channel n joins. -/
def eventMark (d : Dev) (n m : Nat) : Dev :=
  if d.running (chanPage n) && !d.frozen (chanPage n) then d.setChan n { d.chan n with eflags := (d.chan n).eflags ||| m } else d

/-- An event packet delivered to channel n (R100): every word gets the REELPOS of the packet header; a CRC error marks each record
that takes a word of it, and left-over bytes the one that takes its last. -/
def eventPacket (d : Dev) (n : Nat) (payload : List Byte) (crcOk : Bool) : Dev :=
  let pos := d.reelSlice (d.field (chanPage n) 0x040 2 0) 24
  let (ws, trunc) := eventWords payload.length payload
  let crc := (!crcOk).toNat * 4
  let d := ws.dropLast.foldl (fun d w => eventWord n pos (d.eventMark n crc) w) d
  let d := d.eventMark n (crc + trunc.toNat * 64)
  match ws.getLast? with
  | some w => eventWord n pos d w
  | none => d

/-- A packet of a line (R93, R94): image types to SC0–SC7, 0x30 to SC8–SC9, line start and end ignored on a mapped virtual channel,
any other type dropped and counted. -/
def longPacket (d : Dev) (p vc dt : Nat) (data : List Byte) (crcOk : Bool) : Dev :=
  if dt = 0x02 || dt = 0x03 then (if (d.csiRoute p vc).isSome then d else d.dtCount 16)
  else
    let d := if crcOk then d else d.portCount p 24
    if dt = 0x1E || dt = 0x2A || dt = 0x2B || dt = 0x2C then
      match d.csiRoute p vc with
      | some n => if n < 8 then d.frameLine n dt data crcOk else d.dtCount 16
      | none => d.dtCount 16
    else if dt = 0x30 then
      match d.csiRoute p vc with
      | some n => if n = 8 || n = 9 then d.eventPacket n data crcOk else d.dtCount 16
      | none => d.dtCount 16
    else d.dtCount 0

/-- A frame start or end packet (R93–R96): to the camera its virtual channel is mapped to. -/
def framePacket (d : Dev) (p vc : Nat) (f : Nat → Dev → Dev) : Dev :=
  match d.csiRoute p vc with
  | some n => if n < 8 then f n d else d.dtCount 16
  | none => d.dtCount 16

/-- A write of ROUTE entry i (R94): refused where another entry or the AER port has the channel. -/
def writeRoute (d : Dev) (i : Nat) (v : Word) : Dev :=
  let ch := bits v 4 0
  let taken := (List.range 16).any fun j => j != i && d.flag 0x038 (0x060 + 4 * j) 7 && d.field 0x038 (0x060 + 4 * j) 4 0 == ch
  if bit v 7 && taken then d.err 0x038 0
  else (d.setReg 0x038 (0x060 + 4 * i) (v &&& 0x9F)).judgeAll

/-! ## The AER port (R102, R103) -/

/-- The channel of the AER port. -/
def aerChan (d : Dev) : Nat := 8 + d.field 0x039 0x040 0 0

/-- A write of AER (R103): a channel with a ROUTE entry is refused. -/
def writeAer (d : Dev) (v : Word) : Dev :=
  let taken := (List.range 16).any fun j =>
    d.flag 0x038 (0x060 + 4 * j) 7 && d.field 0x038 (0x060 + 4 * j) 4 0 == 8 + bits v 0 0
  if taken then d.err 0x038 0 else d.setReg 0x039 0x040 (v &&& 0xFF01)

/-- An incomplete event is discarded (R102, R90). -/
def aerFraming (d : Dev) : Dev := (d.countFrz 0x039 0x044).lose d.aerChan 5 1

/-- The AER page follows its work: a first beat waits for its second. -/
def aerWork (d : Dev) : Dev := d.work 0x039 (fun d => d.aer.beat0.isSome) (fun d => { d with aer := {} })

/-- One beat of the AER handshake (R102): ACK rises. With FRZ set a new event is not started (R41). -/
def aerBeat (d : Dev) (frm : Bool) (v : Nat) : Dev :=
  if d.absentPage 0x039 || !d.running 0x039 || (d.frozen 0x039 && d.aer.beat0.isNone) then d
  else
    let first (d : Dev) : Dev := { d with aer := { d.aer with beat0 := if d.frozen 0x039 then none else some v } }
    let d : Dev := { d with aer := { d.aer with ackAt := some d.now, stuck := false } }
    aerWork <|
    match frm, d.aer.beat0 with
    | true, none => first d
    | true, some _ => (first d).aerFraming
    | false, none => d.aerFraming
    | false, some b =>
      let d : Dev := { d with aer := { d.aer with beat0 := none } }
      let value := slice b 15 12 * 16 + slice v 15 12
      let raw := slice b 11 0 * 2 ^ 52 + slice v 11 0 * 2 ^ 40 + value * 2 ^ 32
      eventWord d.aerChan (d.reelSlice (d.field (chanPage d.aerChan) 0x040 2 0) 24) d raw

/-- AER.TMO in µs; 0 acts as 1 (log entry 183). -/
def aerTmo (d : Dev) : Nat := max 1 (d.field 0x039 0x040 15 8)

/-- AER_REQ has stayed high for more than AER.TMO after ACK rose, or falls after that (R103). -/
def aerStuck (d : Dev) (fell : Bool) : Dev :=
  if d.absentPage 0x039 || !d.running 0x039 then d
  else if fell then
    let d' : Dev := { d with aer := { d.aer with stuck := false, ackAt := none } }
    if d.aer.stuck then d'.lose d.aerChan 5 1 else d'
  else
    match d.aer.ackAt with
    | some t =>
      if t + d.aerTmo < d.now && !d.aer.stuck then ({ d with aer := { d.aer with stuck := true } } : Dev).err 0x039 0 else d
    | none => d

/-! ## The sampled sensors (R104–R107) -/

/-- A read of channel n begins: its tag is the first sample's. -/
def startRead (d : Dev) (n : Nat) : Dev :=
  if d.frozen (chanPage n) then d.lose n 6 1
  else streamWork n (d.setChan n { d.chan n with busy := true, readTag := d.chanTag n })

/-- A read of channel n is asked for: it starts, or one is held while a read runs. The flag says that it was lost. -/
def askRead (d : Dev) (n : Nat) : Dev × Bool :=
  if d.absentPage (chanPage n) || !d.running (chanPage n) then (d, false)
  else if (d.chan n).busy then (d.setChan n { d.chan n with edge := true }, (d.chan n).edge)
  else (d.startRead n, false)

/-- A period of channel n (R105–R107): whether PERIOD µs have passed, and the channel with the next period begun. -/
def periodDue (d : Dev) (n period : Nat) : Bool := decide ((d.chan n).period + max 1 period ≤ d.now)
def nextPeriod (d : Dev) (n : Nat) : Dev := d.setChan n { d.chan n with period := d.now }

/-- A read of channel n of at most `burst` bytes ends (R105, R106): a SAMPLE record, or a GAP; a held request starts the next. -/
def readDone (d : Dev) (n burst : Nat) (r : BusResult) : Dev :=
  let c := d.chan n
  if c.busy then
    let d := d.setChan n { c with busy := false, edge := false }
    let d := match r with
      | .data bytes => (d.captureOk n true { type := 4, tag := c.readTag, count := 1, payload := bytes.take burst } 1).1
      | .nack | .timeout | .pecError _ => d.lose n 5 1
    streamWork n (if c.edge && d.running (chanPage n) then d.startRead n else d)
  else d

/-- A waiting software transfer starts once no channel transfer is in progress (R104). -/
def i3cNext (d : Dev) : Dev :=
  match d.i3c.cur, d.i3c.queue with
  | none, some v => if (d.chan 19).busy then d else { d with i3c := { d.i3c with cur := some v, queue := none } }
  | _, _ => d

/-- A write of I3C_CMD (R104), merged with the bytes that `m` does not enable: START acts where its byte is written. -/
def writeI3c (d : Dev) (v m : Word) : Dev :=
  let d := d.setReg 0x038 0x0B0 (v &&& 0x8000FFFF)
  if bit (v &&& m) 31 then i3cNext { d with i3c := { d.i3c with queue := some v } } else d

/-- A software transfer ends (R104): a read leaves its bytes in the FIFO, a write has taken its bytes from it. -/
def i3cDone (d : Dev) (r : BusResult) : Dev :=
  match d.i3c.cur with
  | none => d
  | some v =>
    let len := bits v 15 8
    let fifo := match r with
      | .data bytes => if bit v 7 then (d.i3c.fifo ++ bytes.take len).take 64 else d.i3c.fifo.drop len
      | .nack | .timeout | .pecError _ => d.i3c.fifo
    let d : Dev := { d with i3c := { d.i3c with cur := none, fifo := fifo } }
    i3cNext (d.setFlag 0x038 0x0B0 31 d.i3c.queue.isSome)

/-! ## Pushed records (R108, R172) -/

/-- A push on general channel 22 + k (R108): ignored while a copy runs. -/
def genPush (d : Dev) (k : Nat) (lo hi : Word) : Dev :=
  let n := 22 + k
  let p := chanPage n
  if (d.chan n).push.isSome || !d.running p then d
  else
    let d := d.setPair48 p 0x080 (lo.toNat + bits hi 15 0 * 2 ^ 32)
    if d.frozen p then d.lose n 6 1
    else
      let len := max 1 (min 4096 (d.field p 0x088 12 0))
      streamWork n (d.setChan n { d.chan n with push := some (d.pair48 p 0x080, len, d.field p 0x088 23 16),
                                                readTag := d.chanTag n })

/-- The copy of a push ends (R108): its record, and the words of an EVENTS record to Whorl (R172). TYPE is written as it was given,
one that R84 does not name too (log entry 184). -/
def genDone (d : Dev) (k : Nat) : Dev :=
  let n := 22 + k
  let c := d.chan n
  match c.push with
  | none => d
  | some (a, len, type) =>
    let (o, d) := d.read .producer a len
    let d := d.setChan n { d.chan n with push := none }
    let words := (List.range (len / 4)).map fun i => BitVec.ofNat 32 (ofBytesLE ((o.bytes.drop (4 * i)).take 4))
    let cnt := if type = 3 then words.length else 1
    let d := (d.captureOk n true { type := type, tag := c.readTag, count := cnt, payload := o.bytes } 1).1
    streamWork n (if type = 3 then words.foldl (fun d w => d.genEvent k w) d else d)

/-! ## Links and triggers -/

/-- A CSI-2 port goes down (R71, R96). -/
def csiDown (d : Dev) (p : Nat) : Dev :=
  if d.absentPage 0x038 then d
  else
    let d := d.setFlag 0x038 (0x050 + 4 * p) 0 false
    judgeAll (forEach ((List.range 8).filter fun n => d.camPort n == some p) (fun n d =>
      let d := d.dropFrame n 5
      streamWork n (d.setChan n { d.chan n with skip := false })) d)

/-- The trigger pulse of camera n ends (R98): TRIG_WIDTH µs after its start. -/
def trigEnd (d : Dev) (n : Nat) : Dev :=
  match (d.chan n).trigOn with
  | some t => if t + max 1 (d.field (chanPage n) 0x084 15 8) ≤ d.now then d.setChan n { d.chan n with trigOn := none } else d
  | none => d

/-- The level of CAM_TRIGn (R98). -/
def camTrigPin (d : Dev) (n : Nat) : Bool := (d.chan n).trigOn.isSome != d.flag (chanPage n) 0x084 1

end Dev

/-! ## The commands -/

/-- CSI_FRAME_START (R95). -/
def execCsiFrameStart (p : Fin 4) (vc : Fin 4) (ecc : Ecc) (s : State) : Host.Outcome State Fault Refusal :=
  onDev (fun d => d.csiHeader p.val ecc fun d => d.framePacket p.val vc.val fun n d => d.frameStart n) s

/-- CSI_LINE_PACKET (R95). -/
def execCsiLinePacket (p : Fin 4) (vc : Fin 4) (dt : BitVec 6) (line : List Byte) (ecc : Ecc) (crcOk : Bool) (s : State) :
    Host.Outcome State Fault Refusal :=
  onDev (fun d => d.csiHeader p.val ecc fun d => d.longPacket p.val vc.val dt.toNat line crcOk) s

/-- CSI_FRAME_END (R95). -/
def execCsiFrameEnd (p : Fin 4) (vc : Fin 4) (ecc : Ecc) (s : State) : Host.Outcome State Fault Refusal :=
  onDev (fun d => d.csiHeader p.val ecc fun d => d.framePacket p.val vc.val fun n d => d.frameEnd n) s

/-- CSI_EVENT_PACKET (R100): a long packet of data type 0x30. -/
def execCsiEventPacket (p : Fin 4) (vc : Fin 4) (payload : List Byte) (ecc : Ecc) (crcOk : Bool) (s : State) :
    Host.Outcome State Fault Refusal :=
  onDev (fun d => d.csiHeader p.val ecc fun d => d.longPacket p.val vc.val 0x30 payload crcOk) s

/-- CSI_LINK_DOWN (R96). -/
def execCsiLinkDown (p : Fin 4) (s : State) : Host.Outcome State Fault Refusal := onDev (fun d => d.csiDown p.val) s

/-- CSI_LINK_UP (R71). -/
def execCsiLinkUp (p : Fin 4) (s : State) : Host.Outcome State Fault Refusal :=
  onDev (fun d => if d.absentPage 0x038 then d else (d.setFlag 0x038 (0x050 + 4 * p.val) 0 true).judgeAll) s

/-- OVERFLOW_GAP_WRITE (R91). -/
def execOverflowGapWrite (ch : Fin 24) (s : State) : Host.Outcome State Fault Refusal :=
  onDev (fun d => if d.capturing ch.val then Dev.flushGaps ch.val false (d.maxPayload ch.val) 8 d else d) s

/-- CAM_TRIG_END (R98). -/
def execCamTrigEnd (cam : Fin 8) (s : State) : Host.Outcome State Fault Refusal := onDev (fun d => d.trigEnd cam.val) s

/-- BUF_FREE (R97): a W1S register, so any agent may write it. -/
def execBufFree (_ag : Agent) (cam : Fin 8) (bufs : Word) (s : State) : Host.Outcome State Fault Refusal :=
  onDev (Dev.anyWrite (chanPage cam.val) fun d =>
    d.setReg (chanPage cam.val) 0x098 (d.reg (chanPage cam.val) 0x098 ||| bufs)) s

/-- EVT_BATCH_TIMEOUT (R101). -/
def execEvtBatchTimeout (k : Fin 2) (s : State) : Host.Outcome State Fault Refusal :=
  onDev (fun d =>
    let n := 8 + k.val
    if !(d.chan n).words.isEmpty && (d.chan n).opened + d.evtMaxUs n ≤ d.now then d.closeEvents n else d) s

/-- AER_BEAT (R102). -/
def execAerBeat (frm : Bool) (d16 : BitVec 16) (s : State) : Host.Outcome State Fault Refusal :=
  onDev (fun d => d.aerBeat frm d16.toNat) s

/-- AER_STUCK_TIMEOUT (R103). -/
def execAerStuckTimeout (reqFell : Bool) (s : State) : Host.Outcome State Fault Refusal :=
  onDev (fun d => d.aerStuck reqFell) s

/-- I3C_TRANSFER (R104). -/
def execI3cTransfer (ag : Agent) (value : Word) (s : State) : Host.Outcome State Fault Refusal :=
  onDev (Dev.rwlWrite ag 0x038 fun d => d.writeI3c value 0xFFFFFFFF) s

/-- I3C_TRANSFER_DONE (R104). -/
def execI3cTransferDone (r : BusResult) (s : State) : Host.Outcome State Fault Refusal := onDev (fun d => d.i3cDone r) s

/-- TOF_IBI (R105): an in-band interrupt from TOF.ADDR in MODE 0. -/
def execTofIbi (addr : BitVec 7) (s : State) : Host.Outcome State Fault Refusal :=
  onDev (fun d =>
    if !d.flag 0x033 0x080 0 && d.field 0x033 0x080 14 8 = addr.toNat then (d.askRead 19).1 else d) s

/-- TOF_PERIOD_EXPIRY (R105). -/
def execTofPeriodExpiry (s : State) : Host.Outcome State Fault Refusal :=
  onDev (fun d =>
    if d.flag 0x033 0x080 0 && d.periodDue 19 (d.reg 0x033 0x084).toNat then ((d.nextPeriod 19).askRead 19).1 else d) s

/-- TOF_READ_DONE (R105). -/
def execTofReadDone (r : BusResult) (s : State) : Host.Outcome State Fault Refusal :=
  onDev (fun d => (d.readDone 19 (max 1 (min 256 (d.field 0x033 0x088 8 0))) r).i3cNext) s

/-- IMU_INT_EDGE (R106): with one edge held, further ones count in INT_LOST. -/
def execImuIntEdge (s : State) : Host.Outcome State Fault Refusal :=
  onDev (fun d =>
    if d.flag 0x032 0x080 0 then d
    else
      let (d, lost) := d.askRead 18
      if lost then d.countFrz 0x032 0x088 else d) s

/-- IMU_PERIOD_EXPIRY (R106). -/
def execImuPeriodExpiry (s : State) : Host.Outcome State Fault Refusal :=
  onDev (fun d =>
    if d.flag 0x032 0x080 0 && d.periodDue 18 (d.reg 0x032 0x084).toNat then ((d.nextPeriod 18).askRead 18).1 else d) s

/-- IMU_READ_DONE (R106). -/
def execImuReadDone (r : BusResult) (s : State) : Host.Outcome State Fault Refusal :=
  onDev (fun d => d.readDone 18 (max 1 (min 64 (d.field 0x032 0x080 30 24))) r) s

/-- ENC_PERIOD_EXPIRY (R107). -/
def execEncPeriodExpiry (s : State) : Host.Outcome State Fault Refusal :=
  onDev (fun d =>
    if d.running 0x034 && !d.flag 0x034 0x080 8 && d.periodDue 20 (max 100 (d.field 0x034 0x080 31 16)) then
      (d.nextPeriod 20).encSnapshot
    else d) s

/-- GEN_PUSH (R108): the write of PUSH_HI with the agent's staged PUSH_LO. -/
def execGenPush (ag : Agent) (k : Fin 2) (hi : Word) (s : State) : Host.Outcome State Fault Refusal :=
  onDev (Dev.rwlWrite ag (chanPage (22 + k.val)) fun d =>
    d.genPush k.val (d.agentReg ag (chanPage (22 + k.val)) 0x080) hi) s

/-- GEN_PUSH_DONE (R108). -/
def execGenPushDone (k : Fin 2) (s : State) : Host.Outcome State Fault Refusal := onDev (Dev.whenServed fun d => d.genDone k.val) s

end Sys2Proof.Machine
end

