-- ==== Sys2Proof/Machine/Mic.lean ====
section
/-!
DEFINITION. The listening path (05): modes and clocks of the microphone front end, the grid, audio records, gain, the
filterbank and the audio lookback, with its commands and the lookback snapshot (R110, R127).
-/
namespace Sys2Proof.Machine

/-! ## Arithmetic -/

/-- The quotient of a number by a positive one, rounded to nearest with ties to even. -/
def rneDiv (a : Int) (b : Nat) : Int :=
  let q := a / b
  let r := a % b
  if 2 * r < b then q else if 2 * r = b then (if q % 2 = 0 then q else q + 1) else q + 1

/-- The bits of a rounded magnitude, from bit `k - 1` down: the largest `q` with (2q − 1)⁴⁰ × `den` ≤ `num`. -/
def rootSearch (num den : Nat) : Nat → Nat → Nat
  | 0, q => q
  | k + 1, q =>
    let t := q + 2 ^ k
    if (2 * t - 1) ^ 40 * den ≤ num then rootSearch num den k t else rootSearch num den k q

/-- |s| × 10^(g / 40), rounded to nearest (R128): exact, by comparing 40th powers. No product lies half way but at g = 0, where
it is |s| itself. -/
def gainMag (s : Nat) (g : Int) : Nat :=
  rootSearch ((2 * s) ^ 40 * 10 ^ g.toNat) (10 ^ (-g).toNat) 32 0

/-- A sample with gain g (R128), saturated to `w` bits, and whether it saturated. -/
def gained (w : Nat) (s g : Int) : Int × Bool :=
  let m : Int := gainMag s.natAbs g
  let v := if s < 0 then -m else m
  let hi : Int := 2 ^ (w - 1) - 1
  let lo : Int := -(2 ^ (w - 1))
  (max lo (min hi v), v < lo || hi < v)

/-- A 24-bit sample rounded to S16, saturated (R117). -/
def toS16 (v : Int) : Int := min 32767 (rneDiv v 256)

/-! ## The decimation paths (R112, R115–R117) -/

/-- A value saturated to a signed word of `w` bits. -/
def satWord (w : Nat) (v : Int) : Int := max (-(2 ^ (w - 1))) (min (2 ^ (w - 1) - 1) v)

/-- The running sums of `r` neighbours in a list, the start padded with nothing. -/
def boxcar (r : Nat) (l : List Int) : List Int :=
  (List.range (l.length + r - 1)).map fun i => (((l.drop (i + 1 - r)).take (min r (i + 1))).sum)

/-- The impulse response of a CIC of the given order and ratio. -/
def cicTaps : Nat → Nat → List Int
  | 0, _ => [1]
  | k + 1, r => boxcar r (cicTaps k r)

/-- The inner product of two lists, as far as the shorter goes. -/
def dot : List Int → List Int → Int
  | a :: as, b :: bs => a * b + dot as bs
  | _, _ => 0

/-- One decimating stage (R115, R116): `k` inputs at a time join its history of the newest `n`, and `f` of the history, saturated to
`w` bits, is the output. -/
def decim (k n w : Nat) (f : List Int → Int) : Nat → List Int → List Int → List Int × List Int
  | 0, h, _ => ([], h)
  | fuel + 1, h, l =>
    if l.length < k then ([], h)
    else
      let h := ((l.take k).reverse ++ h).take n
      let (out, h') := decim k n w f fuel h (l.drop k)
      (satWord w (f h) :: out, h')

/-- The high-pass filter over some samples (R117), saturated to `w` bits; they pass unchanged where it is off. -/
def highPass (on : Bool) (path w : Nat) : MicPath → List Int → List Int × MicPath
  | x, [] => ([], x)
  | x, v :: r =>
    if on then
      let y := satWord w (Config.micHpf path v x.hpX x.hpY)
      let (ys, x') := highPass on path w { x with hpX := v, hpY := y } r
      (y :: ys, x')
    else
      let (ys, x') := highPass on path w x r
      (v :: ys, x')

/-- The low-power path over one grid period (R115): the 16 kHz sample. -/
def listenPath (taps : List Int) (hpf : Bool) (x : MicPath) (pdm : List Int) : Int × MicPath :=
  let (a, h0) := decim 12 45 17 (dot taps) pdm.length x.pdm pdm
  let (b, h1) := decim 2 11 18 (Config.micFir 0) a.length x.hb1 a
  let (c, h2) := decim 2 27 18 (Config.micFir 1) b.length x.hb2 b
  let (e, h3) := decim 1 15 16 (Config.micFir 2) c.length x.comp c
  let (f, x) := highPass hpf 0 16 { x with pdm := h0, hb1 := h1, hb2 := h2, comp := h3 } e
  (f.getLast?.getD 0, x)

/-- HB3 over some samples (R116): every second one gives an output. -/
def halfRate (x : MicPath) (l : List Int) : List Int × MicPath :=
  l.foldl (fun (s : List Int × MicPath) v =>
    let h := (v :: s.2.hb3).take 63
    let y := { s.2 with hb3 := h, odd := !s.2.odd }
    if s.2.odd then (s.1 ++ [satWord 24 (Config.micFir 6 h)], y) else (s.1, y)) ([], x)

/-- The high-quality path over one grid period (R116): its output samples at the rate `rate`, and the 16 kHz tap. -/
def activePath (taps : List Int) (hpf : Bool) (rate : Nat) (x : MicPath) (pdm : List Int) : List Int × Int × MicPath :=
  let (a, h0) := decim 16 76 22 (dot taps) pdm.length x.pdm pdm
  let (b, h1) := decim 2 15 24 (Config.micFir 3) a.length x.hb1 a
  let (c, h2) := decim 2 31 24 (Config.micFir 4) b.length x.hb2 b
  let (e, h3) := decim 1 47 24 (Config.micFir 5) c.length x.comp c
  let (f, x) := highPass hpf 1 24 { x with pdm := h0, hb1 := h1, hb2 := h2, comp := h3 } e
  let (g, h4) := decim 3 96 24 (Config.micFir 7) f.length x.third f
  let x := { x with third := h4 }
  let (out, x) := match rate with
    | 0 => halfRate x g
    | 1 => (g, x)
    | 2 => halfRate x f
    | _ => (f, x)
  (out, g.getLast?.getD 0, x)

/-- The bits that microphone `m` delivers in a grid period, as ±1 (R112, R122): `n` of them, oldest first; the periods that a clock
switch shortens have 0 before their first bit. -/
def micBits (swap : Bool) (m n : Nat) (fresh : Bool) (x : GridSamples) : List Int :=
  let l := ((if (m % 2 == 1) != swap then x.fall else x.rise).getD (m / 2) []).take (if fresh then n - n / 48 else n)
  List.replicate (n - l.length) 0 ++ l.map fun b => if b then 1 else -1

/-- One section of a band filter (R123): S2.13 coefficients, state and output of 32 bits. -/
def biquadStep (b0 b1 b2 a1 a2 : Int) (s : Biquad) (x : Int) : Int × Biquad :=
  let y := rneDiv (b0 * x + b1 * s.x1 + b2 * s.x2 - a1 * s.y1 - a2 * s.y2) 8192
  let y := (BitVec.ofInt 32 y).toInt
  (y, { x1 := x, x2 := s.x1, y1 := y, y2 := s.y1 })

namespace Dev

def micReg (d : Dev) (o : Nat) : Nat := (d.reg 0x03A o).toNat

/-- MODE_STAT.CUR (R121): 0 STOPPED, 1 LISTEN_SETTLE, 2 LISTEN, 3 TO_ACTIVE, 4 ACTIVE_SETTLE, 5 ACTIVE, 6 TO_LISTEN. -/
def micCur (d : Dev) : Nat := d.field 0x03A 0x044 2 0
def setCur (d : Dev) (v : Nat) : Dev := d.setField 0x03A 0x044 2 0 v

/-- The gain G (R128) and its bounds: clamped to the hardware range, MAX below MIN acting as MIN (R25). -/
def micGain (d : Dev) : Int := signedOf 8 (d.field 0x03A 0x064 7 0)
def gainMin (d : Dev) : Int := max (-24) (min 72 (signedOf 8 (d.field 0x03A 0x05C 7 0)))
def gainMax (d : Dev) : Int := max d.gainMin (max (-24) (min 72 (signedOf 8 (d.field 0x03A 0x05C 15 8))))

/-- MIC_SETTLE in grid periods (R122). -/
def settlePeriods (d : Dev) : Nat := 16 * max 4 (min 100 (d.micReg 0x054))

/-- REC_SAMPLES (R119). -/
def recSamples (d : Dev) : Nat := max 16 (min 1000 (d.micReg 0x058))

/-- The stream channel of microphone m (R84). -/
def micChan (m : Nat) : Nat := 10 + m

/-- The clock on MIC_CLK0 or MIC_CLK1 (R112, R113): 0 low, 1 at 768 kHz, 2 at 3.072 MHz; MIC_CLK1 runs with CLK1_EN = 1 alone. -/
def micClk (d : Dev) (k : Nat) : Nat := if k = 1 && !d.flag 0x03A 0x048 8 then 0 else d.mic.clk

/-- Whether microphone m is decimated: enabled in MIC_EN, with its clock running. -/
def micRuns (d : Dev) (m : Nat) : Bool := d.flag 0x03A 0x048 m && d.micClk (m / 4) != 0

/-- The microphones whose channel records: decimated, with their page running. -/
def micsOn (d : Dev) : List Nat := (List.range 8).filter fun m => d.micRuns m && d.running (chanPage (micChan m))

/-- The front end's page follows its open record; its path, its lookback and its pointers end with it (R38). -/
def micWork (d : Dev) : Dev :=
  d.work 0x03A (fun d => d.mic.len != 0) fun d =>
    { d with mic := { d.mic with clk := 0, paths := [], recs := [], len := 0, lbPos := 0, lbHeld := 0, lbSeqs := [] } }

/-! ## Audio records (R117–R119) -/

/-- The payload of an AUDIO record (R118). -/
def micPayload (d : Dev) (r : MicRec) : List Byte :=
  let m := d.mic
  let s24 := m.active && d.flag 0x03A 0x050 4
  let rate := if m.active then d.field 0x03A 0x050 1 0 else 1
  let muted := m.settled && d.flag 0x03A 0x050 9
  let flags := m.settled.toNat + r.clip.toNat * 2 + m.active.toNat * 4 + muted.toNat * 8
  bytesLE 1 rate ++ bytesLE 1 s24.toNat ++ bytesLE 1 flags ++ bytesLE 1 (BitVec.ofInt 8 d.micGain).toNat ++
    bytesLE 4 r.period ++
    r.samples.flatMap fun s => if s24 then bytesLE 4 (BitVec.ofInt 32 s).toNat else bytesLE 2 (BitVec.ofInt 16 s).toNat

/-- The largest magnitude of the record against 10^(t / 40) of full scale. -/
def loudAs (d : Dev) (peak : Nat) (t : Int) : Bool :=
  let fs := if d.mic.active then 8388608 else 32768
  decide (fs ^ 40 * 10 ^ t.toNat ≤ peak ^ 40 * 10 ^ (-t).toNat)

/-- The gain step of a record boundary (R128, R24). -/
def gainStep (d : Dev) : Dev :=
  let g := d.micGain
  let t := signedOf 8 (d.field 0x03A 0x060 7 0)
  let quiet := if d.loudAs d.mic.peak (t - 12) then 0 else d.mic.quiet + 1
  let next :=
    if d.gainMax < g then g - 1
    else if g < d.gainMin then g + 1
    else if d.loudAs d.mic.peak t then max d.gainMin (g - 1)
    else if max 1 (d.field 0x03A 0x060 15 8) ≤ quiet then min d.gainMax (g + 1)
    else g
  let d : Dev := { d with mic := { d.mic with quiet := quiet } }
  d.setField 0x03A 0x064 7 0 (BitVec.ofInt 8 next).toNat

/-- The microphones of the lookback, ascending. -/
def lbMics (d : Dev) : List Nat := (List.range 8).filter (d.field 0x03A 0x068 7 0).testBit

/-- The SEQ that the next record of channel n gets, behind the gaps that wait. -/
def nextSeq (d : Dev) (n : Nat) : Nat := ((d.reg (chanPage n) 0x058).toNat + (d.chan n).gaps.length) % 2 ^ 32

/-- The lookback frames of the record that has just been written, or lost, get its SEQ, or its gap's (R126). -/
def lbNamed (d : Dev) (n : Nat) : Dev :=
  let seq := (d.nextSeq n + 2 ^ 32 - 1) % 2 ^ 32
  { d with mic := { d.mic with lbSeqs := d.mic.lbSeqs.map fun e => (e.1, some (e.2.getD seq)) } }

/-- Microphone m's record is written. -/
def closeMic (d : Dev) (m : Nat) (r : MicRec) : Dev :=
  let d := (d.captureOk (micChan m) true
    { type := 2, tag := r.tag, count := r.samples.length, payload := d.micPayload r } r.samples.length).1
  if d.lbMics.head? == some m then d.lbNamed (micChan m) else d

/-- Every enabled microphone channel closes its record at a boundary (R119), which is a boundary of the gain loop. -/
def closeAudio (d : Dev) : Dev :=
  if d.mic.len = 0 then d
  else
    let d := d.mic.recs.foldl (fun d e => d.closeMic e.1 e.2) d
    let d := d.gainStep
    micWork { d with mic := { d.mic with recs := [], len := 0, peak := 0 } }

/-- One grid period of microphone m added to its record: its samples with gain, in the record's format, or zeros. A record in
service runs on while its channel is frozen; samples that would begin one then are lost (R41, R90). -/
def addSamples (ss : List Int) (m : Nat) (d : Dev) : Dev :=
  let x := d.mic
  if d.frozen (chanPage (micChan m)) && (Sparse.get (fun _ => {}) x.recs m).samples.isEmpty then
    (if ss.isEmpty then d else d.lose (micChan m) 6 ss.length)
  else
  let w := if x.active then 24 else 16
  let mute := x.settled && d.flag 0x03A 0x050 9
  let outs := ss.map fun s => gained w s d.micGain
  let fmt (v : Int) : Int := if x.active && !d.flag 0x03A 0x050 4 then toS16 v else v
  let r := Sparse.get (fun _ => {}) x.recs m
  let r := if r.samples.isEmpty then { r with tag := d.chanTag (micChan m), period := x.periods } else r
  let r := { r with samples := r.samples ++ outs.map fun o => if mute then 0 else fmt o.1, clip := r.clip || outs.any (·.2) }
  let peak := outs.foldl (fun a o => max a o.1.natAbs) x.peak
  { d with mic := { x with recs := Sparse.put (fun _ => {}) x.recs m r, peak := peak } }

/-! ## The filterbank (R123, R124) -/

def band (d : Dev) (k : Nat) : Band := Sparse.get (fun _ => {}) d.mic.bands k
def setBand (d : Dev) (k : Nat) (b : Band) : Dev :=
  { d with mic := { d.mic with bands := Sparse.put (fun _ => {}) d.mic.bands k b } }

/-- A coefficient of band k: `hi` picks the upper half of word j. -/
def coef (d : Dev) (k j : Nat) (hi : Bool) : Int :=
  let o := 0x800 + 32 * k + 4 * j
  signedOf 16 (if hi then d.field 0x03A o 31 16 else d.field 0x03A o 15 0)

/-- One sample through band k: its two sections and its envelope. -/
def bandStep (x : Int) (k : Nat) (d : Dev) : Dev :=
  let b := d.band k
  let sec (j : Nat) (s : Biquad) (x : Int) : Int × Biquad :=
    biquadStep (d.coef k j false) (d.coef k j true) (d.coef k (j + 1) false) (d.coef k (j + 1) true) (d.coef k (j + 2) false) s x
  let (y1, s1) := sec 0 b.s1 x
  let (y, s2) := sec 3 b.s2 y1
  let sh := max 1 (min 12 (d.field 0x03A 0x078 3 0))
  d.setBand k { b with s1 := s1, s2 := s2, env := b.env + (Int.ofNat y.natAbs - b.env) / 2 ^ sh }

/-- The end of a frame at band k (R123, R124). The log stage is exact to within 1 of L: how far it is off is left open. -/
def bandEnd (k : Nat) (d : Dev) : Dev :=
  let b := d.band k
  let exact := Nat.log2 ((b.env.toNat + 1) ^ 16)
  let (v, d) := d.fresh
  let l : Int := max 0 (min 255 (Int.ofNat exact + Int.ofNat (v % 3) - 1))
  let dist := l - b.last
  if dist.natAbs < max 1 (d.field 0x03A 0x078 14 8) then d
  else
    let v := max (-127) (min 127 dist)
    let d := (d.setBand k { b with last := b.last + v }).count 0x03A 0x07C
    d.fbEvent k (gradedWord 1 (0x7F * 256 + k) (d.reelSlice (d.field 0x03A 0x074 22 20) 7) v)

/-- The grid periods of a filterbank frame. -/
def fbFrame (d : Dev) : Nat := match d.field 0x03A 0x074 17 16 with | 0 => 80 | 2 => 320 | _ => 160

/-- The filterbank over one grid period outside a settle (R123): the mean of SRC_MASK's microphones. -/
def fbPeriod (d : Dev) (base : List Int) : Dev :=
  let sel := d.field 0x03A 0x074 15 8
  let ms := (List.range 8).filter (if sel = 0 then 1 else sel).testBit
  let x := rneDiv ((ms.map fun m => base.getD m 0).sum) ms.length
  let d := forEach (List.range 32) (bandStep x) d
  let n := d.mic.frame + 1
  if d.fbFrame ≤ n then forEach (List.range 32) bandEnd { d with mic := { d.mic with frame := 0 } }
  else { d with mic := { d.mic with frame := n } }

/-! ## The audio lookback (R126, R127) -/

/-- Whether a snapshot holds the audio lookback. -/
def lbFrozen (d : Dev) : Bool := (List.range 8).any fun s => match d.snap s with | some x => x.audio | none => false

/-- The frames that the lookback holds: none once writing may go on after a stop, until it does (R127). -/
def lbFrames (d : Dev) : Nat := if d.mic.lbStop && !d.lbFrozen then 0 else d.mic.lbHeld

/-- One frame of the lookback (R126, R127): the 16 kHz samples with gain as S16, or zeros in a settle. -/
def lookbackFrame (d : Dev) (taps : List Int) : Dev :=
  let ms := d.lbMics
  if !d.flag 0x038 0x0D0 0 || ms.isEmpty || d.lbFrozen then d
  else
    let m := if d.mic.lbStop then { d.mic with lbHeld := 0, lbStop := false, lbSeqs := [] } else d.mic
    let sample (v : Int) : Int := if m.active then toS16 (gained 24 v d.micGain).1 else (gained 16 v d.micGain).1
    let data := ms.flatMap fun i => bytesLE 2 (if m.settled then 0 else (BitVec.ofInt 16 (sample (taps.getD i 0))).toNat)
    let d := d.put .producer (d.pair48 0x03A 0x06C + m.lbPos * 2 * ms.length) data
    let seqs := if m.len ≤ 1 || m.lbSeqs.isEmpty then m.lbSeqs ++ [(m.lbTotal, none)] else m.lbSeqs
    let total := m.lbTotal + 1
    let held := min 32000 (m.lbHeld + 1)
    let oldest := total - held
    let seqs := seqs.filter fun e => oldest ≤ e.1 || !(seqs.any fun f => decide (e.1 < f.1) && decide (f.1 ≤ oldest))
    { d with mic := { m with lbPos := (m.lbPos + 1) % 32000, lbHeld := held, lbTotal := total, lbSeqs := seqs, lbLast := m.periods } }

/-! ## Modes (R121, R122) -/

/-- The front end asks for PLL1, or gives it up. -/
def askPll1 (d : Dev) (v : Bool) : Dev :=
  let d := if v && !d.pllOn 1 then d.setFlag 0x011 0x044 9 (!d.srcRdy 2) else d
  clkStops { d with clk := { d.clk with pll1Req := v } }

/-- TO_ACTIVE (R121). -/
def micToActive (d : Dev) : Dev :=
  let d := (d.setFlag 0x03A 0x040 0 true).setCur 3
  ({ d with mic := { d.mic with toAt := d.now } } : Dev).askPll1 true

/-- The listening clock starts with a settle (R121, R122): `extra` is 1 where the clock starts after the last boundary. -/
def micListenStart (d : Dev) (extra : Nat) : Dev :=
  ({ d with mic := { d.mic with clk := 1, paths := [], settle := d.settlePeriods + extra } } : Dev).setCur 1

/-- TO_ACTIVE is given up (R121). -/
def micCancel (d : Dev) : Dev :=
  let d := (d.setFlag 0x03A 0x040 0 false).askPll1 false
  if d.mic.clk = 1 then d.setCur 2 else d.micListenStart 1

/-- A write of MODE (R121): in a settle it is acted on when the settle ends. -/
def writeMode (d : Dev) (v : Word) : Dev :=
  let d := d.setReg 0x03A 0x040 (v &&& 3)
  if bit v 0 then (if d.micCur = 2 then d.micToActive else d)
  else if d.micCur = 3 then d.micCancel
  else if d.micCur = 5 then d.setCur 6
  else d

/-- An escalation with AUTO_ON_ESC = 1 (R121), as it took effect at the last boundary (R130). -/
def micOnEsc (d : Dev) : Dev := if d.micCur = 2 && d.mic.auto then d.micToActive else d

/-- The page becomes READY (R121, R118, R123): the grid's count and the filterbank start from zero. -/
def micStart (d : Dev) : Dev :=
  if d.micCur = 0 then
    let m := { d.mic with periods := 0, bands := [], frame := 0, quiet := 0, len := 0, recs := [] }
    let d : Dev := { d with mic := { m with fresh := false, auto := d.flag 0x03A 0x040 1 } }
    if d.flag 0x03A 0x040 0 then d.micToActive else d.micListenStart 0
  else d

/-- The page leaves READY or ACTIVE (R119, R121): open records close, the clock stops and PLL1 is released when the drain
ends, which is at once. -/
def micStop (d : Dev) : Dev :=
  let d := (d.closeAudio.setCur 0).askPll1 false
  ({ d with mic := { d.mic with clk := 0 } } : Dev).judgeAll

/-- The end of the settle (R121): a MODE written during it is acted on. -/
def settleEnd (d : Dev) : Dev :=
  let want := d.flag 0x03A 0x040 0
  if d.micCur = 1 then (if want then (d.setCur 2).micToActive else d.setCur 2)
  else if want then d.setCur 5 else d.setCur 6

/-- PLL1 loses lock while the front end runs from it (R121). -/
def micPllLost (d : Dev) : Dev :=
  if d.micCur = 4 || d.micCur = 5 || d.micCur = 6 then
    let d := (d.closeAudio.setFlag 0x03A 0x040 0 false).askPll1 false
    (d.micListenStart 1).err 0x03A 1
  else d

/-- The clock switches due at a boundary (R121, R122). -/
def clockSwitch (d : Dev) : Dev :=
  if d.micCur = 3 && d.pllLocked 1 then
    let d := d.closeAudio
    ({ d with mic := { d.mic with clk := 2, fresh := true, paths := [], settle := d.settlePeriods + 1 } } : Dev).setCur 4
  else if d.micCur = 6 then
    let d := (d.closeAudio.askPll1 false).micListenStart 1
    { d with mic := { d.mic with fresh := true } }
  else d

/-! ## The grid (R119, R120) -/

/-- One grid period of microphone m through its path (R114–R117): its samples for records, its 16 kHz sample, and the device with
the path moved on. A microphone that is not decimated gives no sample; what the lookback and the filterbank take for it is left open. -/
def micPeriod (taps : List Int) (x : GridSamples) (m : Nat) (d : Dev) : (List Int × Int) × Dev :=
  if d.micRuns m then
    let p := Sparse.get (fun _ => {}) d.mic.paths m
    let hpf := d.flag 0x03A 0x050 8
    let swap := d.flag 0x03A 0x048 (12 + m / 2)
    let ((out, tap), p) :=
      if d.mic.clk = 2 then
        let (out, tap, p) := activePath taps hpf (d.field 0x03A 0x050 1 0) p (micBits swap m 192 d.mic.fresh x)
        ((out, tap), p)
      else
        let (v, p) := listenPath taps hpf p (micBits swap m 48 d.mic.fresh x)
        (([v], v), p)
    ((out, tap), { d with mic := { d.mic with paths := Sparse.put (fun _ => {}) d.mic.paths m p } })
  else
    let (v, d) := d.fresh
    (([], (BitVec.ofNat 16 v).toInt), d)

/-- The samples of the grid period that ends now. The filterbank takes the 16 kHz tap of the high-quality path as S16. -/
def gridSamples (d : Dev) (x : GridSamples) : Dev :=
  let m := d.mic
  if m.clk = 0 then d
  else
    let starts := m.len = 0
    if d.frozen 0x03A && starts then d
    else
      let cur := d.micCur
      let m := if starts then { m with active := m.clk == 2, settled := cur == 1 || cur == 4 } else m
      let d : Dev := { d with mic := { m with len := m.len + 1 } }
      let d := micWork d
      let taps := if m.active then cicTaps 5 16 else cicTaps 4 12
      let (ss, d) := (List.range 8).foldl (fun (a : List (List Int × Int) × Dev) i =>
        let (s, d) := micPeriod taps x i a.2
        (a.1 ++ [s], d)) ([], d)
      let d : Dev := { d with mic := { d.mic with fresh := false } }
      let d := forEach d.micsOn (fun i d => addSamples (ss.getD i ([], 0)).1 i d) d
      let tap := ss.map (·.2)
      let d := d.lookbackFrame tap
      if d.flag 0x03A 0x074 0 && !m.settled then d.fbPeriod (if m.active then tap.map toS16 else tap) else d

/-- A grid boundary (R119–R128): MICSMP, the samples of the period, the end of a settle, the records that close, and, where no settle
ends, the clock switch due. -/
def gridBoundary (d : Dev) (x : GridSamples) : Dev :=
  if !(d.running 0x03A || d.pageState 0x03A == 3) then d
  else
    let d := if d.running 0x03A then d.sourceCount 0x10 else d
    let d := d.gridSamples x
    let ending := (d.micCur = 1 || d.micCur = 4) && d.mic.settle ≤ 1
    let d : Dev := { d with mic := { d.mic with settle := d.mic.settle - 1, periods := (d.mic.periods + 1) % 2 ^ 32,
                                                auto := d.flag 0x03A 0x040 1 } }
    let d := if ending || d.recSamples ≤ d.mic.len then d.closeAudio else d
    if ending then d.settleEnd else d.clockSwitch

/-! ## The lookback snapshot (R110, R127) -/

/-- The entries of camera n in a snapshot, oldest first (R110): entry 7 is the newest frame (R212), so that the entries of frames
not completed yet, which are empty, come first. -/
def snapCamera (d : Dev) (n : Nat) : List Byte :=
  let fs := (d.chan n).done
  List.replicate ((8 - fs.length) * 32) 0 ++ fs.flatMap (fun f =>
    bytesLE 8 (d.camBuf n f.buf) ++ bytesLE 8 (f.tag.pos + f.tag.ch * 2 ^ 48) ++ bytesLE 4 f.seq.toNat ++
    bytesLE 2 (d.camWidth n) ++ bytesLE 2 (d.camHeight n) ++ bytesLE 4 f.stride ++ bytesLE 1 f.dt ++ bytesLE 1 1 ++
    bytesLE 2 0)

/-- The newest records of event channel n within LB.EVT_BYTES (R109), oldest first. -/
def lookbackRecs (d : Dev) (n : Nat) : List EvtRec :=
  let room := (d.reg 0x038 0x0D0).toNat / 256 * 256
  ((d.chan n).recs.foldr (fun e (a : List EvtRec × Nat × Bool) =>
    if a.2.2 || room < a.2.1 + e.len then (a.1, a.2.1, true) else (e :: a.1, a.2.1 + e.len, false)) ([], 0, false)).1

/-- The descriptor of event channel n in a snapshot. -/
def snapEvents (d : Dev) (n : Nat) : List Byte :=
  let rs := d.lookbackRecs n
  let held := (rs.map (·.len)).sum
  bytesLE 8 (d.recBase n) ++ bytesLE 4 ((rs.head?.map (·.off)).getD 0) ++ bytesLE 4 held ++
  bytesLE 4 ((rs.head?.map (·.seq.toNat)).getD 0) ++ bytesLE 4 ((rs.getLast?.map (·.seq.toNat)).getD 0) ++ bytesLE 8 0

/-- The SEQ of the record that holds the lookback frame with a running number (R126). -/
def lbSeq (d : Dev) (frame : Nat) : Nat :=
  let open_ := d.nextSeq (micChan (d.lbMics.headD 0))
  match (d.mic.lbSeqs.filter fun e => e.1 ≤ frame).getLast? with
  | some e => e.2.getD open_
  | none => open_

/-- The audio descriptor of a snapshot (R126). -/
def snapAudio (d : Dev) : List Byte :=
  let m := d.mic
  let n := d.lbMics.length
  let held := d.lbFrames
  let oldest := (m.lbPos + 32000 - held) % 32000
  let seq := d.lbSeq (m.lbTotal - held)
  bytesLE 8 (d.pair48 0x03A 0x06C) ++ bytesLE 4 (64000 * n) ++ bytesLE 4 (oldest * 2 * n) ++ bytesLE 4 held ++ bytesLE 4 seq ++
    bytesLE 8 0

/-- Where the snapshot of handoff slot s stands. -/
def snapAddr (d : Dev) (s : Nat) : Nat := d.pair48 0x038 0x0D4 + 4096 * s

/-- The lookback snapshot of an escalation's slot (R110): written, and what it names is held until the slot is released. -/
def lookbackSnapshot (d : Dev) (stream : Nat) : Dev :=
  match d.escs.find? fun e => e.stream == stream && !e.snapped with
  | none => d
  | some e =>
    let d : Dev := { d with escs := d.escs.map fun x => if x == e then { x with snapped := true } else x }
    if d.absentPage 0x038 || !d.flag 0x038 0x0D0 0 then d
    else
      let a := d.snapAddr e.slot
      let d := forEach (List.range 8) (fun n d => d.put .producer (a + 256 * n) (d.snapCamera n)) d
      let d := forEach [0, 1] (fun k d => d.put .producer (a + 0x800 + 32 * k) (d.snapEvents (8 + k))) d
      let d := d.put .producer (a + 0x900) d.snapAudio
      let bufs := (List.range 8).flatMap fun n => (d.chan n).done.map fun f => (n, f.buf)
      let evts := [8, 9].flatMap fun n => (d.lookbackRecs n).map fun r => (n, d.recBase n + r.off, r.len)
      let audio := decide (0 < d.lbFrames)
      let marks := (List.range 8).flatMap fun n => ((d.chan n).done.filter (·.marked)).map fun f => d.camBuf n f.buf
      let x : Snapshot := { bufs := bufs, marks := marks, evts := evts, audio := audio }
      { d with snaps := Sparse.put (fun _ => none) d.snaps e.slot (some x), mic := { d.mic with lbStop := d.mic.lbStop || audio } }

/-! ## Stuck microphones (R129) -/

def micStuckSet (d : Dev) (m : Nat) : Dev :=
  if d.micClk (m / 4) = 0 then d else (d.setFlag 0x03A 0x04C m true).err 0x03A 4

end Dev

/-! ## The commands -/

/-- MIC_MODE_ACTIVE (R121): MODE written with MODE = 1, AUTO_ON_ESC kept. -/
def execMicModeActive (ag : Agent) (s : State) : Host.Outcome State Fault Refusal :=
  onDev (Dev.rwlWrite ag 0x03A fun d => d.writeMode (d.reg 0x03A 0x040 ||| 1)) s

/-- MIC_MODE_LISTEN (R121): MODE written with MODE = 0, AUTO_ON_ESC kept. -/
def execMicModeListen (ag : Agent) (s : State) : Host.Outcome State Fault Refusal :=
  onDev (Dev.rwlWrite ag 0x03A fun d => d.writeMode (d.reg 0x03A 0x040 &&& 2)) s

/-- GRID_BOUNDARY (R120). -/
def execGridBoundary (x : GridSamples) (s : State) : Host.Outcome State Fault Refusal := onDev (fun d => d.gridBoundary x) s

/-- PLL1_LOCK_TIMEOUT (R121): 1 ms in TO_ACTIVE without lock. -/
def execPll1LockTimeout (s : State) : Host.Outcome State Fault Refusal :=
  onDev (fun d =>
    if d.micCur = 3 && !d.pllLocked 1 && d.mic.toAt + 1000 ≤ d.now then d.micCancel.err 0x03A 0 else d) s

/-- PLL1_LOSS (R121, R422): PLL1's lock and SRC_RDY clear; a monitored loss is recorded. -/
def execPll1Loss (s : State) : Host.Outcome State Fault Refusal :=
  onDev (fun d =>
    if d.pllLocked 1 then
      let d := (d.setLock 1 false).setRdy 5 false
      let d := if d.flag 0x010 0x048 5 then (d.setFlag 0x010 0x044 5 true).err 0x010 0 else d
      d.micPllLost
    else d) s

/-- MIC_STUCK (R129). -/
def execMicStuck (m : Fin 8) (s : State) : Host.Outcome State Fault Refusal := onDev (fun d => d.micStuckSet m.val) s

/-- MIC_STUCK_CLEAR (R129). -/
def execMicStuckClear (m : Fin 8) (s : State) : Host.Outcome State Fault Refusal :=
  onDev (fun d => d.setFlag 0x03A 0x04C m.val false) s

/-- LOOKBACK_SNAPSHOT (R110). -/
def execLookbackSnapshot (stream : Fin 256) (s : State) : Host.Outcome State Fault Refusal :=
  onDev (Dev.whenServed fun d => d.lookbackSnapshot stream.val) s

end Sys2Proof.Machine
end

