-- ==== Sys2Proof/Machine/Cascade.lean ====
section
/-!
DEFINITION. The cascade (01): wake requests, episodes, scores against the thresholds, pre-ramps, escalation, the handoff record
and its ring.
-/
namespace Sys2Proof.Machine

/-! ## CRC-32 (R19) -/

/-- One bit of the reflected CRC-32. -/
def crcBit (c : Word) : Word := if bit c 0 then (c >>> 1) ^^^ 0xEDB88320 else c >>> 1

/-- The CRC with one more byte. -/
def crcByte (c : Word) (b : Byte) : Word := (List.range 8).foldl (fun c _ => crcBit c) (c ^^^ b.zeroExtend 32)

/-- CRC-32: polynomial 0x04C1_1DB7 reflected, initial and final XOR of ones. -/
def crc32 (l : List Byte) : Word := l.foldl crcByte 0xFFFFFFFF ^^^ 0xFFFFFFFF

namespace Dev

/-! ## Table entries (R179) -/

def sreg (d : Dev) (e o : Nat) : Word := d.reg (streamReg e o).1 (streamReg e o).2
def sfield (d : Dev) (e o hi lo : Nat) : Nat := d.field (streamReg e o).1 (streamReg e o).2 hi lo
def sflag (d : Dev) (e o i : Nat) : Bool := d.flag (streamReg e o).1 (streamReg e o).2 i
def setS (d : Dev) (e o : Nat) (v : Word) : Dev := d.setReg (streamReg e o).1 (streamReg e o).2 v
def setSField (d : Dev) (e o hi lo v : Nat) : Dev := d.setField (streamReg e o).1 (streamReg e o).2 hi lo v
def setSFlag (d : Dev) (e o i : Nat) (v : Bool) : Dev := d.setFlag (streamReg e o).1 (streamReg e o).2 i v
def setSstate (d : Dev) (e v : Nat) : Dev := d.setSField e 0x28 2 0 v
/-- A 48-bit pointer of an entry, 64-byte aligned. -/
def sptr (d : Dev) (e o : Nat) : Nat := d.pair48 (streamReg e o).1 (streamReg e o).2 / 64 * 64

def stream (d : Dev) (e : Nat) : FStream := Sparse.get (fun _ => {}) d.streams e
def setStream (d : Dev) (e : Nat) (f : FStream) : Dev := { d with streams := Sparse.put (fun _ => {}) d.streams e f }

/-! ## Episodes (R15, R16) -/

/-- A counter of page 0x067. -/
def escCount (d : Dev) (off : Nat) : Dev := d.countFrz 0x067 off

/-- The Loom regions follow a change of the pre-ramp votes. -/
def loomVotes (d : Dev) : Dev := forEach (List.range 64) (fun r d => d.settle r) d

/-- A cancelled pre-ramp (R16): its vote is withdrawn and its prefetch stops. -/
def preCancel (d : Dev) (stream : Nat) : Dev :=
  ((d.setEpisode stream { d.episode stream with st := .verify, voted := false }).loomVotes.pfCancel stream).escWork

/-- A cancellation counted at `off`. -/
def cancelAt (d : Dev) (stream off : Nat) : Dev := (d.preCancel stream).escCount off

/-- The stream ended, faulted, or its start task was aborted (R15): its episode closes, unless it is HELD. -/
def episodeEnd (d : Dev) (stream : Nat) : Dev :=
  let e := d.episode stream
  match e.st with
  | .quiet | .held => d
  | .verify => d.setEpisode stream {}
  | .pre => (d.cancelAt stream 0x074).setEpisode stream {}

/-- PRE_THRESHOLD and ESC_THRESHOLD as compared (R13). -/
def escThreshold (d : Dev) : Nat := d.field 0x067 0x048 15 0
def preThreshold (d : Dev) : Nat := min (d.field 0x067 0x044 15 0) d.escThreshold

/-- The thermal throttle or the power limit holds the frequency below F: no room for a pre-ramp (R28, R386). -/
def noRoom (d : Dev) : Bool := decide ((d.reg 0x009 0x04C).toNat < (d.reg 0x009 0x040).toNat)

/-- A pre-ramp (step 6 of R10, R15): the vote, the prefetch, PRE_WINDOW and CNT_PRE; without room the vote alone waits for the
escalation, and CNT_PRE_DENIED counts. -/
def preRamp (d : Dev) (stream : Nat) : Dev :=
  let e := { d.episode stream with st := .pre, deadline := d.now + max 1 (d.field 0x067 0x04C 15 0) }
  let d :=
    if d.noRoom then (d.setEpisode stream { e with denied := true }).escCount 0x07C
    else (d.setEpisode stream { e with voted := true }).loomVotes
  ((d.escCount 0x064).pfPreRamp stream).escWork

/-- The handoff ring (R31): slots written and being written, and whether it is full. -/
def hoWr (d : Dev) : Nat := d.field 0x067 0x058 3 0
def hoRd (d : Dev) : Nat := d.field 0x067 0x058 11 8
def hoUsed (d : Dev) : Nat := (d.hoWr + 16 - d.hoRd) % 16 + d.escs.length

/-- An escalation takes the next slot (R197, R31): `t` is the time of the escalating score (R19, WAKE_TO_ESC). -/
def escBegin (d : Dev) (stream score : Nat) (seq : Option Word) (t : Nat) : Dev :=
  let e : Escalation := { stream := stream, slot := (d.hoWr + d.escs.length) % 8, score := score, seq := seq, at_ := t }
  ({ d with escs := d.escs ++ [e] } : Dev).escCount 0x068

/-- A score reaches ESC_THRESHOLD (R12, R14, R15, R22): the vote, placed or now due, stands for the Loom task; an episode without a
pre-ramp starts the prefetch too; and a slot is taken, or the stream waits for one. -/
def escalateStream (d : Dev) (stream score : Nat) (seq : Option Word) : Dev :=
  let e := d.episode stream
  let ramped := e.st == .pre
  let d := (d.setEpisode stream { e with st := .held, skipped := !e.reached, voted := true }).loomVotes
  let d := if ramped then d else d.pfPreRamp stream
  let d :=
    if 8 ≤ d.hoUsed then
      let f := d.stream stream
      ((d.setStream stream { f with hold := some (score, seq, d.now), stop := f.stop || d.sstate stream == 4 }).setSstate stream 6).escCount 0x080
    else d.escBegin stream score seq d.now
  d.escWork

/-- One score compared at a retire point (R10–R15): unsigned and inclusive; nothing while page 0x067 is not running, and no new
pre-ramp or escalation while it is frozen. A score that reaches PRE_THRESHOLD counts as an earlier pre-ramp score for PRE_SKIPPED even
where PRE_EN = 0 or FRZ keeps it from a pre-ramp (log entry 187). -/
def scoreStep (d : Dev) (stream score : Nat) (seq : Option Word) : Dev :=
  let e := d.episode stream
  if !d.running 0x067 then d
  else
    match e.st with
    | .quiet | .held => d
    | .verify =>
      let d := if d.preThreshold ≤ score then d.setEpisode stream { e with reached := e.reached || decide (score < d.escThreshold) } else d
      if d.frozen 0x067 then d
      else if d.escThreshold ≤ score then d.escalateStream stream score seq
      else if d.preThreshold ≤ score && d.flag 0x067 0x040 0 then d.preRamp stream
      else d
    | .pre =>
      let d := d.setEpisode stream { e with reached := true }
      if d.escThreshold ≤ score then (if d.frozen 0x067 then d else d.escalateStream stream score seq)
      else if score < d.preThreshold then d.cancelAt stream 0x06C
      else d

/-! ## Wake requests (R15, R295) -/

/-- The descriptor of a WAKE task (R290). -/
def wakeWords (r : WakeReq) : List Word :=
  [9, 0, 0, 0, BitVec.ofNat 32 (r.stream + r.kind * 256 + r.score * 65536 + r.reelCh * 2 ^ 24), BitVec.ofNat 32 r.src,
   BitVec.ofNat 32 r.pos, BitVec.ofNat 32 (r.pos / 2 ^ 32)]

/-- A wake request reaches Shuttle: a WAKE task on RING0, or a merge into the stream's open episode. -/
def wakeArrive (d : Dev) (r : WakeReq) : Dev :=
  let e := d.episode r.stream
  if e.st = .quiet then
    let s := d.freeSlot
    let (d, ok) := d.submitHw 0 (wakeWords r) none
    match d.task s with
    | some t => if ok then d.setTask s (some { t with start := r.at_ }) else d
    | none => d
  else (d.setEpisode r.stream { e with score := max e.score r.score, merged := true }).escCount 0x078

/-! ## The handoff record (R19, R197) -/

/-- The record's first 60 bytes. -/
def handoffBody (d : Dev) (x : Escalation) (seq : Word) : List Byte :=
  let e := d.episode x.stream
  let snap := d.snap x.slot
  let base := d.snapAddr x.slot
  let audio := match snap with | some s => if s.audio then base + 0x900 else 0 | none => 0
  let cam := match snap with | some _ => base | none => 0
  let camMask := match snap with | some s => ((List.range 8).filter fun n => s.bufs.any fun b => b.1 == n).foldl (fun a n => a + 2 ^ n) 0 | none => 0
  let evtMask := match snap with | some s => ([0, 1].filter fun k => s.evts.any fun b => b.1 == 8 + k).foldl (fun a k => a + 2 ^ k) 0 | none => 0
  let flags := e.skipped.toNat + e.merged.toNat * 2 + e.denied.toNat * 4
  bytesLE 1 1 ++ bytesLE 1 e.kind ++ bytesLE 2 (e.src % 32768) ++ bytesLE 1 e.score ++ bytesLE 1 (e.reelCh % 8) ++
  bytesLE 2 x.score ++ bytesLE 8 (e.reelPos % 2 ^ 48) ++ bytesLE 8 (audio % 2 ^ 48) ++ bytesLE 8 (cam % 2 ^ 48) ++ bytesLE 1 camMask ++
  bytesLE 1 evtMask ++ bytesLE 2 flags ++ bytesLE 4 (d.sreg x.stream 0x30).toNat ++ bytesLE 1 x.stream ++ bytesLE 1 0 ++
  bytesLE 2 d.hoSeq ++ bytesLE 4 seq.toNat ++ bytesLE 4 (min 0xFFFFFFFF (x.at_ - e.wakeAt)) ++ bytesLE 8 0

/-- The address of handoff slot s (R19). -/
def hoAddr (d : Dev) (s : Nat) : Nat := d.pair48 0x067 0x050 / 512 * 512 + 64 * s

/-- The 16 words of a 64-byte block of Skein. -/
def wordsAt (d : Dev) (a : Nat) : List Word := (List.range 16).map fun i => BitVec.ofNat 32 (d.num (a + 4 * i) 4)

/-- HANDOFF_WRITE (R20, R197): once its snapshot is written, the oldest escalation writes its record, submits its Loom task and
advances HO_PTR.WR; a dropped submission ends HELD as a retired task would (R295). -/
def handoffWrite (d : Dev) (stream : Nat) : Dev :=
  match d.escs with
  | [] => d
  | x :: rest =>
    if x.stream ≠ stream || !x.snapped then d
    else
      let (v, d') := d.fresh
      let (seq, d) := match x.seq with | some q => (q, d) | none => (BitVec.ofNat 32 v, d')
      let body := d.handoffBody x seq
      let a := d.hoAddr x.slot
      let d := d.put .producer a (body ++ bytesLE 4 (crc32 body).toNat)
      let d := ({ d with escs := rest, hoSeq := (d.hoSeq + 1) % 65536 } : Dev).setField 0x067 0x058 3 0 (d.hoWr + 1)
      let words := ((d.wordsAt (d.sptr stream 0x34)).set 8 (BitVec.ofNat 32 a)).set 9 (BitVec.ofNat 32 (a / 2 ^ 32))
      let (d, ok) := d.submitHw (d.field 0x067 0x05C 5 0) words (some stream)
      let d := if ok then d else d.leaveHeld stream (d.sstate stream == 0)
      let d := d.micOnEsc
      let st := d.sstate stream
      if (st = 1 || st = 2) && (d.sflag stream 0 7 || (d.stream stream).stop) then d.setSstate stream 4 else d

/-- HO_WAIT_RESUME (R22): a slot is free for a waiting stream. -/
def hoResume (d : Dev) (stream : Nat) : Dev :=
  let f := d.stream stream
  match f.hold with
  | some (score, seq, t) =>
    if d.sstate stream = 6 && d.hoUsed < 8 then
      ((d.setStream stream { f with hold := none }).setSstate stream (if d.sflag stream 0 2 then 2 else 1)).escBegin stream score seq t
    else d
  | none => d

/-- A write of HO_PTR (R31): the oldest slots up to the new RD are released, or HO_PTR_BAD is set. -/
def writeHoPtr (v : Word) (d : Dev) : Dev :=
  let n := (bits v 11 8 + 16 - d.hoRd) % 16
  if n ≤ (d.hoWr + 16 - d.hoRd) % 16 then
    let freed := (List.range n).map fun i => (d.hoRd + i) % 8
    let d := forEach freed (fun s d => { d with snaps := Sparse.put (fun _ => none) d.snaps s none }) d
    d.setField 0x067 0x058 11 8 (bits v 11 8)
  else d.err 0x067 1

/-- A write of CTRL.EN = 0 to page 0x067 cancels every episode in PRE (R29). -/
def escDisable (d : Dev) : Dev :=
  forEach (List.range 256) (fun e d => if (d.episode e).st = .pre then d.preCancel e else d) d

end Dev

/-! ## The commands -/

/-- WAKE_REQUEST_ARRIVAL (R295): the oldest request on its way to Shuttle. -/
def execWakeRequestArrival (s : State) : Host.Outcome State Fault Refusal :=
  onDev (fun d =>
    match d.wakes with
    | [] => d
    | r :: rest => ({ d with wakes := rest } : Dev).wakeArrive r) s

/-- PRE_WINDOW_EXPIRY (R15). -/
def execPreWindowExpiry (stream : Fin 256) (s : State) : Host.Outcome State Fault Refusal :=
  onDev (fun d =>
    let e := d.episode stream.val
    if e.st = .pre && e.deadline ≤ d.now then d.cancelAt stream.val 0x070 else d) s

/-- HANDOFF_WRITE (R197). -/
def execHandoffWrite (stream : Fin 256) (s : State) : Host.Outcome State Fault Refusal := onDev (Dev.whenServed fun d => d.handoffWrite stream.val) s

/-- HO_WAIT_RESUME (R22). -/
def execHoWaitResume (stream : Fin 256) (s : State) : Host.Outcome State Fault Refusal := onDev (fun d => d.hoResume stream.val) s

/-- HO_PTR_WRITE (R31): any agent may write it. -/
def execHoPtrWrite (_ag : Agent) (value : Word) (s : State) : Host.Outcome State Fault Refusal :=
  onDev (Dev.anyWrite 0x067 (Dev.writeHoPtr value)) s

end Sys2Proof.Machine
end

