-- ==== Sys2Proof/Machine/LoomTasks.lean ====
section
/-!
DEFINITION. Loom's tasks (09): tiles, quadrants and substitutes, the layer command with its checks, the passage from one command
to the next, and a task's start and end.
-/
namespace Sys2Proof.Machine

/-! ## Tiles (R199, R220) -/

/-- The tiles of a mask. -/
def tilesOf (m : Nat) : List Nat := (List.range 64).filter m.testBit

/-- The numbers of a list as a mask. -/
def maskOf (l : List Nat) : Nat := l.foldl (fun a n => a ||| 1 <<< n) 0

namespace Dev

/-- A tile's region is retired (R220): SUB names its substitute, and every retired tile that had it as its own takes another
one. -/
def tileRetired (d : Dev) : Dev :=
  (forEach ((List.range 64).filter d.retired) (fun m d =>
    d.setField (0x080 + m) 0x040 13 8 ((d.substitute m).getD m)) d).err 0x0C0 2

/-- The mask of a tile group (R200). -/
def groupMask (d : Dev) (g : Nat) : Nat :=
  if g = 0 then 2 ^ 64 - 1
  else (d.reg 0x0C0 (0x040 + 8 * (g - 1))).toNat + (d.reg 0x0C0 (0x044 + 8 * (g - 1))).toNat * 2 ^ 32

end Dev

/-! ## The layer command (R203) -/

/-- A layer command's 64 bytes as one number. -/
structure LCmd where
  raw : Nat
  deriving DecidableEq, Repr

namespace LCmd

/-- `n` bytes at offset `o`. -/
def at_ (c : LCmd) (o n : Nat) : Nat := c.raw / 256 ^ o % 256 ^ n
def op (c : LCmd) : Nat := c.at_ 0 1
def cf (c : LCmd) (i : Nat) : Bool := (c.at_ 1 1).testBit i
def last (c : LCmd) : Bool := c.cf 0
def fwdOut (c : LCmd) : Bool := c.cf 1
def fwdIn (c : LCmd) : Bool := c.cf 2
def argIn (c : LCmd) : Bool := c.cf 3
def bias (c : LCmd) : Bool := c.cf 4
def resid (c : LCmd) : Bool := c.cf 5
def stat (c : LCmd) : Bool := c.cf 6
def fmtIn (c : LCmd) : Nat := c.at_ 2 1 % 16
def fmtW (c : LCmd) : Nat := c.at_ 2 1 / 16
def fmtOut (c : LCmd) : Nat := c.at_ 3 1 % 16
def act (c : LCmd) : Nat := c.at_ 3 1 / 16
def group (c : LCmd) : Nat := c.at_ 4 1 % 16
def split (c : LCmd) : Nat := c.at_ 4 1 / 16 % 4
def layIn (c : LCmd) : Nat := c.at_ 5 1 % 16
def layOut (c : LCmd) : Nat := c.at_ 5 1 / 16
def layer (c : LCmd) : Nat := c.at_ 6 2
/-- Bits `hi` down to `lo` of GEOM. -/
def geom (c : LCmd) (hi lo : Nat) : Nat := c.at_ 8 16 / 2 ^ lo % 2 ^ (hi + 1 - lo)
def inPtr (c : LCmd) : Nat := c.at_ 0x18 8
def wPtr (c : LCmd) : Nat := c.at_ 0x20 8
def outPtr (c : LCmd) : Nat := c.at_ 0x28 8
def auxPtr (c : LCmd) : Nat := c.at_ 0x30 8
def outScale (c : LCmd) : Word := BitVec.ofNat 32 (c.at_ 0x38 4)
/-- A Carder command. -/
def card (c : LCmd) : Bool := c.op == 0x10 || c.op == 0x11 || c.op == 0x12

end LCmd

/-! ## MAC classes (R202) -/

/-- The width rank of a format: 0 four bits, 1 eight bits or narrower, 2 FP16 and its like, 3 FP32. -/
def fmtRank (f : Nat) : Nat :=
  if f = 0 then 3 else if f = 1 || f = 2 || f = 7 || f = 11 || f = 12 then 2 else if f = 6 || f = 9 || f = 13 then 0 else 1

/-- The MAC class of two operands: 0 Q, 1 B, 2 H, 3 S. -/
def macClass (a b : Nat) : Nat := max (fmtRank a) (fmtRank b)

/-- The row depth D of a class. -/
def rowDepth (k : Nat) : Nat := [256, 128, 32, 8].getD k 8

/-- Whether a format is a codebook format. -/
def isBook (f : Nat) : Bool := f == 11 || f == 12

/-! ## The convolution menu (R207, R208) -/

/-- A convolution's sizes: input, channels, kernel, strides, dilations, top and left padding, output. -/
structure ConvGeo where
  iw : Nat
  ih : Nat
  ci : Nat
  co : Nat
  kw : Nat
  kh : Nat
  sw : Nat
  sh : Nat
  dw : Nat
  dh : Nat
  pt : Nat
  pl : Nat
  ow : Nat
  oh : Nat
  deriving DecidableEq, Repr

/-- One axis (R208): padding before, and the output size; `none` where no output fits. -/
def convAxis (mode inp k s dil before after : Nat) : Option (Nat × Nat) :=
  let keff := dil * (k - 1) + 1
  if mode = 1 then
    let out := ceilDiv inp s
    some (((out - 1) * s + keff - inp) / 2, out)
  else
    let b := if mode = 2 then before else 0
    let a := if mode = 2 then after else 0
    if inp + b + a < keff then none else some (b, (inp + b + a - keff) / s + 1)

/-- The geometry of a convolution over an input of `iw` × `ih`; `none` where it is outside the menu. -/
def convGeo (c : LCmd) (iw ih : Nat) : Option ConvGeo :=
  let ci := c.geom 47 32
  let co := c.geom 63 48
  let kw := c.geom 67 64
  let kh := c.geom 71 68
  let sw := c.geom 73 72
  let sh := c.geom 75 74
  let dw := c.geom 77 76
  let dh := c.geom 79 78
  let mode := c.geom 81 80
  if ci = 0 || co = 0 || kw = 0 || 7 < kw || kh = 0 || 7 < kh || sw = 3 || sh = 3 || dw = 3 || dh = 3 ||
      (0 < dw && 0 < sw) || (0 < dh && 0 < sh) || mode = 3 || iw = 0 || 8192 < iw || ih = 0 || 8192 < ih ||
      (c.op = 3 && co ≠ ci) then none
  else
    match convAxis mode iw kw (2 ^ sw) (2 ^ dw) (c.geom 85 84) (c.geom 89 88),
        convAxis mode ih kh (2 ^ sh) (2 ^ dh) (c.geom 83 82) (c.geom 87 86) with
    | some (pl, ow), some (pt, oh) =>
      some { iw := iw, ih := ih, ci := ci, co := co, kw := kw, kh := kh, sw := 2 ^ sw, sh := 2 ^ sh, dw := 2 ^ dw, dh := 2 ^ dh,
             pt := pt, pl := pl, ow := ow, oh := oh }
    | _, _ => none

/-! ## The kinds of command -/

/-- What a layer command does: one kind for each command of the model. -/
inductive LKind where
  | gemm | conv | dwconv | elemAdd | elemMul | elemAct | normRms | normMean | copy | copyQuant | cardConv | cardGemm | topk
  | attend | append | lookup | insert | release | prune
  deriving DecidableEq, Repr

/-- Whether a COPY quantises (R261). -/
def quantises (c : LCmd) : Bool := [3, 4, 5, 6, 8, 9, 13].contains c.fmtOut && c.outScale == 0

/-- The kind of a command; `none` where OP or its sub-operation is reserved. -/
def kindOf (c : LCmd) : Option LKind :=
  match c.op with
  | 0x01 => some .gemm
  | 0x02 => some .conv
  | 0x03 => some .dwconv
  | 0x04 => (match c.geom 39 32 with | 0 => some .elemAdd | 1 => some .elemMul | 2 => some .elemAct | _ => none)
  | 0x05 => (match c.geom 71 64 with | 0 => some .normRms | 1 => some .normMean | _ => none)
  | 0x06 => (match c.geom 3 0 with
    | 0 => some .attend | 1 => some .append | 2 => some .lookup | 3 => some .insert | 4 => some .release | 5 => some .prune | _ => none)
  | 0x07 => some (if quantises c then .copyQuant else .copy)
  | 0x10 => some .cardConv
  | 0x11 => some .cardGemm
  | 0x12 => some .topk
  | _ => none

/-- Whether a kind is an ATTN command. -/
def LKind.attn : LKind → Bool
  | .attend | .append | .lookup | .insert | .release | .prune => true
  | .gemm | .conv | .dwconv | .elemAdd | .elemMul | .elemAct | .normRms | .normMean | .copy | .copyQuant | .cardConv | .cardGemm
  | .topk => false

/-! ## FORMAT (R200, R204, R206–R211, R215, R248, R253) -/

/-- The geometry of a command is outside its menu, or a bit of GEOM that its OP gives no field is set. -/
def geomBad (c : LCmd) : Bool :=
  match c.op with
  | 0x01 => c.geom 127 96 != 0
  | 0x02 | 0x03 => c.geom 127 90 != 0 || (convGeo c (c.geom 15 0) (c.geom 31 16)).isNone
  | 0x04 => c.geom 127 40 != 0
  | 0x05 => c.geom 95 72 != 0
  | 0x06 => c.geom 63 42 != 0 || decide (2 < c.geom 7 4)
  | 0x07 => c.geom 127 32 != 0
  | 0x10 => c.geom 127 104 != 0 || c.geom 95 90 != 0 || c.geom 97 96 == 3 || c.geom 79 76 != 0 ||
      decide (64 < c.geom 47 32) || decide (256 < c.geom 63 48) ||
      (c.geom 97 96 == 0 && (convGeo c (c.geom 15 0) (c.geom 31 16)).isNone) ||
      (c.geom 97 96 != 0 && !([8, 10, 1].contains c.fmtIn))
  | 0x11 => c.geom 127 96 != 0 || decide (256 < c.geom 63 32)
  | 0x12 => c.geom 127 40 != 0 || c.geom 31 0 == 0 || decide (262144 < c.geom 31 0) || c.geom 39 32 == 0 ||
      decide (64 < c.geom 39 32) || !([8, 1, 0].contains c.fmtIn)
  | _ => true

/-- A pointer of a command holds more than 48 bits. -/
def ptrBad (c : LCmd) : Bool :=
  decide (2 ^ 48 ≤ c.inPtr) || decide (2 ^ 48 ≤ c.wPtr) || decide (2 ^ 48 ≤ c.outPtr) || decide (2 ^ 48 ≤ c.auxPtr)

/-- The formats a command names (R211, R248, R253). -/
def fmtBad (c : LCmd) : Bool :=
  decide (13 < c.fmtIn) || decide (13 < c.fmtW) || decide (10 < c.fmtOut && c.fmtOut ≠ 13) ||
  ((c.op == 0x10 || c.op == 0x11) && !([8, 3, 1].contains c.fmtW)) || ((c.op == 0x04 || c.op == 0x05) && isBook c.fmtIn)

/-- The tiles or engines that run a command (R200, R211). -/
def Dev.cmdTiles (d : Dev) (c : LCmd) : Nat := if c.card then 0 else d.groupMask c.group

/-- Forwarding that R206 and R211 do not allow, after a command that forwarded `prev`. -/
def Dev.fwdBad (d : Dev) (prev : Option Fwd) (c : LCmd) : Bool :=
  if c.card then c.fwdIn || c.fwdOut
  else if !c.fwdIn then false
  else match prev with
    | none => true
    | some f =>
      let m := d.groupMask c.group
      f.tiles != m && f.tiles &&& m != 0

/-- A command that fails with FORMAT before it starts (R204). -/
def Dev.cmdBad (d : Dev) (prev : Option Fwd) (c : LCmd) : Bool :=
  (kindOf c).isNone || c.cf 7 || decide (4 < c.act) || c.at_ 4 1 / 64 != 0 || decide (1 < c.split) || decide (3 < c.layIn) ||
  decide (3 < c.layOut) || c.at_ 0x3C 4 != 0 || ptrBad c || fmtBad c || geomBad c || d.fwdBad prev c ||
  (if c.card then c.group == 0 else d.groupMask c.group == 0)

namespace Dev

/-! ## The task in service -/

/-- The descriptor of the task in service. -/
def loomTask (d : Dev) : Option Task := d.loom.slot.bind d.task

/-- Command `i` of a task's list. -/
def cmdOf (d : Dev) (t : Task) (i : Nat) : LCmd := { raw := d.num (t.addr 0x10 + 64 * i) 64 }

/-- CMD_COUNT of a task. -/
def cmdCount (t : Task) : Nat := bits (t.word 6) 15 0

/-- The commands of a task's list, up to the one with LAST = 1. -/
def listCmds (d : Dev) (t : Task) : List LCmd :=
  let l := (List.range (cmdCount t)).map (d.cmdOf t)
  l.take ((l.findIdx LCmd.last) + 1)

/-- The tiles that a task's groups name, and the Carder engines (R216). -/
def namedTiles (d : Dev) (t : Task) : Nat := (d.listCmds t).foldl (fun a c => a ||| d.cmdTiles c) 0
def namedCards (d : Dev) (t : Task) : Nat := (d.listCmds t).foldl (fun a c => if c.card then a ||| c.group else a) 0

/-- The tiles that run the shares of a mask's tiles: a substitute stands for a retired one (R220). -/
def liveTiles (d : Dev) (m : Nat) : List Nat := tilesOf (maskOf ((tilesOf m).filterMap d.liveTile))

/-- Every tile of a mask, or the one that stands for it, is in RUN and not lent (R216). -/
def tilesReady (d : Dev) (m : Nat) : Bool := (d.liveTiles m).all fun n => d.regionNow n == .run && !d.lent n

/-- Page 0x0C0 follows its task (R37, R41). -/
def loomWork (d : Dev) : Dev := d.work 0x0C0 (fun d => d.loom.slot.isSome) id

/-- The task in service ends (R217): it retires with a status and the commands completed. -/
def loomRetire (d : Dev) (status cf : Nat) : Dev :=
  match d.loom.slot with
  | none => d
  | some s =>
    let n := d.loom.cmd
    let d : Dev := { d with loom := {} }
    let d := (d.setReg 0x0C0 0x0D8 0).countFrz 0x0C0 0x0DC
    ((d.retireTask s status n cf).advance).loomWork

/-- The command in service fails its task (R204, R218): LAST_FAULT names it. -/
def loomFail (d : Dev) (status : Nat) : Dev :=
  let d := d.setReg 0x0C0 0x0E4 (BitVec.ofNat 32 (d.loom.cmd + status * 65536))
  let d := if status = 0x50 then d.err 0x0C0 0 else if status = 0x30 || status = 0x31 then d.err 0x0C0 3
    else if status = 0x20 then d.err 0x0C0 4 else d
  d.loomRetire status 0

/-- The status of an aborted task in service, and its completion flag (R303, R308). -/
def abortStatus (t : Task) : Nat × Nat := if t.tmo then (0x40, 8) else (0x10, 0)

/-- The engine of the task in service, as it reads and writes. -/
def loomWho (d : Dev) : MemAgent := .engine (Fin.ofNat 4096 (d.loom.slot.getD 0))

/-- The next command of the task comes into service (R204, R205, R217, R220, R279), or the task ends. -/
def loomNext (d : Dev) : Dev :=
  match d.loomTask with
  | none => d
  | some t =>
    if t.abort then d.loomRetire (abortStatus t).1 (abortStatus t).2
    else
      let i := d.loom.cmd
      let d := d.setField 0x0C0 0x0D8 31 16 i
      let a := t.addr 0x10 + 64 * i
      let (r, d) := d.read d.loomWho a 64
      let c : LCmd := { raw := ofBytesLE r.bytes }
      match readStatus r with
      | some st => d.loomFail st
      | none =>
        if d.cmdBad d.loom.fwd c then d.loomFail 0x50
        else if (tilesOf (d.cmdTiles c)).any fun n => (d.liveTile n).isNone then d.loomFail 0xF0
        else ({ d with loom := { d.loom with layer := some c.layer } } : Dev).pfAdvance

/-- A command has completed, its writes visible (R205, R217, P3): the task ends with its last one, or the next comes into service. -/
def loomDone (d : Dev) (last : Bool) (fwd : Option Fwd) : Dev :=
  match d.loomTask with
  | none => d
  | some t =>
    let i := d.loom.cmd + 1
    let d := match t.esc with
      | some e =>
        if i = 1 then
          d.setReg 0x067 0x084 (BitVec.ofNat 32 (min 0xFFFFFFFF (d.now - (d.episode e).wakeAt)))
        else d
      | none => d
    let d : Dev := { d with loom := { d.loom with cmd := i, fwd := fwd, drain := none } }
    let d := d.countFrz 0x0C0 0x0E0
    if t.abort then d.loomRetire (abortStatus t).1 (abortStatus t).2
    else if last || cmdCount t ≤ i then d.loomRetire 0 0
    else d.loomNext

/-- A command has run: it completes once another device has answered its writes there (R446). -/
def loomFinish (d : Dev) (last : Bool) (fwd : Option Fwd) : Dev :=
  if d.unanswered d.loomWho then { d with loom := { d.loom with drain := some (last, fwd) } } else d.loomDone last fwd

/-- A command whose writes were under way has completed, if every one is answered. -/
def loomDrained (d : Dev) : Dev :=
  match d.loom.drain with
  | some (last, fwd) => d.loomFinish last fwd
  | none => d

/-- Whether the command in service waits before it starts: for a prefetch (R279), or an ATTN command for an edit of its
structures or their rescan (R246). -/
def loomWaits (d : Dev) (c : LCmd) : Bool :=
  d.pfGates c.layer || (c.op == 6 && (d.flag 0x0C4 0x080 0 || d.kvScan))

/-- The command in service, if it may start. -/
def loomCmd (d : Dev) : Option LCmd :=
  match d.loomTask with
  | some t =>
    if d.loom.started && d.loom.drain.isNone then (let c := d.cmdOf t d.loom.cmd; if d.loomWaits c then none else some c) else none
  | none => none

/-- A dispatched Loom task comes into service (R201, R216, R221). -/
def loomBegin (d : Dev) (s : Nat) (t : Task) : Dev :=
  if !d.running 0x0C0 then (d.retireTask s 0xF0 0 0).advance
  else
    let d : Dev := { d with loom := { slot := some s, tiles := d.namedTiles t, cards := d.namedCards t } }
    let d := d.setReg 0x0C0 0x0D8 (BitVec.ofNat 32 (t.ring + 256))
    (d.reclaimTiles d.loomRuns).loomWork

/-- LOOM_TASK_START (R216): once the tiles are ready, the list is fetched and its first command comes into service; until then the
task votes for its tiles, a substitute of one retired since among them, and they are reclaimed. -/
def loomStart (d : Dev) : Dev :=
  match d.loom.slot, d.loomTask with
  | some s, some t =>
    if d.loom.started then d
    else if !d.tilesReady d.loom.tiles then (d.voteFor s t (d.liveTiles d.loom.tiles)).reclaimTiles d.loomRuns
    else
      let d : Dev := { d with loom := { d.loom with started := true } }
      if t.addr 0x10 % 64 ≠ 0 || bits (t.word 5) 31 16 ≠ 0 || cmdCount t = 0 then d.loomFail 0x50 else d.loomNext
  | _, _ => d

/-- An abort of the task in service (R217, R303): at once where no command is being run, else at the end of the one in
service. -/
def loomAbort (d : Dev) : Dev :=
  match d.loomTask with
  | none => d
  | some t =>
    if d.loomCmd.isNone && d.loom.drain.isNone then d.loomRetire (abortStatus t).1 (abortStatus t).2 else d

end Dev

/-! ## The command -/

/-- LOOM_TASK_START (R216). -/
def execLoomTaskStart (s : State) : Host.Outcome State Fault Refusal := onDev (Dev.whenServed Dev.loomStart) s

end Sys2Proof.Machine
end

