-- ==== Sys2Proof/Machine/Loom.lean ====
section
/-!
DEFINITION. Loom's layer commands (09, 11): matrix commands on the array and on Carder, vector commands, quantising copies and
the statistics unit.
-/
namespace Sys2Proof.Machine

/-! ## A command being run -/

/-- A layer command on its way: the device, its slot and bytes, the data forwarded to it, the status that ends its task, the
poison and trap its reads met, whether its record was no frame (R212), the bytes it writes in order, the bytes it forwards, its
statistics slot, the clocks of each tile, and its useful MACs with the cells that were clocked. -/
structure LRun where
  d      : Dev
  slot   : Nat
  cmd    : LCmd
  fwd    : Option Fwd := none
  fail   : Option Nat := none
  poison : Nat := 0
  trap   : Bool := false
  noFrame : Bool := false
  outs   : List (Nat × List Byte) := []
  fwdOut : List Byte := []
  stats  : Option (List Byte × Word × Bool) := none
  clocks : List (Nat × Nat) := []
  util   : Option (Nat × Nat) := none

namespace LRun

/-- The task ends with a status. -/
def stop (x : LRun) (st : Nat) : LRun := { x with fail := some (x.fail.getD st) }

/-- `n` bytes of Skein as the task reads them (R218): a command that has failed reads nothing more. -/
def read (x : LRun) (a n : Nat) : List Byte × LRun :=
  if x.fail.isSome then (List.replicate n 0, x) else
  let (r, d) := x.d.read (.engine (Fin.ofNat 4096 x.slot)) a n
  (r.bytes, { x with d := d, poison := max x.poison r.poison, trap := x.trap || r.trap })

/-- The task's argument word. -/
def arg (x : LRun) : Nat := match x.d.task x.slot with | some t => t.addr 0x20 | none => 0

/-- Where the input stands (R205). -/
def inAddr (x : LRun) : Nat := if x.cmd.argIn then x.arg else x.cmd.inPtr

/-- The `n` bytes of the input: forwarded, or read (R205, R206). -/
def input (x : LRun) (n : Nat) : List Byte × LRun :=
  match x.cmd.fwdIn, x.fwd with
  | true, some f => (f.data, x)
  | _, _ => x.read x.inAddr n

/-- `n` FP32 words. -/
def words (x : LRun) (a n : Nat) : List Word × LRun :=
  let (b, x) := x.read a (4 * n)
  ((List.range n).map fun i => BitVec.ofNat 32 (elemAt 0 b i), x)

/-- A format counter of page 0x0C8 advanced. -/
def fcount (x : LRun) (off bitn n : Nat) : LRun := { x with d := x.d.fmtCount off bitn n }

/-- `n` open values: FP32 words that nothing fixes. -/
def opens (x : LRun) (n : Nat) : (Nat → Nat) × LRun :=
  let b := x.d.free
  (fun i => Config.freeValue (b + i), { x with d := { x.d with free := b + n } })

end LRun

/-! ## Layouts (R209) -/

/-- Where element (p, c) of a tensor of `P` positions and `C` channels stands. -/
def layIndex (lay P C p c : Nat) : Nat :=
  match lay with
  | 0 => p * C + c
  | 1 => (c / 128 * P + p) * 128 + c % 128
  | 2 => c * P + p
  | _ => Config.tiledIndex P C p c

/-- The elements such a tensor takes. -/
def layCount (lay P C : Nat) : Nat :=
  match lay with
  | 0 | 2 => P * C
  | 1 => ceilDiv C 128 * P * 128
  | _ => Config.tiledCount P C

/-- Element codes in logical order, channels fastest, put into a layout; HWC128 is padded with zeros. -/
def layOut (lay P C : Nat) (l : List Nat) : List Nat :=
  match lay with
  | 0 => l
  | 1 => (List.range (ceilDiv C 128)).flatMap fun b => (List.range P).flatMap fun p => (List.range 128).map fun j =>
      if b * 128 + j < C then l.getD (p * C + b * 128 + j) 0 else 0
  | 2 => (List.range C).flatMap fun c => (List.range P).map fun p => l.getD (p * C + c) 0
  | _ => (List.range (Config.tiledCount P C)).map fun i => l.getD (Config.tiledElem P C i) 0

/-! ## Outputs (R259, R262, R263) -/

/-- The activation of a command (R203). -/
def activate (c : LCmd) (v : Word) : Word :=
  match c.act with
  | 1 => if (f32 v).lt .zero then 0 else v
  | 2 => Config.fgelu v
  | 3 => Config.fsilu v
  | 4 =>
    let s := rne (f32 c.outScale).abs
    if isNan32 v then v else fmax (fmin v s) (rne (f32 s).neg)
  | _ => v

/-- The largest finite magnitude among some values, +0 if none. -/
def absMax (l : List Word) : Word :=
  l.foldl (fun m v => if (f32 v).isNan || (f32 v).isInf then m else fmax m (rne (f32 v).abs)) 0

namespace LRun

/-- The statistics of a command's outputs (R262, R263). -/
def statSlot (x : LRun) (vals : List Word) (sat : Nat) : LRun :=
  let d := x.d
  let size := 2 ^ max 6 (min 24 (d.field 0x0C8 0x040 12 8))
  let blocks := if d.flag 0x0C8 0x040 0 then (chunksOf 32 vals).map absMax else []
  let room := (size - 64) / 4
  let kept := blocks.take room
  let trunc := decide (room < blocks.length)
  let top := absMax vals
  let body := bytesLE 2 x.cmd.layer ++ bytesLE 1 x.cmd.op ++ bytesLE 1 (trunc.toNat + (d.flag 0x0C8 0x040 0).toNat * 2) ++
    bytesLE 4 vals.length ++ bytesLE 4 top.toNat ++ bytesLE 4 (vals.filter isNan32).length ++
    bytesLE 4 (vals.filter fun v => (f32 v).isInf).length ++ bytesLE 4 sat ++ bytesLE 4 kept.length ++ List.replicate 36 0 ++
    kept.flatMap fun v => bytesLE 4 v.toNat
  { x with stats := some (body, top, trunc) }

/-- Output codes written at OUT_PTR, or forwarded (R206). -/
def emit (x : LRun) (bytes : List Byte) : LRun :=
  { x with outs := if x.cmd.fwdOut && x.cmd.outPtr = 0 then x.outs else x.outs ++ [(x.cmd.outPtr, bytes)], fwdOut := bytes }

/-- Steps 5 and 6 of R259 for output values in logical order. -/
def finish (x : LRun) (P C : Nat) (vals : List Word) : LRun :=
  let cv : List (Nat × Bool × Bool) := vals.map fun v => convertTo x.cmd.fmtOut (f32 v)
  let sat := (cv.filter fun (r : Nat × Bool × Bool) => r.2.1).length
  let x := if x.cmd.stat then x.statSlot vals sat else x
  let x := { x with d := x.d.convCount sat (cv.filter fun (r : Nat × Bool × Bool) => r.2.2).length }
  x.emit (packElems x.cmd.fmtOut (layOut x.cmd.layOut P C (cv.map fun (r : Nat × Bool × Bool) => r.1)))

end LRun

/-! ## The scale area (R253, R255–R257) -/

/-- A command's scales: the modes, tensor scales and codebooks of weights and input, their S1 and S2 arrays by flat index, and
where the residual operand starts. -/
structure Scales where
  wMode : Nat := 0
  iMode : Nat := 0
  wT    : Word := 0x3F800000
  iT    : Word := 0x3F800000
  wBook : List Nat := []
  iBook : List Nat := []
  wS1   : List FVal := []
  wS2   : List FVal := []
  iS1   : List FVal := []
  iS2   : List FVal := []
  after : Nat := 0

/-- The sizes of a command's scale arrays: rows and blocks a row, for weights and input. -/
structure ScaleDims where
  wRows : Nat
  wK    : Nat
  iRows : Nat
  iK    : Nat

/-- A scale that is NaN or infinite makes every product of its block NaN (R257). -/
def scaleVal (v : FVal) : FVal := if v.isNan || v.isInf then .nan else v

/-- The blocks of an operand that a bad scale spoils (R257): each counts once. -/
def badBlocks (rows k : Nat) (s1 s2 : List FVal) : Nat :=
  let kb := ceilDiv k 32
  let kg := ceilDiv k 2048
  ((List.range rows).map fun r => ((List.range kb).filter fun b =>
    (s1.getD (r * kb + b) .zero).isNan || (s2.getD (r * kg + b / 64) .zero).isNan).length).sum

/-- Whether a command has a scale area (R255, R261). -/
def hasArea (c : LCmd) : Bool :=
  if c.op = 7 then decide (fmtRank c.fmtIn ≤ 1) || isBook c.fmtIn
  else decide (macClass c.fmtIn c.fmtW ≤ 1) || isBook c.fmtIn || isBook c.fmtW

namespace LRun

/-- A codebook (R253). -/
def book (x : LRun) (fmt ptr : Nat) : List Nat × LRun :=
  if isBook fmt then
    if ptr = 0 || ptr % 64 ≠ 0 then ([], x.stop 0x50)
    else
      let n := if fmt = 11 then 16 else 256
      let (b, x) := x.read ptr (2 * n)
      ((List.range n).map (elemAt 1 b), x)
  else ([], x)

/-- An S1 or S2 array of `n` entries: FP8-E4M3 or FP32. -/
def scaleArray (x : LRun) (a fmt n : Nat) : List FVal × LRun :=
  let (b, x) := x.read a (packedBytes fmt n)
  ((List.range n).map fun i => scaleVal (decodeElem fmt [] (elemAt fmt b i)), if a % 64 = 0 then x else x.stop 0x50)

/-- The scale area at `a` (R255, R256). -/
def scales (x : LRun) (a : Nat) (dm : ScaleDims) : Scales × LRun :=
  let (h, x) := x.read a 64
  let num (o n : Nat) : Nat := ofBytesLE ((h.drop o).take n)
  let wm := if x.cmd.op = 7 then 0 else num 0 1
  let im := num 1 1
  let x := if 2 < num 0 1 || 2 < im || num 2 2 ≠ 0 || num 12 4 ≠ 0 || num 0x30 16 ≠ 0 || (x.cmd.op = 3 && im = 2) then x.stop 0x50 else x
  let wb := if x.cmd.op = 7 then [] else (x.book x.cmd.fmtW (num 0x10 8)).1
  let x := if x.cmd.op = 7 then x else (x.book x.cmd.fmtW (num 0x10 8)).2
  let (ib, x) := x.book x.cmd.fmtIn (num 0x18 8)
  let n1 (m rows k : Nat) : Nat := if m = 2 then rows * ceilDiv k 32 else 0
  let n2 (m rows k : Nat) : Nat := if m = 2 then rows * ceilDiv k 2048 else 0
  let o (m off : Nat) : Nat := if m = 2 then a + num off 4 else 0
  let (w1, x) := x.scaleArray (o wm 0x20) 3 (n1 wm dm.wRows dm.wK)
  let (w2, x) := x.scaleArray (o wm 0x24) 0 (n2 wm dm.wRows dm.wK)
  let (i1, x) := x.scaleArray (o im 0x28) 3 (n1 im dm.iRows dm.iK)
  let (i2, x) := x.scaleArray (o im 0x2C) 0 (n2 im dm.iRows dm.iK)
  let x := x.fcount 0x068 6 ((if wm = 2 then badBlocks dm.wRows dm.wK w1 w2 else 0) + (if im = 2 then badBlocks dm.iRows dm.iK i1 i2 else 0))
  let ends := [a + 64, o wm 0x20 + w1.length, o wm 0x24 + 4 * w2.length, o im 0x28 + i1.length, o im 0x2C + 4 * i2.length]
  ({ wMode := wm, iMode := im, wT := BitVec.ofNat 32 (num 4 4), iT := BitVec.ofNat 32 (num 8 4), wBook := wb, iBook := ib,
     wS1 := w1, wS2 := w2, iS1 := i1, iS2 := i2, after := roundUp (ends.foldl max 0) 64 }, x)

/-- Bias, scales and the residual's address in the order they stand from `a` on (R203, R255); `n` outputs channels. -/
def aux (x : LRun) (a n : Nat) (dm : ScaleDims) : List Word × Scales × LRun :=
  let (bias, x) := if x.cmd.bias then x.words a n else ([], x)
  let next := roundUp (a + (if x.cmd.bias then 4 * n else 0)) 64
  if hasArea x.cmd then
    let (s, x) := x.scales next dm
    (bias, s, x)
  else (bias, { after := if x.cmd.bias || a ≠ x.cmd.auxPtr then next else a }, x)

end LRun

/-! ## Matrix commands (R252, R257–R259) -/

/-- A matrix command's operands: output rows and columns, the reduction length, the places where a group of products begins beside the
first, the products of an output element, the scales of its chunks by number, and those of its groups by where they begin, for
weights and input. -/
structure Matrix where
  rows  : Nat
  cols  : Nat
  depth : Nat
  cut   : Nat → Bool
  prods : Nat → Nat → List Prod
  w1    : Nat → Nat → FVal
  w2    : Nat → Nat → FVal
  i1    : Nat → Nat → FVal
  i2    : Nat → Nat → FVal

/-- 1.0 -/
def oneVal : FVal := .fin false 1 0

/-- Element `i` of an operand in a format, with its ERASED mark (R251–R253). -/
def elemOf (fmt : Nat) (book : List Nat) (b : List Byte) (i : Nat) : FVal × Bool :=
  let x := elemAt fmt b i
  (decodeElem fmt book x, fmt == 13 && x == 8)

/-- The ERASED elements among the first `n` of an operand. -/
def erasedIn (fmt : Nat) (b : List Byte) (n : Nat) : Nat :=
  if fmt = 13 then ((List.range n).filter fun i => elemAt fmt b i == 8).length else 0

/-- The accumulator of one output element (R258), with whether INT32 saturated. -/
def accOf (c : LCmd) (s : Scales) (m : Matrix) (r n : Nat) : FVal × Bool :=
  let ps := m.prods r n
  let two := s.wMode = 2 || s.iMode = 2
  let (a, sat) :=
    if fmtInt c.fmtIn && fmtInt c.fmtW && !two then intAccumulate ps
    else
      let ch := if two then 32 else rowDepth (macClass c.fmtIn c.fmtW)
      (accumulate ch (cutLens m.depth fun k => two && m.cut k) ps (fun k => (m.w1 n k, m.i1 r k)) (fun k => (m.w2 n k, m.i2 r k)), false)
  if s.wMode = 1 || s.iMode = 1 then
    let t (mode : Nat) (w : Word) : FVal := if mode = 1 then f32 w else oneVal
    (rneV (a.mul (rneV ((t s.wMode s.wT).mul (t s.iMode s.iT)))), sat)
  else (a, sat)

namespace LRun

/-- A matrix command's outputs from its accumulators (R259, steps 1 to 4). -/
def matOut (x : LRun) (bias : List Word) (s : Scales) (m : Matrix) : LRun :=
  let n := m.rows * m.cols
  let (rb, x) : List Byte × LRun := if x.cmd.resid then x.read s.after (packedBytes x.cmd.fmtOut n) else ([], x)
  let accs := (List.range n).map fun i => accOf x.cmd s m (i / m.cols) (i % m.cols)
  let x := x.fcount 0x05C 2 (accs.filter (·.2)).length
  let vals := (List.range n).map fun i =>
    let a := rne (accs.getD i (.zero, false)).1
    let a := if x.cmd.bias then fadd a (bias.getD (i % m.cols) 0) else a
    let a := fmul a x.cmd.outScale
    let a := if x.cmd.resid then fadd a (rne (decodeElem x.cmd.fmtOut [] (elemAt x.cmd.fmtOut rb i))) else a
    activate x.cmd a
  let x := x.fcount 0x060 3 (if x.cmd.resid then erasedIn x.cmd.fmtOut rb n else 0)
  x.finish m.rows m.cols vals

end LRun

/-- The scale of a block or group of a row: 1 outside mode 2. -/
def rowScale (mode : Nat) (l : List FVal) (per row i : Nat) : FVal := if mode = 2 then l.getD (row * per + i) oneVal else oneVal

/-! ## The cycle rules (R210) -/

/-- The bits that FMT_W takes for an element. -/
def loadClocks (c : LCmd) : Nat := rowDepth (macClass c.fmtIn c.fmtW) * fmtBits c.fmtW / 32

/-- f of R210: the rate at which a layout feeds the rows. -/
def feedRate (c : LCmd) (ci : Nat) : Nat :=
  match c.layIn with
  | 1 => 1
  | 0 => if ci * fmtBits c.fmtIn % 512 = 0 then 1 else 2
  | 2 => 4
  | _ => Config.tiledRate

/-- Share `i` of `n` things over `t` tiles, ⌈n / t⌉ at most. -/
def shareOf (n t i : Nat) : Nat := min (ceilDiv n t) (n - i * ceilDiv n t)

namespace LRun

/-- The clocks of every tile of the group, given the clocks of its share by its place in the group; a substitute adds a retired
tile's share to its own (R220). -/
def tileClocks (x : LRun) (f : Nat → Nat → Nat) : List (Nat × Nat) :=
  let ts := tilesOf (x.d.cmdTiles x.cmd)
  (List.range ts.length).map fun i => ((x.d.liveTile (ts.getD i 0)).getD 0, f ts.length i)

/-- The time and use of a matrix command on the array (R210): `m` rows, `n` columns, `taps` × ⌈k / depth⌉ row blocks. -/
def matClocks (x : LRun) (m n k taps : Nat) (dw : Bool) : LRun :=
  let c := x.cmd
  let depth := rowDepth (macClass c.fmtIn c.fmtW)
  let kb := if dw then taps else taps * ceilDiv k depth
  let share (t i : Nat) : Nat :=
    let mt := if c.split = 0 then shareOf m t i else m
    let nt := if c.split = 0 then n else shareOf n t i
    if mt = 0 || nt = 0 then 0 else 64 + kb * ceilDiv nt 128 * max (feedRate c k * mt) (if dw then fmtBits c.fmtW / 32 else loadClocks c)
  let cl := x.tileClocks share
  let tot (t : Nat) : Nat := ((cl.filter fun e => e.1 == t).map (·.2)).sum
  let slow := (cl.map fun e => tot e.1).foldl max 0
  { x with clocks := cl, util := some (m * n * taps * (if dw then 1 else k), slow * cl.length * depth * 128) }

/-- The time of a vector command over `n` elements (R210). -/
def vecClocks (x : LRun) (n : Nat) : LRun :=
  { x with clocks := x.tileClocks fun t i => 64 + ceilDiv (shareOf n t i) 128 }

/-! ## GEMM (R207) -/

/-- Where a command's bias and scales stand (R203, R213): at AUX_PTR, on Carder after the 16-byte prep block there. The block's fields
say how raw values are prepared; a tensor has none (log entry 194). -/
def auxAt (x : LRun) : Nat := if x.cmd.card then x.cmd.auxPtr + 16 else x.cmd.auxPtr

/-- A GEMM, on the array or on Carder: K × N weights, row-major for CARD_GEMM. -/
def gemm (x : LRun) : LRun :=
  let c := x.cmd
  let M := c.geom 31 0
  let N := c.geom 63 32
  let K := c.geom 95 64
  let card := c.op = 0x11
  let (bias, s, x) := x.aux x.auxAt N { wRows := N, wK := K, iRows := M, iK := K }
  let nIn := layCount c.layIn M K
  let (ib, x) := x.input (packedBytes c.fmtIn nIn)
  let nW := if card then K * N else Config.weightCount c.op K N
  let (wb, x) := x.read c.wPtr (packedBytes c.fmtW nW)
  let x := x.fcount 0x060 3 (erasedIn c.fmtIn ib nIn + erasedIn c.fmtW wb nW)
  let wi (k n : Nat) : Nat := if card then k * N + n else Config.weightIndex c.op K N k n
  let kb := ceilDiv K 32
  let kg := ceilDiv K 2048
  let m : Matrix :=
    { rows := M, cols := N, depth := K, cut := fun k => k % 2048 == 0
      prods := fun r n => (List.range K).map fun k =>
        let a := elemOf c.fmtIn s.iBook ib (layIndex c.layIn M K r k)
        let b := elemOf c.fmtW s.wBook wb (wi k n)
        { a := a.1, b := b.1, erased := a.2 || b.2 }
      w1 := rowScale s.wMode s.wS1 kb, w2 := fun n k => rowScale s.wMode s.wS2 kg n (k / 2048)
      i1 := rowScale s.iMode s.iS1 kb, i2 := fun r k => rowScale s.iMode s.iS2 kg r (k / 2048) }
  let x := if card then x else x.matClocks M N K 1 false
  x.matOut bias s m

/-- The rows that each engine of a Carder command takes (R211): evenly, the lower engine taking any extra row. -/
def cardPixels (x : LRun) (rows width : Nat) : LRun :=
  let qs := (List.range 4).filter x.cmd.group.testBit
  let n := qs.length
  let d := (List.range n).foldl (fun (d : Dev) i =>
    d.countFrz 0x0C1 (0x044 + 0x10 * qs.getD i 0) ((rows / n + (if i < rows % n then 1 else 0)) * width)) x.d
  { x with d := d }

/-! ## Convolution (R208, R212, R213, R256) -/

/-- A convolution over input elements given by position and channel; DWCONV takes one column per channel. Where both operands are
TWO_LEVEL, or the input alone, a group of products ends where the S2 of either changes: at the weights' multiples of 2,048 along K, and
at the input's along the channels of a tap (R256–R258; log entry 87). -/
def convolve (x : LRun) (g : ConvGeo) (el : Scales → Nat → Nat → FVal × Bool) (nEl : LRun → LRun) : LRun :=
  let c := x.cmd
  let dw := c.op = 3
  let taps := g.kh * g.kw
  let K := if dw then taps else taps * g.ci
  let P := g.iw * g.ih
  let rows := g.ow * g.oh
  let (bias, s, x) := x.aux x.auxAt g.co { wRows := g.co, wK := if dw then min K 32 else K, iRows := P, iK := g.ci }
  let x := if !dw && (s.wMode = 2 || s.iMode = 2) && g.ci % 32 ≠ 0 then x.stop 0x50 else x
  let x := nEl x
  let nW := Config.weightCount c.op K g.co
  let (wb, x) := x.read c.wPtr (packedBytes c.fmtW nW)
  let x := x.fcount 0x060 3 (erasedIn c.fmtW wb nW)
  let kg := ceilDiv K 2048
  -- the input position under tap `t` of output position `r`, where it is inside the input
  let pos (r t : Nat) : Option Nat :=
    let y := r / g.ow * g.sh + t / g.kw * g.dh
    let xx := r % g.ow * g.sw + t % g.kw * g.dw
    if g.pt ≤ y && y - g.pt < g.ih && g.pl ≤ xx && xx - g.pl < g.iw then some ((y - g.pt) * g.iw + (xx - g.pl)) else none
  let m : Matrix :=
    { rows := rows, cols := g.co, depth := K
      cut := fun k => (s.wMode == 2 && !dw && k % 2048 == 0) || (s.iMode == 2 && k % g.ci % 2048 == 0)
      prods := fun r n => (List.range K).map fun k =>
        let t := if dw then k else k / g.ci
        let ch := if dw then n else k % g.ci
        let a := match pos r t with | some p => el s p ch | none => (.zero, false)
        let b := elemOf c.fmtW s.wBook wb (Config.weightIndex c.op K g.co k n)
        { a := a.1, b := b.1, erased := a.2 || b.2 }
      w1 := if dw then fun n _ => rowScale s.wMode s.wS1 1 n 0 else rowScale s.wMode s.wS1 (ceilDiv K 32)
      w2 := if dw then fun n _ => rowScale s.wMode s.wS2 1 n 0 else fun n k => rowScale s.wMode s.wS2 kg n (k / 2048)
      i1 := fun r j =>
        match pos r (32 * j / g.ci) with
        | some p => rowScale s.iMode s.iS1 (ceilDiv g.ci 32) p (32 * j % g.ci / 32)
        | none => oneVal
      i2 := fun r k =>
        match pos r (k / g.ci) with
        | some p => rowScale s.iMode s.iS2 (ceilDiv g.ci 2048) p (k % g.ci / 2048)
        | none => oneVal }
  let x := if c.card then x.cardPixels g.oh g.ow else x.matClocks rows g.co g.ci taps dw
  x.matOut bias s m

/-- CONV, DWCONV, and CARD_CONV of a tensor. -/
def conv (x : LRun) : LRun :=
  let c := x.cmd
  match convGeo c (c.geom 15 0) (c.geom 31 16) with
  | none => x.stop 0x50
  | some g =>
    let P := g.iw * g.ih
    let n := layCount c.layIn P g.ci
    let (ib, x) := x.input (packedBytes c.fmtIn n)
    x.convolve g (fun s p ch => elemOf c.fmtIn s.iBook ib (layIndex c.layIn P g.ci p ch)) fun x =>
      x.fcount 0x060 3 (erasedIn c.fmtIn ib n)

end LRun

/-- A stored frame (R95, R212): its buffer, size, stride, data type where it is known, storage, and the frame's flags. -/
structure Frame where
  buf    : Nat
  width  : Nat
  height : Nat
  stride : Nat
  dt     : Option Nat
  unpack : Bool
  marked : Bool

/-- The bytes of a stored frame. -/
def Frame.size (f : Frame) : Nat := f.height * f.stride

/-- The raw value at (x, y) of a frame with one value a pixel; `none` where the spec does not say how the data type is read. -/
def Frame.raw (f : Frame) (b : List Byte) (x y : Nat) : Option Nat :=
  let at_ (i : Nat) : Nat := (b.getD (y * f.stride + i) 0).toNat
  match f.dt with
  | some 0x2A => some (at_ x)
  | some 0x2B => some (if f.unpack then at_ (2 * x) + at_ (2 * x + 1) * 256
      else at_ (x / 4 * 5 + x % 4) * 4 + at_ (x / 4 * 5 + 4) / 4 ^ (x % 4) % 4)
  | some 0x2C => some (if f.unpack then at_ (2 * x) + at_ (2 * x + 1) * 256
      else at_ (x / 2 * 3 + x % 2) * 16 + at_ (x / 2 * 3 + 2) / 16 ^ (x % 2) % 16)
  | _ => none

/-- The value of a prepared channel (R213): `none` where it is open. -/
def Frame.channel (f : Frame) (b : List Byte) (mode w p ch : Nat) : Option Nat :=
  let x := p % w
  let y := p / w
  match mode with
  | 0 => f.raw b x y
  | 1 => f.raw b (2 * x + ch % 2) (2 * y + ch / 2)
  | _ =>
    if f.dt = some 0x1E then
      let at_ (i : Nat) : Nat := (b.getD (y * f.stride + i) 0).toNat
      some (if ch = 0 then at_ (2 * x + 1) else if ch = 1 then at_ (x / 2 * 4) else at_ (x / 2 * 4 + 2))
    else none

/-- A raw value after black level, gain and shift, in FMT_IN (R213): its code, and whether the conversion saturated or met a NaN. -/
def prepValue (fmt black gain shift raw : Nat) : Nat × Bool × Bool :=
  convertTo fmt (FVal.scaled (((raw : Int) - black) * gain) (-(shift : Int)))

namespace LRun

/-- A read has met poison, or an unwritten line that traps. -/
def spoiled (x : LRun) : Bool := x.trap || x.poison != 0

/-- The frame that a CARD_CONV of SRC_KIND 1 or 2 reads (R212); `none` where the source is no frame. Of a source that is poisoned or
traps, the frame is as its bytes say, so that the command's output lines are known (R218). The data type of a frame that is no longer
kept is the last one of its channel. -/
def frame (x : LRun) : Option Frame × LRun :=
  let c := x.cmd
  let a := x.inAddr
  if c.geom 97 96 = 1 then
    let (h, x) := x.read a 32
    let num (o n : Nat) : Nat := ofBytesLE ((h.drop o).take n)
    let n := num 1 1
    if (num 0 1 ≠ 1 || 8 ≤ n) && !x.spoiled then (none, { x with noFrame := true })
    else
      let d := x.d
      let n := n % 8
      let buf := num 24 8 % 2 ^ 48
      let dt := (((d.chan n).done.find? fun f => d.camBuf n f.buf == buf).map (·.dt)).or (d.chan n).dt
      let stride := roundUp (lineBytes (dt.getD 0x2A) (d.camWidth n) (d.camUnpack n)) 64
      (some { buf := buf, width := d.camWidth n, height := d.camHeight n, stride := stride, dt := dt, unpack := d.camUnpack n,
              marked := num 2 2 / 4 % 4 != 0 }, x)
  else
    let cam := c.geom 100 98
    let (h, x) := x.read a 64
    let lb := ofBytesLE ((h.drop 24).take 8) % 2 ^ 48
    let (e, x) := x.read (lb + 256 * cam + 32 * (7 - c.geom 103 101)) 32
    let num (o n : Nat) : Nat := ofBytesLE ((e.drop o).take n)
    if (lb = 0 || num 29 1 % 2 = 0) && !x.spoiled then (none, x)
    else
      let d := x.d
      let buf := num 0 8 % 2 ^ 48
      let known := num 29 1 % 2 = 1
      let w := if known then num 20 2 else d.camWidth cam
      (some { buf := buf, width := w, height := if known then num 22 2 else d.camHeight cam,
              stride := if known then num 24 4 else roundUp (lineBytes 0x2A w (d.camUnpack cam)) 64,
              dt := if known then some (num 28 1) else (d.chan cam).dt, unpack := d.camUnpack cam,
              marked := d.snaps.any fun s => s.2.any fun (y : Snapshot) => y.marks.contains buf }, x)

/-- CARD_CONV of a camera frame (R212, R213): its values are prepared once each, and the conversions count (R254). -/
def convFrame (x : LRun) : LRun :=
  let c := x.cmd
  match x.frame with
  | (none, x) => x.stop 0x50
  | (some f, x) =>
    let (pb, x) := x.read c.auxPtr 16
    let num (o n : Nat) : Nat := ofBytesLE ((pb.drop o).take n)
    let bad := x.spoiled
    let mode := if bad then (match c.geom 47 32 with | 1 => 0 | 4 => 1 | _ => 2) else num 5 1
    let w := if mode = 1 then f.width / 2 else f.width
    let h := if mode = 1 then f.height / 2 else f.height
    let chans := if mode = 0 then 1 else if mode = 1 then 4 else 3
    if (2 < mode || 15 < num 4 1 || (mode = 1 && (f.width % 2 ≠ 0 || f.height % 2 ≠ 0)) || c.geom 47 32 ≠ chans) && !bad then x.stop 0x50
    else
      match convGeo c w h with
      | none => x.stop 0x50
      | some g =>
        let (fb, x) := x.read f.buf f.size
        let (op, x) := x.opens (w * h * chans)
        let x : LRun := if f.marked then
          { x with d := forEach ((List.range 4).filter c.group.testBit) (fun q d => d.countFrz 0x0C1 (0x048 + 0x10 * q)) x.d } else x
        let prep (p ch : Nat) : Nat × Bool × Bool :=
          match f.channel fb mode w p ch with
          | some r => prepValue c.fmtIn (num 0 2) (num 2 2) (num 4 1) r
          | none => (op (p * chans + ch) % 2 ^ fmtBits c.fmtIn, false, false)
        let vals := (List.range (w * h * chans)).map fun i => prep (i / chans) (i % chans)
        let x := { x with d := x.d.convCount (vals.filter fun (v : Nat × Bool × Bool) => v.2.1).length (vals.filter fun (v : Nat × Bool × Bool) => v.2.2).length }
        x.convolve g (fun _ p ch => (decodeElem c.fmtIn [] (prep p ch).1, false)) id

/-- CARD_CONV (R211–R213). -/
def cardConv (x : LRun) : LRun :=
  if x.cmd.geom 97 96 = 0 then x.conv else x.convFrame

/-! ## Vector commands (R207, R259, R261) -/

/-- ELEM: `f` over two operands read in FMT_IN. -/
def elem (x : LRun) (f : Option (Word → Word → Word)) : LRun :=
  let c := x.cmd
  let n := c.geom 31 0
  let (a, x) := x.input (packedBytes c.fmtIn n)
  let (b, x) := if f.isSome then x.read c.auxPtr (packedBytes c.fmtIn n) else ([], x)
  let x := x.fcount 0x060 3 (erasedIn c.fmtIn a n + (if f.isSome then erasedIn c.fmtIn b n else 0))
  let val (l : List Byte) (i : Nat) : Word := rne (decodeElem c.fmtIn [] (elemAt c.fmtIn l i))
  let vals := (List.range n).map fun i => activate c (match f with | some g => g (val a i) (val b i) | none => val a i)
  (x.vecClocks n).finish 1 n vals

/-- NORM of a KIND, row by row. -/
def norm (x : LRun) (kind : Nat) : LRun :=
  let c := x.cmd
  let R := c.geom 31 0
  let C := c.geom 63 32
  let (a, x) := x.input (packedBytes c.fmtIn (layCount c.layIn R C))
  let (gain, x) := x.words c.auxPtr C
  let x := x.fcount 0x060 3 (erasedIn c.fmtIn a (layCount c.layIn R C))
  let row (r : Nat) : List Word := (List.range C).map fun k => rne (decodeElem c.fmtIn [] (elemAt c.fmtIn a (layIndex c.layIn R C r k)))
  let vals := (List.range R).flatMap fun r => (List.range C).map fun k =>
    activate c (Config.normElem kind (BitVec.ofNat 32 (c.geom 127 96)) (row r) gain k)
  (x.vecClocks (R * C)).finish R C vals

/-- The values of a COPY's input (R257): decoded, with the scales of its input scale area, each with its ERASED mark: an ERASED element
is +0 whatever its scale (R252). -/
def copyIn (x : LRun) : List (Word × Bool) × Nat × LRun :=
  let c := x.cmd
  let n := c.geom 31 0
  let (s, x) := if hasArea c then x.scales c.auxPtr { wRows := 0, wK := 0, iRows := 1, iK := n } else ({ after := c.auxPtr }, x)
  let (a, x) := x.input (packedBytes c.fmtIn n)
  let x := x.fcount 0x060 3 (erasedIn c.fmtIn a n)
  let val (i : Nat) : Word × Bool :=
    let (e, erased) := elemOf c.fmtIn s.iBook a i
    if erased then (0, true)
    else
      (rne (if s.iMode = 1 then e.mul (f32 s.iT)
        else if s.iMode = 2 then (e.mul (rowScale 2 s.iS1 0 0 (i / 32))).mul (rowScale 2 s.iS2 0 0 (i / 2048)) else e), false)
  ((List.range n).map val, s.after, x)

/-- COPY, element by element (R261). -/
def copy (x : LRun) : LRun :=
  let c := x.cmd
  let n := c.geom 31 0
  let (vs, _, x) := x.copyIn
  let vals := (List.range n).map fun i =>
    let (v, erased) := vs.getD (if c.layIn = c.layOut then i else Config.layoutElem c.layIn c.layOut n i) (0, false)
    if erased then 0 else fmul v c.outScale
  { (({ x with cmd := { raw := c.raw - c.layOut * 16 * 256 ^ 5 } } : LRun).vecClocks n).finish 1 n vals with cmd := c }

end LRun

/-- Emax of a quantised format (R248, R261). -/
def quantMax (fmt : Nat) : FVal :=
  match fmt with
  | 8 => .ofInt 127
  | 9 => .ofInt 7
  | 13 => oneVal
  | f => match fmtFloat f with
    | some g => g.decode g.emax
    | none => oneVal

/-- What quantising gives: element codes, S1 codes, S2 words, the saturations and NaNs of the elements and of the S1 codes, and blocks
whose S1 fell to zero. -/
structure Quant where
  codes : List Nat := []
  s1    : List Nat := []
  s2    : List Word := []
  sat   : Nat := 0
  nan   : Nat := 0
  s1Sat : Nat := 0
  s1Nan : Nat := 0
  under : Nat := 0

/-- One block of a group whose S2 is `s2` (R261). -/
def quantBlock (fmt : Nat) (s2 : Word) (q : Quant) (b : List Word) : Quant :=
  let bmax := absMax b
  let e := rne (quantMax fmt)
  let (s1, sat, nan) := FFmt.e4m3.convert (f32 (fdiv bmax (fmul s2 e)))
  let s := fmul (rne (FFmt.e4m3.decode s1)) s2
  let zero := FFmt.e4m3.decode s1 |>.isZero
  let cv := b.map fun x => if zero then (0, false, false) else convertTo fmt (f32 (fdiv x s))
  { codes := q.codes ++ cv.map (·.1), s1 := q.s1 ++ [s1], s2 := q.s2, sat := q.sat + (cv.filter fun (r : Nat × Bool × Bool) => r.2.1).length,
    nan := q.nan + (cv.filter fun (r : Nat × Bool × Bool) => r.2.2).length, under := q.under + (zero && bmax != 0).toNat,
    s1Sat := q.s1Sat + sat.toNat, s1Nan := q.s1Nan + nan.toNat }

/-- One group (R261). -/
def quantGroup (fmt : Nat) (q : Quant) (g : List Word) : Quant :=
  let gmax := absMax g
  let e := quantMax fmt
  let s2 := if (FVal.zero).lt (f32 gmax) then rne ((f32 gmax).div (e.mul (.ofInt 448))) else 0x3F800000
  (chunksOf 32 g).foldl (quantBlock fmt s2) { q with s2 := q.s2 ++ [s2] }

namespace LRun

/-- A quantising COPY (R261). -/
def copyQuant (x : LRun) : LRun :=
  let c := x.cmd
  let n := c.geom 31 0
  let (vs, after, x) := x.copyIn
  let vs := (List.range n).map fun i => (vs.getD (if c.layIn = c.layOut then i else Config.layoutElem c.layIn c.layOut n i) (0, false)).1
  let q := (chunksOf 2048 vs).foldl (quantGroup c.fmtOut) {}
  let x := if c.stat then x.statSlot vs q.sat else x
  let x := { x with d := x.d.convCount (q.sat + q.s1Sat) (q.nan + q.s1Nan) }
  let x := { x with d := if q.under = 0 then x.d else x.d.count 0x0C8 0x064 q.under }
  let x := x.emit (packElems c.fmtOut q.codes)
  let a1 := if hasArea c then after else c.auxPtr
  { x.vecClocks n with outs := x.outs ++ [(a1, q.s1.map (BitVec.ofNat 8)), (roundUp (a1 + q.s1.length) 64, q.s2.flatMap fun w => bytesLE 4 w.toNat)] }

/-! ## CARD_TOPK (R215) -/

/-- Whether value `a` ranks before `b`: larger first, a NaN below every number. -/
def ranks (a b : FVal) : Bool := if a.isNan then false else b.isNan || b.lt a

/-- The K largest values with their indexes; places beyond N are open. -/
def topk (x : LRun) : LRun :=
  let c := x.cmd
  let n := c.geom 31 0
  let k := c.geom 39 32
  let (b, x) := x.input (packedBytes c.fmtIn n)
  let vs := (List.range n).map fun i => (i, decodeElem c.fmtIn [] (elemAt c.fmtIn b i))
  let top := (sortBy (fun a b => !ranks b.2 a.2) vs).take k
  let (op, x) := x.opens (8 * (k - n))
  x.emit (top.flatMap (fun e => bytesLE 4 e.1 ++ bytesLE 4 (rne e.2).toNat) ++ (List.range (8 * (k - n))).map fun i => BitVec.ofNat 8 (op i))

end LRun

/-! ## Completion of a command (R205, R217, R218, R262) -/

namespace Dev

/-- The lines that a command would have written are poisoned (R218). -/
def poisonOuts (d : Dev) (l : List (Nat × List Byte)) : Dev :=
  l.foldl (fun d o => (linesOf o.1 o.2.length).foldl (fun d n =>
    if spanOf (n * 64) = .placed then d.setLinePoison n 1 else d) d) d

/-- The counters of the tiles that ran a command (R210). -/
def tileCounts (d : Dev) (l : List (Nat × Nat)) : Dev :=
  l.foldl (fun d e => (d.count (0x080 + e.1) 0x044).count (0x080 + e.1) 0x048 e.2) d

/-- Where the statistics slot of a command is written (R262). -/
def statOut (x : LRun) : List (Nat × List Byte) :=
  match x.stats with
  | some (b, _, _) => [(x.d.pair48 0x0C8 0x044 / 64 * 64 + (x.d.reg 0x0C8 0x04C).toNat * 2 ^ max 6 (min 24 (x.d.field 0x0C8 0x040 12 8)), b)]
  | none => []

/-- A command's end: a status from what it read, whose output lines are poisoned (R218), its failure, or its writes, statistics and
counters, and the next command once the writes are visible. `old` is the device before the command: one that fails with FORMAT has
not started (R204). -/
def loomEnd (old : Dev) (x : LRun) : Dev :=
  match readStatus { bytes := [], trap := x.trap, poison := x.poison } with
  | some st => (x.d.poisonOuts x.outs).loomFail st
  | none =>
    match x.fail with
    | some st => (if st = 0x50 then (if x.noFrame then old.err 0x0C1 0 else old) else x.d).loomFail st
    | none =>
      let who := x.d.loomWho
      let (d, ok) := (x.outs ++ statOut x).foldl (fun (y : Dev × Bool) o => let (d, k) := y.1.write who o.1 o.2; (d, y.2 && k)) (x.d, true)
      if !ok then d.loomFail 0xF0
      else
        let d := match x.stats with
          | some (_, top, trunc) =>
            let d := (d.setReg 0x0C8 0x050 top).setReg 0x0C8 0x04C
              (BitVec.ofNat 32 (((d.reg 0x0C8 0x04C).toNat + 1) % 2 ^ min 12 (d.field 0x0C8 0x040 19 16)))
            if trunc && !d.flag 0x0C8 0x014 4 then d.err 0x0C8 4 else d
          | none => d
        let d := d.tileCounts x.clocks
        let d := match x.util with
          | some (u, t) => d.setReg 0x0C0 0x0E8 (BitVec.ofNat 32 (if t = 0 then 0 else u * 1024 / t))
          | none => d
        let tiles := d.cmdTiles x.cmd
        d.loomFinish x.cmd.last (if x.cmd.fwdOut then some { tiles := tiles, data := x.fwdOut } else none)

/-- The command in service runs, if it is of a kind and may start. -/
def loomServe (k : LKind) (f : LRun → LRun) (d : Dev) : Dev :=
  match d.loomCmd with
  | none => d
  | some c =>
    if kindOf c ≠ some k then d
    else loomEnd d (f { d := d, slot := d.loom.slot.getD 0, cmd := c, fwd := d.loom.fwd })

/-- The same, once its accesses can be served (R267, R273). -/
def loomRun (k : LKind) (f : LRun → LRun) : Dev → Dev := whenServed (loomServe k f)

end Dev

/-! ## The commands -/

/-- GEMM (R207, R210, R258). -/
def execGemm (s : State) : Host.Outcome State Fault Refusal := onDev (Dev.loomRun .gemm LRun.gemm) s

/-- CONV (R208, R210). -/
def execConv (s : State) : Host.Outcome State Fault Refusal := onDev (Dev.loomRun .conv LRun.conv) s

/-- DWCONV (R208, R210). -/
def execDwconv (s : State) : Host.Outcome State Fault Refusal := onDev (Dev.loomRun .dwconv LRun.conv) s

/-- ELEM_ADD (R207). -/
def execElemAdd (s : State) : Host.Outcome State Fault Refusal := onDev (Dev.loomRun .elemAdd fun x => x.elem (some fadd)) s

/-- ELEM_MUL (R207). -/
def execElemMul (s : State) : Host.Outcome State Fault Refusal := onDev (Dev.loomRun .elemMul fun x => x.elem (some fmul)) s

/-- ELEM_ACT (R207). -/
def execElemAct (s : State) : Host.Outcome State Fault Refusal := onDev (Dev.loomRun .elemAct fun x => x.elem none) s

/-- NORM_RMS (R207). -/
def execNormRms (s : State) : Host.Outcome State Fault Refusal := onDev (Dev.loomRun .normRms fun x => x.norm 0) s

/-- NORM_MEAN_VARIANCE (R207). -/
def execNormMeanVariance (s : State) : Host.Outcome State Fault Refusal := onDev (Dev.loomRun .normMean fun x => x.norm 1) s

/-- COPY (R261). -/
def execCopy (s : State) : Host.Outcome State Fault Refusal := onDev (Dev.loomRun .copy LRun.copy) s

/-- COPY_QUANTISE (R261). -/
def execCopyQuantise (s : State) : Host.Outcome State Fault Refusal := onDev (Dev.loomRun .copyQuant LRun.copyQuant) s

/-- CARD_CONV (R211–R214). -/
def execCardConv (s : State) : Host.Outcome State Fault Refusal := onDev (Dev.loomRun .cardConv LRun.cardConv) s

/-- CARD_GEMM (R211, R214). -/
def execCardGemm (s : State) : Host.Outcome State Fault Refusal := onDev (Dev.loomRun .cardGemm LRun.gemm) s

/-- CARD_TOPK (R215). -/
def execCardTopk (s : State) : Host.Outcome State Fault Refusal := onDev (Dev.loomRun .topk LRun.topk) s

end Sys2Proof.Machine
end

