-- ==== Sys2Proof/Machine/Attention.lean ====
section
/-!
DEFINITION. Attention and the key-value cache (10): the pool's structures in Skein, the six ATTN commands, eviction, the prefix
tree, and edits of the structures.
-/
namespace Sys2Proof.Machine

/-! ## Entries in Skein -/

/-- `n` bytes at offset `o` of an entry held as a number. -/
def fld (raw o n : Nat) : Nat := raw / 256 ^ o % 256 ^ n

/-- An entry with `n` bytes at offset `o` replaced. -/
def setFld (raw o n v : Nat) : Nat :=
  raw % 256 ^ o + v % 256 ^ n * 256 ^ o + raw / 256 ^ (o + n) * 256 ^ (o + n)

namespace LRun

/-- An entry of `n` bytes, as a number. -/
def ent (x : LRun) (a n : Nat) : Nat × LRun :=
  let (b, x) := x.read a n
  (ofBytesLE b, x)

/-- An entry written back: nothing once the command has failed; poisoned where it consumed poison (R218); a write without a frame
fails the task (R272). -/
def putEnt (x : LRun) (a n raw : Nat) : LRun :=
  if x.fail.isSome then x
  else if x.trap || x.poison ≠ 0 then { x with d := x.d.poisonOuts [(a, List.replicate n 0)] }
  else
    let (d, ok) := x.d.write (.engine (Fin.ofNat 4096 x.slot)) a (bytesLE n raw)
    let x := { x with d := d }
    if ok then x else x.stop 0xF0

/-- A counter of page 0x0C4. -/
def kvCount (x : LRun) (off : Nat) (n : Nat := 1) : LRun := { x with d := x.d.countFrz 0x0C4 off n }

/-! ## The structures (R222–R225, R239) -/

def spanAt (x : LRun) (i : Nat) : Nat := x.d.pair48 0x0C4 0x058 / 64 * 64 + 32 * i
def seqAt (x : LRun) (s : Nat) : Nat := x.d.pair48 0x0C4 0x060 / 64 * 64 + 32 * s
def nodeAt (x : LRun) (i : Nat) : Nat := x.d.pair48 0x0C4 0x068 / 64 * 64 + 320 * i
def bucketAt (x : LRun) (h : Nat) : Nat := x.d.pair48 0x0C4 0x078 / 64 * 64 + 4 * (h % 2 ^ max 4 (min 24 (x.d.field 0x0C4 0x074 4 0)))
def spans (x : LRun) : Nat := min 1048576 (x.d.reg 0x0C4 0x050).toNat
def nodes (x : LRun) : Nat := (x.d.reg 0x0C4 0x070).toNat

end LRun

namespace Dev

/-! KV_CFG (R247). -/

def kvLayers (d : Dev) : Nat := d.field 0x0C4 0x040 7 0
def kvHeads (d : Dev) : Nat := d.field 0x0C4 0x040 15 8
def kvDim (d : Dev) : Nat := 64 * 2 ^ d.field 0x0C4 0x040 17 16
def kvFmt (d : Dev) : Nat := d.field 0x0C4 0x040 23 20
/-- The latent rank R, 0 without latent mode. -/
def kvRank (d : Dev) : Nat := match d.field 0x0C4 0x040 25 24 with | 0 => 0 | k => 64 * 2 ^ k
def kvSize (d : Dev) : Nat := fmtBits d.kvFmt / 8

/-- LB_BYTES (R223). -/
def kvBlock (d : Dev) : Nat :=
  if d.kvRank = 0 then 2 * d.kvHeads * 64 * d.kvDim * d.kvSize + (if d.kvFmt = 3 then 512 * d.kvHeads else 0)
  else 64 * d.kvRank * d.kvSize + (if d.kvFmt = 3 then 256 else 0)

/-- SPAN_BYTES (R223). -/
def kvSpanBytes (d : Dev) : Nat := roundUp (d.kvLayers * d.kvBlock) 65536

/-- Layer `l` of span `i` (R223). -/
def kvBlockAt (d : Dev) (i l : Nat) : Nat := d.pair48 0x0C4 0x048 / 65536 * 65536 + i * d.kvSpanBytes + l * d.kvBlock

/-- KV_CFG names a format, dimensions and a layer that exist, and latent mode has its weights (R227, R247). -/
def kvOk (d : Dev) (layer wPtr : Nat) : Bool := !(d.kvRank != 0 && wPtr == 0) &&
  1 ≤ d.kvFmt && d.kvFmt ≤ 3 && d.field 0x0C4 0x040 17 16 != 3 && 1 ≤ d.kvHeads && d.kvHeads ≤ 64 && decide (d.kvLayers ≤ 128) &&
  decide (layer < d.kvLayers)

end Dev

/-! ## Fields of an ATTN command (R226) -/

namespace LCmd

def seq (c : LCmd) : Nat := c.geom 15 8
def src (c : LCmd) : Nat := c.geom 7 4
def qrows (c : LCmd) : Nat := c.geom 31 16
def qheads (c : LCmd) : Nat := c.geom 39 32
def upd (c : LCmd) : Bool := c.geom 40 40 == 1
def causal (c : LCmd) : Bool := c.geom 41 41 == 1
def qpos (c : LCmd) : Nat := c.geom 95 64

end LCmd

namespace LRun

/-- List entry j of a sequence: the span it names, if it is present (R225). -/
def listEnt (x : LRun) (q j : Nat) : Option Nat × LRun :=
  let (e, x) := x.ent (fld q 0x10 8 % 2 ^ 48 + 8 * j) 8
  let i := fld e 0 4
  if i = 0xFFFFFFFF || x.spans ≤ i then (none, x)
  else
    let (s, x) := x.ent (x.spanAt i) 32
    (if fld s 0 1 = 1 && fld s 4 4 = fld e 4 4 then some i else none, x)

/-- Writes list entry j of a sequence. -/
def putList (x : LRun) (q j i gen : Nat) : LRun := x.putEnt (fld q 0x10 8 % 2 ^ 48 + 8 * j) 8 (i + gen * 2 ^ 32)

/-- The list entries 0 to n − 1 of a sequence. -/
def listAll (x : LRun) (q n : Nat) : List (Option Nat) × LRun :=
  (List.range n).foldl (fun (y : List (Option Nat) × LRun) j => let (e, x) := y.2.listEnt q j; (y.1 ++ [e], x)) ([], x)

/-- A field of a span's entry changed. -/
def spanSet (x : LRun) (i : Nat) (f : Nat → Nat) : LRun :=
  let (s, x) := x.ent (x.spanAt i) 32
  x.putEnt (x.spanAt i) 32 (f s)

/-- REFCNT of a span raised by one. -/
def refer (x : LRun) (i : Nat) : LRun := x.spanSet i fun s => setFld s 2 2 (fld s 2 2 + 1)

/-! ## Allocation and eviction (R236, R237) -/

/-- A span that may be evicted (R236): `busy` are the spans that the command writes. -/
def evictable (x : LRun) (busy : List Nat) (i s : Nat) : Bool × LRun :=
  let pos := fld s 0x10 4
  let owner := fld s 0x0C 2
  let (q, x) := if owner < 256 then x.ent (x.seqAt owner) 32 else (0, x)
  let recent := fld q 0 1 % 2 = 1 && decide ((fld q 4 4 : Int) - x.d.field 0x0C4 0x044 15 8 * 64 < pos + 64)
  (fld s 0 1 = 1 && fld s 1 1 % 2 = 0 && decide (fld s 2 2 ≤ x.d.field 0x0C4 0x044 31 24) &&
    decide (x.d.field 0x0C4 0x044 3 0 * 64 ≤ pos) && !recent && !busy.contains i, x)

/-- The first FREE span, and the eligible span with the lowest SCORE. -/
def victims (x : LRun) (busy : List Nat) : Option Nat × Option (Nat × Nat) × LRun :=
  (List.range x.spans).foldl (fun (y : Option Nat × Option (Nat × Nat) × LRun) i =>
    let (free, best, x) := y
    if free.isSome then y
    else
      let (s, x) := x.ent (x.spanAt i) 32
      if fld s 0 1 = 0 then (some i, best, x)
      else
        let (ok, x) := x.evictable busy i s
        let sc := fld s 8 4
        (none, if ok then (match best with | some (_, b) => if sc < b then some (i, sc) else best | none => some (i, sc)) else best, x))
    (none, none, x)

/-- A span allocated for position `pos` of sequence `seq` (R236, R237): its index and GEN, and whether another was evicted for it. -/
def allocSpan (x : LRun) (seq pos : Nat) (busy : List Nat) : Option (Nat × Nat × Bool) × LRun :=
  let (free, best, x) := x.victims busy
  let take (x : LRun) (i : Nat) (evicted : Bool) : Option (Nat × Nat × Bool) × LRun :=
    let (s, x) := x.ent (x.spanAt i) 32
    let gen := fld s 4 4
    let n := setFld (setFld (setFld (setFld (setFld (setFld (setFld (setFld s 0 1 1) 2 2 1) 8 4 0) 0x0C 2 seq) 0x0E 1 0) 0x10 4 pos) 0x14 4 0) 4 4 gen
    (some (i, gen, evicted), x.putEnt (x.spanAt i) 32 n)
  match free, best with
  | some i, _ =>
    let d := x.d
    take { x with d := d.setReg 0x0C4 0x084 (d.reg 0x0C4 0x084 - 1) } i false
  | none, some (i, _) =>
    take ((x.spanSet i fun s => setFld (setFld s 2 2 0) 4 4 (fld s 4 4 + 1)).kvCount 0x088) i true
  | none, none => (none, { x with d := x.d.err 0x0C4 0 }.stop 0xF0)

/-! ## APPEND (R228, R229, R234) -/

/-- The values of one head's row as stored (R229): element codes and, for FP8, the scale. -/
def kvStore (fmt : Nat) (v : List Word) : List Nat × Word × Nat × Nat :=
  let a := absMax v
  let sc := if fmt = 3 && a != 0 then fdiv a 0x43E00000 else 0x3F800000
  let cv : List (Nat × Bool × Bool) := v.map fun w => convertTo fmt (f32 (if fmt = 3 then fdiv w sc else w))
  (cv.map fun (r : Nat × Bool × Bool) => r.1, sc, (cv.filter fun (r : Nat × Bool × Bool) => r.2.1).length,
    (cv.filter fun (r : Nat × Bool × Bool) => r.2.2).length)

/-- One row of `n` values stored in layer block `b` at element offset `o`, its FP8 scale at byte offset `so`. -/
def putRow (x : LRun) (b o so : Nat) (v : List Word) : LRun :=
  let fmt := x.d.kvFmt
  let (codes, sc, sat, nan) := kvStore fmt v
  let x := { x with d := x.d.convCount sat nan }
  let x := x.putEnt (b + o * x.d.kvSize) (codes.length * x.d.kvSize) (ofBytesLE (packElems fmt codes))
  if fmt = 3 then x.putEnt (b + so) 4 sc.toNat else x

/-- One position's keys and values, or its latent vector, stored in the layer block of a present span. -/
def putPos (x : LRun) (b t row : Nat) (val : Nat → Word) (rows : Nat) : LRun :=
  let H := x.d.kvHeads
  let D := x.d.kvDim
  let R := x.d.kvRank
  let vec (base n : Nat) : List Word := (List.range n).map fun i => val (base + i)
  if R = 0 then
    (List.range H).foldl (fun (x : LRun) h =>
      let x := x.putRow b ((h * 64 + t) * D) (2 * H * 64 * D * x.d.kvSize + 4 * (h * 64 + t)) (vec ((row * H + h) * D) D)
      x.putRow b (H * 64 * D + (h * 64 + t) * D) (2 * H * 64 * D * x.d.kvSize + 256 * H + 4 * (h * 64 + t))
        (vec (rows * H * D + (row * H + h) * D) D)) x
  else x.putRow b (t * R) (64 * R * x.d.kvSize + 4 * t) (vec (row * R) R)

/-- How an APPEND writes (R228): extend, refill, or not at all. -/
def appendForm (x : LRun) (q : Nat) : Option Bool × LRun :=
  let c := x.cmd
  let n := c.qrows
  let p := c.qpos
  let len := fld q 4 4
  let hi := fld q 8 4
  let cap := min 4096 (fld q 0x0C 4)
  let first := c.layer = 0
  if n = 0 || 4096 < n || cap * 64 < p + n then (none, x)
  else if p = (if first then hi else len) && (first || p + n ≤ hi) then (some false, x)
  else if p < len && p % 64 = 0 && n = 64 && p / 64 < fld q 0x1C 4 then
    let (e, x) := x.listEnt q (p / 64)
    match e with
    | none => (if first then some true else none, x)
    | some i =>
      let (s, x) := x.ent (x.spanAt i) 32
      (if !first && fld s 0x0E 1 < 64 then some true else none, x)
  else (none, x)

/-- The spans that an APPEND at layer 0 allocates: one for each list entry of `js`. -/
def appendAlloc (x : LRun) (q : Nat) (js : List Nat) (busy : List Nat) : LRun × Nat :=
  (js.foldl (fun (y : LRun × Nat × List Nat) j =>
    let (x, ev, busy) := y
    if x.fail.isSome then y
    else
      let (r, x) := x.allocSpan x.cmd.seq (64 * j) busy
      match r with
      | some (i, gen, evicted) => (x.putList q j i gen, ev + evicted.toNat, busy ++ [i])
      | none => (x, ev, busy)) (x, 0, busy) |> fun y => (y.1, y.2.1))

/-- ATTN APPEND. -/
def append (x : LRun) : LRun :=
  let c := x.cmd
  let d := x.d
  let (q, x) := x.ent (x.seqAt c.seq) 32
  let (form, x) := x.appendForm q
  if !d.kvOk c.layer c.wPtr || fld q 0 1 % 2 = 0 || isBook c.fmtIn then x.stop 0x50
  else
    match form with
    | none => x.stop 0x50
    | some refill =>
      let p := c.qpos
      let n := c.qrows
      let per := if d.kvRank = 0 then 2 * d.kvHeads * d.kvDim else d.kvRank
      let (b, x) := x.input (packedBytes c.fmtIn (n * per))
      let val (i : Nat) : Word := rne (decodeElem c.fmtIn [] (elemAt c.fmtIn b i))
      let x := x.fcount 0x060 3 (erasedIn c.fmtIn b (n * per))
      let old := ceilDiv (fld q 8 4) 64
      let now := ceilDiv (p + n) 64
      let (kept, x) := x.listEnt q (p / 64)
      let busy := if p % 64 = 0 then [] else kept.toList
      let js := if c.layer ≠ 0 then [] else if refill then [p / 64] else (List.range (now - old)).map (· + old)
      let (x, ev) := x.appendAlloc q js busy
      let q' := if c.layer = 0 && !refill then setFld (setFld q 8 4 (p + n)) 0x1C 4 (max (fld q 0x1C 4) now) else q
      let last := c.layer + 1 = d.kvLayers
      let q' := if last && !refill then setFld q' 4 4 (p + n) else q'
      let (es, x) := x.listAll q' now
      let x := (List.range n).foldl (fun (x : LRun) r =>
        match es.getD ((p + r) / 64) none with
        | some i => x.putPos (x.d.kvBlockAt i c.layer) ((p + r) % 64) r val n
        | none => x) x
      let x := if last then
          ((List.range (now - p / 64)).map (· + p / 64)).foldl (fun (x : LRun) j =>
            match es.getD j none with
            | some i => x.spanSet i fun s => setFld s 0x0E 1 (max (fld s 0x0E 1) (min 64 (p + n - 64 * j)))
            | none => x) x
        else x
      let x := if q' = q then x else x.putEnt (x.seqAt c.seq) 32 q'
      let t := ((tilesOf (x.d.cmdTiles c)).head?.bind x.d.liveTile).getD 0
      let bytes := if d.kvRank = 0 then n * (2 * d.kvHeads * d.kvDim * d.kvSize + (if d.kvFmt = 3 then 8 * d.kvHeads else 0))
        else n * (d.kvRank * d.kvSize + (if d.kvFmt = 3 then 4 else 0))
      { x with clocks := [(t, 64 + ceilDiv bytes 512 + ev * ceilDiv x.spans 16)] }

end LRun

/-! ## ATTEND (R230–R235) -/

/-- A partial (R231): the largest logit, the sum of the exponentials, and the weighted values; none where nothing was attended. -/
abbrev Partial := Option (Word × Word × List Word)

/-- The exponential of a difference. -/
def expDiff (a b : Word) : Word := Config.fexp (fsub a b)

/-- A partial with m = −∞: nothing was attended, or every logit is −∞. -/
def emptyPartial : Partial → Bool
  | none => true
  | some (m, _, _) => m == 0xFF800000

/-- Two partials merged (R232): one with m = −∞ leaves the other unchanged. -/
def mergePartial (a b : Partial) : Partial :=
  if emptyPartial a then b else if emptyPartial b then a
  else
  match a, b with
  | none, p => p
  | p, none => p
  | some (m1, l1, o1), some (m2, l2, o2) =>
    let m := fmax m1 m2
    let e1 := expDiff m1 m
    let e2 := expDiff m2 m
    some (m, fadd (fmul l1 e1) (fmul l2 e2), (o1.zip o2).map fun v => fadd (fmul v.1 e1) (fmul v.2 e2))

/-- The merge tree (R232): in stage s, position p merges in position p + 2^s. -/
def mergeStages : Nat → Nat → List Partial → List Partial
  | 0, _, l => l
  | k + 1, s, l =>
    mergeStages k (s + 1) ((List.range l.length).map fun p =>
      if p % 2 ^ (s + 1) = 0 && p + 2 ^ s < l.length then mergePartial (l.getD p none) (l.getD (p + 2 ^ s) none) else l.getD p none)

/-- What a position of a span offers one key-value head: its key, its value. -/
structure KvRow where
  pos : Nat
  k   : List Word
  v   : List Word

/-- A tile's partial for one query row and head (R231). -/
def partialOf (scale : Word) (qv : List Word) (rows : List KvRow) : Partial :=
  let ls := rows.map fun r => fmul scale (Config.fdot qv r.k)
  match ls with
  | [] => none
  | a :: rest =>
    let m := rest.foldl fmax a
    let w := ls.map fun s => expDiff s m
    let n := (rows.head?.map fun r => r.v.length).getD 0
    some (m, Config.fsum w, (List.range n).map fun i => Config.fdot w (rows.map fun r => r.v.getD i 0))

namespace LRun

/-- The keys and values of one span's layer block, by key-value head (R223, R229, R234); `w` are the latent weights. The FP16 roundings
of latent mode count as conversions (R254). -/
def spanRows (x : LRun) (i j : Nat) (w : List Word) : List (List KvRow) × LRun :=
  let d := x.d
  let H := d.kvHeads
  let D := d.kvDim
  let R := d.kvRank
  let (b, x) := x.read (d.kvBlockAt i x.cmd.layer) d.kvBlock
  let el (k so : Nat) : Word :=
    let v := rne (decodeElem d.kvFmt [] (elemAt d.kvFmt b k))
    if d.kvFmt = 3 then fmul v (BitVec.ofNat 32 (ofBytesLE ((b.drop so).take 4))) else v
  if R = 0 then
    ((List.range H).map fun h => (List.range 64).map fun t =>
      let sk := 2 * H * 64 * D * d.kvSize + 4 * (h * 64 + t)
      { pos := 64 * j + t
        k := (List.range D).map fun e => el ((h * 64 + t) * D + e) sk
        v := (List.range D).map fun e => el (H * 64 * D + (h * 64 + t) * D + e) (sk + 256 * H) : KvRow }, x)
  else
    let up (h t base : Nat) : List (Nat × Bool × Bool) :=
      let cv := (List.range R).map fun r => el (t * R + r) (64 * R * d.kvSize + 4 * t)
      (List.range D).map fun e => FFmt.fp16.convert (f32 (Config.fdot cv ((List.range R).map fun r => w.getD (base + r * (H * D) + h * D + e) 0)))
    let made := (List.range H).map fun h => (List.range 64).map fun t => (up h t 0, up h t (R * H * D))
    let all := made.flatten.flatMap fun kv => kv.1 ++ kv.2
    let word (c : Nat × Bool × Bool) : Word := rne (FFmt.fp16.decode c.1)
    (made.map fun l => l.zipIdx.map fun e => { pos := 64 * j + e.2, k := e.1.1.map word, v := e.1.2.map word : KvRow },
      { x with d := x.d.convCount (all.filter (·.2.1)).length (all.filter (·.2.2)).length })

/-- ATTEND's clocks on each tile and for the merge (R233). -/
def attendClocks (x : LRun) (n : Nat) : List (Nat × Nat) :=
  let c := x.cmd
  let d := x.d
  let H := d.kvHeads
  let D := d.kvDim
  let dep := rowDepth (macClass c.fmtIn d.kvFmt)
  let compute := H * (c.qheads / H) * c.qrows * (ceilDiv D dep + ceilDiv 64 dep * ceilDiv D 128)
  let expand := if d.kvRank = 0 then 0
    else 2 * ceilDiv d.kvRank dep * ceilDiv (H * D) 128 * max 64 (dep * fmtBits c.fmtW / 32)
  let span := 20 + max compute (ceilDiv d.kvBlock 512) + expand
  let ts := tilesOf (d.cmdTiles c)
  let T := ts.length
  let lg := ((List.range 7).find? fun k => T ≤ 2 ^ k).getD 6
  (List.range T).map fun p =>
    ((d.liveTile (ts.getD p 0)).getD 0, 64 + span * ((List.range n).filter fun k => k % T == p).length + lg * (20 + ceilDiv (c.qheads * c.qrows * D) 128))

/-- Scores of the spans read (R235). -/
def updateScores (x : LRun) (sp : List (Nat × List (List KvRow))) (mass : List (List KvRow) → Word) : LRun :=
  sp.foldl (fun (x : LRun) e =>
    let q := match f32 (fmul (mass e.2) 0x47800000) with
      | .fin s m ex => min 65536 (roundInt s m ex).toNat
      | _ => 65536
    x.spanSet e.1 fun s =>
      let sc := fld s 8 4
      setFld s 8 4 (min 0xFFFFFFFF (sc - sc / 2 ^ x.d.field 0x0C4 0x044 19 16 + q))) x

/-- ATTN ATTEND. -/
def attend (x : LRun) : LRun :=
  let c := x.cmd
  let d := x.d
  let H := d.kvHeads
  let D := d.kvDim
  let (q, x) := x.ent (x.seqAt c.seq) 32
  if !d.kvOk c.layer c.wPtr || fld q 0 1 % 2 = 0 || isBook c.fmtIn || (d.kvRank ≠ 0 && isBook c.fmtW) || c.qrows = 0 ||
      4096 < c.qrows || c.qheads = 0 || 128 < c.qheads || c.qheads % H ≠ 0 then
    (if x.spoiled then x.emit (List.replicate (packedBytes c.fmtOut (c.qrows * c.qheads * D)) 0) else x).stop 0x50
  else
    let hi := fld q 8 4
    let n := c.qrows * c.qheads * D
    let (qb, x) := x.input (packedBytes c.fmtIn n)
    let x := x.fcount 0x060 3 (erasedIn c.fmtIn qb n)
    let (w, x) :=
      if d.kvRank = 0 then ([], x)
      else
        let k := 2 * d.kvRank * H * D
        let (wb, x) := x.read c.wPtr (packedBytes c.fmtW k)
        ((List.range k).map fun i => rne (decodeElem c.fmtW [] (elemAt c.fmtW wb i)), x.fcount 0x060 3 (erasedIn c.fmtW wb k))
    let want (j : Nat) : Bool := decide (64 * j < hi) && (!c.causal || decide (64 * j < c.qpos + c.qrows))
    let (es, x) := x.listAll q (fld q 0x1C 4)
    let js := (List.range es.length).filter want
    let x := x.kvCount 0x098 (js.filter fun j => (es.getD j none).isNone).length
    let (sp, x) := js.foldl (fun (y : List (Nat × List (List KvRow)) × LRun) j =>
      match es.getD j none with
      | some i => let (r, x) := y.2.spanRows i j w; (y.1 ++ [(i, r)], x)
      | none => y) ([], x)
    let T := max 1 (tilesOf (d.cmdTiles c)).length
    let scale : Word := if c.geom 127 96 = 0 then (if D = 64 then 0x3E000000 else if D = 256 then 0x3D800000 else 0x3DB504F3)
      else BitVec.ofNat 32 (c.geom 127 96)
    let qv (r h : Nat) : List Word := (List.range D).map fun e => rne (decodeElem c.fmtIn [] (elemAt c.fmtIn qb ((r * c.qheads + h) * D + e)))
    let seen (r : Nat) (k : KvRow) : Bool := decide (k.pos < hi) && (!c.causal || decide (k.pos ≤ c.qpos + r))
    let rowsOf (r h : Nat) (s : Nat × List (List KvRow)) : List KvRow := (s.2.getD (h / (c.qheads / H)) []).filter (seen r)
    let part (r h : Nat) : Partial :=
      let tiles := (List.range T).map fun p =>
        partialOf scale (qv r h) (((List.range sp.length).filter fun k => k % T == p).flatMap fun k => rowsOf r h (sp.getD k (0, [])))
      (mergeStages 7 0 tiles).getD 0 none
    let rh := (List.range c.qrows).flatMap fun r => (List.range c.qheads).map fun h => (r, h)
    let parts := rh.map fun e => part e.1 e.2
    let dead (p : Partial) : Bool := match p with | none => true | some (_, l, _) => (f32 l).isZero
    let x := x.kvCount 0x09C (parts.filter dead).length
    let vals := parts.flatMap fun p =>
      match p with
      | some (_, l, o) => if (f32 l).isZero then List.replicate D 0 else o.map fun v => fdiv v l
      | none => List.replicate D 0
    let mass (s : List (List KvRow)) : Word :=
      fdiv (Config.fsum ((List.range rh.length).flatMap fun k =>
        let e := rh.getD k (0, 0)
        match parts.getD k none with
        | some (m, l, _) => (rowsOf e.1 e.2 (0, s)).map fun r => fdiv (expDiff (fmul scale (Config.fdot (qv e.1 e.2) r.k)) m) l
        | none => [])) (rne (.ofInt rh.length))
    let x := if c.upd then x.updateScores sp mass else x
    { x with clocks := x.attendClocks sp.length }.finish (c.qrows) (c.qheads * D) (vals.map fun v => activate c (fmul v c.outScale))

/-! ## The prefix tree (R239–R244) -/

/-- Whether a node's span is present (R241). -/
def nodeSpan (x : LRun) (nd : Nat) : Option Nat × LRun :=
  let i := fld nd 0x18 4
  if x.spans ≤ i then (none, x)
  else
    let (s, x) := x.ent (x.spanAt i) 32
    (if fld s 0 1 = 1 && fld s 4 4 = fld nd 0x1C 4 then some i else none, x)

/-- A node's 320 bytes. -/
def node (x : LRun) (i : Nat) : Nat × LRun := x.ent (x.nodeAt i) 320

/-- A valid handle's node index (R239). -/
def handleNode (x : LRun) (h : Nat) : Option Nat × LRun :=
  let k := h % 2 ^ 24
  if k = 0 || x.nodes < k then (none, x)
  else
    let (n, x) := x.node (k - 1)
    (if fld n 0 1 = 1 && fld n 4 1 = h / 2 ^ 24 then some (k - 1) else none, x)

end LRun

/-- The handle of a node (R239). -/
def handleOf (i node : Nat) : Nat := (i + 1) % 2 ^ 24 + fld node 4 1 * 2 ^ 24

/-- 64-bit FNV-1a (R240). -/
def fnv1a (l : List Byte) : Nat := l.foldl (fun h b => (h ^^^ b.toNat) * 0x100000001B3 % 2 ^ 64) 0xCBF29CE484222325

namespace LRun

/-- The first node of a bucket chain with a HASH and PARENT that `p` accepts. -/
def chainFind (hash parent : Nat) (p : Nat → Bool) : Nat → LRun → Nat → Option (Nat × Nat) × LRun
  | 0, x, _ => (none, x)
  | k + 1, x, link =>
    if link = 0 then (none, x)
    else
      let (n, x) := x.node (link - 1)
      if fld n 0x10 8 = hash && fld n 8 4 = parent && p n then (some (link - 1, n), x)
      else chainFind hash parent p k x (fld n 0x0C 4)

/-- A walk by tokens (R241): the nodes matched, and whether tokens differed. -/
def walkTokens (tok : Nat → List Byte) : Nat → LRun → Nat → Nat → Nat → List (Nat × Nat) × Bool × LRun
  | 0, x, _, _, _ => ([], false, x)
  | k + 1, x, j, parent, hash =>
    let h := fnv1a (bytesLE 8 hash ++ tok j)
    let (link, x) := x.ent (x.bucketAt h) 4
    let (r, x) := chainFind h parent (fun _ => true) (x.nodes + 1) x link
    match r with
    | none => ([], false, x)
    | some (i, n) =>
      if bytesLE 256 (fld n 0x40 256) = tok j then
        let (l, c, x) := walkTokens tok k x (j + 1) (i + 1) h
        ((i, n) :: l, c, x)
      else ([], true, x)

/-- The path from the root to a node, by PARENT (R241). -/
def pathTo : Nat → LRun → Nat → List (Nat × Nat) × LRun
  | 0, x, _ => ([], x)
  | k + 1, x, i =>
    let (n, x) := x.node i
    let p := fld n 8 4
    if p = 0 then ([(i, n)], x)
    else
      let (l, x) := pathTo k x (p - 1)
      (l ++ [(i, n)], x)

/-- ATTN LOOKUP (R241, R242). -/
def lookup (x : LRun) : LRun :=
  let c := x.cmd
  let (q, x) := x.ent (x.seqAt c.seq) 32
  let live := fld q 0 1 % 2 = 1
  if !x.d.kvOk c.layer c.wPtr || (live && (fld q 4 4 ≠ 0 || fld q 0x1C 4 ≠ 0)) then (x.emit (List.replicate 32 0)).stop 0x50
  else
    let (path, flags, x) : List (Nat × Nat) × Nat × LRun :=
      if c.src = 0 then
        let (b, x) := x.input (4 * c.qpos)
        let (l, col, x) := walkTokens (fun j => (b.drop (256 * j)).take 256) (c.qpos / 64) x 0 0 0
        (l, if col then 2 else 0, x)
      else
        let (b, x) := if c.src = 1 then x.input 4 else x.read (x.inAddr + 0x24) 4
        let h := ofBytesLE b
        let (r, x) := x.handleNode h
        match r with
        | some i => let (l, x) := pathTo 4097 x i; (l, 0, x)
        | none => ([], if h = 0 then 0 else 4, x)
    let n := path.length
    if min 4096 (fld q 0x0C 4) < n then x.stop 0x50
    else
      let x := if flags = 2 then ({ x with d := x.d.err 0x0C4 3 } : LRun).kvCount 0x094 else x
      let (miss, x) := (List.range n).foldl (fun (y : List Bool × LRun) j =>
        let nd := (path.getD j (0, 0)).2
        let (s, x) := y.2.nodeSpan nd
        match s with
        | some i => (y.1 ++ [false], ((x.putList q j i (fld nd 0x1C 4)).refer i).kvCount 0x08C)
        | none => (y.1 ++ [true], (x.putList q j 0xFFFFFFFF 0).kvCount 0x090)) ([], x)
      let flags := flags + if miss.any id then 1 else 0
      let deep := match path.getLast? with | some (i, nd) => handleOf i nd | none => 0
      let q' := setFld (setFld (setFld (setFld (setFld q 0 1 (fld q 0 1 ||| 1)) 4 4 (64 * n)) 8 4 (64 * n)) 0x18 4 deep) 0x1C 4 n
      let x := x.putEnt (x.seqAt c.seq) 32 q'
      let first := (miss.findIdx? id).getD 0xFFFFFFFF
      let gone := (miss.filter id).length
      let res := bytesLE 4 n ++ bytesLE 4 (n - gone) ++ bytesLE 4 flags ++ bytesLE 4 deep ++ bytesLE 4 first ++ bytesLE 4 gone ++ bytesLE 8 0
      let bm := (chunksOf 8 miss).map fun l => BitVec.ofNat 8 (maskOf ((List.range 8).filter fun i => l.getD i false))
      { x with d := x.d.setReg 0x0C4 0x0A4 (BitVec.ofNat 32 (n % 65536 + flags * 65536)) }.emit (res ++ bm)

/-- One span number of an INSERT (R243): the last node processed, or that INSERT stops. -/
def insertOne (x : LRun) (q j : Nat) (toks : List Byte) (prev : Option (Nat × Nat)) : Option (Nat × Nat) × LRun :=
  let (e, x) := x.listEnt q j
  match e with
  | none => (none, x)
  | some i =>
    let (s, x) := x.ent (x.spanAt i) 32
    let gen := fld s 4 4
    let parent := match prev with | some (p, _) => p + 1 | none => 0
    let ph := match prev with | some (_, nd) => fld nd 0x10 8 | none => 0
    let h := fnv1a (bytesLE 8 ph ++ toks)
    let (link, x) := x.ent (x.bucketAt h) 4
    let (r, x) := chainFind h parent (fun nd => bytesLE 256 (fld nd 0x40 256) == toks) (x.nodes + 1) x link
    match r with
    | some (k, nd) =>
      let (sp, x) := x.nodeSpan nd
      (match sp with
      | none =>
        let nd' := setFld (setFld nd 0x18 4 i) 0x1C 4 gen
        let x := (x.putEnt (x.nodeAt k) 320 nd').refer i
        (some (k, nd'), x.spanSet i fun s => setFld s 0x14 4 (k + 1))
      | some i' => (some (k, nd), if i' = i then x else x.kvCount 0x0A8))
    | none =>
      let (f, x) := (List.range x.nodes).foldl (fun (y : Option Nat × LRun) k =>
        if y.1.isSome then y else (let (v, x) := y.2.ent (x.nodeAt k) 1; (if v = 0 then some k else none, x))) (none, x)
      match f with
      | none => (none, { x with d := x.d.err 0x0C4 1 })
      | some k =>
        let (old, x) := x.node k
        let nd := setFld (setFld (setFld (setFld (setFld (setFld (setFld (setFld (setFld old 0 1 1) 2 2 0) 8 4 parent) 0x0C 4 link) 0x10 8 h)
          0x18 4 i) 0x1C 4 gen) 0x20 4 j) 0x40 256 (ofBytesLE toks)
        let x := (x.putEnt (x.nodeAt k) 320 nd).putEnt (x.bucketAt h) 4 (k + 1)
        let x := (x.refer i).spanSet i fun s => setFld s 0x14 4 (k + 1)
        let x := match prev with
          | some (p, _) => let (pn, x) := x.node p; x.putEnt (x.nodeAt p) 320 (setFld pn 2 2 (fld pn 2 2 + 1))
          | none => x
        (some (k, nd), x.kvCount 0x0A0)

/-- ATTN INSERT (R243). -/
def insert (x : LRun) : LRun :=
  let c := x.cmd
  let (q, x) := x.ent (x.seqAt c.seq) 32
  if !x.d.kvOk c.layer c.wPtr || fld q 0 1 % 2 = 0 then x.stop 0x50
  else
    let n := fld q 4 4 / 64
    let (h, x) := x.handleNode (fld q 0x18 4)
    let (prev, start, x) : Option (Nat × Nat) × Nat × LRun := match h with
      | some i => let (nd, x) := x.node i; (some (i, nd), fld nd 0x20 4 + 1, x)
      | none => (none, 0, x)
    let (b, x) := x.input (256 * n)
    let (last, _, x) := (List.range (n - start)).foldl (fun (y : Option (Nat × Nat) × Bool × LRun) k =>
      if y.2.1 then y
      else
        let j := start + k
        let (r, x) := y.2.2.insertOne q j ((b.drop (256 * j)).take 256) y.1
        match r with
        | some p => (some p, false, x)
        | none => (y.1, true, x)) (prev, false, x)
    match last with
    | some (i, nd) => x.putEnt (x.seqAt c.seq) 32 (setFld q 0x18 4 (handleOf i nd))
    | none => x

/-- A reference to a span dropped (R238): at 0 the span becomes FREE with GEN incremented. -/
def unref (x : LRun) (i : Nat) : LRun :=
  let (s, x) := x.ent (x.spanAt i) 32
  let r := fld s 2 2 - 1
  if r = 0 then
    let x := x.putEnt (x.spanAt i) 32 (setFld (setFld (setFld s 2 2 0) 0 1 0) 4 4 (fld s 4 4 + 1))
    { x with d := x.d.count 0x0C4 0x084 }
  else x.putEnt (x.spanAt i) 32 (setFld s 2 2 r)

/-- ATTN RELEASE (R238). -/
def release (x : LRun) : LRun :=
  let c := x.cmd
  let (q, x) := x.ent (x.seqAt c.seq) 32
  if !x.d.kvOk c.layer c.wPtr || fld q 0 1 % 2 = 0 then x.stop 0x50
  else
    let x := (List.range (fld q 0x1C 4)).foldl (fun (x : LRun) j =>
      let (e, x) := x.listEnt q j
      match e with | some i => x.unref i | none => x) x
    let x := (List.range x.spans).foldl (fun (x : LRun) i =>
      let (s, x) := x.ent (x.spanAt i) 32
      if fld s 0x0C 2 = c.seq then x.putEnt (x.spanAt i) 32 (setFld s 0x0C 2 0xFFFF) else x) x
    x.putEnt (x.seqAt c.seq) 32 (setFld (setFld (setFld (setFld q 0 1 (fld q 0 1 / 2 * 2)) 4 4 0) 8 4 0) 0x1C 4 0)

/-- A node unlinked from its bucket chain (R244). -/
def unlink (target next : Nat) : Nat → LRun → Nat → LRun
  | 0, x, _ => x
  | k + 1, x, i =>
    let (n, x) := x.node i
    if fld n 0x0C 4 = target then x.putEnt (x.nodeAt i) 320 (setFld n 0x0C 4 next)
    else if fld n 0x0C 4 = 0 then x
    else unlink target next k x (fld n 0x0C 4 - 1)

/-- One node freed (R244). -/
def freeNode (x : LRun) (i nd : Nat) : LRun :=
  let at_ := x.bucketAt (fld nd 0x10 8)
  let (head, x) := x.ent at_ 4
  let next := fld nd 0x0C 4
  let x := if head = i + 1 then x.putEnt at_ 4 next else if head = 0 then x else unlink (i + 1) next (x.nodes + 1) x (head - 1)
  let p := fld nd 8 4
  let x := if p = 0 then x else (let (pn, x) := x.node (p - 1); x.putEnt (x.nodeAt (p - 1)) 320 (setFld pn 2 2 (fld pn 2 2 - 1)))
  let x := x.putEnt (x.nodeAt i) 320 (setFld (setFld nd 0 1 0) 4 4 (fld nd 4 4 + 1))
  { x with d := x.d.setReg 0x0C4 0x0A0 (x.d.reg 0x0C4 0x0A0 - 1) }

/-- One pass over the nodes (R244), with whether it freed any. -/
def prunePass (x : LRun) : LRun × Bool :=
  (List.range x.nodes).foldl (fun (y : LRun × Bool) i =>
    let (nd, x) := y.1.node i
    if fld nd 0 1 = 1 && fld nd 2 2 = 0 then
      let (s, x) := x.nodeSpan nd
      (if s.isNone then (x.freeNode i nd, true) else (x, y.2))
    else (x, y.2)) (x, false)

/-- Passes until nothing is left to free. -/
def prunePasses : Nat → LRun → LRun
  | 0, x => x
  | k + 1, x =>
    let (x, some_) := x.prunePass
    if some_ && x.fail.isNone then prunePasses k x else x

/-- ATTN PRUNE (R244). -/
def prune (x : LRun) : LRun :=
  let c := x.cmd
  let (q, x) := x.ent (x.seqAt c.seq) 32
  if !x.d.kvOk c.layer c.wPtr || fld q 0 1 % 2 = 0 then x.stop 0x50 else prunePasses (x.nodes + 1) x

end LRun

/-! ## Edits (R246) -/

namespace Dev

/-- EDIT = 1 written: no ATTN command is in service between two commands, so EDIT_ACK follows at once. -/
def kvEdit (d : Dev) : Dev := (d.setFlag 0x0C4 0x080 0 true).setFlag 0x0C4 0x080 8 true

/-- EDIT = 0 written: the rescan starts. -/
def kvEditEnd (d : Dev) : Dev :=
  if d.flag 0x0C4 0x080 0 then { (d.setFlag 0x0C4 0x080 0 false).setFlag 0x0C4 0x080 8 false with kvScan := true } else d

/-- The rescan of the span and node tables ends. -/
def kvRescan (d : Dev) : Dev :=
  if d.kvScan then
    let st := d.pair48 0x0C4 0x058 / 64 * 64
    let tr := d.pair48 0x0C4 0x068 / 64 * 64
    let free := ((List.range (min 1048576 (d.reg 0x0C4 0x050).toNat)).filter fun i => d.num (st + 32 * i) 1 == 0).length
    let used := ((List.range (d.reg 0x0C4 0x070).toNat).filter fun i => d.num (tr + 320 * i) 1 == 1).length
    ({ d with kvScan := false }.setReg 0x0C4 0x084 (BitVec.ofNat 32 free)).setReg 0x0C4 0x0A0 (BitVec.ofNat 32 used)
  else d

end Dev

/-! ## The commands -/

/-- ATTN_ATTEND (R230). -/
def execAttnAttend (s : State) : Host.Outcome State Fault Refusal := onDev (Dev.loomRun .attend LRun.attend) s

/-- ATTN_APPEND (R228). -/
def execAttnAppend (s : State) : Host.Outcome State Fault Refusal := onDev (Dev.loomRun .append LRun.append) s

/-- ATTN_LOOKUP (R241). -/
def execAttnLookup (s : State) : Host.Outcome State Fault Refusal := onDev (Dev.loomRun .lookup LRun.lookup) s

/-- ATTN_INSERT (R243). -/
def execAttnInsert (s : State) : Host.Outcome State Fault Refusal := onDev (Dev.loomRun .insert LRun.insert) s

/-- ATTN_RELEASE (R238). -/
def execAttnRelease (s : State) : Host.Outcome State Fault Refusal := onDev (Dev.loomRun .release LRun.release) s

/-- ATTN_PRUNE (R244). -/
def execAttnPrune (s : State) : Host.Outcome State Fault Refusal := onDev (Dev.loomRun .prune LRun.prune) s

/-- KV_EDIT (R246). -/
def execKvEdit (ag : Agent) (s : State) : Host.Outcome State Fault Refusal := onDev (Dev.rwlWrite ag 0x0C4 Dev.kvEdit) s

/-- KV_EDIT_END (R246). -/
def execKvEditEnd (ag : Agent) (s : State) : Host.Outcome State Fault Refusal := onDev (Dev.rwlWrite ag 0x0C4 Dev.kvEditEnd) s

/-- KV_RESCAN_DONE (R246). -/
def execKvRescanDone (s : State) : Host.Outcome State Fault Refusal := onDev Dev.kvRescan s

end Sys2Proof.Machine
end

