-- ==== Sys2Proof/Machine/ClockCmds.lean ====
section
/-!
DEFINITION. The clocks' commands (18): root and mux switches, lost and good sources, PLL locks, holdover; and the writes of the
clock registers that have an effect of their own.
-/
namespace Sys2Proof.Machine

namespace Dev

/-! ## What follows a change (R413, R415, R419, R422) -/

/-- A source declared lost: its SRC_LOST bit is set and its SRC_RDY bit cleared. -/
def lostBit (s : Nat) (d : Dev) : Dev := ((d.setFlag 0x010 0x044 s true).setRdy s false).err 0x010 0

/-- PLL n loses lock (R413, R422); the microphones leave active mode with PLL1 (R121). -/
def pllLose (n : Nat) (d : Dev) : Dev :=
  if d.pllLocked n then
    let d := d.setLock n false
    let d := if d.flag 0x010 0x048 (4 + n) then d.lostBit (4 + n) else d.setRdy (4 + n) false
    if n = 1 then d.micPllLost else d
  else d

/-- A PLL that is on and has no reference loses lock, PLL0 after the PLL2 it may follow (R413). -/
def pllDeaths (d : Dev) : Dev :=
  let die (n : Nat) (d : Dev) : Dev := if d.pllOn n && !d.pllRef n then d.pllLose n else d
  die 0 (die 1 (die 2 d))


/-- The references of the PLLs that start (R413, R415): REF_SEL.CUR is taken at the start of PLL0, and while it waits for its
reference; PLL1 takes XTA where it runs, else FIO. `off0` and `off1` say whether each was off before. -/
def pllStarts (off0 off1 : Bool) (d : Dev) : Dev :=
  let d := if d.pllOn 0 && (off0 || !d.pllRef 0) then d.setFlag 0x011 0x04C 8 (d.flag 0x011 0x04C 0) else d
  if d.pllOn 1 && (off1 || !d.pllRef 1) then d.setFlag 0x011 0x044 9 (!d.srcRdy 2) else d

/-- The root falls to FIO where its source, or the source it is moving to, no longer runs (R423). -/
def rootCheck (d : Dev) : Dev :=
  let dead (t : Nat) : Bool := if t = 0 then false else if t = 1 then !d.srcRdy 2 else !d.pllLocked 0
  if dead d.rootCur || (d.clk.target.map dead).getD false then d.rootFall else d

/-- What follows from a change of the clocks since `old`: AUTO acts, PLLs start, and what no longer runs stops. -/
def clkSettle (d old : Dev) : Dev :=
  let d := d.pll0Follow.clkAuto
  let d := rootCheck (pllDeaths (clkStops (pllStarts (!old.pllOn 0) (!old.pllOn 1) d)))
  d.pll0Follow.rootFollow

/-! ## Register writes -/

/-- A write of ROOT_SEL (R416, R418, R419): AUTO is taken; a new SRC starts a CHECKED switch, or is refused. -/
def writeRoot (v : Word) (d : Dev) : Dev :=
  let t := bits v 1 0
  let auto := bit v 4
  let old := d
  let d := d.setFlag 0x012 0x040 4 auto
  let d :=
    if auto then (if t = d.field 0x012 0x040 1 0 then d else d.err 0x012 0)
    else if d.clk.target.isSome || t = 3 || !d.srcRdy (rootSrc t) then d.err 0x012 0
    else if t = d.rootCur then d.setField 0x012 0x040 1 0 t
    else (d.setField 0x012 0x040 1 0 t).rootStart t
  d.clkSettle old

/-- A write of a domain mux's register (R420, R421): SEL starts a switch, FSW forces the one in progress, HUNG is W1C. With
XTB_CFG.PRESENT = 0 the AON domain stays on SIO (R412). -/
def writeMux (m : Mux) (v : Word) (d : Dev) : Dev :=
  let old := d
  let d := if bit v 9 then d.setFlag 0x013 (muxReg m) 9 false else d
  let d := if m == .aon && bit v 0 && !d.flag 0x010 0x054 0 then d else d.muxStart m (bit v 0)
  (if bit v 1 then d.muxEnd m else d).clkSettle old

/-- A PLL that is the root's source or feeds one that is (R426). -/
def pllFeedsRoot (d : Dev) (n : Nat) : Bool :=
  (d.rootCur == 2 || d.clk.target == some 2) && (n == 0 || (n == 2 && d.flag 0x011 0x04C 8))

/-- A write of PLLn_CFG (R424–R426). -/
def writePll (n : Nat) (v : Word) (d : Dev) : Dev :=
  let old := d
  let off := 0x040 + 4 * n
  let d := if n = 2 then (d.setFlag 0x011 off 2 (bit v 2)).setField 0x011 off 13 8 (bits v 13 8) else d
  let d := if !bit v 0 && d.flag 0x011 off 0 && d.pllFeedsRoot n then d.err 0x011 0 else d.setFlag 0x011 off 0 (bit v 0)
  d.clkSettle old

/-- A write of XTA_CFG or XTB_CFG: BYPASS takes effect only while its source is stopped (R426); the sources follow EN and
PRESENT. -/
def writeXtal (off : Nat) (v : Word) (d : Dev) : Dev :=
  let old := d
  let on := if off = 0x050 then d.xtaOn else d.flag 0x010 0x054 0
  let b := if off = 0x050 then 2 else 1
  let m : Word := if off = 0x050 then 7 else 3
  let d := d.setReg 0x010 off (putBit (v &&& m) b (if on then d.flag 0x010 off b else bit v b))
  let d := if off = 0x054 && !bit v 0 then (d.setRdy 3 false).muxForceTo .aon false else d
  d.clkSettle old

/-- A write of REF_SEL (R415). -/
def writeRef (v : Word) (d : Dev) : Dev := (d.setFlag 0x011 0x04C 0 (bit v 0)).clkSettle d

/-! ## Losses (R422–R424) -/

/-- What the loss of a source does (R422), but for the chip reset that the loss of FIO causes. -/
def sourceLost (s : Source) (d : Dev) : Dev :=
  let old := d
  let d :=
    match s with
    | .fio => d.lostBit 0
    | .sio => d.lostBit 1
    | .xta =>
      pllDeaths (d.lostBit 2)
    | .xtb =>
      let d := d.lostBit 3
      if d.flag 0x013 0x040 0 then d.muxForceTo .aon false else d
    | .pll0 => d.pllLose 0
    | .pll1 => d.pllLose 1
    | .pll2 => pllDeaths (d.pllLose 2)
    | .rcv =>
      let run := d.clk.rcvSel && d.pllLocked 2
      let d : Dev := { d.lostBit 7 with clk := { d.clk with rcvGood := none } }
      if run then d.holdoverStart else d
  d.clkSettle old

/-- The number of a source (SRC_RDY order). -/
def sourceIndex : Source → Nat
  | .fio => 0
  | .sio => 1
  | .xta => 2
  | .xtb => 3
  | .pll0 => 4
  | .pll1 => 5
  | .pll2 => 6
  | .rcv => 7

/-- A monitored source that runs. -/
def monitored (s : Source) (d : Dev) : Bool :=
  d.flag 0x010 0x048 (sourceIndex s) &&
  (d.srcRdy (sourceIndex s) || (decide (4 ≤ sourceIndex s) && decide (sourceIndex s ≤ 6) && d.pllLocked (sourceIndex s - 4)))

/-- Whether a source runs, so that its monitor can judge it. -/
def sourceRuns (s : Source) (d : Dev) : Bool :=
  match s with
  | .fio | .sio => true
  | .xta => d.xtaOn
  | .xtb => d.flag 0x010 0x054 0
  | .pll0 => d.pllLocked 0
  | .pll1 => d.pllLocked 1
  | .pll2 => d.pllLocked 2
  | .rcv => d.field 0x158 0x040 2 0 == 5

/-- A source is good for a whole window (R422, R424): its SRC_RDY bit returns; RCV back within HOLD_US ends the holdover. -/
def sourceGood (s : Source) (d : Dev) : Dev :=
  let old := d
  if !d.sourceRuns s then d
  else
    let d := if s = .pll0 then d.pll0Follow else d.setRdy (sourceIndex s) true
    let d :=
      if s = .rcv then
        let d : Dev := { d with clk := { d.clk with rcvGood := if old.srcRdy 7 then d.clk.rcvGood else some d.now } }
        match d.clk.holdAt with
        | some t => if d.now ≤ t + d.holdUs then ({ d with clk := { d.clk with holdAt := none } } : Dev).setFlag 0x011 0x050 4 false else d
        | none => d
      else d
    d.clkSettle old

/-- PLL n locks (R413, R424). -/
def pllLock (n : Nat) (d : Dev) : Dev :=
  if d.pllOn n && d.pllRef n && !d.pllLocked n then
    let old := d
    let d := d.setLock n true
    let d := if n = 0 then d else d.setRdy (4 + n) true
    let d := if n = 2 then ({ d with clk := { d.clk with holdAt := none } } : Dev).setFlag 0x011 0x050 4 false else d
    d.clkSettle old
  else d

/-- The root has moved (R418, R423): under AUTO a return to PLL0 clears FALLBACK. -/
def rootDone (d : Dev) : Dev :=
  match d.clk.target with
  | none => d
  | some t =>
    let d' := d.rootMove t
    (if t = 2 && d.flag 0x012 0x040 4 then d'.setFlag 0x012 0x044 5 false else d').clkSettle d

end Dev

/-! ## The commands -/

/-- ROOT_SWITCH (R418). -/
def execRootSwitch (ag : Agent) (value : Word) (s : State) : Host.Outcome State Fault Refusal :=
  onDev (Dev.rwlWrite ag 0x012 (Dev.writeRoot value)) s

/-- ROOT_SWITCH_DONE (R418). -/
def execRootSwitchDone (s : State) : Host.Outcome State Fault Refusal := onDev Dev.rootDone s

/-- MUX_SWITCH (R420). -/
def execMuxSwitch (ag : Agent) (m : Mux) (value : Word) (s : State) : Host.Outcome State Fault Refusal :=
  onDev (Dev.rwlWrite ag 0x013 (Dev.writeMux m value)) s

/-- MUX_SWITCH_DONE (R420): the mux passes its new input. -/
def execMuxSwitchDone (m : Mux) (s : State) : Host.Outcome State Fault Refusal :=
  onDev (fun d => (d.muxEnd m).clkSettle d) s

/-- MUX_SWITCH_TIMEOUT (R421): acts SWITCH_TMO after the start. -/
def execMuxSwitchTimeout (m : Mux) (s : State) : Host.Outcome State Fault Refusal :=
  onDev (fun d =>
    if d.muxBusy m && d.muxAt m + d.switchTmo ≤ d.now then
      (((d.muxEnd m).setFlag 0x013 (Dev.muxReg m) 9 true).err 0x013 0).clkSettle d
    else d) s

/-- MUX_FORCE (R421): a write of FSW = 1 with SEL as it is. -/
def execMuxForce (ag : Agent) (m : Mux) (s : State) : Host.Outcome State Fault Refusal :=
  onDev (Dev.rwlWrite ag 0x013 fun d => (d.muxEnd m).clkSettle d) s

/-- SOURCE_GOOD (R422). -/
def execSourceGood (x : Source) (s : State) : Host.Outcome State Fault Refusal := onDev (Dev.sourceGood x) s

/-- PLL_LOCK (R413). -/
def execPllLock (n : Fin 3) (s : State) : Host.Outcome State Fault Refusal := onDev (Dev.pllLock n.val) s

/-- HOLDOVER_TIMEOUT (R424): HOLD_US after the loss RCV_MUX is forced to XTA; PLL2 stays locked as it slews to a running
XTA (log entry 208). -/
def execHoldoverTimeout (s : State) : Host.Outcome State Fault Refusal :=
  onDev (fun d =>
    match d.clk.holdAt with
    | some t =>
      if t + d.holdUs ≤ d.now then
        let d' := ({ d with clk := { d.clk with holdAt := none } } : Dev).muxForceTo .rcv false
        (if d'.srcRdy 2 then d'.setFlag 0x011 0x050 4 false else d').clkSettle d
      else d
    | none => d) s

/-- RCV_AUTO_RETURN (R425): RCV has been good for 100 ms. -/
def execRcvAutoReturn (s : State) : Host.Outcome State Fault Refusal :=
  onDev (fun d =>
    match d.clk.rcvGood with
    | some t =>
      if d.flag 0x011 0x048 2 && d.pllOn 2 && !d.clk.rcvSel && t + 100000 ≤ d.now then d.muxStart .rcv true else d
    | none => d) s

end Sys2Proof.Machine
end

