-- ==== Sys2Proof/Machine/Flyer.lean ====
section
/-!
DEFINITION. Flyer (08): the op list over FP32 vectors, the scan, the input of a stream, starts, chunks, scores, and the stream
state machine.
-/
namespace Sys2Proof.Machine

/-! ## The op list (R182, R183, R189) -/

/-- A vector of a lane group. -/
abbrev Vec := List Word

/-- What one step's run of the op list holds: the vector registers written so far, the step's input where its values are
known, the score head's input, how many NaNs it produced, whether an op was none of R182's, and what SCANIN declared. -/
structure LaneRun where
  regs  : List (Nat × Vec) := []
  input : Option Vec := none
  y     : Option Word := none
  nans  : Nat := 0
  bad   : Bool := false
  scan  : Option (Nat × Vec × Vec) := none
  deriving DecidableEq, Repr

namespace LaneRun

def write (r : LaneRun) (n : Nat) (v : Vec) : LaneRun :=
  { r with regs := (n, v) :: r.regs.filter fun e => e.1 != n, nans := r.nans + (v.filter isNan32).length }

end LaneRun

/-- `n` words that the spec leaves open. -/
def freeVec (d : Dev) (n : Nat) : Vec × Dev :=
  ((List.range n).map fun i => BitVec.ofNat 32 (Config.freeValue (d.free + i)), { d with free := d.free + n })

/-- A vector register; one that no op has written holds free values. -/
def readVec (r : LaneRun) (n dim : Nat) (d : Dev) : Vec × LaneRun × Dev :=
  match r.regs.find? fun e => e.1 == n with
  | some e => (e.2, r, d)
  | none =>
    let (v, d) := freeVec d dim
    (v, { r with regs := (n, v) :: r.regs }, d)

/-- A NaN operand gives the canonical NaN (R183). -/
def nanOr (l : List Word) (w : Word) : Word := if l.any isNan32 then 0x7FC00000 else if isNan32 w then 0x7FC00000 else w

/-- The element operations of R182 by OPC, on up to three operands. -/
def elemOp (opc : Nat) (a b c : Word) : Word :=
  match opc with
  | 0x01 => nanOr [a, b] (fadd a b)
  | 0x02 => nanOr [a, b] (fsub a b)
  | 0x03 => nanOr [a, b] (fmul a b)
  | 0x04 => nanOr [a, b, c] (ffma a b c)
  | 0x05 => nanOr [a, b] (fmax a b)
  | 0x06 => nanOr [a, b] (fmin a b)
  | 0x07 => nanOr [a] (a &&& 0x7FFFFFFF)
  | 0x08 => nanOr [a] (flush (Config.fexp (flush a)))
  | 0x09 => nanOr [a] (flush (Config.flog (flush a)))
  | 0x0A => nanOr [a] (flush (Config.fsigmoid (flush a)))
  | 0x0B => nanOr [a] (flush (Config.ftanh (flush a)))
  | 0x0C => nanOr [a] (flush (Config.fsilu (flush a)))
  | 0x0D => nanOr [a] (flush (Config.fsoftplus (flush a)))
  | 0x0E => nanOr [a] (flush (Config.frecip (flush a)))
  | 0x0F => nanOr [a] (flush (Config.frsqrt (flush a)))
  | _ => nanOr [a, b, c] (fmin (fmax a b) c)

/-- A vector with every NaN canonical (R183, R250). -/
def canon (v : Vec) : Vec := v.map fun w => if isNan32 w then 0x7FC00000 else w

/-- The fields of an op, and its word (R181). -/
structure Op where
  word : Word
  opc  : Nat
  dst  : Nat
  sa   : Nat
  sb   : Nat
  sc   : Nat
  deriving DecidableEq, Repr

def Op.of (w : Word) : Op :=
  { word := w, opc := bits w 7 0, dst := bits w 13 8, sa := bits w 19 14, sb := bits w 25 20, sc := bits w 31 26 }

/-- The layers' states, one vector each. -/
abbrev States := List Vec

/-- The matrix of a weight slot: its rows and columns, its format (8 INT8, 1 FP16, 2 BF16) and its bytes. -/
structure Mat where
  rows  : Nat
  cols  : Nat
  fmt   : Nat
  bytes : List Byte
  deriving DecidableEq, Repr

/-- Row r of W × x (R182, R258, R260): chunks of C = 64 products, ascending. The weights' places in the slot are open (log entry
66). -/
def Mat.row (m : Mat) (x : Vec) (r : Nat) : Word :=
  let at_ (c : Nat) : FVal := decodeElem m.fmt [] (elemAt m.fmt m.bytes (Config.flyerIndex m.rows m.cols r c))
  let one : Nat → FVal × FVal := fun _ => (.fin false 1 0, .fin false 1 0)
  rne (accumulate 64 [max 1 m.cols] ((List.range (min m.cols x.length)).map fun c => { a := at_ c, b := f32 (x.getD c 0) }) one one)

/-- What a step's ops see beside the registers: the model's kind and state width, and the matrices of its weight slots. -/
structure OpEnv where
  gated : Bool
  dim   : Nat
  mats  : List (Nat × Mat)
  deriving DecidableEq, Repr

/-- A vector of `dim` elements that begins with `v`; what `v` does not give is free. -/
def padVec (dim : Nat) (v : Vec) (d : Dev) : Vec × Dev :=
  let (w, d) := freeVec d (dim - v.length)
  (v.take dim ++ w, d)

/-- One op of one step (R182, R183). `win` is the window of HEAD_LAYER states before the step, which follows the layers' states in
the state region: GETH reads its k-th state as layer LAYERS + k. Which of GETH and PUTH their shared code is in a GATED model, and
which register PUTH writes, is open (log entry 66). -/
def runOp (v : OpEnv) (win : List Vec) (o : Op) (h : States) (r : LaneRun) (d : Dev) : States × LaneRun × Dev :=
  if 1 ≤ o.opc && o.opc ≤ 0x10 then
    let (a, r, d) := readVec r o.sa v.dim d
    let (b, r, d) := readVec r o.sb v.dim d
    let (c, r, d) := readVec r o.sc v.dim d
    (h, r.write o.dst ((List.range v.dim).map fun i => elemOp o.opc (a.getD i 0) (b.getD i 0) (c.getD i 0)), d)
  else if o.opc = 0x20 then
    let (x, d) := padVec v.dim (r.input.getD []) d
    (h, r.write o.dst x, d)
  else if o.opc = 0x21 then
    let (a, r, d) := readVec r o.sa v.dim d
    let (x, d) := padVec v.dim (match v.mats.find? fun e => e.1 == o.sb with
      | some e => (List.range e.2.rows).map (e.2.row a)
      | none => []) d
    (h, r.write o.dst x, d)
  else if o.opc = 0x22 then
    if v.gated && Config.flyerPut o.word then
      let (a, r, d) := readVec r (Config.flyerPutReg o.word) v.dim d
      let a := canon a
      (h.set o.sa a, { r with nans := r.nans + (a.filter isNan32).length }, d)
    else
      let (x, d) := padVec v.dim (canon ((h ++ win).getD o.sa [])) d
      (h, r.write o.dst x, d)
  else if o.opc = 0x23 then
    let (a, r, d) := readVec r o.sa v.dim d
    let (b, r, d) := readVec r o.sb v.dim d
    (h, { r with scan := some (o.sc, a, b) }, d)
  else if o.opc = 0x24 then
    let (a, r, d) := readVec r o.sa v.dim d
    (h, { r with y := a.head? }, d)
  else (h, { r with bad := true }, d)

def vecFma (a b c : Vec) : Vec := List.zipWith (fun x (y : Word × Word) => ffma x y.1 y.2) a (b.zip c)
def vecMul (a b : Vec) : Vec := List.zipWith fmul a b

/-- The levels of the prefix scan (R188): every element of a level uses the old values; `k` bounds the levels. -/
def scanLevels : Nat → Nat → List (Vec × Vec) → List (Vec × Vec)
  | 0, _, l => l
  | k + 1, s, l =>
    if s < l.length then
      scanLevels k (2 * s) ((List.range l.length).map fun j =>
        let (p, q) := l.getD j ([], [])
        if s ≤ j then
          let (p', q') := l.getD (j - s) ([], [])
          (vecMul p p', vecFma p q' q)
        else (p, q))
    else l

/-- The states of a layer over a chunk (R188): the scan, then h[j] = FMA(P[j], h_in, Q[j]). -/
def scanChunk (ab : List (Vec × Vec)) (hin : Vec) : List Vec :=
  (scanLevels ab.length 1 ab).map fun pq => vecFma pq.1 hin pq.2

/-- The window before each step of a chunk: the last A of the HEAD_LAYER states up to it (R190). -/
def windowAt (win : List Vec) (heads : List Vec) (j : Nat) : List Vec := ((win ++ heads).drop j).take win.length

/-- A chunk by the scan (R188): each op runs for every step of the chunk, and each SCANIN's layer is scanned before the next op.
The states are kept for each step. -/
def runScan (v : OpEnv) (head : Nat) (win : List Vec) : List Op → List (States × LaneRun) → Dev → List (States × LaneRun) × Dev
  | [], l, d => (l, d)
  | o :: rest, l, d =>
    let heads := l.map fun e => e.1.getD head []
    let (l, d) := (l.zipIdx).foldl (fun (x : List (States × LaneRun) × Dev) e =>
      let (h, r, d) := runOp v (windowAt win heads e.2) o e.1.1 e.1.2 x.2
      (x.1 ++ [(h, r)], d)) ([], d)
    let l := match l.head?.bind fun e => e.2.scan with
      | some (layer, _, _) =>
        let ab := l.map fun e => match e.2.scan with | some (_, a, b) => (a, b) | none => ([], [])
        let hs := scanChunk ab ((l.head?.bind fun e => e.1[layer]?).getD [])
        (l.zip hs).map fun e => (e.1.1.set layer e.2, { e.1.2 with scan := none, nans := e.1.2.nans + (e.2.filter isNan32).length })
      | none => l
    runScan v head win rest l d

/-- One step of a chunk that runs step by step (R189): h_t = FMA(a_t, h_(t−1), b_t) at each SCANIN. -/
def runStep (v : OpEnv) (win : List Vec) (ops : List Op) (h : States) (r : LaneRun) (d : Dev) : States × LaneRun × Dev :=
  ops.foldl (fun (x : States × LaneRun × Dev) o =>
    let (h, r, d) := runOp v win o x.1 x.2.1 x.2.2
    match r.scan with
    | some (layer, a, b) =>
      let w := vecFma a (h.getD layer []) b
      (h.set layer w, { r with scan := none, nans := r.nans + (w.filter isNan32).length }, d)
    | none => (h, r, d)) (h, r, d)

/-- A chunk step by step: the states after each step. -/
def runSteps (v : OpEnv) (head : Nat) (ops : List Op) (h : States) (win : List Vec) : List LaneRun → Dev → List (States × LaneRun) × Dev
  | [], d => ([], d)
  | r :: rest, d =>
    let (h, r, d) := runStep v win ops h r d
    let (l, d) := runSteps v head ops h (windowAt win [h.getD head []] 1) rest d
    ((h, r) :: l, d)

/-- The steps of a pass, in chunks of at most L steps that each take up the state of the one before (R187–R189; log entry 188). -/
def runPass (v : OpEnv) (scan : Bool) (head : Nat) (ops : List Op) (h : States) (win : List Vec) :
    List (List LaneRun) → Dev → List (States × LaneRun) × Dev
  | [], d => ([], d)
  | c :: rest, d =>
    let (out, d) := if scan then runScan v head win ops (c.map fun r => (h, r)) d else runSteps v head ops h win c d
    let heads := out.map fun x => x.1.getD head []
    let (l, d) := runPass v scan head ops (match out.getLast? with | some x => x.1 | none => h) (windowAt win heads heads.length) rest d
    (out ++ l, d)

/-- The Flyer score of a head output (R190): RNE(clamp(y, 0, 1) × 65,535), 0 for a NaN. -/
def flyerScore (y : Word) : Nat :=
  match f32 y with
  | .nan => 0
  | .inf s => if s then 0 else 65535
  | .fin s m e =>
    if s then 0
    else if (FVal.fin false 1 0).lt (.fin false m e) then 65535
    else (roundInt false (m * 65535) e).toNat

/-! ## The input of a stream (R185, R186, R260) -/

/-- How the values of a capture stand in the bytes that hold it (R118, R172, R260): sample i of an AUDIO record, word i of an EVENTS
record with 64-bit camera words or with 32-bit graded words, the payload of a SAMPLE record, a lookback frame's sample, or a
capture of a task's buffer, whose form is open. -/
inductive CapKind where
  | audio (i : Nat)
  | camera (i : Nat)
  | graded (i : Nat)
  | sample
  | frame
  | fed
  deriving DecidableEq, Repr

/-- One capture: the SEQ of its record where it has one, whether it is one that a GAP record counts, and where the bytes that hold
it stand: their address and length. -/
structure Cap where
  seq  : Option Word
  gap  : Bool := false
  addr : Nat := 0
  len  : Nat := 0
  kind : CapKind := .sample
  deriving DecidableEq, Repr

/-- An integer sample times 2^(−k) in FP32: exact. -/
def sampleF (i : Int) (k : Int) : Word := rne (.scaled i (-k))

/-- The values of a capture (R260), from the bytes that hold it. -/
def CapKind.vals (k : CapKind) (b : List Byte) : Vec :=
  let int (o n : Nat) : Int := signedOf (8 * n) (ofBytesLE ((b.drop o).take n))
  match k with
  | .audio i => if ofBytesLE ((b.drop 33).take 1) = 1 then [sampleF (int (40 + 4 * i) 4) 23] else [sampleF (int (40 + 2 * i) 2) 15]
  | .camera i => [sampleF (int (32 + 8 * i + 4) 1) 7]
  | .graded i => [sampleF (int (32 + 4 * i) 1) 7]
  | .sample => (List.range ((b.length - 32) / 2)).map fun j => sampleF (int (32 + 2 * j) 2) 15
  | .frame => [sampleF (int 0 2) 15]
  | .fed => Config.fedVals b

/-- What an engine's reads met so far: their poison and traps. -/
def ReadOut.join (x y : ReadOut) : ReadOut := { bytes := y.bytes, trap := x.trap || y.trap, poison := max x.poison y.poison }

/-- A step's input (R185): its captures' values in order; a capture of a GAP record is fed as zeros, as many as another capture
of the pass has values (`w`). -/
def stepInput (w : Nat) (l : List (Cap × Vec)) : Vec := l.flatMap fun c => if c.1.gap then List.replicate w 0 else c.2

namespace Dev

/-- Whether a record's bytes are not visible yet: a producer's write of them waits or is unanswered (R92, R273). -/
def recWaits (d : Dev) (a n : Nat) : Bool :=
  (d.held.any fun h => h.who == .producer && decide (h.addr < a + n) && decide (a < h.addr + h.data.length)) ||
  d.remotes.any fun r => !r.read && r.who == .producer && decide (r.addr < a + n) && decide (a < r.addr + r.len)

/-- Captures of `count` at `rate` kHz from grid period `start` on whose period is not after `p` (R186). -/
def periodsTo (start rate count p : Nat) : Nat :=
  let ahead := (p + 2 ^ 32 - start % 2 ^ 32) % 2 ^ 32
  if 2 ^ 31 ≤ ahead then 0 else min count (ceilDiv ((ahead + 1) * rate) 16)

/-- The rate in kHz of an AUDIO record (R118). -/
def audioRate (d : Dev) (a : Nat) : Nat := [8, 16, 24, 48].getD (d.num (a + 32) 1) 16

/-- The offset of the record after the one at `off` whose payload is `len` bytes. -/
def recNext (d : Dev) (n off len : Nat) : Nat := if d.recSize n ≤ off + recBytes len then 0 else off + recBytes len

/-- The first grid period of the lost samples that a GAP record at `off` counts, and their rate (R186): they end where the next AUDIO
record begins (log entry 189); `none` until one follows. `k` bounds the records looked at. -/
def gapStart (n : Nat) (d : Dev) : Nat → Nat → Nat → Option (Nat × Nat)
  | 0, _, _ => none
  | k + 1, off, lost =>
    if off = d.recWr n then none
    else
      let a := d.recBase n + off
      let next := d.recNext n off (d.num (a + 16) 4)
      match d.num a 1 with
      | 0 => gapStart n d k 0 lost
      | 2 => some ((d.num (a + 36) 4 + 2 ^ 32 - lost * 16 / d.audioRate a % 2 ^ 32) % 2 ^ 32, d.audioRate a)
      | 15 => gapStart n d k next (lost + d.num (a + 20) 4)
      | _ => gapStart n d k next lost

/-- Up to `need` captures of a channel from a stream's place in its record buffer, and the stream past them; `k` bounds the
records looked at. A stream stops at a record that is not visible yet. -/
def liveCaps (n : Nat) (d : Dev) : Nat → Nat → FStream → List Cap × FStream
  | 0, _, f => ([], f)
  | k + 1, need, f =>
    let a := d.recBase n + f.off
    let len := d.num (a + 16) 4
    if need = 0 || f.off = d.recWr n || d.recWaits a 32 || d.recWaits a (32 + len) then ([], f)
    else
      let type := d.num a 1
      let count := d.num (a + 20) 4
      let next := d.recNext n f.off len
      let begins := if type = 2 then some (d.num (a + 36) 4, d.audioRate a) else d.gapStart n (2 * (d.recSize n / 64)) f.off 0
      if type = 0 then liveCaps n d k need { f with off := 0, used := 0 }
      else if type = 1 || (f.after.isSome && type ≠ 2 && type ≠ 15) then liveCaps n d k need { f with off := next, used := 0 }
      else if f.after.isSome && begins.isNone then ([], f)
      else
        let used := match f.after, begins with
          | some p, some (s, r) => max f.used (periodsTo s r count p)
          | _, _ => f.used
        let f := if used < count then { f with after := none } else f
        let take := min need (count - used)
        let seq := BitVec.ofNat 32 (d.num (a + 4) 4)
        let caps : List Cap := (List.range take).map fun i =>
          { seq := some seq, gap := type == 15, addr := a, len := 32 + len,
            kind := if type = 2 then .audio (used + i) else if type = 3 then (if n < 22 then .camera (used + i) else .graded (used + i))
              else .sample }
        if used + take < count then (caps, { f with used := used + take })
        else
          let (l, f) := liveCaps n d k (need - take) { f with off := next, used := 0 }
          (caps ++ l, f)

/-- Lookback frames of microphone m (R126, R186), oldest first: `need` of them. -/
def lbCaps (d : Dev) (m need : Nat) (f : FStream) : List Cap × FStream :=
  let ms := d.lbMics
  let idx := (ms.takeWhile (· ≠ m)).length
  let n := min need f.lbLeft
  let base := d.pair48 0x03A 0x06C
  let caps : List Cap := (List.range n).map fun i =>
    let fr := f.lbNext + i
    let pos := (d.mic.lbPos + 32000 - (d.mic.lbTotal - fr) % 32000) % 32000
    { seq := some (BitVec.ofNat 32 (d.lbSeq fr)), addr := base + pos * 2 * ms.length + 2 * idx, len := 2, kind := .frame }
  (caps, { f with lbNext := f.lbNext + n, lbLeft := f.lbLeft - n })

/-- Captures that tasks fed (R185), from the buffers that they named. -/
def fedCaps : List (Nat × Nat) → Nat → List Cap × List (Nat × Nat)
  | [], _ => ([], [])
  | (a, n) :: rest, need =>
    let caps (k : Nat) : List Cap := (List.range k).map fun i =>
      { seq := none, addr := a + i * Config.fedBytes, len := Config.fedBytes, kind := .fed }
    if need = 0 then ([], (a, n) :: rest)
    else if need < n then (caps need, (a + need * Config.fedBytes, n - need) :: rest)
    else
      let (l, r) := fedCaps rest (need - n)
      (caps n ++ l, r)

/-- The values of a pass's captures, as the stream's engine reads them: each record once; and what the reads met. -/
def readCaps (d : Dev) (who : MemAgent) (l : List Cap) : List (Cap × Vec) × ReadOut × Dev :=
  let (out, _, met, d) := l.foldl (fun (x : List (Cap × Vec) × Option (Nat × Nat) × ReadOut × Dev) c =>
    let (out, last, met, d) := x
    if c.gap then (out ++ [(c, [])], last, met, d)
    else if last = some (c.addr, c.len) then (out ++ [(c, c.kind.vals met.bytes)], last, met, d)
    else
      let (r, d) := d.read who c.addr c.len
      (out ++ [(c, c.kind.vals r.bytes)], some (c.addr, c.len), met.join r, d)) ([], none, {}, d)
  (out, met, d)

/-- STEP_UNITS of an entry; 0 acts as 1. -/
def stepUnits (d : Dev) (e : Nat) : Nat := max 1 (d.sfield e 0x18 27 16)
/-- SRC_CH of an entry. -/
def srcCh (d : Dev) (e : Nat) : Nat := d.sfield e 0x18 4 0

/-- Up to `need` captures for stream e. -/
def streamCaps (d : Dev) (e need : Nat) (f : FStream) : List Cap × FStream :=
  let ch := d.srcCh e
  if ch = 31 then
    let (l, r) := fedCaps f.fed need
    (l, { f with fed := r })
  else if 24 ≤ ch then ([], f)
  else
    let (l, f) := if 0 < f.lbLeft then d.lbCaps (ch - 10) need f else ([], f)
    let (l', f) := liveCaps ch d (2 * (d.recSize ch / 64) + 4) (need - l.length) f
    (l ++ l', f)

/-- The whole steps available to stream e, at most `most`. -/
def stepsReady (d : Dev) (e most : Nat) : Nat := (d.streamCaps e (most * d.stepUnits e) (d.stream e)).1.length / d.stepUnits e

/-! ## Lanes (R184, R198) -/

/-- Lane n is free. -/
def laneFree (d : Dev) (n : Nat) : Bool := d.flag 0x060 0x048 n && !d.retired (64 + n / 4)

/-- The lanes of a stream's group: LANES_LOG2, 5–7 act as 4. -/
def laneCount (d : Dev) (e : Nat) : Nat := 2 ^ min 4 (d.sfield e 0 10 8)

/-- The lowest free aligned group of k lanes (R184). -/
def laneGroup (d : Dev) (k : Nat) : Option Nat :=
  ((List.range (16 / k)).map (· * k)).find? fun b => (List.range k).all fun i => d.laneFree (b + i)

/-- The regions of a group of lanes. -/
def laneRegions (b k : Nat) : List Nat := ((List.range 4).filter fun r => decide (4 * r < b + k) && decide (b < 4 * r + 4)).map (· + 64)

/-- A stream takes a group. -/
def takeLanes (d : Dev) (e b k : Nat) : Dev :=
  let d := forEach (List.range k) (fun i d =>
    (d.setFlag 0x060 0x048 (b + i) false).setField 0x061 (0x040 + 4 * (b + i)) 8 0 (e + 256)) d
  (d.setSField e 0x28 23 20 b).setStream e { d.stream e with lanes := k }

/-- A stream gives its lanes back. -/
def dropLanes (d : Dev) (e : Nat) : Dev :=
  let b := d.sfield e 0x28 23 20
  let d := forEach (List.range (d.stream e).lanes) (fun i d =>
    (d.setFlag 0x060 0x048 (b + i) true).setFlag 0x061 (0x040 + 4 * (b + i)) 8 false) d
  (d.setSField e 0x28 23 20 0).setStream e { d.stream e with lanes := 0 }

/-- Flyer's page follows its streams: RUN, PAUSING, ENDING and HO_WAIT are work in flight; DISABLED also resets page 0x061. -/
def flyerWork (d : Dev) : Dev :=
  d.work 0x060 (fun d => (List.range 256).any fun e => [1, 2, 4, 6].contains (d.sstate e)) fun d => d.resetCounters 0x061

/-! ## Ends (R194, R196) -/

/-- A stream leaves for IDLE or FAULT: its lanes are released, its start task retires with the status and its scored steps, and
its episode closes. -/
def streamStop (d : Dev) (e st status : Nat) : Dev :=
  let f := d.stream e
  let d := (d.dropLanes e).setStream e {}
  let d := (d.setSstate e st).setSField e 0x28 15 8 status
  let d := match f.task with
    | some s => (d.retireTask s status f.scored (if status = 0x40 && (d.task s).any (fun (t : Task) => t.tmo) then 8 else 0)).advance
    | none => d
  ((d.episodeEnd e).flyerWork)

/-- A stream faults (R194): its status is kept, and shown in LAST_FAULT and ERR_SUM. -/
def streamFault (d : Dev) (e status : Nat) : Dev :=
  let d := d.setReg 0x060 0x060 (BitVec.ofNat 32 (e + status * 256))
  let d := if status = 0x50 then d.err 0x060 1 else if status = 0x21 then d.err 0x060 2 else d
  d.streamStop e 5 status

/-! ## Starts (R181, R194, R195) -/

/-- The bytes of the layers' states, and the state region. -/
def stateBytes (f : FStream) : Nat := 4 * f.dim * f.layers

/-- A of an entry: LOOKAHEAD, above 256 acts as 256. -/
def lookahead (d : Dev) (e : Nat) : Nat := min 256 (d.sfield e 4 24 16)

/-- L of an entry: CHUNK_LOG2 4–10, others act as 4. -/
def chunkLen (d : Dev) (e : Nat) : Nat :=
  let n := d.sfield e 4 3 0
  if 4 ≤ n && n ≤ 10 then 2 ^ n else 16

/-- The agent that reads and writes for a stream: the engine of its start task. -/
def streamWho (f : FStream) : MemAgent := .engine (Fin.ofNat 4096 (f.task.getD 0))

/-- The model's header and op list (R181), as the stream's engine reads them: the stream with them, or none where the start fails
with FORMAT; and what the reads met. -/
def readModel (d : Dev) (e : Nat) (f : FStream) : Option FStream × ReadOut × Dev :=
  let a := d.sptr e 0x10
  let (r, d) := d.read (streamWho f) a 32
  let num (o n : Nat) : Nat := ofBytesLE ((r.bytes.drop o).take n)
  let layers := num 2 1
  let dim := num 4 2
  let n := num 6 2
  if num 0 1 ≠ 1 || 1 < num 1 1 || layers = 0 || 16 < layers || layers ≤ num 3 1 || dim % 64 ≠ 0 || dim = 0 || 4096 < dim || n = 0 ||
      2048 < n || num 0x10 4 ≠ 4 * dim * (layers + d.lookahead e) then (none, r, d)
  else
    let (q, d) := d.read (streamWho f) (a + 32) (4 * n)
    (some { f with gated := num 1 1 == 1, layers := layers, head := num 3 1, dim := dim, weights := num 8 8 % 2 ^ 48,
                   ops := (List.range n).map fun i => BitVec.ofNat 32 (elemAt 0 q.bytes i) }, r.join q, d)

/-- Where a stream begins (R185, R186): on the lookback's frames with LB_START, then with the samples after them; else on live
records. -/
def inputStart (d : Dev) (e : Nat) (f : FStream) : FStream :=
  let ch := d.srcCh e
  let held := d.lbFrames
  if 24 ≤ ch then f
  else if d.sflag e 0 13 && 10 ≤ ch && ch < 18 && d.lbMics.contains (ch - 10) && 0 < held then
    { f with off := d.recRd ch, lbNext := d.mic.lbTotal - held, lbLeft := held, after := some d.mic.lbLast }
  else { f with off := d.recWr ch }

/-- Whether the layers' states hold an unwritten line (R195). -/
def stateUnwritten (d : Dev) (e : Nat) (f : FStream) : Bool :=
  (linesOf (d.sptr e 8) (stateBytes f)).any fun l => !d.lineWritten l

/-- The state region initialised to zero; the flag is false where it was dropped (R272). -/
def zeroState (d : Dev) (e : Nat) (f : FStream) : Dev × Bool :=
  d.write (streamWho f) (d.sptr e 8) (List.replicate (stateBytes f + 4 * f.dim * d.lookahead e) 0)

/-- The stream runs: its state as R194 gives it at a start. -/
def streamRun (d : Dev) (e : Nat) (f : FStream) (inited : Bool) : Dev :=
  let d := d.setStream e { d.inputStart e f with lanes := (d.stream e).lanes, seenAt := d.now }
  let d := (d.setSstate e (if d.sflag e 0 2 then 2 else 1)).setSFlag e 0x28 16 inited
  let d := (d.setSField e 0x28 18 17 0).setSField e 0x2C 31 16 0
  (d.count 0x060 0x04C).flyerWork

/-- An episode opens with a start task (R15, R197): a WAKE task's trigger, or TRIG_KIND 5 and zeros for a software start. -/
def episodeOpen (d : Dev) (e : Nat) (t : Task) : Dev :=
  if (d.episode e).st = .quiet then
    let w := t.word 4
    let x : Episode :=
      if t.kind = 9 then
        { st := .verify, kind := bits w 15 8, score := bits w 23 16, reelCh := bits w 26 24, src := bits (t.word 5) 15 0,
          reelPos := (t.word 6).toNat + bits (t.word 7) 15 0 * 2 ^ 32, wakeAt := if t.start = 0 then d.now else t.start }
      else { st := .verify, kind := 5, wakeAt := d.now }
    (d.setEpisode e x).escCount 0x060
  else d

/-- A START or WAKE task begins on an IDLE stream with its lanes assigned (R194, R195, R272). The check of the state stands in for
UW_POLICY (R195). -/
def streamBegin (d : Dev) (e slot : Nat) (t : Task) : Dev :=
  let d := d.episodeOpen e t
  let f : FStream := { task := some slot, lanes := (d.stream e).lanes }
  let (g, met, d) := d.readModel e f
  let fault (d : Dev) (st : Nat) : Dev := (d.setStream e f).streamFault e st
  let run (x : Dev × Bool) (f : FStream) (inited : Bool) : Dev := if x.2 then x.1.streamRun e f inited else fault x.1 0xF0
  match readStatus met, g with
  | some st, _ => fault d st
  | none, none => fault d 0x50
  | none, some f =>
    if d.sflag e 0 1 then run (d.zeroState e f) f false
    else
      let unwritten := d.stateUnwritten e f
      let (r, d) := d.read (streamWho f) (d.sptr e 8) (stateBytes f)
      match readStatus { r with trap := false } with
      | some st => fault d st
      | none =>
        if unwritten then (if d.sflag e 0 4 then run (d.zeroState e f) f true else fault d 0x21)
        else d.streamRun e f false

/-! ## Chunks (R187–R191) -/

/-- A chunk starts (R187): FULL once L steps and A more are there, GREEDY on at least one with its A; a stream that is ending, or
reaches MAX_STEPS, takes what is available; one that waits for input as it pauses reaches its retire point without a step
(DEDUCED: log entry 76). -/
def chunkStart (d : Dev) (e : Nat) : Dev :=
  let f := d.stream e
  let st := d.sstate e
  let p := d.pageState 0x060
  if f.chunk.isSome || !(st = 1 || st = 2 || st = 4) || d.frozen 0x060 || p = 0 || 4 ≤ p then d
  else
    let L := d.chunkLen e
    let A := d.lookahead e
    let pend := f.taken - f.scored
    let cap := L + A - pend
    let limit := (d.sreg e 0x3C).toNat
    let most := if limit = 0 then cap else min cap (limit - f.taken)
    let av := d.stepsReady e most
    let last := limit ≠ 0 && limit ≤ f.taken + av
    let set (m n : Nat) (d : Dev) : Dev := d.setStream e { f with chunk := some (m, n), seen := f.taken + m, seenAt := d.now }
    if st = 4 || last then
      let d := set av (pend + av) d
      if last then d.setSstate e 4 else d
    else if d.sflag e 0 5 && A < pend + av then set av (pend + av - A) d
    else if !d.sflag e 0 5 && L + A ≤ pend + av then set (L + A - pend) L d
    else if st = 2 then set 0 0 d
    else d

/-- The layers' states and the window of HEAD_LAYER states as the state region holds them, oldest first (R181, R190). -/
def readState (d : Dev) (e : Nat) (f : FStream) : List Vec × ReadOut × Dev :=
  let (r, d) := d.read (streamWho f) (d.sptr e 8) (stateBytes f + 4 * f.dim * d.lookahead e)
  ((List.range (f.layers + d.lookahead e)).map fun l => (List.range f.dim).map fun i =>
    BitVec.ofNat 32 (elemAt 0 r.bytes (l * f.dim + i)), { r with trap := false }, d)

/-- The matrices of the weight slots that a stream's MATVEC ops name (R181, R182): a slot's shape, format and place in the weight
block are open (log entry 66). -/
def readMats (d : Dev) (f : FStream) : List (Nat × Mat) × ReadOut × Dev :=
  let slots := ((f.ops.map Op.of).filter fun o => o.opc == 0x21).map (·.sb)
  slots.eraseDups.foldl (fun (x : List (Nat × Mat) × ReadOut × Dev) s =>
    let (l, met, d) := x
    let g (k : Nat) : Nat := Config.flyerSlot (fun i => d.byte (f.weights + i)) s k
    let fmt := if g 2 % 3 = 0 then 8 else g 2 % 3
    let (r, d) := d.read (streamWho f) (f.weights + g 3) (packedBytes fmt (g 0 * g 1))
    (l ++ [(s, { rows := g 0, cols := g 1, fmt := fmt, bytes := r.bytes })], met.join r, d)) ([], {}, d)

/-- The bytes of the states and of the window as the state region holds them. -/
def stateImage (h : States) (win : List Vec) : List Byte := (h ++ win).flatMap fun v => v.flatMap fun w => bytesLE 4 w.toNat

/-- One score's OUT entry (R191); the flag is false where it was dropped (R272). -/
def outEntry (d : Dev) (e step score flags : Nat) (seq : Word) : Dev × Bool :=
  let base := d.sptr e 0x20
  let size := 2 ^ d.sfield e 0x24 27 24 * 16
  if base = 0 then (d, true)
  else d.write (streamWho (d.stream e)) (base + 16 * (step % size))
    (bytesLE 2 score ++ bytesLE 2 flags ++ bytesLE 4 step ++ bytesLE 4 seq.toNat ++ bytesLE 4 0)

/-- The FLYR clocks of a pass over m steps of which it scores n (R182, R188): every op for each of the m, and one scan over a
chunk of n. -/
def passClocks (f : FStream) (mats : List (Nat × Mat)) (ops : List Op) (m n units : Nat) (scan : Bool) : Nat :=
  let k := max 1 f.lanes
  let v := ceilDiv f.dim (64 * k)
  let mat (s : Nat) : Nat := match mats.find? fun e => e.1 == s with
    | some e => ceilDiv (e.2.rows * e.2.cols) ((if e.2.fmt = 8 then 256 else 128) * k)
    | none => 0
  let cost (o : Op) : Nat :=
    if o.opc = 0x20 then ceilDiv units 64 else if o.opc = 0x21 then mat o.sb else if o.opc = 0x23 then 0 else if o.opc = 0x24 then 1 else v
  m * (ops.map cost).sum + (if scan && 0 < m then f.layers * v * n * (((List.range 12).find? fun k => n ≤ 2 ^ k).getD 11 + 1) else 0)

/-- The comparisons of a chunk in step order (R191): SCORE follows every score; the cascade sees them with ESC_EN = 1. -/
def compareScores (d : Dev) (e : Nat) (l : List (Nat × Option Word)) : Dev :=
  l.foldl (fun d x =>
    let d := (d.setSField e 0x2C 15 0 x.1).setSField e 0x2C 31 16 (max (d.sfield e 0x2C 31 16) x.1)
    if d.sflag e 0 6 then d.scoreStep e x.1 x.2 else d) d

/-- The OUT entries and scores of a chunk (R190, R191): step t's score comes from the head output of step t + A; that of a step whose
window is incomplete from the HEAD_LAYER states available from it on, its entry carrying TAIL (log entry 190). `heads` holds the
states from step `taken` − A on. The last flag is false where an entry was dropped. -/
def scoreChunk (d : Dev) (e A : Nat) (f : FStream) (infos : List StepInfo) (heads : List Vec) (ys : List (Option Word)) (n : Nat) :
    List (Nat × Option Word) × Dev × Bool :=
  (List.range n).foldl (fun (x : List (Nat × Option Word) × Dev × Bool) i =>
    let (l, d, ok) := x
    let t := f.scored + i
    let info := infos.getD i { seq := none, gap := false, nan := false }
    let tail := decide (f.taken + ys.length ≤ t + A)
    let (v, d) := d.fresh
    let y := if tail then Config.flyerTail f.ops (heads.drop (t + A - f.taken)) else (ys.getD (t + A - f.taken) none).getD (BitVec.ofNat 32 v)
    let sc := flyerScore y
    let (q, d) := match info.seq with | some q => (q, d) | none => let (v, d) := d.fresh; (BitVec.ofNat 32 v, d)
    let flags := tail.toNat + info.gap.toNat * 2 + (info.nan || isNan32 y).toNat * 4
    let (d, k) := d.outEntry e t sc flags q
    (l ++ [(sc, info.seq)], d, ok && k)) ([], d, true)

/-- The stream after a retire point (R194): PAUSING pauses, unless an escalation with END_ON_ESC is being written, which ends it;
ENDING ends with the status asked for. -/
def afterRetire (d : Dev) (e : Nat) : Dev :=
  match d.sstate e with
  | 2 => if d.sflag e 0 7 && d.escs.any (fun x => x.stream == e) then d else ((d.dropLanes e).setSstate e 3).flyerWork
  | 4 => d.streamStop e 0 (d.stream e).status
  | _ => d

/-- The retire point of a chunk whose writes are visible (R191, P3): its scores are compared. -/
def chunkEnd (d : Dev) (e : Nat) (l : List (Nat × Option Word)) : Dev :=
  ((d.setStream e { d.stream e with chunk := none, due := none }).compareScores e l).afterRetire e

/-- The writes of a chunk that has run (R188–R191): the states with the window, then the OUT entries; its counters. Once the
writes are visible it reaches its retire point. -/
def chunkWrite (d : Dev) (e : Nat) (f' : FStream) (A m n : Nat) (h win : List Vec) (out : List (States × LaneRun))
    (steps : List (List (Cap × Vec))) (cyc : Nat) : Dev :=
  let f := d.stream e
  let h := match out.getLast? with | some x => x.1 | none => h
  let heads := win ++ out.map fun x => x.1.getD f.head []
  let (d, ok) := d.write (streamWho f) (d.sptr e 8) (stateImage (h.map canon) ((heads.drop (heads.length - A)).map canon))
  let infos := f.infos ++ (steps.zip out).map fun x =>
    { seq := x.1.head?.bind (·.1.seq), gap := x.1.any fun c => c.1.gap, nan := x.2.2.nans != 0 }
  let (scores, d, ok') := d.scoreChunk e A f infos heads (out.map fun x => x.2.y) n
  if !(ok && ok') then d.streamFault e 0xF0
  else
    let d := d.setStream e { f' with taken := f.taken + m, scored := f.scored + n, infos := infos.drop n, due := some scores }
    let d := if m + n = 0 then d else (d.countFrz 0x060 0x054).setReg 0x061 0x080 (BitVec.ofNat 32 cyc)
    let b := d.sfield e 0x28 23 20
    let d := forEach (List.range f.lanes) (fun i d => d.setField 0x061 (0x040 + 4 * (b + i)) 31 12 (min 0xFFFFF cyc)) d
    if d.unanswered (streamWho f) then d else d.chunkEnd e scores

/-- A chunk reaches its retire point (R188–R191): the ops run over its steps, in passes of at most L, the states and the window are
written, then the OUT entries, and once these are visible the scores are compared. An ending stream scores every step that is left
(R190). Poison, a trapping line, a NaN with NAN_TRAP, in whose step the run stops (R183), or an op that is none ends the stream in
FAULT. -/
def chunkRetire (d : Dev) (e : Nat) : Dev :=
  let f := d.stream e
  match f.due, f.chunk with
  | some l, _ => if d.unanswered (streamWho f) then d else d.chunkEnd e l
  | none, none => d
  | none, some (m, n) =>
    let n := if d.sstate e = 4 then f.taken + m - f.scored else n
    let units := d.stepUnits e
    let A := d.lookahead e
    let ops := f.ops.map Op.of
    let (hs, met, d) := d.readState e f
    let (mats, met', d) := if m = 0 then ([], {}, d) else d.readMats f
    let (caps, f') := d.streamCaps e (m * units) f
    let (vals, met'', d) := d.readCaps (streamWho f) caps
    let steps := (chunksOf units vals).take m
    let w := ((vals.find? fun c => !c.1.gap).map fun c => c.2.length).getD f.dim
    let runs : List LaneRun := steps.map fun cs => { input := some (stepInput w cs) }
    let scan := !f.gated && !d.sflag e 0 11
    let v : OpEnv := { gated := f.gated, dim := f.dim, mats := mats }
    let h := hs.take f.layers
    let win := hs.drop f.layers
    let (out, d) := runPass v scan f.head ops h win (chunksOf (d.chunkLen e) runs) d
    let trap := d.sflag e 0 12
    let ran := if trap then min out.length ((out.findIdx fun x => x.2.nans != 0) + 1) else out.length
    let nans := ((out.take ran).map fun x => x.2.nans).sum
    let d := if nans = 0 then d else (d.setSFlag e 0x28 18 true).countFrz 0x060 0x05C nans
    let nanErr (d : Dev) : Dev := if nans = 0 then d else d.err 0x060 3
    let gaps := ((steps.take ran).filter fun cs => cs.any fun c => c.1.gap).length
    let d := if gaps = 0 then d else (d.setSFlag e 0x28 17 true).countFrz 0x060 0x058 gaps
    match readStatus ((met.join met').join met'') with
    | some st => nanErr (d.streamFault e st)
    | none =>
      if out.any (fun x => x.2.bad) || (nans ≠ 0 && trap) then nanErr (d.streamFault e 0x50)
      else (nanErr d).chunkWrite e f' A m n h win out steps (passClocks f mats ops m (min n (d.chunkLen e)) units scan)

/-! ## The control bits (R180, R194) -/

/-- A paused stream whose PAUSE is 0 takes lanes again, if a group is free (R184, R194). -/
def streamResume (d : Dev) (e : Nat) : Dev :=
  if d.sstate e = 3 && !d.sflag e 0 2 && d.running 0x060 then
    match d.laneGroup (d.laneCount e) with
    | some b => ((d.takeLanes e b (d.laneCount e)).setSstate e 1).flyerWork
    | none => d
  else d

/-- Every paused stream that waits for lanes. -/
def resumeAll (d : Dev) : Dev := forEach (List.range 256) (fun e d => d.streamResume e) d

/-- PAUSE written to an entry (R194). -/
def streamPause (d : Dev) (e : Nat) (v : Bool) : Dev :=
  let d := d.setSFlag e 0 2 v
  match d.sstate e with
  | 1 => if v then d.setSstate e 2 else d
  | 2 => if v then d else d.setSstate e 1
  | 3 => d.streamResume e
  | _ => d

/-- END = 1 written to an entry (R194): END reads 0. A paused stream first scores the steps whose windows are incomplete (R190). -/
def streamEnd (d : Dev) (e : Nat) : Dev :=
  match d.sstate e with
  | 1 | 2 => d.setSstate e 4
  | 3 =>
    let f := d.stream e
    if f.taken = f.scored then d.streamStop e 0 f.status
    else ((d.setStream e { f with chunk := some (0, 0) }).setSstate e 4).chunkRetire e
  | 5 => d.setSstate e 0
  | 6 => d.setStream e { d.stream e with stop := true }
  | _ => d

/-- Whether an entry is busy (R180). -/
def entryBusy (d : Dev) (e : Nat) : Bool := [1, 2, 3, 4, 6].contains (d.sstate e)

/-- A write of the CTRL word of an entry (R179, R180): on a busy entry only PAUSE and END act, and any other bit that the write
would change sets ENTRY_BUSY; END wins over PAUSE. -/
def writeEntryCtrl (d : Dev) (e : Nat) (v : Word) : Dev :=
  let w := v &&& 0x3FF7
  let old := d.sreg e 0
  let busy := d.entryBusy e
  let d := if busy then (if w &&& 0x3FF3 = old &&& 0x3FF3 then d else d.err 0x060 0)
    else d.setS e 0 (w &&& 0x3FF3 ||| (old &&& 4))
  let d := if bit v 3 then d.setSFlag e 0 2 (bit v 2) else d.streamPause e (bit v 2)
  if bit v 3 then d.streamEnd e else d

/-- An abort of a start task in service (R196, R303): the stream ends at its next retire point with the status; a paused one at
once. -/
def flyerAbort (d : Dev) (e status : Nat) : Dev :=
  (d.setStream e { d.stream e with status := status }).streamEnd e

/-! ## Dispatch to Flyer (R185, R194, R299) -/

/-- A START or WAKE task that needs no lanes (R194): it merges, or completes with a status. -/
def startStatus (d : Dev) (e : Nat) : Option Nat :=
  if !d.running 0x060 then some 0xF0
  else
    match d.sstate e with
    | 0 => if d.sflag e 0 0 then none else some 0xF0
    | 5 => some (d.sfield e 0x28 15 8)
    | _ => some 0

/-- A dispatched START or WAKE task that ends at once. -/
def startAnswer (d : Dev) (e slot : Nat) (t : Task) (status : Nat) : Dev :=
  let merged := d.running 0x060 && d.entryBusy e
  let d := if merged then (d.countFrz 0x060 0x050).episodeOpen e t else d
  (d.retireTask slot status 0 0).advance

/-- A FLYER_STEP task (R185, R194): its steps are handed to a running task-fed stream; elsewhere it completes 0xF0. -/
def stepTask (d : Dev) (slot : Nat) (t : Task) : Dev :=
  let e := bits (t.word 4) 7 0
  let n := (t.word 8).toNat
  if n = 0 then (d.retireTask slot 0x50 0 0).advance
  else if d.running 0x060 && [1, 2].contains (d.sstate e) && d.srcCh e = 31 then
    let f := d.stream e
    let d := d.setStream e { f with fed := f.fed ++ [(t.addr 0x18, n * d.stepUnits e)], seenAt := d.now }
    (d.retireTask slot 0 n 0).advance
  else (d.retireTask slot 0xF0 0 0).advance

/-- IN_TMO (R194): no new step for IN_TMO ms. -/
def inTimeout (d : Dev) (e : Nat) : Dev :=
  let f := d.stream e
  let tmo := d.sfield e 0x1C 15 0
  let ready := d.stepsReady e (d.chunkLen e + d.lookahead e)
  let at_ := if f.seen < f.taken + ready && d.srcCh e < 24 then max f.seenAt (d.chan (d.srcCh e)).wroteAt else f.seenAt
  if d.sstate e = 1 && f.chunk.isNone && tmo ≠ 0 && at_ + 1000 * tmo ≤ d.now then
    (((d.setStream e { f with status := 0x40 }).setSstate e 4).err 0x060 4)
  else d

/-- A write of CTRL.EN = 0 to page 0x060: the streams end at their next retire point, so that the drain ends. -/
def flyerDisable (d : Dev) : Dev :=
  forEach (List.range 256) (fun e d => if [1, 2, 6].contains (d.sstate e) then d.streamEnd e else d) d

end Dev

/-! ## The commands -/

/-- CHUNK_START (R187). -/
def execChunkStart (stream : Fin 256) (s : State) : Host.Outcome State Fault Refusal := onDev (fun d => d.chunkStart stream.val) s

/-- CHUNK_RETIRE (R191). -/
def execChunkRetire (stream : Fin 256) (s : State) : Host.Outcome State Fault Refusal := onDev (Dev.whenServed fun d => d.chunkRetire stream.val) s

/-- STREAM_PAUSE (R194): CTRL written with PAUSE = 1, its other bits as they are. -/
def execStreamPause (ag : Agent) (stream : Fin 256) (s : State) : Host.Outcome State Fault Refusal :=
  onDev (Dev.rwlWrite ag (Dev.streamReg stream.val 0).1 fun d => d.streamPause stream.val true) s

/-- STREAM_RESUME (R194): CTRL written with PAUSE = 0. -/
def execStreamResume (ag : Agent) (stream : Fin 256) (s : State) : Host.Outcome State Fault Refusal :=
  onDev (Dev.rwlWrite ag (Dev.streamReg stream.val 0).1 fun d => d.streamPause stream.val false) s

/-- STREAM_END (R194): CTRL written with END = 1. -/
def execStreamEnd (ag : Agent) (stream : Fin 256) (s : State) : Host.Outcome State Fault Refusal :=
  onDev (Dev.rwlWrite ag (Dev.streamReg stream.val 0).1 fun d => d.streamEnd stream.val) s

/-- STREAM_IN_TIMEOUT (R194). -/
def execStreamInTimeout (stream : Fin 256) (s : State) : Host.Outcome State Fault Refusal :=
  onDev (fun d => d.inTimeout stream.val) s

end Sys2Proof.Machine
end

