-- ==== Sys2Proof/Machine/Spindle.lean ====
section
/-!
DEFINITION. The Spindle cores' shared operations (15): general registers and MODE, what follows an instruction, exceptions and
interrupts, debug halts, and a task's arrival at a core and its end there.
-/
namespace Sys2Proof.Machine

namespace Core

/-! ## Registers (R340) -/

/-- A general register: g0 reads zero. -/
def reg (c : Core) (r : Nat) : Word := if r = 0 then 0 else Sparse.get (fun _ => 0) c.g r

/-- A general register written: g0 ignores it. -/
def setReg (c : Core) (r : Nat) (v : Word) : Core := if r = 0 then c else { c with g := Sparse.put (fun _ => 0) c.g r v }

def machineMode (c : Core) : Bool := c.mode.testBit 0
def saturating (c : Core) : Bool := c.mode.testBit 1
def inException (c : Core) : Bool := c.eflags.testBit 3

/-- SATF set, in the MODE that applies and in the one that waits for a shadow's end, unless its MSET clears SATF
(R342, R343, R372). -/
def setSatf (c : Core) : Core :=
  { c with mode := c.mode ||| 8, shadow := c.shadow.map fun s => if s.clr then s else { s with mode := s.mode ||| 8 } }

/-- Whether the next instruction is in a delay slot or a shadow. -/
def inSlot (c : Core) : Bool := c.slot.isSome || c.shadow.isSome

/-! ## What follows an instruction (R343–R345) -/

/-- Level 0 decides at the instruction at LE0. -/
def decide0 (c : Core) : Core :=
  if c.lc0 = 0 || c.pc ≠ c.le0 then { c with pc := c.pc + 4 }
  else if c.lc0 = 1 then { c with lc0 := 0, pc := c.pc + 4 }
  else { c with lc0 := c.lc0 - 1, pc := c.ls0 }

/-- The loop levels decide at a loop end, level 1 first; else execution goes on at the next word. -/
def decideLoops (c : Core) : Core :=
  if c.lc1 = 0 || c.pc ≠ c.le1 then c.decide0
  else if c.lc1 = 1 then { c with lc1 := 0 }.decide0
  else { c with lc1 := c.lc1 - 1, pc := c.ls1 }

/-- One instruction of a shadow is done: after the second the new MODE applies. -/
def shadowStep (c : Core) : Core :=
  match c.shadow with
  | none => c
  | some s => if s.left ≤ 1 then { c with shadow := none, mode := s.mode } else { c with shadow := some { s with left := s.left - 1 } }

/-- An instruction that is no branch has completed: after a delay slot the branch's target follows, where a loop that ends at the
slot has decided its count. -/
def advance (c : Core) : Core :=
  (match c.slot with
    | some s => { c.decideLoops with slot := none, pc := s.target }
    | none => c.decideLoops).shadowStep

/-- A branch has completed (R344, R368): its slot comes next, unless it is annulled. -/
def branchTo (c : Core) (target : Word) (taken annul : Bool) : Core :=
  let a := c.pc
  let c := c.decideLoops
  if taken then { c with slot := some { branch := a, target := target }, pc := a + 4 }
  else if annul then { c with pc := a + 8 }
  else { c with slot := some { branch := a, target := a + 8 }, pc := a + 4 }

/-! ## Exceptions (R351, R352) -/

/-- Where execution resumes, with BD and SH (R351). -/
def resume (c : Core) : Word × Bool × Bool :=
  match c.slot, c.shadow with
  | some s, _ => (s.branch, true, false)
  | none, some s => (s.mset, false, true)
  | none, none => (c.pc, false, false)

/-- The entry to an exception or interrupt (R351). -/
def enter (c : Core) (code : Nat) (bad : Option Word) (off : Word) : Core :=
  let (epc, bd, sh) := c.resume
  { c with epc := epc, ecause := code, ebad := bad.getD c.ebad,
           eflags := sh.toNat + bd.toNat * 2 + 8 + (c.mode.testBit 2).toNat * 16 + (c.mode.testBit 1).toNat * 32 + (c.mode.testBit 0).toNat * 64,
           mode := 1 + (c.mode.testBit 3).toNat * 8, pc := c.evec + off, slot := none, shadow := none, passBp := false }

/-- XRET (R352); the two low bits of EPC are cleared (log entry 209). -/
def xret (c : Core) : Core :=
  { c with pc := c.epc &&& 0xFFFFFFFC, eflags := c.eflags &&& 0x70,
           mode := (c.eflags.testBit 6).toNat + (c.eflags.testBit 5).toNat * 2 + (c.eflags.testBit 4).toNat * 4 + (c.mode.testBit 3).toNat * 8 }

/-- The lowest pending enabled source. -/
def pendingSource (c : Core) : Option Nat := (List.range 7).find? fun s => (c.intPend &&& c.intEn).testBit s

/-- Whether an interrupt is accepted at this boundary (R354). -/
def interruptible (c : Core) : Bool := c.mode.testBit 2 && !c.inException && c.pendingSource.isSome

end Core

namespace Dev

/-! ## A task's end at a core (R348, R349, R353, R359) -/

/-- Whether core n may execute: its page's block is out of reset and its region is awake (R358, R359). -/
def coreAwake (d : Dev) (n : Nat) : Bool :=
  (d.running (corePage n) || d.pageState (corePage n) == 3) && !d.asleepRegion (coreRegion n)

/-- Every earlier store of core n is visible (R339, R348): none is held for a migration or waits for another device. -/
def storesVisible (d : Dev) (n : Fin 16) : Bool :=
  !(d.held.any fun h => h.who == .core n) && !d.unanswered (.core n)

/-- A core's page follows its task (R37, R347): DRAINING ends with the task, and the core enters reset. -/
def coreWork (d : Dev) (n : Fin 16) : Dev :=
  d.work (corePage n.val) (fun d => (d.core n.val).task.isSome) fun d => d.coreEnterReset n

/-- The task in service at core n retires with a status and progress; TASK.VALID and ABORT clear. -/
def coreRetire (d : Dev) (n : Fin 16) (status progress : Nat) : Dev :=
  let c := d.core n.val
  match c.task with
  | none => d
  | some s =>
    let d := d.setCore n.val { c with task := none, abort := false, done := none }
    ((d.retireTask s status progress (if status = 0x40 then 8 else 0)).advance).coreWork n

/-- A page in FAULT is logged (R318, R335). -/
def pageFault (d : Dev) (p b : Nat) : Dev :=
  (d.setPageState p 5).logContained { dom := .page p, srcPage := p, srcBit := b }

/-! ## Debug halts (R356) -/

/-- Core n halts at a boundary: it stands where an exception would resume, and a branch or MSET under way counts as not
executed. -/
def debugHalt (d : Dev) (n reason : Nat) : Dev :=
  let c := d.core n
  let (pc, bd, sh) := c.resume
  d.setCore n { c with st := .dbgHalt, pc := pc, slot := none, shadow := none, dpc := pc, dbd := bd, dsh := sh, reason := reason, step := false, hit := false, done := none }

/-- A boundary after an instruction: a watchpoint hit or the end of a step halts the core. -/
def boundary (d : Dev) (n : Nat) : Dev :=
  let c := d.core n
  if c.st ≠ .run then d
  else if c.hit then d.debugHalt n 5
  else if c.step && !c.inSlot then d.debugHalt n 2
  else d

/-! ## Exceptions and interrupts of core n -/

/-- A synchronous exception (R350, R351), or a double fault (R353). -/
def exception (d : Dev) (n : Fin 16) (code : Nat) (bad : Option Word) : Dev :=
  let c := d.core n.val
  let p := corePage n.val
  let d := ((d.setReg p 0x04C (BitVec.ofNat 32 code)).setReg p 0x050 c.resume.1).countFrz p 0x064
  if c.inException then
    let d := (d.setCore n.val { c with st := .stopped, step := false }).err p 0
    ((d.setPageState p 5).coreRetire n 0xF0 0).pageFault p 0
  else (d.setCore n.val (c.enter code bad 0)).boundary n.val

/-- The pending interrupt is taken (R351, R354). -/
def takeInterrupt (d : Dev) (n : Nat) : Dev :=
  let c := d.core n
  match c.pendingSource with
  | none => d
  | some s =>
    let p := corePage n
    let d := ((d.setReg p 0x04C (BitVec.ofNat 32 (0x80 + s))).setReg p 0x050 c.resume.1).countFrz p 0x068
    (d.setCore n { c.enter (0x80 + s) none 0x80 with st := .run }).boundary n

/-! ## A task's arrival at a core (R347) -/

/-- A core that Shuttle may give a task. -/
def coreOffered (d : Dev) (n : Nat) : Bool :=
  let c := d.core n
  c.st == .twait && c.task.isNone && d.running (corePage n) && !d.frozen (corePage n) && !d.retired (coreRegion n)

/-- TWAIT completes with a task (R347). -/
def coreTask (d : Dev) (n : Fin 16) (slot : Nat) (t : Task) : Dev :=
  let c := d.core n.val
  let handler := if t.kind = 8 then d.reg (ringPage t.ring) 0x05C else t.word 4
  let g13 := t.kind + t.ring * 256 + (if t.kind = 8 then bits (t.word 4) 7 0 * 65536 else 0)
  let args := (List.range 11).foldl (fun (c : Core) i => c.setReg (2 + i) (t.word (5 + i))) c
  let c := (((args.setReg 1 handler).setReg 13 (BitVec.ofNat 32 g13)).setReg 14 t.tag).setReg 15 t.seq
  let d := (d.setCore n.val { c.advance with st := .run, task := some slot, abort := false }).coreWork n
  (d.countFrz (corePage n.val) 0x060).boundary n.val

/-- The status with which a core's task ends: its own, or that of an abort that reached the retire point first (R303, R348). -/
def doneStatus (d : Dev) (n status : Nat) : Nat :=
  let c := d.core n
  if c.abort then (match c.task.bind d.task with | some t => if t.tmo then 0x40 else 0x10 | none => 0x10) else status

end Dev

end Sys2Proof.Machine
end

