-- ==== Sys2Proof/Machine/Shuttle.lean ====
section
/-!
DEFINITION. Shuttle's commands (13): submission, dispatch to the four engine classes, the movers, completion records, timeouts,
aborts, delay lists and flushes; and the error log's (14).
-/
namespace Sys2Proof.Machine

namespace Dev

/-! ## Submission (R292, R293) -/

/-- A write of SUBMIT_D15 commits the agent's staged descriptor (R292). -/
def submitDirect (d : Dev) (a : Agent) (n : Nat) (d15 : Word) : Dev :=
  let p := ringPage n
  let d := d.setAgentReg a p 0x0FC d15
  (d.submitOne a n 0 ((List.range 16).map fun i => d.agentReg a p (0x0C0 + 4 * i))).1

/-- A write of BATCH_N (R292): counts outside 1–256 start nothing. -/
def submitBatch (d : Dev) (a : Agent) (n count : Nat) : Dev :=
  if count = 0 || 256 < count then d
  else { d with batches := d.batches ++ [{ agent := a, ring := n, addr := d.pair48 (ringPage n) 0x074 / 64 * 64, count := count }] }

/-- How an agent reads Skein. -/
def agentMem : Agent → MemAgent
  | .portA => .port .a
  | .portB => .port .b
  | .spindle n => .core n

/-- The fetched descriptors are accepted in address order until the first refusal (R292). -/
def batchDone (d : Dev) (a : Agent) (n : Nat) : Dev :=
  match d.batches.find? fun b => b.agent == a && b.ring == n with
  | none => d
  | some b =>
    let d : Dev := { d with batches := d.batches.erase b }
    ((List.range b.count).foldl (fun (x : Dev × Nat × Bool) i =>
      let (d, taken, go) := x
      if go then
        let (r, d) := d.read (agentMem a) (b.addr + 64 * i) 64
        let words := (List.range 16).map fun k => BitVec.ofNat 32 (elemAt 0 r.bytes k)
        let (d, ok) := d.submitOne a n taken words
        (d, if ok then taken + 1 else taken, ok)
      else x) (d, 0, true)).1

/-! ## Dispatch (R299–R303) -/

/-- Mover m is in service (R302). -/
def moverTask (d : Dev) (m : Nat) : Option (Nat × Task) :=
  d.taskList.find? fun e => e.2.st == .dispatched && d.ringClass e.2.ring == 3 && e.2.unit == m

/-- The candidates of a class in the order of R299. -/
def candidates (d : Dev) (c : Nat) : List (Nat × Task) :=
  sortBy (fun a b => decide (d.ringPrio a.2.ring < d.ringPrio b.2.ring) ||
      (d.ringPrio a.2.ring == d.ringPrio b.2.ring && decide (a.2.order ≤ b.2.order)))
    (d.taskList.filter fun e => e.2.st == .ready && d.ringClass e.2.ring == c && !d.frozen (ringPage e.2.ring))

/-- A task is dispatched to a unit: its votes stay until it retires, TASK_TMO begins, and LAT_LAST shows a free value (the latency in FABR clocks is open). -/
def dispatched (d : Dev) (s : Nat) (t : Task) (unit : Nat) : Dev :=
  let t : Task := { t with st := .dispatched, unit := unit, start := d.now, limit := (d.reg (ringPage t.ring) 0x060).toNat }
  let d := d.setTask s (some t)
  let d : Dev := { d with latLast := some d.free, free := d.free + 1 }
  (d.count 0x0E0 0x04C).traceEv 3 s t (unit * 256)

/-- A selected task goes to its engine once its regions run (R300); until then it votes for them. -/
def launch (d : Dev) (s : Nat) (t : Task) (rs : List Nat) (unit : Nat) (go : Dev → Dev) : Dev :=
  if d.regionsRun rs then go (d.dispatched s t unit)
  else d.voteFor s t rs

/-- Candidates offered in order to the units of their class (R299, R300): `pick` is the unit a task goes to, past those taken. The first
task whose unit's region runs is dispatched; one before it votes for its unit's region and keeps the unit. -/
def offer (pick : List Nat → Task → Option Nat) (region : Nat → Nat) (go : Nat → Nat → Task → Dev → Dev) :
    List (Nat × Task) → List Nat → Dev → Dev
  | [], _, d => d
  | (s, t) :: rest, taken, d =>
    match pick taken t with
    | none => offer pick region go rest taken d
    | some n =>
      if d.regionsRun [region n] then go n s t (d.dispatched s t n)
      else offer pick region go rest (n :: taken) (d.voteFor s t [region n])

/-- The idle core of a ring's CORE_MASK that a Spindle task goes to (R299), past those taken. -/
def idleCore (d : Dev) (taken : List Nat) (t : Task) : Option Nat :=
  (List.range 16).find? fun n => !taken.contains n && d.flag (ringPage t.ring) 0x040 (16 + n) && d.coreOffered n

/-- Spindle: the first candidate with an idle core goes to the lowest-numbered one (R299). -/
def dispatchSpindle (d : Dev) : Dev :=
  offer d.idleCore coreRegion (fun n s t d => d.coreTask (Fin.ofNat 16 n) s t) (d.candidates 0) [] d

/-- Flyer: streams that wait for lanes resume first; then the first candidate alone, once its lanes are free (R184, R299). A
frozen Flyer starts neither (R41). -/
def dispatchFlyer (d : Dev) : Dev :=
  if d.frozen 0x060 then d else
  let d := d.resumeAll
  match d.candidates 1 with
  | [] => d
  | (s, t) :: _ =>
    let e := bits (t.word 4) 7 0
    if t.kind = 3 then d.launch s t [] 0xFF fun d => d.stepTask s t
    else
      match d.startStatus e with
      | some st => d.launch s t [] 0xFF fun d => d.startAnswer e s t st
      | none =>
        let k := d.laneCount e
        match d.laneGroup k with
        | none => d
        | some b => whenServed (fun d => d.launch s t (laneRegions b k) b fun d => (d.takeLanes e b k).streamBegin e s t) d

/-- Loom: the first candidate alone, once no task is in service (R201, R299). -/
def dispatchLoom (d : Dev) : Dev :=
  match d.candidates 2 with
  | [] => d
  | (s, t) :: _ =>
    if d.loom.slot.isSome || d.frozen 0x0C0 then d
    else if d.closedAt (t.addr 0x10) then skeinVotes { d with demand := true }
    else
      let tiles := d.liveTiles (d.namedTiles t)
      if tiles.any d.lent then d.reclaimTiles tiles.contains
      else d.launch s t tiles 0xFF fun d => d.loomBegin s t

/-- The page of mover m. -/
def moverPage (m : Nat) : Nat := 0x0E4 + m

/-- The lowest-numbered idle mover past those taken (R299). -/
def idleMover (d : Dev) (taken : List Nat) (_ : Task) : Option Nat :=
  (List.range 4).find? fun m => !taken.contains m && (d.moverTask m).isNone && !d.frozen (moverPage m) && !d.retired (80 + m)

/-- A mover takes a task (R302); one of no bytes fails with FORMAT. -/
def moverTake (m s : Nat) (t : Task) (d : Dev) : Dev :=
  if t.word 8 = 0 then (d.retireTask s 0x50 0 0).advance
  else ((d.setReg (moverPage m) 0x040 (BitVec.ofNat 32 (1 + t.ring * 256))).setReg (moverPage m) 0x044 t.seq).setReg (moverPage m) 0x048 (t.word 8)

/-- Movers: the first candidate goes to the lowest-numbered idle one (R299). -/
def dispatchMover (d : Dev) : Dev := offer d.idleMover (80 + ·) moverTake (d.candidates 3) [] d

/-! ## The movers (R302) -/

/-- One line of a copy, or of a fill with an 8-byte pattern. -/
def moveLine (who : MemAgent) (t : Task) (x : Dev × Nat × Bool) (off n : Nat) : Dev × Nat × Bool :=
  let (d, po, ok) := x
  if t.kind = 5 then
    let (r, d) := d.read who (t.addr 0x10 + off) n
    let st := (readStatus r).getD 0
    if st ≠ 0 then (d, max po st, ok)
    else let (d, k) := d.write who (t.addr 0x18 + off) r.bytes; (d, po, ok && k)
  else
    let pat := bytesLE 8 ((t.word 6).toNat + (t.word 7).toNat * 2 ^ 32)
    let (d, k) := d.write who (t.addr 0x10 + off) ((List.range n).map fun i => pat.getD ((off + i) % 8) 0)
    (d, po, ok && k)

/-- DST of a mover task. -/
def moverDst (t : Task) : Nat := if t.kind = 5 then t.addr 0x18 else t.addr 0x10

/-- The parts of a move between 4 KiB boundaries of DST: their offsets and lengths. -/
def moveParts : Nat → Nat → Nat → Nat → List (Nat × Nat)
  | 0, _, _, _ => []
  | k + 1, dst, off, len =>
    if len = 0 then []
    else
      let n := min len (4096 - (dst + off) % 4096)
      (off, n) :: moveParts k dst (off + n) (len - n)

/-- One part of a move, by lines in ascending order. -/
def movePart (who : MemAgent) (t : Task) (d : Dev) (off n : Nat) : Dev × Nat × Bool :=
  (List.range (ceilDiv n 64)).foldl (fun x i => moveLine who t x (off + 64 * i) (min 64 (n - 64 * i))) (d, 0, true)

/-- A move runs from part to part: it ends at the first part that met poison or found no frame. -/
def moveRun (who : MemAgent) (t : Task) : List (Nat × Nat) → Dev → Nat → Dev × Nat × Nat
  | [], d, done => (d, done, 0)
  | (off, n) :: rest, d, done =>
    let (d, st, ok) := movePart who t d off n
    if st ≠ 0 then (d, done, st)
    else if !ok then (d, done, 0xF0)
    else moveRun who t rest d (done + n)

/-- A mover is done with a task (R302): its status, its bytes moved and its completion flags. -/
def moverDone (d : Dev) (m s : Nat) (r : Nat × Nat × Nat) : Dev :=
  ((d.setReg (moverPage m) 0x040 0).retireTask s r.1 (r.2.1 / 1024) r.2.2).advance

/-- A mover's move has ended: its task retires once another device has answered its writes there (R446, P3). -/
def moverFinish (d : Dev) (m s : Nat) (t : Task) (r : Nat × Nat × Nat) : Dev :=
  if d.unanswered (.engine (Fin.ofNat 4096 s)) then d.setTask s (some { t with moved := some r }) else d.moverDone m s r

/-- MOVER_RETIRE (R302): the task's copy or fill ends, after an abort at some 4 KiB boundary. -/
def moverRetire (d : Dev) (m : Nat) : Dev :=
  match d.moverTask m with
  | none => d
  | some (s, t) =>
   match t.moved with
   | some r => d.moverFinish m s t r
   | none =>
    let len := (t.word 8).toNat
    let parts := moveParts (len / 4096 + 2) (moverDst t) 0 len
    let (v, d) := d.fresh
    let parts := if t.abort then parts.take (v % (parts.length + 1)) else parts
    let (d, done, st) := moveRun (.engine (Fin.ofNat 4096 s)) t parts d 0
    let status := if st ≠ 0 then st else if t.abort then (abortStatus t).1 else 0
    d.moverFinish m s t (status, done, if st = 0 && t.abort then (abortStatus t).2 else 0)

/-! ## Writes that another device answers (R446, R449) -/

/-- Every write of an agent to other devices has been answered: what waited for them goes on (P3). -/
def writesDone (d : Dev) (who : MemAgent) : Dev :=
  if d.unanswered who then d
  else
    match who with
    | .producer => d.postOwed
    | .engine s =>
      (match d.task s.val with
        | none => d
        | some t =>
          if t.st ≠ .dispatched then d
          else match d.ringClass t.ring with
            | 1 => let e := bits (t.word 4) 7 0; if (d.stream e).due.isSome then d.chunkRetire e else d
            | 2 => d.loomDrained
            | 3 => (match t.moved with | some r => d.moverFinish t.unit s.val t r | none => d)
            | _ => d)
    | .core _ | .port _ => d

/-- A dispatched task's engine fails it with a status (R449, R330). -/
def engineFail (d : Dev) (s status : Nat) : Dev :=
  match d.task s with
  | none => d
  | some t =>
    if t.st ≠ .dispatched then d
    else match d.ringClass t.ring with
      | 1 => d.streamFault (bits (t.word 4) 7 0) status
      | 2 => d.loomFail status
      | 3 => d.moverDone t.unit s (status, 0, 0)
      | _ => (d.retireTask s status 0 0).advance

/-! ## Completion records (R296, R297) -/

/-- The completion event of ring n (R297, R432): to each port whose RING_IRQ names it, and to the cores its routes name. -/
def ringEvent (d : Dev) (n : Nat) : Dev :=
  let send (p : Port) (d : Dev) : Dev :=
    if d.flag p.page (0x048 + 4 * (n / 32)) (n % 32) then d.message p (d.field p.page (0x080 + 4 * (n / 4)) (8 * (n % 4) + 6) (8 * (n % 4))) else d
  forEach (d.routedCores 1 (ringPage n)) (fun c d => d.pend c 5) (send .b (send .a d))

/-- PHASE of the record that ring n posts next. -/
def ringPhase (d : Dev) (n : Nat) : Bool := !(Sparse.get (fun _ => false) d.phase n)

/-- The entries of a ring's completion queue. -/
def cqSize (d : Dev) (n : Nat) : Nat := 2 ^ max 4 (min 16 (d.field (ringPage n) 0x050 4 0))

/-- COMPLETION_POST (R297): the ring's next record, once its task has retired and the queue has room. -/
def completionPost (d : Dev) (n : Nat) : Dev :=
  let p := ringPage n
  let seq := d.reg p 0x068
  match d.taskList.find? fun e => e.2.ring == n && e.2.seq == seq && e.2.st == .retired with
  | none => d
  | some (s, t) =>
    let base := d.pair48 p 0x048 / 64 * 64
    let tail := (d.reg p 0x054).toNat
    let next := (tail + 1) % d.cqSize n
    if base ≠ 0 && next = (d.reg p 0x058).toNat then d
    else
      let free (d : Dev) : Dev := (((d.setTask s none).setReg p 0x068 (seq + 1)).traceEv 5 s t (t.status + t.unit * 256)).ringDrained n
      if base = 0 then free d
      else
        let rec_ := bytesLE 4 seq.toNat ++ bytesLE 4 t.tag.toNat ++ bytesLE 1 t.status ++ bytesLE 1 (t.cflags + (d.ringPhase n).toNat * 128) ++
          bytesLE 1 n ++ bytesLE 1 t.unit ++ bytesLE 4 t.progress
        let d := d.put .producer (base + 16 * tail) rec_
        let d := d.setReg p 0x054 (BitVec.ofNat 32 next)
        let d : Dev := if next = 0 then { d with phase := Sparse.put (fun _ => false) d.phase n (d.ringPhase n) } else d
        let d := if t.irq then d.ringEvent n else d
        free d

/-! ## Timeouts and aborts (R303, R308) -/

/-- An abort reaches the engine of a dispatched task. -/
def engineAbort (d : Dev) (t : Task) : Dev :=
  match d.ringClass t.ring with
  | 0 => (d.setCore t.unit { d.core t.unit with abort := true }).pend t.unit 2
  | 1 => if t.kind = 3 then d else d.flyerAbort (bits (t.word 4) 7 0) (abortStatus t).1
  | 2 => d.loomAbort
  | _ => d

/-- TASK_TIMEOUT (R303). -/
def taskTimeout (d : Dev) (s : Nat) : Dev :=
  match d.task s with
  | some t =>
    if t.st = .dispatched && t.limit ≠ 0 && t.start + t.limit ≤ d.now && !t.abort then
      let t : Task := { t with abort := true, tmo := true }
      (d.setTask s (some t)).engineAbort t
    else d
  | none => d

/-- A write of ABORT (R308). -/
def taskAbort (d : Dev) (n : Nat) (seq : Word) : Dev :=
  let p := ringPage n
  if d.flag p 0x084 8 then d.err p 4
  else
    let d := d.setReg p 0x080 seq
    if (seq - d.reg p 0x064).toNat < 2 ^ 31 then d.err p 4
    else
      match d.taskList.find? fun e => e.2.ring == n && e.2.seq == seq with
      | none => d.setReg p 0x084 2
      | some (s, t) =>
        match t.st with
        | .retired => (d.setReg p 0x084 2).traceEv 8 s t 2
        | .delayed | .flowWait | .ready =>
          ((((d.setReg p 0x084 1).count p 0x09C).traceEv 8 s t 1).cancelTask s 0x10 0).advance
        | .dispatched =>
          let t : Task := { t with abort := true, asked := true }
          (((d.setReg p 0x084 0x100).setTask s (some t)).traceEv 8 s t 1).engineAbort t

/-! ## Delay lists and flushes (R306, R307, R309) -/

/-- The register of delay list l. -/
def dlReg (l : Nat) : Nat := 0x040 + 0x20 * l

/-- DLd_CFG.EN = 1 written (R81, R306): the MARK belongs to the list. -/
def dlEnable (d : Dev) (l : Nat) : Dev :=
  if d.dlOn l then d
  else
    let d := d.setFlag 0x0E2 (dlReg l) 0 true
    (d.setReg 0x01B (0x040 + 0x20 * (28 + l)) (BitVec.ofNat 32 (d.field 0x0E2 (dlReg l) 6 4 * 2 + 7 * 256))).dlArm l

/-- DLd_CFG.EN = 0 written (R81, R307): every entry completes with 0x10 and DL_FLUSH in list order, and the MARK's registers are
back at their reset values. -/
def dlFlush (d : Dev) (l : Nat) : Dev :=
  if !d.dlOn l then d
  else
    let d := (d.dlEntries l).foldl (fun d e => d.cancelTask e.1 0x10 4) d
    let d := (d.setFlag 0x0E2 (dlReg l) 0 false).setPair48 0x0E2 (dlReg l + 0x10) 0
    (d.markForget (28 + l)).advance

/-- CMD.FLUSH = 1 written (R309). -/
def ringFlush (d : Dev) (n : Nat) : Dev := ((d.undispatched n).foldl (fun d e => d.cancelTask e.1 0x10 0) d).advance

/-! ## The error log (R322, R324, R326) -/

/-- A write of CLOSE (R322): the record closes and releases the domains it stopped. -/
def logClose (d : Dev) (eseq : Nat) : Dev :=
  match d.logWhere fun e => e.st == .opened && e.eseq == eseq with
  | i :: _ =>
    let d := (d.setLogEntry i { d.logEntry i with st := .closed }).setReg 0x0F0 0x04C 1
    ({ d with holds := d.holds.filter fun h => h.eseq != eseq } : Dev).advance
  | [] => (d.setReg 0x0F0 0x04C 2).err 0x0F0 5

/-- A write of CLR_OVF (R326). -/
def clrOvf (d : Dev) (v : Word) : Dev := if bit v 0 && d.openCount < 32 then d.setFlag 0x0F0 0x040 9 false else d

/-- The record whose recovery a task's status belongs to (R324): the one that holds its ring or its flow, lowest ESEQ first. -/
def recoveryRecord (d : Dev) (t : Task) : Option Nat :=
  d.lowestEseq (d.logWhere fun e => e.st != .free &&
    (e.dom == .ring t.ring || (t.hasFlow && e.flow == some t.flow) ||
      (t.status == 0x13 && (match e.dom with | .port _ => true | _ => false)) ||
      (t.status == 0x31 && (match e.dom with | .neighbour _ => true | _ => false))))

/-- RECORD_WRITE_TIMEOUT (R324): the ring's next record has a recovery status and its write did not complete. -/
def recordTimeout (d : Dev) (n : Nat) : Dev :=
  match d.taskList.find? fun e => e.2.ring == n && e.2.seq == d.reg (ringPage n) 0x068 && e.2.st == .retired with
  | some (_, t) =>
    if t.status = 0x12 || t.status = 0x13 || t.status = 0x31 || t.status = 0xF0 then
      (match d.recoveryRecord t with | some i => d.escalate i | none => d)
    else d
  | none => d

end Dev

/-! ## The commands -/

/-- SUBMIT_DIRECT (R292): any agent may submit. -/
def execSubmitDirect (ag : Agent) (ring : Fin 64) (d15 : Word) (s : State) : Host.Outcome State Fault Refusal :=
  onDev (Dev.anyWrite (ringPage ring.val) fun d => d.submitDirect ag ring.val d15) s

/-- SUBMIT_BATCH (R292). -/
def execSubmitBatch (ag : Agent) (ring : Fin 64) (n : Fin 512) (s : State) : Host.Outcome State Fault Refusal :=
  onDev (Dev.anyWrite (ringPage ring.val) fun d => d.submitBatch ag ring.val n.val) s

/-- BATCH_FETCH_DONE (R292). -/
def execBatchFetchDone (ag : Agent) (ring : Fin 64) (s : State) : Host.Outcome State Fault Refusal :=
  onDev (Dev.whenServed fun d => d.batchDone ag ring.val) s

/-- DISPATCH (R299). -/
def execDispatch (c : EngineClass) (s : State) : Host.Outcome State Fault Refusal :=
  onDev (fun d =>
    match c with
    | .spindle => d.dispatchSpindle
    | .flyer => d.dispatchFlyer
    | .loom => d.dispatchLoom
    | .mover => d.dispatchMover) s

/-- MOVER_RETIRE (R302). -/
def execMoverRetire (m : Fin 4) (s : State) : Host.Outcome State Fault Refusal := onDev (Dev.whenServed fun d => d.moverRetire m.val) s

/-- COMPLETION_POST (R297). -/
def execCompletionPost (ring : Fin 64) (s : State) : Host.Outcome State Fault Refusal := onDev (Dev.whenServed fun d => d.completionPost ring.val) s

/-- TASK_TIMEOUT (R303). -/
def execTaskTimeout (slot : Fin 4096) (s : State) : Host.Outcome State Fault Refusal := onDev (fun d => d.taskTimeout slot.val) s

/-- TASK_ABORT (R308): any agent may write ABORT. -/
def execTaskAbort (_ag : Agent) (ring : Fin 64) (seq : Word) (s : State) : Host.Outcome State Fault Refusal :=
  onDev (Dev.anyWrite (ringPage ring.val) fun d => d.taskAbort ring.val seq) s

/-- DL_ENABLE (R306). -/
def execDlEnable (ag : Agent) (d : Fin 4) (s : State) : Host.Outcome State Fault Refusal :=
  onDev (Dev.rwlWrite ag 0x0E2 fun x => x.dlEnable d.val) s

/-- DL_FLUSH (R307). -/
def execDlFlush (ag : Agent) (d : Fin 4) (s : State) : Host.Outcome State Fault Refusal :=
  onDev (Dev.rwlWrite ag 0x0E2 fun x => x.dlFlush d.val) s

/-- RING_FLUSH (R309): CMD is no RWL register, so any agent may write it. -/
def execRingFlush (_ag : Agent) (ring : Fin 64) (s : State) : Host.Outcome State Fault Refusal :=
  onDev (Dev.anyWrite (ringPage ring.val) fun d => d.ringFlush ring.val) s

/-- TRACE_CLOCK_EXPIRY (R311). -/
def execTraceClockExpiry (s : State) : Host.Outcome State Fault Refusal := onDev Dev.traceClock s

/-- LOG_CLOSE (R322): any agent may write CLOSE. -/
def execLogClose (_ag : Agent) (eseq : Word) (s : State) : Host.Outcome State Fault Refusal :=
  onDev (Dev.anyWrite 0x0F0 fun d => d.logClose eseq.toNat) s

/-- CLR_OVF (R326). -/
def execClrOvf (_ag : Agent) (value : Word) (s : State) : Host.Outcome State Fault Refusal :=
  onDev (Dev.anyWrite 0x0F0 fun d => d.clrOvf value) s

/-- RECORD_WRITE_TIMEOUT (R324). -/
def execRecordWriteTimeout (ring : Fin 64) (s : State) : Host.Outcome State Fault Refusal := onDev (fun d => d.recordTimeout ring.val) s

end Sys2Proof.Machine
end

