-- ==== Sys2Proof/Machine/Resets.lean ====
section
/-!
DEFINITION. What a chip reset leaves (20, R452): the device, the halt unit and the VSTBY domain. Shared by the chip resets, the
power-on resets and the power-down of OFF.
-/
namespace Sys2Proof.Machine

namespace Dev

/-- The encoders keep their pins' levels and nothing else. -/
def encoderPins (d : Dev) : Sparse Encoder :=
  (d.encoders.map fun e => (e.1, ({ a := e.2.a, b := e.2.b } : Encoder))).filter fun e => e.2 != {}

/-- STRAPS as the pins stand (R456); PLIM is not bonded on the SV960-TC. -/
def latchStraps (d : Dev) : Dev :=
  let v := d.board.straps.toNat
  let plim := match d.pkg with | .rm => v / 16 % 8 | .tc => 0
  d.setReg 0x002 0x048 (BitVec.ofNat 32 (v % 4 + plim * 16))

/-- A new NONCE (R479): its eight words are free values. -/
def newNonce (d : Dev) : Dev :=
  forEach (List.range 8) (fun i d => let (v, d) := d.fresh; d.setReg 0x005 (0x048 + 4 * i) (BitVec.ofNat 32 v)) d

/-- The device after a chip reset (R452): every register at its reset value but RST.CAUSE and the WAKE_N input's, which are in the
VSTBY domain; the package, the board, the flash, the levels of the input pins and the VSTBY domain's time stay. -/
def afterChip (d : Dev) : Dev :=
  let e : Dev := { pkg := d.pkg, free := d.free, board := d.board, flash := d.flash, thermIn := d.thermIn,
                   packSup := { pin := d.packSup.pin }, encoders := d.encoderPins, wakeN := d.wakeN, sio := d.sio }
  (((e.setReg 0x00C 0x044 (d.reg 0x00C 0x044)).setReg 0x002 0x040 (d.reg 0x002 0x040)).latchStraps).newNonce

/-- DSCOPE at every reset (R479): all ones with the DEBUG_OPEN fuse. -/
def resetScope (d : Dev) (open_ : Bool) : Dev := d.setReg 0x005 0x044 (if open_ then 0x3FFFF else 0)

end Dev

/-- The state after a chip reset, before the boot ROM runs (R452, R152): the halt unit is SAFE with its outputs inactive; the fuses
stay, and so do the commands that wait. -/
def State.afterChip (s : State) : State :=
  { s with halt := { fb := s.halt.fb }, dev := (s.dev.afterChip).resetScope s.fuses.debugOpen }

/-- OFF (R406): SYS_PWR_EN falls and everything outside the VSTBY domain is lost. -/
def State.powerDown (s : State) : State := let s := s.afterChip; { s with dev := { s.dev with power := .off } }

end Sys2Proof.Machine
end

