-- ==== Sys2Proof/Machine/Power.lean ====
section
/-!
DEFINITION. Power (17): regions and their regulators, entries and wakes, OFF and WAKE_N, and the loops AVS, DVFS, thermal and
droop.
-/
namespace Sys2Proof.Machine

namespace Dev

/-! ## Voltages and limits (R381–R383, R387, R391) -/

/-- The page of region r. -/
def regionPage (r : Nat) : Nat := 0x200 + r

/-- VLOG of region r in mV (R391): the AVS target while its regulator runs, 0.55 V in SLEEP, off otherwise. -/
def vlog (d : Dev) (r : Nat) : Nat :=
  let x := d.region r
  match x.st with
  | .run | .idle | .entering => x.mv
  | .sleep => 550
  | .waking => (match x.wake with | some w => if 1 ≤ w.step then x.mv else if w.former = .sleep then 550 else 0 | none => x.mv)
  | .deep | .off | .retired => 0

/-- VSRAM of region r in mV (R383, R391). -/
def vsram (d : Dev) (r : Nat) : Nat :=
  match (d.region r).st with
  | .run | .idle | .entering => min 950 (max 700 (d.vlog r + 50))
  | .waking => min 950 (max 700 (d.vlog r + 50))
  | .sleep => 700
  | .deep => if d.flag (regionPage r) 0x040 8 then 700 else 0
  | .off | .retired => 0

/-- The live phases of a regulator. -/
def livePhases (x : Region) : Nat := ((List.range 8).filter fun i => x.phases.testBit i).length

/-- ILIM of region r in mA (R381). -/
def ilim (d : Dev) (r : Nat) : Nat :=
  let x := d.region r
  ilimBase r * livePhases x / 8 / (if x.crack then 2 else 1)

/-- The strap value of the power limit in W (R387). -/
def strapLimit (d : Dev) : Nat :=
  match d.pkg with
  | .rm => [40, 60, 90, 120, 150, 180, 200, 220].getD (d.field 0x002 0x048 6 4) 40
  | .tc => 720

/-- The power limit in W (R387). -/
def powerLimit (d : Dev) : Nat := min d.strapLimit (max 10 (d.field 0x008 0x074 9 0))

/-! ## What a region's SRAM loses (R283, R391) -/

/-- The region whose SRAM holds a page's frame. -/
def frameRegion (x : Place) : Option Nat :=
  match x.tier with
  | 0 => some (x.frame / 32)
  | 1 => some (64 + x.frame / 32)
  | 2 => some (80 + x.frame / 6)
  | _ => none

/-- The pages in the frames of a region. -/
def regionPages (d : Dev) (r : Nat) : List Nat := (d.places.filter fun e => frameRegion e.2 == some r).map (·.1)

/-- A page whose frame lost its bytes: a CLEAN page goes back to its shadow in HBM; of any other every line counts as unwritten. -/
def pageLost (d : Dev) (p : Nat) : Dev :=
  let x := d.place p
  if x.clean then d.setPlace p { x with tier := 3, frame := 0, clean := false, allWritten := true }
  else (d.forgetPage p).setPlace p { x with allWritten := false, lostAll := 0 }

/-- Bytes and written bits of a direct range gone. -/
def forgetRange (d : Dev) (lo hi : Nat) : Dev :=
  { d with mem := Sparse.forget d.mem fun a => decide (lo ≤ a) && decide (a < hi)
           written := Sparse.forget d.written fun l => decide (lo ≤ 64 * l) && decide (64 * l < hi) }

/-- The frames of region r are not retained. -/
def framesLost (r : Nat) (d : Dev) : Dev := forEach (d.regionPages r) (fun p d => d.pageLost p) d

/-- Everything in the SRAM of region r is lost. -/
def sramLost (r : Nat) (d : Dev) : Dev :=
  let d := framesLost r d
  if 68 ≤ r && r < 76 then d.forgetRange (0x10000000000 + 0x400000 * (r - 68)) (0x10000000000 + 0x400000 * (r - 67))
  else if 76 ≤ r && r < 80 then d.forgetRange (0x10008000000 + 0x100000 * (r - 76)) (0x10008000000 + 0x100000 * (r - 75))
  else d

/-! ## A retired region (R334, R288, R220) -/

/-- A page in a retired region's frame: poisoned, and readable through a frame in HBM (R288). -/
def pageRetired (d : Dev) (p : Nat) : Dev :=
  (d.setPlace p { d.place p with tier := 3, frame := 0, clean := false, allWritten := true }).poisonPage p 1

/-- The tasks in service on the engines of region r complete with 0xF0 (R334). -/
def regionTasks (r : Nat) (d : Dev) : Dev :=
  let cores := (List.finRange 16).filter fun n => decide (coreRegion n.val = r)
  let d := cores.foldl (fun d n => d.coreRetire n 0xF0 0) d
  let streams := (List.range 256).filter fun e =>
    64 ≤ r && r < 68 && 0 < (d.stream e).lanes && (laneRegions (d.sfield e 0x28 23 20) (d.stream e).lanes).contains r
  let d := forEach streams (fun e d => d.streamFault e 0xF0) d
  match (if 80 ≤ r && r < 84 then d.moverTask (r - 80) else none) with
  | some (s, _) => d.moverDone (r - 80) s (0xF0, 0, 0)
  | none => d

/-- Region r is retired: its regulator off, its tasks failed, its pages poisoned, its record entered. -/
def retireRegion (r : Nat) (d : Dev) : Dev :=
  let old := d
  let d := d.setRegion r { d.region r with st := .retired, entry := none, wake := none, holdoff := none, gated := [], ungating := [] }
  let d := regionTasks r d
  let pages := d.regionPages r
  let d := forEach pages (fun p d => d.pageRetired p) d
  let d := sramLost r d
  let d := if (r < 68 || 80 ≤ r) && r < 88 then d.err 0x0D0 6 else d
  let d := if r < 64 then d.tileRetired else d
  (d.logContained { dom := .region r, srcPage := regionPage r }).clkSettle old

/-- CRACK on region r (R390). -/
def setCrack (d : Dev) (r : Nat) : Dev := d.setRegion r { d.region r with crack := true }

/-- A 1 written to CRACK_PRESET of region r (R390): the bit reads 1 (R5). -/
def crackPreset (d : Dev) (r : Nat) : Dev := (d.setFlag (regionPage r) 0x064 0 true).setCrack r

/-- Phase k of region r is lost (R389). -/
def phaseLost (r k : Nat) (d : Dev) : Dev :=
  let x := d.region r
  if x.st = .retired || !x.phases.testBit k then d
  else
    let y := { x with phases := x.phases - 2 ^ k }
    let d := ((d.setRegion r y).err (regionPage r) 1).err 0x008 6
    if livePhases y = 7 then d.logCorrected { srcPage := regionPage r, srcBit := 1 } else retireRegion r d

/-- A drop monitor's sample (R390): RATIO in 1/16, CNT 0 acts as 1. -/
def dropSample (c mv expected : Nat) (d : Dev) : Dev :=
  let p := 0x260 + c / 64
  let o := 0x040 + 4 * (c % 64)
  let r := Config.clusterRegion c % 96
  let d := (d.setField p o 11 0 mv).setField p o 22 16 r
  let n := if expected * d.field 0x260 0x140 7 0 < 16 * mv && 10 < mv then Sparse.get (fun _ => 0) d.drops c + 1 else 0
  let d : Dev := { d with drops := Sparse.put (fun _ => 0) d.drops c n }
  if max 1 (d.field 0x260 0x140 15 8) ≤ n && !d.flag p o 31 then
    let d := ((d.setFlag p o 31 true).setCrack r).setFlag 0x008 (0x084 + 4 * (c / 32)) (c % 32) true
    (d.err (regionPage r) 2).err 0x008 5
  else d

/-! ## OFF (R406) -/

/-- Region r goes through phase 1 for OFF: at once from a resting state, or with the entry it is in; a phase 2 or a wake in
progress ends first. -/
def offStart (r : Nat) (d : Dev) : Dev :=
  let x := d.region r
  match x.st with
  | .run | .idle | .sleep | .deep =>
    d.setRegion r { x with st := .entering, holdoff := none,
                           entry := some { target := .off, former := x.st, start := d.now, offReq := true } }
  | .entering =>
    (match x.entry with
      | some e => if e.phase2 then d else d.setRegion r { x with entry := some { e with target := .off, offReq := true } }
      | none => d)
  | .waking | .off | .retired => d

/-- Whether every block of region r has acknowledged the OFF request, or the region is retired. -/
def offReady (d : Dev) (r : Nat) : Bool :=
  let x := d.region r
  match x.entry with
  | some e => e.offReq && (regionBlocks r).all e.acked.contains
  | none => x.st == .retired

/-- Phase 2 of an OFF request starts once every block of every region has acknowledged (R399, R406). -/
def offPhase2 (d : Dev) : Dev :=
  if d.offReq && (List.range 96).all d.offReady then
    forEach (List.range 96) (fun r d =>
      let x := d.region r
      match x.entry with
      | some e => d.setRegion r { x with entry := some { e with phase2 := true, start := d.now } }
      | none => d) d
  else d

/-- A region's phase 1 is rolled back (R397): its blocks are ungated in reverse order and it is in the state it left. -/
def rollBack (r : Nat) (d : Dev) : Dev :=
  let x := d.region r
  match x.entry with
  | some e => d.setRegion r { x with st := e.former, entry := none, ungating := e.acked.reverse, ungateAt := d.now, gated := [] }
  | none => d

/-- The OFF request ends (R406): its entries are rolled back, and each region follows its target again. -/
def offRefused (cause : Nat) (d : Dev) : Dev :=
  let d := (d.setReg 0x008 0x080 (BitVec.ofNat 32 (1 + 2 * cause))).err 0x008 2
  let mine := (List.range 96).filter fun r => match (d.region r).entry with | some e => e.offReq && !e.phase2 | none => false
  let d := forEach mine rollBack { d with offReq := false }
  forEach mine (fun r d => d.settle r) d

/-! ## Entry (R395–R399) -/

/-- QUIESCE_WINDOW in µs. -/
def quiesceWindow (d : Dev) : Nat := max 1 (min 1000 (d.field 0x008 0x040 9 0))

/-- Block `page` of region r refuses with a code (R397). -/
def entryRefused (r page code : Nat) (d : Dev) : Dev :=
  let d := (d.setReg 0x008 0x048 (BitVec.ofNat 32 (page + code * 2 ^ 16 + r * 2 ^ 24))).count 0x008 0x04C
  match (d.region r).entry with
  | none => d
  | some e =>
    if e.offReq then offRefused 2 d
    else
      let d := rollBack r d
      let x := d.region r
      if x.retries < d.field 0x008 0x040 19 16 then
        d.setRegion r { x with holdoff := some (d.now + max 1 (d.field 0x008 0x044 15 0)), again := true }
      else
        ((d.setRegion r { x with failed := true }).setFlag 0x008 (0x054 + 4 * (r / 32)) (r % 32) true).err 0x008 0

/-- Lane n belongs to a stream in RUN, PAUSING, ENDING or HO_WAIT (R198). -/
def laneWorks (d : Dev) (n : Nat) : Bool :=
  !d.flag 0x060 0x048 n && [1, 2, 4, 6].contains (d.sstate (d.field 0x061 (0x040 + 4 * n) 7 0))

/-- Core n lets its region sleep (R358): it is not enabled, or it is in WFI or TWAIT with no task and no store outstanding. -/
def coreQuiet (d : Dev) (n : Fin 16) : Bool :=
  !(d.running (corePage n.val) || d.pageState (corePage n.val) == 3) ||
    (((d.core n.val).st == .wfi || (d.core n.val).st == .twait) && (d.core n.val).task.isNone && d.storesVisible n)

/-- Whorl core c keeps its region awake (R178): events wait in its queue or its window is open. -/
def whorlWorks (d : Dev) (c : Nat) : Bool := decide (0 < d.wdepth c) || d.wstate c == 2

/-- Whether a block refuses to quiesce with BUSY, where its chapter gives the answer (R178, R198, R219, R289, R358): a tile, Flyer's
lanes, the Whorl cores, the Spindle cores and Skein. -/
def quiesceBusy (d : Dev) (r page : Nat) : Option Bool :=
  if r < 64 then some (d.loom.slot.isSome && d.loom.tiles.testBit r)
  else if r < 68 then some (page == 0x061 && (List.range 4).any fun i => d.laneWorks (4 * (r - 64) + i))
  else if r < 76 then some ((List.range 16).any fun i => d.whorlWorks (16 * (r - 68) + i))
  else if r < 80 then some ((List.range 4).any fun i => !d.coreQuiet (Fin.ofNat 16 (4 * (r - 76) + i)))
  else if r < 88 then some (!d.migs.isEmpty)
  else none

/-- The answer of a block: the one its chapter gives, or else its own. -/
def quiesceGives (d : Dev) (r page : Nat) (ans : Quiesce) : Quiesce :=
  match d.quiesceBusy r page with
  | some true => .refuse 1
  | some false => .ack
  | none => ans

/-- A block answers (R395): the last ACK starts phase 2. -/
def quiesceAnswer (r page : Nat) (ans : Quiesce) (d : Dev) : Dev :=
  let x := d.region r
  match x.entry with
  | none => d
  | some e =>
    if e.phase2 || !(regionBlocks r).contains page || e.acked.contains page then d
    else
      match d.quiesceGives r page ans with
      | .refuse code => entryRefused r page code.val d
      | .ack =>
        let acked := e.acked ++ [page]
        let all := (regionBlocks r).all acked.contains
        let e := { e with acked := acked }
        let e := if all && !e.offReq then { e with phase2 := true, start := d.now } else e
        (d.setRegion r { x with entry := some e, gated := x.gated ++ [page] }).offPhase2

/-- QUIESCE_WINDOW has passed: the first block without an answer counts as REFUSE with NO_ANSWER (R395). -/
def quiesceTimeout (r : Nat) (d : Dev) : Dev :=
  match (d.region r).entry with
  | none => d
  | some e =>
    if e.phase2 || d.now < e.start + d.quiesceWindow then d
    else
      match (regionBlocks r).find? fun p => !e.acked.contains p with
      | some p => entryRefused r p 2 d
      | none => d

/-- The entry is tried again if the target still asks for it; the attempt counts as a retry unless the target changed during the
hold-off (R397). -/
def retryEntry (r : Nat) (d : Dev) : Dev :=
  let x := d.region r
  let d := (d.setRegion r { x with holdoff := none, again := false }).settle r
  let y := d.region r
  if y.st = .entering && x.again then d.setRegion r { y with retries := y.retries + 1 } else d

/-- RETRY_HOLDOFF has passed. -/
def holdoffExpiry (r : Nat) (d : Dev) : Dev :=
  match (d.region r).holdoff with
  | some t => if t ≤ d.now then retryEntry r d else d
  | none => d

/-- A write of a RETRY bit (R397): a failed entry starts anew, one in its hold-off at once. -/
def entryRetry (r : Nat) (d : Dev) : Dev :=
  let x := d.region r
  if x.failed then retryEntry r (d.setRegion r { x with failed := false, retries := 0, again := false })
  else if x.holdoff.isSome then retryEntry r d
  else d

/-- A block has not reported ungated 10 µs after a rollback (R398). -/
def ungateTimeout (r page : Nat) (d : Dev) : Dev :=
  let x := d.region r
  if x.ungating.contains page && x.ungateAt + 10 ≤ d.now then
    let d := d.setRegion r { x with st := .run, entry := none, ungating := x.ungating.erase page, gated := x.gated ++ [page] }
    let d := (d.logRaised { dom := .region r, srcPage := 0x008, srcBit := 1 }).err 0x008 1
    d.pageFault page 31
  else d

/-! ## Wakes (R400–R404) -/

/-- The wake of region r is complete: it reports RUN, and then follows its target (R404). -/
def wakeDone (r : Nat) (d : Dev) : Dev :=
  let old := d
  let d := (d.setRegion r { d.region r with st := .run, wake := none, timeouts := 0 }).settle r
  let d := if d.offReq then offStart r d else d
  d.clkSettle old

/-- A step of the wake of region r is over. -/
def wakeStep (r : Nat) (d : Dev) : Dev :=
  let x := d.region r
  match x.wake with
  | none => d
  | some w =>
    if 3 ≤ w.step then wakeDone r d
    else (d.setRegion r { x with wake := some { w with step := w.step + 1, stepAt := d.now } }).clkSettle d

/-- RCFG.WAKE_MODE: TABLE. -/
def tableMode (d : Dev) (r : Nat) : Bool := d.flag (regionPage r) 0x040 9

/-- A ready signal in CHAINED mode (R400). -/
def wakeReady (r : Nat) (d : Dev) : Dev := if d.tableMode r then d else wakeStep r d

/-- The duration in µs of step k of a wake (R401, R402): from SLEEP or DEEP, with PLL0's start in the oscillator step where the
region needs it and it is stopped. -/
def stepTime (d : Dev) (former : RegSt) (k : Nat) : Nat :=
  let t (o : Nat) : Nat := d.field 0x00B o 11 0
  let deep := former == .deep
  match k with
  | 0 => if deep then t 0x044 else t 0x040
  | 1 => (if deep then t 0x04C else t 0x048) + (if d.flag 0x012 0x040 4 && d.pll0Needed && !d.pllLocked 0 then t 0x050 else 0)
  | 2 => if deep then t 0x058 else t 0x054
  | _ => if deep then t 0x060 else t 0x05C

/-- The delay of a step in TABLE mode is over (R401): after the last one isolation is held until all ready signals are asserted. -/
def tableStep (r : Nat) (ready : Bool) (d : Dev) : Dev :=
  let x := d.region r
  match x.wake with
  | none => d
  | some w =>
    if !d.tableMode r then d
    else if w.early then (if ready then wakeDone r d else d)
    else if d.now < w.stepAt + d.stepTime w.former w.step then d
    else if w.step = 3 && !ready then (d.setRegion r { x with wake := some { w with early := true } }).err 0x008 4
    else wakeStep r d

/-- A wake that is not complete after WAKE_TMO (R403): back to the former state through phase 2; the second in a row retires the
region. -/
def wakeTimeout (r : Nat) (d : Dev) : Dev :=
  let x := d.region r
  match x.wake with
  | none => d
  | some w =>
    if d.now < w.start + max 1 (d.field 0x00B 0x064 15 0) then d
    else if 1 ≤ x.timeouts then retireRegion r d
    else
      let e : Entry := { target := w.former, former := w.former, phase2 := true, start := d.now }
      ((d.setRegion r { x with st := .entering, wake := none, entry := some e, timeouts := x.timeouts + 1 }).err (regionPage r) 3).err 0x008 3

/-! ## Phase 2 (R399) -/

/-- Phase 2 of region r completes: the state is reached, SRAM that is not retained is lost, and a target that became shallower
wakes the region. A Whorl store and the cores' local SRAM are retained in DEEP (R178, R358), whatever DEEP_RET says (log entry 192). -/
def phase2Done (r : Nat) (d : Dev) : Dev :=
  let x := d.region r
  match x.entry with
  | none => d
  | some e =>
    if !e.phase2 then d
    else
      let old := d
      let d := d.setRegion r { x with st := e.target, entry := none, gated := [], retries := 0, again := false }
      let d := if e.target = .deep && !d.flag (regionPage r) 0x040 8 then framesLost r d else d
      if e.target = .off then d.clkSettle old
      else
        let d := if d.offReq then offStart r d else d.settle r
        d.clkSettle old

/-- Every region is off after an OFF request, or retired. -/
def allOff (d : Dev) : Bool :=
  d.offReq && (List.range 96).all fun r => match (d.region r).st with | .off | .retired => true | _ => false

/-! ## AVS (R382) -/

/-- AVS_BOUNDS of region r: MAX below MIN acts as MIN (R25). -/
def avsMin (d : Dev) (r : Nat) : Nat := d.field (regionPage r) 0x048 9 0
def avsMax (d : Dev) (r : Nat) : Nat := max (d.avsMin r) (d.field (regionPage r) 0x048 25 16)

/-- AVS_FIX of region r, clamped to the regulator's range, if FIX_EN is set (R26). -/
def avsFix (d : Dev) (r : Nat) : Option Nat :=
  if d.flag (regionPage r) 0x04C 31 then some (max 550 (min 900 (d.field (regionPage r) 0x04C 9 0))) else none

/-- The highest VLOG that region r may take. -/
def avsTop (d : Dev) (r : Nat) : Nat := match d.avsFix r with | some f => f | none => min 900 (d.avsMax r)

/-- One AVS step of 5 mV (R24, R26, R382): toward FIX or the nearer bound, up while the voltage is below the fused minimum of F
or of the F that DVFS waits for, else by the timing margin; never below the fused minimum for F. -/
def avsNext (d : Dev) (r v : Nat) (margin : Bool) : Nat :=
  let floor := Config.fusedMv (d.reg 0x009 0x040).toNat
  let want := match d.fWant with | some f => Config.fusedMv f | none => floor
  let up := if v + 5 ≤ 900 then v + 5 else v
  let down := if 555 ≤ v && floor + 5 ≤ v then v - 5 else v
  match d.avsFix r with
  | some f => if v + 5 ≤ f then up else if f + 5 ≤ v then down else v
  | none =>
    if v < d.avsMin r then up
    else if d.avsMax r < v then down
    else if v < max floor want && v + 5 ≤ d.avsMax r then up
    else if margin then (if d.avsMin r + 5 ≤ v && max floor want + 5 ≤ v then down else v)
    else if v + 5 ≤ d.avsMax r then up else v

/-- AVS acts on region r while its regulator is at the AVS target. -/
def avsStep (r : Nat) (margin : Bool) (d : Dev) : Dev :=
  let x := d.region r
  match x.st with
  | .run | .idle => (d.setRegion r { x with mv := d.avsNext r x.mv margin }).clkSettle d
  | _ => d

/-- The droop loop engages (R384): OVERRIDE and the region's DROOP bit. The current that reached ILIM is a free value. -/
def droop (r : Nat) (k : DroopKind) (d : Dev) : Dev :=
  let d := (d.count (regionPage r) 0x060).err (regionPage r) 4
  match k with
  | .current => let (v, d) := d.fresh; d.setReg (regionPage r) 0x05C (BitVec.ofNat 32 v)
  | .droop | .overshoot => d

/-! ## DVFS (R385, R414) -/

/-- The bounds of F. -/
def dvfsMin (d : Dev) : Nat := d.field 0x009 0x044 11 0
def dvfsMax (d : Dev) : Nat := max d.dvfsMin (d.field 0x009 0x044 27 16)

/-- Where DVFS slews to (R24, R26, R385): FIX, or the nearest step within the bounds, all within 800–3,200 MHz; `none` where it may
adapt. F moves in steps of 100 MHz: it goes to the step nearest to a FIX that is no step, and where no step lies within the bounds,
to the nearer of the two steps beside them (log entry 193). -/
def dvfsGoal (d : Dev) (f : Nat) : Option Nat :=
  let clamp (x : Nat) : Nat := max 800 (min 3200 x)
  if d.flag 0x009 0x048 31 then some ((clamp (d.field 0x009 0x048 11 0) + 50) / 100 * 100)
  else
    let up := ceilDiv (clamp d.dvfsMin) 100 * 100
    let down := clamp d.dvfsMax / 100 * 100
    if up ≤ down then (if f < up then some up else if down < f then some down else none)
    else if f < down then some down else if up < f then some up else some f

/-- Every region in RUN is at the fused voltage for f (R385). -/
def voltsFor (d : Dev) (f : Nat) : Bool :=
  (List.range 96).all fun r => d.regionNow r != .run || decide (Config.fusedMv f ≤ (d.region r).mv)

/-- A region's bounds or FIX require a VLOG below the fused minimum for f (R382). -/
def avsPulls (d : Dev) (f : Nat) : Bool :=
  (List.range 96).any fun r => d.regionNow r == .run && decide (d.avsTop r < Config.fusedMv f)

/-- F rises by one step once the voltages allow it; until then DVFS waits for them. -/
def fRise (d : Dev) : Dev :=
  let f := (d.reg 0x009 0x040).toNat + 100
  if d.voltsFor f then ({ d with fWant := none } : Dev).setReg 0x009 0x040 (BitVec.ofNat 32 f) else { d with fWant := some f }

/-- F falls by one step. -/
def fFall (d : Dev) : Dev :=
  let f := (d.reg 0x009 0x040).toNat
  if 900 ≤ f then ({ d with fWant := none } : Dev).setReg 0x009 0x040 (BitVec.ofNat 32 (f - 100)) else d

/-- Slews F by one step toward a goal, which is a step (log entry 193). -/
def fSlew (goal : Nat) (d : Dev) : Dev :=
  let f := (d.reg 0x009 0x040).toNat
  if f + 100 ≤ goal then d.fRise else if goal + 100 ≤ f then d.fFall else d

/-- A 100 µs interval of DVFS (R385): it holds while the root runs from FIO or XTA (R416) and during a root switch (R414); a voltage limit that F violates, FIX and the bounds
slew F by one step per 20 µs; else F adapts by one step. -/
def dvfsInterval (busy idle : Bool) (d : Dev) : Dev :=
  let old := d
  let f := (d.reg 0x009 0x040).toNat
  if d.rootCur ≠ 2 || d.clk.target.isSome then d
  else
    let power := (d.reg 0x008 0x078).toNat
    let d :=
      if d.avsPulls f then d.fFall
      else
        match d.dvfsGoal f with
        | some g => forEach (List.range 5) (fun _ d => if d.avsPulls ((d.reg 0x009 0x040).toNat + 100) && decide (f < g) then d else fSlew g d) d
        | none =>
          if busy && power < 9 * d.powerLimit then
            (if f + 100 ≤ min 3200 d.dvfsMax && !d.avsPulls (f + 100) then d.fRise else d)
          else if idle then (if d.dvfsMin + 100 ≤ f then d.fFall else d)
          else { d with fWant := none }
    d.clkSettle old

/-! ## Thermal (R386, R388) -/

/-- TEMPk in 0.25 °C. -/
def temp (d : Dev) (k : Nat) : Int := signedOf 16 (d.field 0x014 (0x040 + 4 * k) 15 0)

/-- THROT_T in 0.25 °C. -/
def throtT (d : Dev) : Int := 4 * ((max 70 (min 110 (d.field 0x014 0x080 7 0)) : Nat) : Int)

/-- The throttle after a sample (R386): T_CAP falls while a sensor or the power is too high, and rises one step per 1 ms while all
are low enough. -/
def throttleStep (d : Dev) : Dev :=
  let power := (d.reg 0x008 0x078).toNat
  let cap := (d.reg 0x009 0x04C).toNat
  let hot := (List.range 16).any (fun k => decide (d.throtT ≤ d.temp k)) || decide (10 * d.powerLimit < power)
  let cool := (List.range 16).all (fun k => decide (d.temp k < d.throtT - 20)) && decide (2 * power < 19 * d.powerLimit)
  if hot then
    let d := if d.throttle then d else (d.count 0x009 0x050).err 0x014 0
    ({ d with throttle := true, capAt := d.now } : Dev).setReg 0x009 0x04C (BitVec.ofNat 32 (max 800 (cap - 100)))
  else if cool then
    let d : Dev := { d with throttle := false }
    if cap < 3200 && d.capAt + 1000 ≤ d.now then
      ({ d with capAt := d.now } : Dev).setReg 0x009 0x04C (BitVec.ofNat 32 (min 3200 (cap + 100)))
    else d
  else { d with throttle := false, capAt := d.now }

/-- The sensors' readings of one sample, and the package power averaged over 1 ms, which is a free value. -/
def takeSample (temps : List Int) (d : Dev) : Dev :=
  let d := forEach (List.range (min 16 temps.length)) (fun k d =>
    d.setReg 0x014 (0x040 + 4 * k) (BitVec.ofNat 32 (BitVec.ofInt 16 (temps.getD k 0)).toNat)) d
  let (v, d) := d.fresh
  d.setReg 0x008 0x078 (BitVec.ofNat 32 v)

/-- The sensor that reads 115 °C or more in two consecutive samples. -/
def tripSensor (old new : Dev) : Option Nat := (List.range 16).find? fun k => decide (460 ≤ old.temp k) && decide (460 ≤ new.temp k)

/-- The thermal trip (R388): every region off without quiesce, its state lost. -/
def thermalTrip (k : Nat) (d : Dev) : Dev :=
  let d := (d.setReg 0x014 0x084 (BitVec.ofNat 32 (1 + k * 256))).err 0x014 1
  let d := forEach (List.range 96) (fun r d =>
    let x := d.region r
    let d := sramLost r d
    if x.st = .retired then d
    else d.setRegion r { x with st := .off, entry := none, wake := none, holdoff := none, gated := [], ungating := [] }) d
  ({ d with offReq := false } : Dev).logSafety { srcPage := 0x014, srcBit := 1 }

/-! ## WAKE_N (R405, R408, R409) -/

/-- 100 ms without a request open a masked limiter (R409): its register is read, and the next wake judged, after this. -/
def wakeNOpen (d : Dev) : Dev :=
  if d.flag 0x00C 0x044 2 && d.wakeN.last + 100000 ≤ d.sio then
    ({ d with wakeN := { d.wakeN with passed := [] } } : Dev).setFlag 0x00C 0x044 2 false
  else d

/-- An accepted wake goes through the limiter (R409); the flag says whether it passes. -/
def wakeNLimit (d : Dev) : Dev × Bool :=
  let d := d.wakeNOpen
  let recent := d.wakeN.passed.filter fun t => decide (d.sio < t + 1000000)
  let storm (d : Dev) : Dev := ({ d with wakeN := { d.wakeN with last := d.sio } } : Dev).count 0x00C 0x04C
  if d.flag 0x00C 0x044 2 then (storm d, false)
  else if 8 ≤ recent.length then ((storm d).setFlag 0x00C 0x044 2 true, false)
  else (({ d with wakeN := { passed := recent ++ [d.sio], last := d.sio } } : Dev).count 0x00C 0x048, true)

/-- An accepted wake while the device is powered (R408). -/
def wakeNAct (d : Dev) : Dev :=
  let core := d.field 0x00C 0x040 15 12
  let d := d.pend core 5
  let d := if d.flag 0x00C 0x040 16 then (d.setCore core { d.core core with voteWake := true }).settle (coreRegion core) else d
  if d.flag 0x00C 0x040 8 then
    d.wakeArrive { src := 0, score := 0xFF, stream := d.field 0x00C 0x040 7 0, kind := 4, reelCh := 0, pos := 0, at_ := d.now }
  else d

end Dev

/-! ## The commands -/

/-- QUIESCE_ANSWER (R395). -/
def execQuiesceAnswer (r : Fin 96) (page : Fin 8192) (ans : Quiesce) (s : State) : Host.Outcome State Fault Refusal :=
  onDev (Dev.quiesceAnswer r.val page.val ans) s

/-- QUIESCE_TIMEOUT (R395). -/
def execQuiesceTimeout (r : Fin 96) (s : State) : Host.Outcome State Fault Refusal := onDev (Dev.quiesceTimeout r.val) s

/-- RETRY_HOLDOFF_EXPIRY (R397). -/
def execRetryHoldoffExpiry (r : Fin 96) (s : State) : Host.Outcome State Fault Refusal := onDev (Dev.holdoffExpiry r.val) s

/-- ENTRY_RETRY_WRITE (R397): RETRY is W1S, so any agent may write it. -/
def execEntryRetryWrite (_ag : Agent) (w : Fin 3) (bitsSet : Word) (s : State) : Host.Outcome State Fault Refusal :=
  onDev (forEach ((List.range 32).filter (bit bitsSet)) fun i d => Dev.entryRetry (32 * w.val + i) d) s

/-- UNGATE_TIMEOUT (R398). -/
def execUngateTimeout (r : Fin 96) (page : Fin 8192) (s : State) : Host.Outcome State Fault Refusal :=
  onDev (Dev.ungateTimeout r.val page.val) s

/-- PHASE2_DONE (R399, R406). -/
def execPhase2Done (r : Fin 96) (s : State) : Host.Outcome State Fault Refusal :=
  onState (fun s =>
    let d := Dev.phase2Done r.val s.dev
    let s : State := { s with dev := d }
    if d.allOff then s.powerDown else s) s

/-- WAKE_STEP_READY (R400). -/
def execWakeStepReady (r : Fin 96) (s : State) : Host.Outcome State Fault Refusal := onDev (fun d => (d.wakeReady r.val).serveWaits) s

/-- WAKE_TABLE_STEP (R401). -/
def execWakeTableStep (r : Fin 96) (allReady : Bool) (s : State) : Host.Outcome State Fault Refusal :=
  onDev (fun d => (d.tableStep r.val allReady).serveWaits) s

/-- WAKE_TIMEOUT (R403). -/
def execWakeTimeout (r : Fin 96) (s : State) : Host.Outcome State Fault Refusal := onCores (Dev.wakeTimeout r.val) s

/-- AVS_STEP (R382). -/
def execAvsStep (r : Fin 96) (margin : Bool) (s : State) : Host.Outcome State Fault Refusal := onDev (Dev.avsStep r.val margin) s

/-- DVFS_INTERVAL (R385). -/
def execDvfsInterval (anyBusy90 allBelow50 : Bool) (s : State) : Host.Outcome State Fault Refusal :=
  onDev (Dev.dvfsInterval anyBusy90 allBelow50) s

/-- THERMAL_SAMPLE (R386, R388). -/
def execThermalSample (temps : List Int) (s : State) : Host.Outcome State Fault Refusal :=
  onState (fun s =>
    let d := Dev.takeSample temps s.dev
    let trip := if s.dev.flag 0x014 0x084 0 then none else Dev.tripSensor s.dev d
    let d := Dev.throttleStep d
    match trip with
    | some k =>
      let d := (Dev.thermalTrip k d).clkSettle s.dev
      let s := ({ s with dev := d } : State).thermTrip true
      { s with dev := s.dev.packChg }
    | none => { s with dev := d.clkSettle s.dev }) s

/-- DROOP_ENGAGE (R384). -/
def execDroopEngage (r : Fin 96) (k : DroopKind) (s : State) : Host.Outcome State Fault Refusal := onDev (Dev.droop r.val k) s

/-- PHASE_LOSS (R389). -/
def execPhaseLoss (r : Fin 96) (phase : Fin 8) (s : State) : Host.Outcome State Fault Refusal :=
  onCores (Dev.phaseLost r.val phase.val) s

/-- DROP_MONITOR_SAMPLE (R390). -/
def execDropMonitorSample (c : Fin 512) (mv expectedMv : BitVec 12) (s : State) : Host.Outcome State Fault Refusal :=
  onDev (Dev.dropSample c.val mv.toNat expectedMv.toNat) s

/-- CRACK_PRESET (R390): a W1S register, so any agent may write it. -/
def execCrackPreset (_ag : Agent) (r : Fin 96) (s : State) : Host.Outcome State Fault Refusal :=
  onDev (fun d => d.crackPreset r.val) s

/-- A write of PWR.OFF (R406). -/
def State.writeOff (v : Word) (s : State) : State :=
  if v ≠ 0xFF5 || s.dev.offReq then s
  else if s.halt.st.driving then { s with dev := Dev.offRefused 1 s.dev }
  else
    let d : Dev := { s.dev.setReg 0x008 0x080 0 with offReq := true }
    { s with dev := (forEach (List.range 96) Dev.offStart d).offPhase2 }

/-- OFF_REQUEST (R406): any agent may write PWR.OFF. -/
def execOffRequest (_ag : Agent) (value : Word) (s : State) : Host.Outcome State Fault Refusal := onState (State.writeOff value) s

/-- WAKE_N_ARM (R405): high for 10 ms. -/
def execWakeNArm (s : State) : Host.Outcome State Fault Refusal :=
  .next { s with dev := s.dev.setReg 0x00C 0x044 (s.dev.reg 0x00C 0x044 &&& 4 ||| 3) }

/-- WAKE_N_ACCEPT (R405–R409): an armed WAKE_N low for 50 µs. In OFF one that the limiter passes raises SYS_PWR_EN. -/
def execWakeNAccept (s : State) : Host.Outcome State Fault Refusal :=
  .next (
    if s.dev.flag 0x00C 0x044 1 then
      let (d, pass) := (s.dev.setReg 0x00C 0x044 (s.dev.reg 0x00C 0x044 &&& 4)).wakeNLimit
      if !pass then { s with dev := d }
      else
        match d.power with
        | .off => { s with dev := { d with power := .waking } }
        | .on => { s with dev := d.wakeNAct }
        | .waking | .brownedOut => { s with dev := d }
    else s)

/-- WAKE_N_STUCK (R405): low for 1 s. -/
def execWakeNStuck (s : State) : Host.Outcome State Fault Refusal :=
  .next { s with dev := s.dev.setReg 0x00C 0x044 (s.dev.reg 0x00C 0x044 &&& 6 ||| 8) }

end Sys2Proof.Machine
end

