-- ==== Sys2Proof/Machine/Boot.lean ====
section
/-!
DEFINITION. Resets, boot, fuses, flash, the update journal and the debug port (20).
-/
namespace Sys2Proof.Machine

/-! ## The flash and the journal (R465–R471) -/

namespace Dev

/-- Byte `a` of the flash; an erased byte reads 0xFF. -/
def flashByte (d : Dev) (a : Nat) : Byte := Sparse.get (fun _ => 0xFF) d.flash a

def flashBytes (d : Dev) (a n : Nat) : List Byte := (List.range n).map fun i => d.flashByte (a + i)

/-- A range erased. -/
def flashErase (d : Dev) (a n : Nat) : Dev :=
  { d with flash := Sparse.forget d.flash fun b => decide (a ≤ b) && decide (b < a + n) }

/-- Bytes programmed: bits go from 1 to 0 only. -/
def flashPut (d : Dev) (a : Nat) (l : List Byte) : Dev :=
  (l.foldl (fun (x : Dev × Nat) b =>
    ({ x.1 with flash := Sparse.put (fun _ => 0xFF) x.1.flash x.2 (x.1.flashByte x.2 &&& b) }, x.2 + 1)) (d, a)).1

end Dev

/-- A journal record (R467): its 256 bytes. -/
abbrev JRec := List Byte

namespace JRec

/-- The little-endian number of `n` bytes at an offset. -/
def num (r : JRec) (o n : Nat) : Nat := ofBytesLE ((r.drop o).take n)

def seq (r : JRec) : Nat := r.num 4 4
def state (r : JRec) : Nat := r.num 8 1
def kind (r : JRec) : Nat := r.num 9 1
def active (r : JRec) : Nat := r.num 0xA 1
def target (r : JRec) : Nat := r.num 0xB 1
def setCur (r : JRec) : Nat := r.num 0xD 1
def setNew (r : JRec) : Nat := r.num 0xE 1

/-- A record with a byte replaced. -/
def setByte (r : JRec) (o v : Nat) : JRec := r.set o (BitVec.ofNat 8 v)

/-- A record with its CRC filled in. -/
def sealed (r : JRec) : JRec := r.take 0xFC ++ bytesLE 4 (crc32 (r.take 0xFC)).toNat

/-- A record with a SEQ and its CRC (R468). -/
def stamped (r : JRec) (seq : Nat) : JRec := sealed (r.take 4 ++ bytesLE 4 seq ++ r.drop 8)

/-- A record whose MAGIC and CRC are correct (R467). -/
def valid (r : JRec) : Bool := r.take 4 == [0x42, 0x4B, 0x4A, 0x31] && r == sealed r

/-- What the ROM acts on where there is no valid record (R467): IDLE, ACTIVE A, SET_CUR 0. -/
def none_ : JRec := List.replicate 14 0 ++ [0xFF] ++ List.replicate 241 0

/-- The fields of a record are well-formed: MAGIC, known codes, zeros elsewhere (R467). -/
def formed (r : JRec) : Bool :=
  r.take 4 == [0x42, 0x4B, 0x4A, 0x31] && decide (r.state ≤ 6) && decide (r.kind ≤ 1) && (r.kind == 0 || r.state == 4) &&
  decide (r.active ≤ 1) && decide (r.target ≤ 1) && decide (r.num 0xC 1 ≤ 4) && decide (r.setCur ≤ 1) &&
  (decide (r.setNew ≤ 1) || r.setNew == 0xFF) && r.num 0xF 1 == 0 && r.num 0x1C 4 == 0 && r.num 0x80 (0xFC - 0x80) == 0

end JRec

namespace Dev

/-- Journal record k (R466). -/
def journal (d : Dev) (k : Nat) : JRec := d.flashBytes (0x10000 + 0x1000 * k) 256

/-- Which record wins (R467): the valid one with the higher SEQ, record 0 where both have the same. -/
def journalWin (d : Dev) : Option Nat :=
  let a := d.journal 0
  let b := d.journal 1
  if a.valid then (if b.valid && a.seq < b.seq then some 1 else some 0)
  else if b.valid then some 1 else none

/-- The winning record. -/
def winner (d : Dev) : JRec := match d.journalWin with | some k => d.journal k | none => JRec.none_

/-- A record programmed into the sector that does not hold the winning record, which is erased first; then the older sector is
erased (R468). -/
def journalWrite (d : Dev) (r : JRec) : Dev :=
  let k := match d.journalWin with | some k => 1 - k | none => 0
  let d := (d.flashErase (0x10000 + 0x1000 * k) 0x1000).flashPut (0x10000 + 0x1000 * k) r
  d.flashErase (0x10000 + 0x1000 * (1 - k)) 0x1000

/-- A record of the boot ROM's: the winning one with a new STATE, KIND STATE and a REASON (R470). -/
def romCommit (d : Dev) (state reason : Nat) : Dev :=
  let w := d.winner
  d.journalWrite ((((w.setByte 8 state).setByte 9 0).setByte 0xC reason).stamped (w.seq + 1))

/-- Whether settings copy c has a correct MAGIC and CRC (R474). -/
def settingsValid (d : Dev) (c : Nat) : Bool :=
  let a := 0x20000 + 0x10000 * c
  let len := ofBytesLE (d.flashBytes (a + 0xC) 4)
  d.flashBytes a 4 == [0x42, 0x4B, 0x53, 0x54] && decide (1 ≤ len) && decide (len ≤ 65504) &&
  ofBytesLE (d.flashBytes (a + 0x10) 4) == (crc32 (d.flashBytes (a + 0x20) len)).toNat

/-- The flash offset of a slot: 0 A, 1 B (R466). -/
def slotAddr (s : Nat) : Nat := if s = 0 then 0x100000 else 0x1000000

end Dev

/-! ## Images (R460–R462) -/

/-- An image as the ROM reads it. -/
abbrev Image := Nat → Byte

namespace Image

def bytes (i : Image) (a n : Nat) : List Byte := (List.range n).map fun k => i (a + k)
def num (i : Image) (a n : Nat) : Nat := ofBytesLE (i.bytes a n)

def segs (i : Image) : Nat := i.num 6 2
def keySlot (i : Image) : Nat := i.num 0xD 1
def entry (i : Image) : Nat := i.num 0x10 4
def total (i : Image) : Nat := i.num 0x14 4
/-- The end of the segment table, and the signature's offset (R460). -/
def tableEnd (i : Image) : Nat := 0x100 + 80 * i.segs
def sigAt (i : Image) : Nat := roundUp i.tableEnd 64

/-- The bytes of a range are zero. -/
def zero (i : Image) (a n : Nat) : Bool := (i.bytes a n).all (· == 0)

/-- Segment k's table entry. -/
def seg (k : Nat) : Nat := 0x100 + 80 * k
def segType (i : Image) (k : Nat) : Nat := i.num (seg k) 1
def segOff (i : Image) (k : Nat) : Nat := i.num (seg k + 4) 4
def segLen (i : Image) (k : Nat) : Nat := i.num (seg k + 8) 4
def segDest (i : Image) (k : Nat) : Nat := i.num (seg k + 0x10) 8

/-- A LOAD destination: in the Spindle local SRAM or the always-on SRAM (R461). -/
def destOk (a n : Nat) : Bool :=
  (decide (0x10004000000 ≤ a) && decide (a + n ≤ 0x10004100000)) || (decide (0x10008000000 ≤ a) && decide (a + n ≤ 0x10008400000))

/-- A well-formed segment entry (R461). -/
def segOk (i : Image) (k : Nat) : Bool :=
  let t := i.segType k
  let e := seg k
  (t == 1 || t == 2) && i.zero (e + 1) 3 && i.zero (e + 0xC) 4 && i.zero (e + 0x18) 8 &&
  i.segOff k % 64 == 0 && decide (i.sigAt + 96 ≤ i.segOff k) && decide (1 ≤ i.segLen k) &&
  decide (i.segOff k + i.segLen k ≤ i.total) && (if t = 1 then destOk (i.segDest k) (i.segLen k) else i.segDest k == 0)

/-- The LOAD segments. -/
def loads (i : Image) : List Nat := (List.range i.segs).filter fun k => i.segType k == 1

/-- The LOAD segments do not overlap and hold at most 2 MiB (R461). -/
def loadsOk (i : Image) : Bool :=
  let ls := i.loads
  ls.all (fun j => ls.all fun k => decide (k ≤ j) || decide (i.segDest j + i.segLen j ≤ i.segDest k) ||
    decide (i.segDest k + i.segLen k ≤ i.segDest j)) &&
  decide ((ls.map i.segLen).sum ≤ 0x200000)

/-- The header's and the table's form (R462, check 2). -/
def formOk (i : Image) (size : Nat) : Bool :=
  i.num 4 2 == 1 && decide (1 ≤ i.segs) && decide (i.segs ≤ 32) && decide (i.num 0xC 1 ≤ 127) && decide (i.keySlot ≤ 3) &&
  decide (i.num 0xE 1 ≤ 3) && i.zero 0x1A 6 && i.zero 0x28 8 && i.zero 0x91 0x6F &&
  decide (i.total ≤ min size 0xF00000) && decide (i.sigAt + 96 ≤ i.total) &&
  (List.range i.segs).all i.segOk && i.loadsOk

end Image

/-- How many bits of the SVN thermometer are programmed (R463). -/
def Fuses.svnCount (f : Fuses) : Nat := ((List.range 127).filter f.svn.toNat.testBit).length

/-- The SHA-384 of a public key is that of a key slot that is not revoked (R462, R479). -/
def Fuses.keyOk (f : Fuses) (slot : Nat) (key : List Byte) : Bool :=
  Config.sha384 key == (List.range 48).map fun i => Sparse.get (fun _ => 0) f.keyHash (48 * slot + i)

def Fuses.revoked (f : Fuses) (slot : Nat) : Bool := f.revoke.toNat.testBit slot

/-- The code of the first check 1–8 that an image of an area of `size` bytes fails, 0 where it passes them (R462). -/
def imageCode (f : Fuses) (pkg : Package) (i : Image) (size : Nat) : Nat :=
  if i.bytes 0 4 ≠ [0x42, 0x4B, 0x44, 0x4E] then 1
  else if !i.formOk size then 2
  else if !(i.num 0xE 1).testBit (match pkg with | .rm => 0 | .tc => 1) then 3
  else if f.revoked i.keySlot then 4
  else if !f.keyOk i.keySlot (i.bytes 0x30 97) then 5
  else if i.num 0xC 1 < f.svnCount then 6
  else if i.num 0x20 8 ≠ 0 && i.num 0x20 8 ≠ f.uid.toNat then 7
  else if !Config.ecdsaP384 (Config.sha384 (i.bytes 0 i.tableEnd)) (i.bytes 0x30 97) (i.bytes i.sigAt 96) then 8
  else 0

namespace Dev

/-- The LOAD segments loaded one after another, each hashed as it is loaded (R462, check 9): a failure leaves the loaded bytes. -/
def loadSegs (i : Image) : List Nat → Dev → Dev × Nat
  | [], d => (d, 0)
  | k :: r, d =>
    let data := i.bytes (i.segOff k) (i.segLen k)
    let d := d.put (.core 0) (i.segDest k) data
    if Config.sha384 data == i.bytes (Image.seg k + 0x20) 48 then loadSegs i r d else (d, 9)

/-- An image verified and loaded: 0, or the failure's code. -/
def loadImage (d : Dev) (f : Fuses) (i : Image) (size : Nat) : Dev × Nat :=
  match imageCode f d.pkg i size with
  | 0 => d.loadSegs i i.loads
  | c => (d, c)

/-- The image in a slot. -/
def slotImage (d : Dev) (s : Nat) : Image := fun a => d.flashByte (slotAddr s + a)

/-- BOOT_STAT fields: PHASE, MODE, SLOT, FAIL_A and FAIL_B. -/
def bootField (d : Dev) (hi lo v : Nat) : Dev := d.setField 0x002 0x04C hi lo v
def setFail (d : Dev) (slot code : Nat) : Dev := if slot = 0 then d.bootField 15 12 code else d.bootField 19 16 code

/-- The cores whose local SRAM the LOAD segments target. -/
def targetCores (i : Image) : List Nat :=
  (List.range 16).filter fun n => i.loads.any fun k =>
    decide (0x10008000000 + 0x40000 * n < i.segDest k + i.segLen k) && decide (i.segDest k < 0x10008000000 + 0x40000 * (n + 1)) &&
    decide (0x10008000000 ≤ i.segDest k)

/-- The jump into an image (R457, step 5). BOOT_MS is a free value. -/
def bootJump (d : Dev) (i : Image) (mode slot : Nat) : Dev :=
  let d := ((d.bootField 3 0 4).bootField 6 4 mode).bootField 8 8 slot
  let d := (d.setReg 0x002 0x050 (BitVec.ofNat 32 (i.num 8 4))).setReg 0x002 0x054 (BitVec.ofNat 32 (i.num 0x18 2))
  let (v, d) := d.fresh
  let d := d.setReg 0x002 0x068 (BitVec.ofNat 32 v)
  let d := forEach ((targetCores i).filter (· ≠ 0)) (fun n d =>
    ((d.setFlag (corePage n) 0x00C 0 true).setPageState (corePage n) 1).coreLeaveReset n) d
  d.setCore 0 { d.core 0 with pc := BitVec.ofNat 32 i.entry, mode := 1, st := .run }

/-- Host boot (R459): the ROM waits. -/
def hostWait (d : Dev) : Dev := d.bootField 3 0 2

/-- The image of a slot booted in a mode; the flag is false where it failed, with its code in FAIL_A or FAIL_B. -/
def bootSlot (d : Dev) (f : Fuses) (slot mode : Nat) : Dev × Bool :=
  let i := d.slotImage slot
  let (d, c) := d.loadImage f i 0xF00000
  if c = 0 then (d.bootJump i mode slot, true) else (d.setFail slot c, false)

/-- A NORMAL boot, with what follows where its image fails (R471). -/
def bootNormal (d : Dev) (f : Fuses) (j : JRec) : Dev :=
  match d.bootSlot f j.active 0 with
  | (d, true) => d
  | (d, false) =>
    if j.state = 0 || j.state = 5 then
      match d.bootSlot f (1 - j.active) 2 with
      | (d, true) => d
      | (d, false) => d.hostWait
    else d.hostWait

/-- The watchdog restarted with a period in ms (R477). -/
def wdtStart (d : Dev) (ms : Nat) : Dev :=
  { d.setReg 0x002 0x060 (BitVec.ofNat 32 (ms % 2 ^ 20)) with wdtAt := d.now }

/-- An ARMED journal (R471): the TARGET is tried. -/
def bootTrial (d : Dev) (f : Fuses) (j : JRec) : Dev :=
  let i := d.slotImage j.target
  let (d, c) := d.loadImage f i 0xF00000
  if c = 0 then
    let w := i.num 0xF 1
    (((d.romCommit 4 0).wdtStart (1000 * (if w = 0 then 60 else w))).bootJump i 1 j.target)
  else ((d.setFail j.target c).romCommit 6 1).bootNormal f j

/-- The boot ROM (R457, R471), from its start to its jump or its wait for a host. -/
def bootRom (d : Dev) (f : Fuses) : Dev :=
  if !f.crcOk then ((d.bootField 15 12 11).bootField 19 16 11).hostWait
  else if d.field 0x002 0x048 1 0 ≠ 0 then d.hostWait
  else
    let d := (d.setReg 0x004 0x058 (BitVec.ofNat 32 d.board.flashSize)).setReg 0x004 0x05C d.board.flashMode
    let j := d.winner
    let d := ((d.bootField 20 20 (d.settingsValid 0).toNat).bootField 21 21 (d.settingsValid 1).toNat).bootField 22 22 j.setCur
    if j.state = 4 then (d.romCommit 6 (if j.kind = 1 then 3 else 2)).bootNormal f j
    else if j.state = 3 then d.bootTrial f j
    else d.bootNormal f j

end Dev

/-! ## Resets (R452–R455) -/

namespace State

/-- The boot ROM runs. -/
def boot (s : State) : State := { s with dev := s.dev.bootRom s.fuses }

/-- A chip reset with the bit of its cause in RST.CAUSE (R452, R455). -/
def chipReset (s : State) (cause : Nat) : State :=
  let s := s.afterChip
  ({ s with dev := s.dev.setReg 0x002 0x040 (BitVec.ofNat 32 (2 ^ cause)) } : State).boot

/-- A power-on reset (R452): the VSTBY domain starts anew too. -/
def powerOn (s : State) (cause : Nat) : State :=
  ({ s with dev := { s.dev.setReg 0x00C 0x044 1 with wakeN := {}, sio := 0 } } : State).chipReset cause

end State

/-- The registers that a warm reset leaves (R452): those of the always-on domain's pages but their claims, CAUSE and STRAPS and the
rest of page 0x002 but what the ROM writes and the watchdog's period, and the link state of the ports. -/
def keptWarm (p off : Nat) : Bool :=
  if p = 0x002 then off != 0x024 && off != 0x04C && off != 0x050 && off != 0x054 && off != 0x060 && off != 0x068
  else
    match pageKind p with
    | .region _ | .sems => false
    | .port => off == 0x040
    | _ => (pageRegions p).isEmpty && off != 0x024

namespace Dev

/-- A region after a warm reset: retirement, CRACK, its live phases and its voltage stay, and so does a thermal shutdown. -/
def warmRegion (d : Dev) (r : Nat) : Region :=
  let x := d.region r
  let y := Region.atReset r
  { y with st := if x.st = .retired || x.st = .off then x.st else y.st, phases := x.phases, crack := x.crack, mv := x.mv }

/-- The device after a system warm reset (R452, R453), before the boot ROM runs: the always-on domain goes on; the rest is as
after a chip reset. The delay lists are disabled, so the registers of the MARKs that they owned are at their reset values (R81). -/
def afterWarm (d : Dev) : Dev :=
  let old := d
  let aon (a : Nat) : Bool := match spanOf a with | .aon | .local_ => true | _ => false
  let e : Dev :=
    { pkg := d.pkg, now := d.now, free := d.free, board := d.board, flash := d.flash, flashOp := d.flashOp, commit := d.commit,
      unlock := d.unlock, unlockAt := d.unlockAt, fuseOp := d.fuseOp, jtag := d.jtag, thermIn := d.thermIn, packSup := d.packSup,
      encoders := d.encoders, reels := d.reels, zc := d.zc, armed := d.armed, cliffs := d.cliffs, cliffRun := d.cliffRun,
      roundAt := d.roundAt, aonFrac := d.aonFrac, wakeN := d.wakeN, sio := d.sio, drops := d.drops, throttle := d.throttle, capAt := d.capAt,
      fWant := d.fWant, clk := { d.clk with pll1Req := false }, msix := d.msix, pba := d.pba, unmasked := d.unmasked,
      regs := d.regs.filter (fun e => keptWarm (e.1 / 4096) (e.1 % 4096)),
      mem := d.mem.filter (fun e => aon e.1), written := d.written.filter (fun e => aon (64 * e.1)) }
  let e := forEach (List.range 96) (fun r e => e.setRegion r (d.warmRegion r)) e
  let e := forEach ([28, 29, 30, 31].filter fun m => (old.markOwner m).isSome) (fun m e => e.markForget m) e
  let e := if e.rootCur = 0 then e else e.rootMove 0
  e.clkSettle old

end Dev

/-- A system warm reset with its cause (R452–R455): the halt unit enters HOLD if it was ARMED. -/
def State.warm (s : State) (cause : Nat) : State :=
  let s := s.haltHold
  let d := s.dev.afterWarm
  ({ s with dev := d.setFlag 0x002 0x040 cause true } : State).boot

/-! ## The journal's commit engine (R468) -/

/-- The states that a winning state may be followed by (R470). -/
def nextStates (w : Nat) : List Nat :=
  match w with
  | 0 => [0, 1]
  | 1 => [1, 2, 0]
  | 2 => [3, 0]
  | 3 => [0, 4, 6]
  | 4 => [4, 5, 6]
  | 5 => [5, 1]
  | _ => [6, 1, 2]

/-- A settings change that TRIAL does not allow (R468). -/
def settingsLock (w r : JRec) : Bool :=
  w.state == 4 &&
  (if r.state = 5 then
    r.setCur != (if w.setNew = 0xFF then w.setCur else w.setNew) || r.setNew != 0xFF
  else
    r.setCur != w.setCur || (r.state == 4 && r.setNew != 0xFF && r.setNew != 1 - w.setCur))

/-- The answer to a commit (R468): 0 accepted, 1 ORDER, 2 FORMAT, 4 SETTINGS_LOCK. -/
def commitResult (w r : JRec) : Nat :=
  if !r.formed then 2
  else if !(nextStates w.state).contains r.state then 1
  else if w.state = 4 && r.state = 4 && r.kind = 0 && (r.active ≠ w.active || r.target ≠ w.target) then 1
  else if settingsLock w r then 4
  else 0

namespace Dev

/-- The bytes of a register range. -/
def regBytes (d : Dev) (p off n : Nat) : List Byte :=
  (List.range (n / 4)).flatMap fun i => bytesLE 4 (d.reg p (off + 4 * i)).toNat

/-- A write of JCOMMIT (R468); one while BUSY = 1 is ignored. -/
def journalCommit (v : Word) (d : Dev) : Dev :=
  if !bit v 0 || d.commit.isSome then d
  else
    let w := d.winner
    let r : JRec := d.regBytes 0x003 0x100 256
    match commitResult w r with
    | 0 => ({ d with commit := some (r.stamped (w.seq + 1)) } : Dev).setReg 0x003 0x04C 1
    | c => let d := d.setReg 0x003 0x04C (BitVec.ofNat 32 (2 * c)); if c = 1 then d.err 0x003 0 else d

/-- The commit engine has read the record back; a failure leaves the sector it wrote without a valid record. -/
def commitDone (ok : Bool) (d : Dev) : Dev :=
  match d.commit with
  | none => d
  | some r =>
    let d : Dev := { d with commit := none }
    if ok then (d.journalWrite r).setReg 0x003 0x04C 0
    else
      let k := match d.journalWin with | some k => 1 - k | none => 0
      ((d.flashErase (0x10000 + 0x1000 * k) 0x1000).setReg 0x003 0x04C 6).err 0x003 1

/-! ## The flash controller (R465, R469) -/

/-- Whether a range of the flash touches another one. -/
def touches (a n b m : Nat) : Bool := decide (a < b + m) && decide (b < a + n)

/-- Whether a program or erase of a range is refused (R469). -/
def flashProtected (d : Dev) (a n : Nat) : Bool :=
  let w := d.winner
  touches a n (slotAddr w.active) 0xF00000 || touches a n (0x20000 + 0x10000 * w.setCur) 0x10000 || touches a n 0x10000 0x2000

/-- A write of FCMD with GO (R465, R469): OP 1 READ, 2 PROGRAM, 3 ERASE_4K, 4 ERASE_64K; an erase takes the block that holds FADDR.
A write while BUSY = 1 is ignored. -/
def flashCmd (op : Nat) (d : Dev) : Dev :=
  if d.flashOp.isSome then d
  else
    let d := d.setReg 0x004 0x040 (BitVec.ofNat 32 op)
    let a := (d.reg 0x004 0x044).toNat
    let (a, n) := if op = 3 then (a / 0x1000 * 0x1000, 0x1000) else if op = 4 then (a / 0x10000 * 0x10000, 0x10000)
      else (a, (d.reg 0x004 0x048).toNat)
    if d.board.flashSize < a + n then d.setReg 0x004 0x054 6
    else if op ≠ 1 && d.flashProtected a n then (d.setReg 0x004 0x054 2).err 0x004 0
    else
      let o : FlashOp := { op := op, addr := a, len := n, buf := d.pair48 0x004 0x04C }
      ({ d with flashOp := some o } : Dev).setReg 0x004 0x054 1

/-- The operation is complete (R465). A failed program or erase leaves free values in its range. -/
def flashDone (ok : Bool) (d : Dev) : Dev :=
  match d.flashOp with
  | none => d
  | some o =>
    let d : Dev := { d with flashOp := none }
    if ok then
      let d := d.setReg 0x004 0x054 0
      if o.op = 1 then d.put .producer o.buf (d.flashBytes o.addr o.len)
      else if o.op = 2 then
        let (x, d) := d.read .producer o.buf o.len
        d.flashPut o.addr x.bytes
      else d.flashErase o.addr o.len
    else
      let d := (d.setReg 0x004 0x054 4).err 0x004 1
      if o.op = 1 then d
      else
        let vals := (List.range o.len).map fun i => BitVec.ofNat 8 (Config.freeValue (d.free + i))
        ({ d.flashErase o.addr o.len with free := d.free + o.len } : Dev).flashPut o.addr vals

/-! ## The debug port (R478, R479) -/

/-- A write of UNLOCK_GO (R479): ignored while BUSY and for 100 ms after a failure. -/
def unlockGo (v : Word) (d : Dev) : Dev :=
  let locked := match d.unlockAt with | some t => decide (d.now < t + 100000) | none => false
  if !bit v 0 || d.unlock.isSome || locked then d
  else ({ d with unlock := some (d.regBytes 0x005 0x100 256) } : Dev).setReg 0x005 0x06C 1

/-- Whether a token opens the debug port (R479). -/
def tokenOk (d : Dev) (f : Fuses) (buf : List Byte) : Bool :=
  let slot := ofBytesLE ((buf.drop 4).take 4)
  let key := (buf.drop 8).take 97
  let msg := d.regBytes 0x005 0x048 32 ++ bytesLE 8 f.uid.toNat ++ buf.take 4
  decide (slot < 4) && !f.revoked slot && f.keyOk slot key && Config.ecdsaP384 (Config.sha384 msg) key ((buf.drop 0x70).take 96)

/-- The verifier answers (R479). -/
def unlockDone (d : Dev) (f : Fuses) : Dev :=
  match d.unlock with
  | none => d
  | some buf =>
    let ok := d.tokenOk f buf
    let d : Dev := { d with unlock := none }
    let d :=
      if ok then (d.setReg 0x005 0x044 (BitVec.ofNat 32 (ofBytesLE (buf.take 4) % 2 ^ 18))).setReg 0x005 0x06C 2
      else (({ d with unlockAt := some d.now } : Dev).setReg 0x005 0x06C 4).err 0x005 0
    d.newNonce

/-- A bit of DSCOPE: core n, 16 REG_ACCESS, 17 EXTEST. -/
def scope (d : Dev) (i : Nat) : Bool := d.flag 0x005 0x044 i

end Dev

/-! ## The fuses (R464) -/

namespace State

/-- A write of FUSE_PROG with an OP (R464). -/
def fuseProg (op : Nat) (v : Word) (s : State) : State :=
  if bits v 31 16 ≠ 0xF05A || s.dev.fuseOp.isSome then { s with dev := s.dev.err 0x000 0 }
  else { s with dev := { s.dev with fuseOp := some (op, bits v 9 8) } }

/-- Programming is over: the next SVN bit, or the revocation of a slot. Programmed bits stay. -/
def fuseDone (s : State) : State :=
  match s.dev.fuseOp with
  | none => s
  | some (op, sel) =>
    let f := if op = 1 then { s.fuses with svn := s.fuses.svn ||| (s.fuses.svn <<< 1) ||| 1 }
      else { s.fuses with revoke := s.fuses.revoke ||| BitVec.ofNat 4 (2 ^ sel) }
    { s with fuses := f, dev := { s.dev with fuseOp := none } }

/-- An RWL write that reaches beyond the device (R48, R50). -/
def rwlWrite (a : Agent) (p : Nat) (f : State → State) (s : State) : State :=
  if s.dev.claimedBy a p then f s else { s with dev := s.dev.deny a p }

/-- Whether HOST_GO from an agent is accepted (R457, R459): a port that BOOT_SEL names, or either after a flash failure. -/
def hostPort (s : State) (a : Agent) : Bool :=
  let sel := s.dev.field 0x002 0x048 1 0
  match a with
  | .portA => sel != 2
  | .portB => sel != 1
  | .spindle _ => false

/-- A write of HOST_GO (R459): the ROM verifies and loads the image at Skein 0x1000_0000. -/
def hostGo (a : Agent) (v : Word) (s : State) : State :=
  let d := s.dev
  if bit v 0 && d.field 0x002 0x04C 3 0 = 2 && s.hostPort a then
    let i : Image := fun k => d.byte (0x10000000 + k)
    let (d, c) := d.loadImage s.fuses i (d.reg 0x002 0x058).toNat
    { s with dev := if c = 0 then d.bootJump i 3 0 else (d.bootField 15 12 c).hostWait }
  else s

/-- WATCHDOG expiry (R477): WDT_PERIOD ms without a kick. -/
def watchdog (s : State) : State :=
  let t := s.dev.field 0x002 0x060 19 0
  if t ≠ 0 && s.dev.wdtAt + 1000 * t ≤ s.dev.now then s.warm 6 else s

/-- A supply below its threshold (R380). -/
def brownout (r : Rail) (s : State) : State :=
  match r with
  | .vstby => { s.powerDown with dev := { s.powerDown.dev with power := .brownedOut } }
  | .vaon | .vcoreIn => if s.dev.power = .on then s.chipReset 3 else s

/-- A power-on reset (R452): VSTBY rises, recovers from a brown-out, or the rails rise after a wake from OFF. -/
def por (c : PorCause) (s : State) : State :=
  match c with
  | .vstbyRise => s.powerOn 0
  | .vstbyBrownout => if s.dev.power = .brownedOut then s.powerOn 3 else s
  | .wakeFromOff => if s.dev.power = .waking then s.powerOn 1 else s

end State

/-! ## The commands -/

/-- BROWNOUT (R380). -/
def execBrownout (r : Rail) (s : State) : Host.Outcome State Fault Refusal := .next (s.brownout r)

/-- POR (R452). -/
def execPor (c : PorCause) (s : State) : Host.Outcome State Fault Refusal := .next (s.por c)

/-- CHIP_RESET (R452): its cause is not given, so the bit it leaves in RST.CAUSE is RESET_N's, BROWNOUT's or FIO_LOST's by a free
value. -/
def execChipReset (s : State) : Host.Outcome State Fault Refusal :=
  onState (fun s => let (v, d) := s.dev.fresh; ({ s with dev := d } : State).chipReset (2 + v % 3)) s

/-- RESET_N_PIN (R454): a low of at least 1 µs. -/
def execResetNPin (lowUs : Nat) (s : State) : Host.Outcome State Fault Refusal :=
  onState (fun s => if 1 ≤ lowUs then s.chipReset 2 else s) s

/-- WARM_RESET (R452): a write of RST.WARM, from any agent. -/
def execWarmReset (value : Word) (s : State) : Host.Outcome State Fault Refusal :=
  onState (fun s => if value = 0x5A5A then s.warm 5 else s) s

/-- WATCHDOG_EXPIRY (R477). -/
def execWatchdogExpiry (s : State) : Host.Outcome State Fault Refusal := onState State.watchdog s

/-- WDT_KICK (R477): the register is WO, so any agent may write it. -/
def execWdtKick (value : Word) (s : State) : Host.Outcome State Fault Refusal :=
  onDev (fun d => if value = 0xC35A then { d with wdtAt := d.now } else d) s

/-- HOST_GO (R459). -/
def execHostGo (ag : Agent) (value : Word) (s : State) : Host.Outcome State Fault Refusal :=
  onState (State.rwlWrite ag 0x002 (State.hostGo ag value)) s

/-- FUSE_PROG_SVN (R464): a write of FUSE_PROG with OP 1. -/
def execFuseProgSvn (ag : Agent) (value : Word) (s : State) : Host.Outcome State Fault Refusal :=
  onState (State.rwlWrite ag 0x000 (State.fuseProg 1 value)) s

/-- FUSE_PROG_REVOKE (R464): a write of FUSE_PROG with OP 2. -/
def execFuseProgRevoke (ag : Agent) (value : Word) (s : State) : Host.Outcome State Fault Refusal :=
  onState (State.rwlWrite ag 0x000 (State.fuseProg 2 value)) s

/-- FUSE_PROG_DONE (R464). -/
def execFuseProgDone (s : State) : Host.Outcome State Fault Refusal := onState State.fuseDone s

/-- JOURNAL_COMMIT (R468). -/
def execJournalCommit (ag : Agent) (value : Word) (s : State) : Host.Outcome State Fault Refusal :=
  onDev (Dev.rwlWrite ag 0x003 (Dev.journalCommit value)) s

/-- JOURNAL_COMMIT_DONE (R468). -/
def execJournalCommitDone (ok : Bool) (s : State) : Host.Outcome State Fault Refusal := onDev (Dev.commitDone ok) s

/-- FLASH_READ (R465). -/
def execFlashRead (ag : Agent) (s : State) : Host.Outcome State Fault Refusal := onDev (Dev.rwlWrite ag 0x004 (Dev.flashCmd 1)) s

/-- FLASH_PROGRAM (R469). -/
def execFlashProgram (ag : Agent) (s : State) : Host.Outcome State Fault Refusal :=
  onDev (Dev.rwlWrite ag 0x004 (Dev.flashCmd 2)) s

/-- FLASH_ERASE_4K (R469). -/
def execFlashErase4k (ag : Agent) (s : State) : Host.Outcome State Fault Refusal :=
  onDev (Dev.rwlWrite ag 0x004 (Dev.flashCmd 3)) s

/-- FLASH_ERASE_64K (R469). -/
def execFlashErase64k (ag : Agent) (s : State) : Host.Outcome State Fault Refusal :=
  onDev (Dev.rwlWrite ag 0x004 (Dev.flashCmd 4)) s

/-- FLASH_OP_DONE (R465). -/
def execFlashOpDone (ok : Bool) (s : State) : Host.Outcome State Fault Refusal := onDev (Dev.flashDone ok) s

/-- DEBUG_UNLOCK (R479). -/
def execDebugUnlock (ag : Agent) (value : Word) (s : State) : Host.Outcome State Fault Refusal :=
  onDev (Dev.rwlWrite ag 0x005 (Dev.unlockGo value)) s

/-- DEBUG_UNLOCK_DONE (R479). -/
def execDebugUnlockDone (s : State) : Host.Outcome State Fault Refusal :=
  onState (fun s => { s with dev := s.dev.unlockDone s.fuses }) s

/-- JTAG_BYPASS (R478). -/
def execJtagBypass (s : State) : Host.Outcome State Fault Refusal := onDev (fun d => { d with jtag := .bypass }) s

/-- JTAG_IDCODE (R478): version, part number, manufacturer, 1. -/
def execJtagIdcode (s : State) : Host.Outcome State Fault Refusal :=
  onDev (fun d =>
    let part := match d.pkg with | .rm => 0x0960 | .tc => 0x0961
    let code := d.field 0x000 0x004 15 8 % 16 * 2 ^ 28 + part * 2 ^ 12 + Config.mfrCode.toNat * 2 + 1
    ({ d with jtag := .idcode } : Dev).answer (.data [BitVec.ofNat 32 code])) s

/-- JTAG_SAMPLE_PRELOAD (R478): the boundary is sampled; nothing of the device changes. -/
def execJtagSamplePreload (s : State) : Host.Outcome State Fault Refusal := onDev (fun d => { d with jtag := .sample }) s

/-- JTAG_EXTEST (R478, R480): drives the boundary in the unlocked scope, and never the halt outputs or CHG_EN; else it acts as
BYPASS. -/
def execJtagExtest (cells : Word) (s : State) : Host.Outcome State Fault Refusal :=
  onDev (fun d => { d with jtag := if d.scope 17 then .extest cells else .bypass }) s

/-- JTAG_CORE_DBG (R478): the debug registers of a core are selected in the unlocked scope; else it acts as BYPASS. -/
def execJtagCoreDbg (core : Fin 16) (s : State) : Host.Outcome State Fault Refusal :=
  onDev (fun d => { d with jtag := if d.scope core.val then .coreDbg core.val else .bypass }) s

/-- SOURCE_LOST (R422): the loss of FIO is a chip reset. -/
def execSourceLost (src : Source) (s : State) : Host.Outcome State Fault Refusal :=
  onState (fun s =>
    if !Dev.monitored src s.dev then s
    else if src = .fio then s.chipReset 4
    else { s with dev := Dev.sourceLost src s.dev }) s

end Sys2Proof.Machine
end

