-- ==== Sys2Proof/Machine/Kakan.lean ====
section
/-!
DEFINITION. The Kakan links (19, R436–R451): their states, flits and replay, credits, epochs, and the packets that reach this
device.
-/
namespace Sys2Proof.Machine

namespace Dev

/-- The page of link k. -/
def kpage (k : Nat) : Nat := 0x158 + k

/-- A link enters a state now. -/
def klinkTo (d : Dev) (k st : Nat) : Dev := (d.setLstate k st).setLink k { d.link k with since := d.now }

/-- A Kakan page's link follows CTRL.EN (R437): on EN = 1 it leaves DOWN; on EN = 0 it is DOWN and its queued packets are
dropped. -/
def klinkEnable (d : Dev) (k : Nat) : Dev := if d.lstate k = 0 then d.klinkTo k 1 else d
def klinkDisable (d : Dev) (k : Nat) : Dev :=
  let d := (d.klinkTo k 0).setLink k { since := d.now }
  if k = 0 then d.judgeAll else d

/-- EQ_BOUNDS: MAX below MIN acts as MIN (R25). -/
def eqMin (d : Dev) (k : Nat) : Nat := d.field (kpage k) 0x044 5 0
def eqMax (d : Dev) (k : Nat) : Nat := max (d.eqMin k) (d.field (kpage k) 0x044 13 8)
def eqClamp (d : Dev) (k c : Nat) : Nat := max (d.eqMin k) (min (d.eqMax k) c)

/-- The device that link k should reach (R443). -/
def neighbour (d : Dev) (k : Nat) : Nat × Nat :=
  match k with
  | 0 => ((d.devX + 1) % d.clX, d.devY)
  | 1 => ((d.devX + d.clX - 1) % d.clX, d.devY)
  | 2 => (d.devX, (d.devY + 1) % d.clY)
  | _ => (d.devX, (d.devY + d.clY - 1) % d.clY)

/-- A peer matches (R443). -/
def peerMatches (d : Dev) (k dev link clX clY : Nat) : Bool :=
  clX == d.clX && clY == d.clY && link == k ^^^ 1 && d.neighbour k == (dev % 64, dev / 64)

/-- The link is UP: packets that wait flow. -/
def klinkUp (d : Dev) (k : Nat) : Dev :=
  let d := d.klinkTo k 5
  let d := Dev.pump k ((d.link k).queue.length + 1) d
  if k = 0 then d.judgeAll else d

/-- Receiver detection (R437). -/
def linkDetect (k : Nat) (partner : Bool) (d : Dev) : Dev := if d.lstate k = 1 && partner then d.klinkTo k 2 else d

/-- The equaliser is trained: its code stands within the bounds (R437, R441). -/
def linkEq (k code : Nat) (d : Dev) : Dev :=
  if d.lstate k = 2 then (d.setField (kpage k) 0x048 5 0 (d.eqClamp k code)).klinkTo k 3 else d

/-- Flit lock (R437). -/
def linkAlign (k : Nat) (d : Dev) : Dev := if d.lstate k = 3 then d.klinkTo k 4 else d

/-- The peer's exchange (R437, R443): a matching peer brings the link UP with both ends' numbers and credits at their start. -/
def linkConfigure (k dev link clX clY : Nat) (d : Dev) : Dev :=
  if d.lstate k ≠ 4 then d
  else
    let d := (d.setField (kpage k) 0x040 27 16 dev).setField (kpage k) 0x040 29 28 link
    if d.peerMatches k dev link clX clY then (d.setLink k { queue := (d.link k).queue }).klinkUp k else d.err (kpage k) 2

/-- The link leaves UP for RETRAIN (R437). -/
def linkRetrain (k : Nat) (d : Dev) : Dev :=
  let d := (d.klinkTo k 6).countFrz (kpage k) 0x058
  if k = 0 then d.judgeAll else d

/-- Locked and confirmed within 2 ms (R437): what the peer has not acknowledged is replayed, in order, and stays listed until it
is acknowledged. -/
def linkBack (k : Nat) (d : Dev) : Dev :=
  if d.lstate k = 6 && d.now ≤ (d.link k).since + 2000 then
    (if (d.link k).unacked.isEmpty then d else d.countFrz (kpage k) 0x054).klinkUp k
  else d

/-- 10 ms without lock (R437): unacknowledged packets are dropped. -/
def linkDead (k : Nat) (d : Dev) : Dev :=
  if d.lstate k = 6 && (d.link k).since + 10000 ≤ d.now then
    ((d.setLink k { d.link k with unacked := [], failed := none }).klinkTo k 1).err (kpage k) 1
  else d

/-- The record of a replay (R318, R320). -/
def replayRecord (k : Nat) : LogEntry := { srcPage := kpage k, srcBit := 0 }

/-- The peer asks for a replay from a flit (R440): at REPLAY_MAX failures of the same flit the link enters RETRAIN and the replay's
record is raised (R324). -/
def flitNak (k seq : Nat) (d : Dev) : Dev :=
  let l := d.link k
  if d.lstate k ≠ 5 || !(l.unacked.any fun e => e.1 == seq) then d
  else
    let n := match l.failed with | some (s, n) => if s = seq then n + 1 else 1 | none => 1
    let d := d.setLink k { l with failed := some (seq, n) }
    if max 1 (d.field (kpage k) 0x04C 3 0) ≤ n then
      let d := (d.setLink k { d.link k with failed := none }).linkRetrain k |>.err (kpage k) 0
      d.logRaised (replayRecord k)
    else d.countFrz (kpage k) 0x054

/-- The peer acknowledges flits up to one (R440): a flit that had failed has been replayed with success, which is CORRECTED. -/
def flitAck (k upTo : Nat) (d : Dev) : Dev :=
  let l := d.link k
  let done (s : Nat) : Bool := decide ((upTo + 4096 - s % 4096) % 4096 < 2048)
  let ok := match l.failed with | some (s, _) => done s | none => false
  let d := d.setLink k { l with unacked := l.unacked.filter (fun e => !done e.1), failed := if ok then none else l.failed }
  if ok then d.logCorrected (replayRecord k) else d

/-! ## Packets at this device (R445–R449) -/

/-- A reply to the sender of a packet. -/
def reply (d : Dev) (p : KPacket) (op : KOp) (payload : List Byte) : Dev :=
  d.sendPacket { op := op, vc := 1, src := p.dst, dst := p.src, offset := p.offset, tag := p.tag, len := payload.length, payload := payload }

/-- The offset of a cluster address below RED, and RED. -/
def kOffset (p : KPacket) : Nat := p.offset.toNat % 2 ^ 34
def kRed (p : KPacket) : Bool := p.offset.toNat.testBit 34

/-- EXPORT_SIZE in bytes, and the export window's base. -/
def exportSize (d : Dev) : Nat := 65536 * d.field 0x158 0x210 17 0
def exportBase (d : Dev) : Nat := d.pair48 0x158 0x208 / 65536 * 65536

/-- The part of a payload that falls in the export window; what lies beyond it is unmapped. -/
def exportPart (d : Dev) (o : Nat) (data : List Byte) : List Byte × Dev :=
  let part := data.take (d.exportSize - min d.exportSize o)
  (part, if part.length < data.length then d.unmappedAccess else d)

/-- A WRITE (R446): applied through Skein and acknowledged. -/
def kWrite (p : KPacket) (d : Dev) : Dev :=
  let (part, d) := d.exportPart (kOffset p) p.payload
  let d := if part.isEmpty then d else d.put .producer (d.exportBase + kOffset p) part
  d.reply p .ack []

/-- The SIG counter that a packet's address names (R445): with RED = 1 only. -/
def sigReg (p : KPacket) : Option Nat :=
  let o := kOffset p
  if 0x3FFFF0000 ≤ o && o < 0x3FFFF0040 && o % 4 = 0 && kRed p then some ((o - 0x3FFFF0000) / 4) else none

/-- A SIG write (R448): adds to SIGk, and raises the SIG event when the target is reached. -/
def kSig (p : KPacket) (d : Dev) : Dev :=
  let d :=
    match sigReg p with
    | some k =>
      let v := d.reg 0x158 (0x240 + 4 * k) + BitVec.ofNat 32 (ofBytesLE (p.payload.take 4))
      let d := d.setReg 0x158 (0x240 + 4 * k) v
      if (v - d.reg 0x158 (0x280 + 4 * k)).toNat < 2 ^ 31 then d.err 0x158 (12 + k) else d
    | none => d.unmappedAccess
  d.reply p .ack []

/-- The format of reductions (R447) and its element size. -/
def redFmt (d : Dev) : FFmt × Nat :=
  match d.field 0x158 0x214 3 0 with
  | 1 => (FFmt.fp16, 2)
  | 2 => (FFmt.bf16, 2)
  | _ => (FFmt.fp32, 4)

/-- One element added in place. -/
def redElem (f : FFmt) (w a : Nat) (s : List Byte) (d : Dev) : Dev :=
  let x := (f.decode (d.num a w)).add (f.decode (ofBytesLE s))
  d.put .producer a (bytesLE w (f.convert x).1)

/-- A WRITE with RED = 1 into the export window (R447): whole aligned elements are added; the other bytes are dropped and counted. -/
def kAdd (p : KPacket) (d : Dev) : Dev :=
  let (part, d) := d.exportPart (kOffset p) p.payload
  let (f, w) := d.redFmt
  let o := kOffset p
  let head := min part.length ((w - o % w) % w)
  let body := part.drop head
  let n := body.length / w
  let lost := part.length - n * w
  let d := if lost = 0 then d else d.setReg 0x158 0x2CC (satAdd (d.reg 0x158 0x2CC) lost)
  let d := forEach (List.range n) (fun i d => redElem f w (d.exportBase + o + head + w * i) ((body.drop (w * i)).take w) d) d
  d.reply p .ack []

/-- A WRITE with RED = 1 (R445, R447): to a SIG counter, or into the export window. -/
def kReduce (p : KPacket) (d : Dev) : Dev := if (sigReg p).isSome then kSig p d else kAdd p d

/-- A READ (R445, R446): the export window's bytes, zeros where the offset is unmapped. -/
def kRead (p : KPacket) (d : Dev) : Dev :=
  let o := kOffset p
  let n := p.len
  let inside := min n (d.exportSize - min d.exportSize o)
  let (r, d) := d.read .producer (d.exportBase + o) inside
  let d := if inside < n then d.unmappedAccess else d
  d.reply p .readData (r.bytes.take inside ++ List.replicate (n - inside) 0)

/-- The remote request with a tag. -/
def remoteOf (d : Dev) (tag : Word) : Option Remote := d.remotes.find? fun r => BitVec.ofNat 32 r.tag == tag
def dropRemote (d : Dev) (tag : Word) : Dev := { d with remotes := d.remotes.filter fun r => BitVec.ofNat 32 r.tag != tag }

/-- READ_DATA (R446): the remote read is complete; the agent that waits for it gets the bytes. -/
def kReadData (p : KPacket) (d : Dev) : Dev :=
  match d.remoteOf p.tag with
  | some r =>
    if !r.read then d
    else (d.dropRemote p.tag).answer (.bytes p.payload)
  | none => d

/-- ACK (R446): the remote write is visible, and with the last one of an agent what waited for it goes on (P3). -/
def kAck (p : KPacket) (d : Dev) : Dev :=
  match d.remoteOf p.tag with
  | some r => if r.read then d else (d.dropRemote p.tag).writesDone r.who
  | none => d

/-- A packet at its destination, by its operation; NAK_ROUTE leaves its request to R449. -/
def deliver (p : KPacket) (d : Dev) : Dev :=
  match p.op with
  | .write => if kRed p then kReduce p d else kWrite p d
  | .read => kRead p d
  | .readData => kReadData p d
  | .ack => kAck p d
  | .sig => kSig p d
  | .nakRoute => d

/-- A packet arrives: delivered here, or sent on (R444). -/
def arriveK (p : KPacket) (d : Dev) : Dev :=
  if p.dst.toNat = (d.reg 0x158 0x200).toNat % 4096 then deliver p d else d.sendPacket p

/-- A received flit (R440): one that FEC cannot correct is NAKed; packets are taken once and in order. -/
def flitReceive (k seq : Nat) (f : FlitKind) (c : FlitCheck) (d : Dev) : Dev :=
  if d.lstate k ≠ 5 || c == .failed then d
  else
    let d := if c == .fecCorrected then d.countFrz (kpage k) 0x050 else d
    match f with
    | .idle => d
    | .ack upTo => flitAck k upTo.toNat d
    | .data p =>
      let l := d.link k
      if seq ≠ l.rxSeq then d else arriveK p (d.setLink k { l with rxSeq := (l.rxSeq + 1) % 4096 })

/-- NB_LOSS_TMO in µs (R282). -/
def nbLossTmo (d : Dev) : Nat := d.field 0x0D4 0x090 31 16

/-- A remote request without its response (R449): a read gives poison, which ends the task of an engine (R330); a write ends its task. -/
def remoteTimeout (tag : Word) (d : Dev) : Dev :=
  match d.remoteOf tag with
  | none => d
  | some r =>
    if d.now < r.sent + d.nbLossTmo then d
    else
      let d := (d.dropRemote tag).count 0x158 0x2C8
      match r.read, r.who with
      | true, .engine s => (d.engineFail s.val 0x31).answer .poisoned
      | true, _ => d.answer .poisoned
      | false, .engine s => d.engineFail s.val 0x31
      | false, w => d.writesDone w

/-! ## Credits, epochs and the equaliser -/

/-- Credits return on a virtual channel, up to the 256 that the receiver offers (R439). -/
def creditBack (k vc n : Nat) (d : Dev) : Dev :=
  let l := d.link k
  let d := d.setLink k { l with credits := l.credits.set vc (min 256 (l.credits.getD vc 0 + n)) }
  Dev.pump k (l.queue.length + 1) d

/-- An epoch flit goes out on some of the links that are UP (R451). -/
def epochOut (number : Nat) (ks : List Nat) (d : Dev) : Dev :=
  forEach (ks.filter fun k => d.lstate k == 5) (fun k d => d.setLink k { d.link k with epochTx := some number }) d

/-- The master's next epoch, on every link that is UP (R451). -/
def epochSend (d : Dev) : Dev :=
  if d.flag 0x158 0x2C0 0 then
    let e := (d.field 0x158 0x2C4 15 0 + 1) % 65536
    epochOut e (List.range 4) (d.setField 0x158 0x2C4 15 0 e)
  else d

/-- An epoch flit on link k (R451): a device that is not the master forwards a number that is new to all its links, on every
other link that is UP; LINKEPOCH counts the new ones of K0 (R58; log entry 157). -/
def epochFlit (k number : Nat) (d : Dev) : Dev :=
  if d.lstate k ≠ 5 then d
  else
    let new := (d.link k).epoch != some number
    let first := (List.range 4).all fun j => (d.link j).epoch != some number
    let d := d.setLink k { d.link k with epoch := some number }
    let d :=
      if d.flag 0x158 0x2C0 0 then d
      else
        let d := if first then epochOut number ((List.range 4).filter (· ≠ k)) d else d
        d.setField 0x158 0x2C4 15 0 number
    if k = 0 && new then d.sourceCount 0x12 else d

/-- The equaliser slews one code toward the code it wants, within its bounds (R24, R441). -/
def eqStep (k want : Nat) (d : Dev) : Dev :=
  if d.lstate k ≠ 5 then d
  else
    let c := d.field (kpage k) 0x048 5 0
    let g := d.eqClamp k want
    d.setField (kpage k) 0x048 5 0 (if c < g then c + 1 else if g < c then c - 1 else c)

/-- A meaning of a link that its package has (R43). -/
def onLink (k : Nat) (f : Dev → Dev) (d : Dev) : Dev := if d.absentPage (kpage k) then d else f d

end Dev

/-! ## The commands -/

/-- LINK_DETECT_POLL (R437). -/
def execLinkDetectPoll (k : Fin 4) (partner : Bool) (s : State) : Host.Outcome State Fault Refusal :=
  onDev (Dev.onLink k.val (Dev.linkDetect k.val partner)) s

/-- LINK_EQ_DONE (R437). -/
def execLinkEqDone (k : Fin 4) (code : Fin 64) (s : State) : Host.Outcome State Fault Refusal :=
  onDev (Dev.onLink k.val (Dev.linkEq k.val code.val)) s

/-- LINK_ALIGN_DONE (R437). -/
def execLinkAlignDone (k : Fin 4) (s : State) : Host.Outcome State Fault Refusal :=
  onDev (Dev.onLink k.val (Dev.linkAlign k.val)) s

/-- LINK_CONFIG (R443). -/
def execLinkConfig (k : Fin 4) (dev : BitVec 12) (link : Fin 4) (clX clY : BitVec 7) (s : State) :
    Host.Outcome State Fault Refusal :=
  onDev (Dev.onLink k.val (Dev.linkConfigure k.val dev.toNat link.val clX.toNat clY.toNat)) s

/-- LINK_LOCK_LOST (R437). -/
def execLinkLockLost (k : Fin 4) (s : State) : Host.Outcome State Fault Refusal :=
  onDev (Dev.onLink k.val fun d => if d.lstate k.val = 5 then d.linkRetrain k.val else d) s

/-- LINK_RETRAIN_DONE (R437). -/
def execLinkRetrainDone (k : Fin 4) (s : State) : Host.Outcome State Fault Refusal :=
  onDev (Dev.onLink k.val (Dev.linkBack k.val)) s

/-- LINK_RETRAIN_TIMEOUT (R437). -/
def execLinkRetrainTimeout (k : Fin 4) (s : State) : Host.Outcome State Fault Refusal :=
  onDev (Dev.onLink k.val (Dev.linkDead k.val)) s

/-- FLIT_RECEIVE (R440). -/
def execFlitReceive (k : Fin 4) (seq : BitVec 12) (f : FlitKind) (check : FlitCheck) (s : State) :
    Host.Outcome State Fault Refusal := onDev (Dev.onLink k.val (Dev.flitReceive k.val seq.toNat f check)) s

/-- FLIT_NAK (R440). -/
def execFlitNak (k : Fin 4) (seq : BitVec 12) (s : State) : Host.Outcome State Fault Refusal :=
  onDev (Dev.onLink k.val (Dev.flitNak k.val seq.toNat)) s

/-- CREDIT_RECEIVE (R439). -/
def execCreditReceive (k : Fin 4) (vc : Fin 3) (n : Fin 257) (s : State) : Host.Outcome State Fault Refusal :=
  onDev (Dev.onLink k.val (Dev.creditBack k.val vc.val n.val)) s

/-- EPOCH_SEND (R451). -/
def execEpochSend (s : State) : Host.Outcome State Fault Refusal := onDev Dev.epochSend s

/-- EPOCH_FLIT (R451). -/
def execEpochFlit (k : Fin 4) (number : BitVec 16) (s : State) : Host.Outcome State Fault Refusal :=
  onDev (Dev.onLink k.val (Dev.epochFlit k.val number.toNat)) s

/-- EQ_STEP (R441). -/
def execEqStep (k : Fin 4) (want : Fin 64) (s : State) : Host.Outcome State Fault Refusal :=
  onDev (Dev.onLink k.val (Dev.eqStep k.val want.val)) s

/-- KAKAN_WRITE (R446). -/
def execKakanWrite (p : KPacket) (s : State) : Host.Outcome State Fault Refusal := onDev (Dev.kWrite p) s

/-- KAKAN_RED_WRITE (R447). -/
def execKakanRedWrite (p : KPacket) (s : State) : Host.Outcome State Fault Refusal := onDev (Dev.kReduce p) s

/-- KAKAN_SIG (R448). -/
def execKakanSig (p : KPacket) (s : State) : Host.Outcome State Fault Refusal := onDev (Dev.kSig p) s

/-- KAKAN_READ (R445). -/
def execKakanRead (p : KPacket) (s : State) : Host.Outcome State Fault Refusal := onDev (Dev.kRead p) s

/-- KAKAN_READ_DATA (R446). -/
def execKakanReadData (p : KPacket) (s : State) : Host.Outcome State Fault Refusal := onDev (Dev.kReadData p) s

/-- KAKAN_ACK (R446). -/
def execKakanAck (p : KPacket) (s : State) : Host.Outcome State Fault Refusal := onDev (Dev.kAck p) s

/-- KAKAN_NAK_ROUTE (R438): the packet is received; the spec gives no effect on its request, which R449 ends. -/
def execKakanNakRoute (p : KPacket) (s : State) : Host.Outcome State Fault Refusal :=
  onDev (Dev.deliver { p with op := .nakRoute }) s

/-- REMOTE_TIMEOUT (R449). -/
def execRemoteTimeout (tag : Word) (s : State) : Host.Outcome State Fault Refusal := onDev (Dev.remoteTimeout tag) s

end Sys2Proof.Machine
end

