-- ==== Sys2Proof/Machine/Flags.lean ====
section
/-!
DEFINITION. What the Spindle instructions do to MODE and its flags (R342, R343, R365, R372): saturation with SATF, and the MODE an
MSET computes.
-/
namespace Sys2Proof.Machine

namespace Core

/-- The largest and smallest values of a signed word. -/
def maxInt : Int := 2 ^ 31 - 1
def minInt : Int := -2 ^ 31

/-- An exact result clamped to a signed word (R342). -/
def clamp (x : Int) : Int := max minInt (min maxInt x)

/-- The result of a saturating instruction in register rd (R365): the exact result modulo 2³² with ARITH = WRAP; clamped with
ARITH = SAT, and SATF set where the clamp changed it. -/
def putSat (c : Core) (rd : Nat) (exact : Int) : Core :=
  if c.saturating then
    let c := if clamp exact = exact then c else c.setSatf
    c.setReg rd (BitVec.ofInt 32 (clamp exact))
  else c.setReg rd (BitVec.ofInt 32 exact)

/-- The MODE that MSET computes (R372): IMM[3:0] under the enables IMM[11:8]; SATF can only be cleared. -/
def msetMode (c : Core) (imm : Nat) : Nat :=
  let pick (i : Nat) : Nat := (if imm.testBit (8 + i) then imm.testBit i else c.mode.testBit i).toNat * 2 ^ i
  pick 0 + pick 1 + pick 2 + (c.mode.testBit 3 && !(imm.testBit 11 && !imm.testBit 3)).toNat * 8

/-- Whether an MSET in task mode would change PRIV or IE (R341, R372). -/
def msetDenied (c : Core) (imm : Nat) : Bool :=
  !c.machineMode && [0, 2].any fun i => imm.testBit (8 + i) && imm.testBit i != c.mode.testBit i

end Core

end Sys2Proof.Machine
end

