-- ==== Sys2Proof/Machine/Operands.lean ====
section
/-!
DEFINITION. The operand forms of the Spindle instructions (R362, R369): immediates, branch targets and effective addresses; and
the control registers of R340 as CRD, CWR and the debug path reach them.
-/
namespace Sys2Proof.Machine

/-- A 15-bit immediate, sign-extended. -/
def sext15 (imm : BitVec 15) : Word := imm.signExtend 32

/-- A 15-bit immediate, zero-extended. -/
def zext15 (imm : BitVec 15) : Word := imm.zeroExtend 32

/-- The target of a BC-format offset of the instruction at `a` (R362). -/
def bcTarget (a : Word) (off : BitVec 14) : Word := a + off.signExtend 32 * 4

/-- The target of an LJ-format offset of the instruction at `a` (R362). -/
def ljTarget (a : Word) (off : BitVec 25) : Word := a + off.signExtend 32 * 4

/-- The effective address of a load or store (R369). -/
def Core.address (c : Core) (ra : Nat) (imm : BitVec 15) : Word := c.reg ra + sext15 imm

/-! ## Control registers (R340) -/

/-- The control registers that task mode cannot reach. -/
def crPrivate (cr : Nat) : Bool := (1 ≤ cr && cr ≤ 6) || cr == 14 || cr == 22

/-- The control registers that task mode may write. -/
def crTaskWrites (cr : Nat) : Bool := (8 ≤ cr && cr ≤ 13) || 24 ≤ cr

/-- The control registers that no CWR may write. -/
def crForbidden (cr : Nat) : Bool := cr == 0 || cr == 7 || cr == 16 || cr == 17 || cr == 23

namespace Dev

/-- TASK of core n (R340): VALID, ABORT and the ring. -/
def coreTaskWord (d : Dev) (n : Nat) : Word :=
  let c := d.core n
  match c.task.bind d.task with
  | some t => BitVec.ofNat 32 (1 + c.abort.toNat * 2 + t.ring * 256)
  | none => 0

/-- SEQ of the task in service at core n. -/
def coreSeq (d : Dev) (n : Nat) : Word :=
  match (d.core n).task.bind d.task with
  | some t => t.seq
  | none => 0

/-- A control register of core n (R340). CYC holds the clocks that it last read as. -/
def crRead (d : Dev) (n cr : Nat) : Word :=
  let c := d.core n
  match cr with
  | 0 => BitVec.ofNat 32 c.mode
  | 1 => BitVec.ofNat 32 c.eflags
  | 2 => c.epc
  | 3 => BitVec.ofNat 32 c.ecause
  | 4 => c.ebad
  | 5 => c.evec
  | 6 => c.escr
  | 7 => BitVec.ofNat 32 n
  | 8 => c.ls0
  | 9 => c.le0
  | 10 => c.lc0
  | 11 => c.ls1
  | 12 => c.le1
  | 13 => c.lc1
  | 14 => BitVec.ofNat 32 c.intEn
  | 15 => BitVec.ofNat 32 c.intPend
  | 16 => c.cyc
  | 17 => d.coreTaskWord n
  | 18 | 19 | 20 | 21 => Sparse.get (fun _ => 0) c.win (cr - 18)
  | 22 => c.tcmp
  | 23 => d.coreSeq n
  | _ => 0

/-- A control register of core n read, CYC with the clocks that have passed: they are left open. -/
def crTake (d : Dev) (n cr : Nat) : Word × Dev :=
  if cr = 16 then
    let (v, d) := d.fresh
    (BitVec.ofNat 32 v, d.setCore n { d.core n with cyc := BitVec.ofNat 32 v })
  else (d.crRead n cr, d)

/-- A control register written (R340): the bits outside its fields are ignored, INT_PEND is W1C, and a write of TCMP lets the
timer raise its interrupt once. -/
def crWrite (c : Core) (cr : Nat) (v : Word) : Core :=
  let n := v.toNat
  match cr with
  | 1 => { c with eflags := n &&& 0x7B }
  | 2 => { c with epc := v }
  | 3 => { c with ecause := n % 2 ^ 8 }
  | 4 => { c with ebad := v }
  | 5 => { c with evec := v &&& 0xFFFFFF00 }
  | 6 => { c with escr := v }
  | 8 => { c with ls0 := v }
  | 9 => { c with le0 := v }
  | 10 => { c with lc0 := v }
  | 11 => { c with ls1 := v }
  | 12 => { c with le1 := v }
  | 13 => { c with lc1 := v }
  | 14 => { c with intEn := n % 2 ^ 7 }
  | 15 => { c with intPend := c.intPend &&& (127 - n % 2 ^ 7) }
  | 18 | 19 | 20 | 21 => { c with win := Sparse.put (fun _ => 0) c.win (cr - 18) (v &&& 0xFFFFF) }
  | 22 => { c with tcmp := v, tcmpOn := true }
  | _ => c

/-! ## The debug path (R356) -/

/-- The register that DBG_IDX names, while the core is halted. -/
def dbgRead (d : Dev) (n : Nat) : Word × Dev :=
  let i := (d.reg (corePage n) 0x08C).toNat
  if (d.core n).st ≠ .dbgHalt then (0, d)
  else if i < 32 then ((d.core n).reg i, d)
  else if 0x100 ≤ i && i < 0x200 then d.crTake n (i - 0x100)
  else (0, d)

/-- A write of DBG_DATA; MODE and the registers that no CWR may write do not change. -/
def dbgWrite (d : Dev) (n : Nat) (v : Word) : Dev :=
  let i := (d.reg (corePage n) 0x08C).toNat
  let c := d.core n
  if c.st ≠ .dbgHalt then d
  else if i < 32 then d.setCore n (c.setReg i v)
  else if 0x100 ≤ i then d.setCore n (crWrite c (i - 0x100) v)
  else d

/-- RESUME of a halted core: it continues, and passes a breakpoint at the instruction where it stands. -/
def debugResume (d : Dev) (n : Nat) : Dev :=
  let c := d.core n
  if c.st = .dbgHalt then d.setCore n { c with st := .run, passBp := true } else d

/-- STEP of a halted core: it runs one unit and halts again. -/
def debugStep (d : Dev) (n : Nat) : Dev :=
  let c := d.core n
  if c.st = .dbgHalt then d.setCore n { c with st := .run, passBp := true, step := true } else d

/-- HALT_REQ: the core halts at the boundary where it stands; a stopped core has none. -/
def debugRequest (d : Dev) (n : Nat) : Dev :=
  match (d.core n).st with
  | .run | .wfi | .twait => d.debugHalt n 1
  | .dbgHalt | .stopped => d

end Dev

end Sys2Proof.Machine
end

