-- ==== Sys2Proof/Machine/Ports.lean ====
section
/-!
DEFINITION. The host ports (19, R427–R435): link-down and its timed release (R55, R331), MSI-X, and BAR2.
-/
namespace Sys2Proof.Machine

namespace Dev

/-- LINK.UP of a port. -/
def portUp (d : Dev) (p : Port) : Bool := d.flag p.page 0x040 0

/-- The numbers of a port's vectors in the MSI-X stores, and of its function mask. -/
def portKey (p : Port) (k : Nat) : Bool := k / 128 == p.index || k == 1000 + p.index

/-- The MSI-X table and PBA of a port at reset values (R433): every vector and the function masked. -/
def msixReset (d : Dev) (p : Port) : Dev :=
  { d with msix := Sparse.forget d.msix fun k => k / 512 == p.index
           pba := Sparse.forget d.pba (portKey p)
           unmasked := Sparse.forget d.unmasked (portKey p) }

/-- A port's link goes down (R434, R331): its record is entered or nested, and its release is due in 1 ms. An FLR leaves the link
trained. -/
def portDown (p : Port) (c : LinkDownCause) (d : Dev) : Dev :=
  let d := if c = .flr then d.setFlag p.page 0x040 0 false else d.setReg p.page 0x040 0
  let d := ((d.msixReset p).count p.page 0x044).err p.page 0
  let d := d.logContained { dom := .port p.index, srcPage := p.page, srcBit := 0 }
  ({ d with released := d.released ++ [(p, d.now)] } : Dev).settle (92 + p.index)

/-- A port trains (R435). -/
def portTrain (p : Port) (speed width : Nat) (d : Dev) : Dev :=
  ((d.msixReset p).setReg p.page 0x040 (BitVec.ofNat 32 (1 + speed * 2 + width * 16))).settle (92 + p.index)

/-- An FLR is over (R434): the port answers again where its link is trained. -/
def flrOver (p : Port) (d : Dev) : Dev :=
  if d.field p.page 0x040 3 1 = 0 then d else (d.setFlag p.page 0x040 0 true).settle (92 + p.index)

/-- A port's votes withdrawn on every page (R55). -/
def unvote (p : Port) (d : Dev) : Dev :=
  forEach (List.range 96) (fun r d => d.settle r)
    (forEach (d.headerPages 0x028) (fun q d => d.setField q 0x028 (4 * p.index + 3) (4 * p.index) 0) d)

/-- A ring is orphaned (R331): it drains, and its undispatched tasks complete with 0x13 in SEQ order. -/
def orphan (n : Nat) (d : Dev) : Dev :=
  let g := ringPage n
  let d := d.setFlag g 0x088 16 true
  let d := if d.running g then d.setPageState g 3 else d
  let d := (d.undispatched n).foldl (fun d e => d.cancelTask e.1 0x13 0) d
  d.ringDrained n

/-- The undispatched tasks that a port submitted to a ring that is not orphaned (R331). -/
def hostGone (p : Port) (n : Nat) (d : Dev) : Dev :=
  ((d.undispatched n).filter fun e => e.2.by_ == .agent p.agent).foldl (fun d e => d.cancelTask e.1 0x13 0) d

/-- A port's release, 1 ms after its link-down (R55, R331, R433). -/
def portRelease (p : Port) (d : Dev) : Dev :=
  match d.released.find? fun e => e.1 == p && decide (e.2 + 1000 ≤ d.now) with
  | none => d
  | some e =>
    let d : Dev := { d with released := d.released.erase e }
    let mine := (List.range 64).filter fun n => d.claimedBy p.agent (ringPage n)
    let others := (List.range 64).filter fun n => !mine.contains n
    let d := unvote p (d.releaseAgent p.agent)
    let d : Dev := { d with latched := Sparse.forget d.latched fun k => k / 2 ^ 25 == p.agent.index
                            staged := Sparse.forget d.staged fun k => k / 2 ^ 25 == p.agent.index
                            batches := d.batches.filter fun b => b.agent != p.agent
                            regs := Sparse.forget d.regs fun k => k / 4096 == p.page && decide (0x048 ≤ k % 4096) && decide (k % 4096 < 0x110) }
    (forEach others (hostGone p) (forEach mine orphan d)).advance

/-! ## MSI-X (R431) -/

/-- The message of a vector whose PBA bit is set goes out once vector and function are unmasked. -/
def msixSend (p : Port) (v : Nat) (d : Dev) : Dev :=
  let k := p.index * 128 + v
  if Sparse.get (fun _ => false) d.pba k && Sparse.get (fun _ => false) d.unmasked k &&
      Sparse.get (fun _ => false) d.unmasked (1000 + p.index) then
    { d.count p.page 0x110 with sent := some (p, v), pba := Sparse.put (fun _ => false) d.pba k false }
  else d

/-- A vector, or with `none` the function, is unmasked. -/
def msixUnmask (p : Port) (v : Option (Fin 128)) (d : Dev) : Dev :=
  let k := match v with | some v => p.index * 128 + v.val | none => 1000 + p.index
  let d : Dev := { d with unmasked := Sparse.put (fun _ => false) d.unmasked k true }
  match v with
  | some v => msixSend p v.val d
  | none => forEach (List.range 128) (msixSend p) d

/-! ## BAR2 (R267, R430) -/

/-- A received TLP with EP set (R430). -/
def rxPoison (p : Port) (d : Dev) : Dev := (d.count p.page 0x118).err p.page 2

/-- The bytes of a write that its byte enables pick, one by one. -/
def writeEnabled (p : Port) : Nat → List Byte → List Bool → Dev → Dev
  | a, b :: bs, e :: es, d => writeEnabled p (a + 1) bs es (if e then d.skeinWrite (.port p) a [b] else d)
  | _, _, _, d => d

/-- A request to BAR2 (R267, R427, R430). -/
def bar2 (p : Port) (a : Nat) (r : Request) (poisoned : Bool) (d : Dev) : Dev :=
  if !d.portUp p then d
  else if poisoned then rxPoison p d
  else if d.flag p.page 0x040 12 || !d.hbmReady then d.answer .unsupported
  else
    match r with
    | .read n => if 4096 < n then d.answer .unsupported else d.skeinRead (.port p) a n .clean
    | .write data es =>
      if 4096 < data.length then d.answer .unsupported
      else if es.all id && es.length = data.length then d.skeinWrite (.port p) a data
      else (writeEnabled p a data es d).answer .done

/-- A port's read of its device's or another device's memory that has waited for 1 ms (R430). -/
def lateAccess (p : Port) (d : Dev) (x : WaitAccess) : Bool := x.data.isNone && x.who == .port p && decide (x.since + 1000 ≤ d.now)
def lateRemote (p : Port) (d : Dev) (r : Remote) : Bool := r.read && r.who == .port p && decide (r.sent + 1000 ≤ d.now)

/-- A BAR2 read that is not served within 1 ms (R430): it ends with Completer Abort and has no effect on Skein. -/
def bar2Timeout (p : Port) (d : Dev) : Dev :=
  if d.waits.any (lateAccess p d) || d.remotes.any (lateRemote p d) then
    let d : Dev := { d with remotes := d.remotes.filter (fun r => !lateRemote p d r)
                            waits := d.waits.filter fun x => !lateAccess p d x }
    ((d.skeinVotes.count p.page 0x114).err p.page 1).answer .completerAbort
  else d

end Dev

/-! ## The commands -/

/-- PORT_RELEASE (R55). -/
def execPortRelease (p : Port) (s : State) : Host.Outcome State Fault Refusal := onDev (Dev.portRelease p) s

/-- BAR2_REQUEST (R430). -/
def execBar2Request (p : Port) (addr : BitVec 41) (req : Request) (poisoned : Bool) (s : State) :
    Host.Outcome State Fault Refusal := onDev (Dev.bar2 p addr.toNat req poisoned) s

/-- BAR2_READ_TIMEOUT (R430). -/
def execBar2ReadTimeout (p : Port) (s : State) : Host.Outcome State Fault Refusal := onDev (Dev.bar2Timeout p) s

/-- MSIX_UNMASK (R431). -/
def execMsixUnmask (p : Port) (vector : Option (Fin 128)) (s : State) : Host.Outcome State Fault Refusal :=
  onDev (Dev.msixUnmask p vector) s

/-- PORT_LINK_DOWN (R434). -/
def execPortLinkDown (p : Port) (c : LinkDownCause) (s : State) : Host.Outcome State Fault Refusal := onDev (Dev.portDown p c) s

/-- PORT_LINK_UP (R435). -/
def execPortLinkUp (p : Port) (speed : Fin 8) (width : Fin 64) (s : State) : Host.Outcome State Fault Refusal :=
  onDev (Dev.portTrain p speed.val width.val) s

/-- FLR_DONE (R434). -/
def execFlrDone (p : Port) (s : State) : Host.Outcome State Fault Refusal := onDev (Dev.flrOver p) s

end Sys2Proof.Machine
end

