-- ==== Sys2Proof/Machine/Views.lean ====
section
/-!
DEFINITION. What a register reads as, where its value follows other state: the common header (R57) and the registers of the
chapters' tables that show queues, frames, regions, tasks, cores, the error log, the fuses and the halt unit.
-/
namespace Sys2Proof.Machine

/-- The number whose bit i is `f i`, for i below `n`. -/
def bitsOf (n : Nat) (f : Nat → Bool) : Nat := ((List.range n).map fun i => (f i).toNat * 2 ^ i).sum

/-- The low or high half of a number, as a pair's two registers show it. -/
def half (hi : Bool) (v : Nat) : Word := BitVec.ofNat 32 (if hi then v / 2 ^ 32 else v)

/-- RSTAT.STATE of a region's state (17). -/
def RegSt.stat : RegSt → Nat
  | .run => 0
  | .idle => 1
  | .sleep => 2
  | .deep => 3
  | .off => 4
  | .retired => 5
  | .entering => 6
  | .waking => 7

namespace Dev

/-! ## The header (R57) -/

/-- The items in service on a frozen page (R41). -/
def inService (d : Dev) (p : Nat) : Bool :=
  match pageKind p with
  | .ring n => d.taskList.any fun e => e.2.ring == n && e.2.st == .dispatched
  | .core => (d.core (p - 0x140)).task.isSome
  | .loom => d.loom.slot.isSome
  | .flyer => d.streams.any fun e => e.2.chunk.isSome
  | .cliff => d.cliffRun.isSome
  | .skein => d.migs.any (·.svc)
  | .stream n => d.streamBusy n
  | .aer => d.aer.beat0.isSome
  | .mic => d.mic.len != 0
  | .pack => d.packSup.reading.isSome
  | .whorlCommon => d.whorlBusy
  | .esc => !d.escs.isEmpty
  | .kakan n => !(d.link n).queue.isEmpty || !(d.link n).unacked.isEmpty
  | _ => false

/-- STATUS.BUSY: work in service or a state change in progress. -/
def pageBusy (d : Dev) (p : Nat) : Bool :=
  match pageKind p with
  | .fuses => d.fuseOp.isSome
  | .update => d.commit.isSome
  | .flash => d.flashOp.isSome
  | .debug => d.unlock.isSome
  | .plc => d.plc.isSome
  | .tile => d.loomRuns (p - 0x080)
  | .carder => d.loom.slot.isSome && d.loom.cards != 0
  | .mover => (d.moverTask (p - 0x0E4)).isSome
  | .region r => (match (d.region r).st with | .entering | .waking => true | _ => false)
  | .clkRoot => d.clk.target.isSome
  | .skein => if d.frozen p then d.inService p else !d.migs.isEmpty
  | k =>
    if k.hasEn then
      d.pageState p == 3 || d.flag p 0x010 4 || (if d.frozen p then d.inService p else d.pageState p == 2)
    else false

/-- The header of page p. -/
def headerView (d : Dev) (p off : Nat) : Word :=
  if d.absentPage p then BitVec.ofNat 32 (headerReset d.pkg p off)
  else if off = 0x010 then putBit (d.reg p 0x010) 5 (d.pageBusy p)
  else if off = 0x028 then
    if (pageKind p).hasVote then putBits (d.reg p 0x028) 15 12 (shallowest ((voteRegions p).flatMap d.hwVotes)) else 0
  else d.reg p off

/-! ## The blocks -/

/-- TSTAT.PWR of tile n (09): powered, retained, off or retired. -/
def tilePwr (d : Dev) (n : Nat) : Nat :=
  let kept (s : RegSt) : Nat := if s = .sleep || (s = .deep && d.flag (regionPage n) 0x040 8) then 1 else 0
  let x := d.region n
  match x.st with
  | .run | .idle | .entering => 2
  | .sleep | .deep => kept x.st
  | .waking => (match x.wake with | some w => kept w.former | none => 0)
  | .off => 0
  | .retired => 3

/-- SUB_LAST, SUB_STAT and SUBMIT_D0–D14 are each agent's own (R292, R293). -/
def agentOwn (off : Nat) : Bool := off == 0x06C || off == 0x070 || (0x0C0 ≤ off && off < 0x100)

/-- The state code of a record, its domain and the words of R321. -/
def logDomain : Domain → Nat × Nat
  | .none => (0, 0)
  | .ring n => (1, n)
  | .port n => (3, n)
  | .neighbour n => (4, n)
  | .region n => (5, n)
  | .page n => (6, n)

def sevCode : Severity → Nat
  | .corrected => 0
  | .contained => 1
  | .device => 2
  | .safety => 3

def recCode : RecState → Nat
  | .free => 0
  | .opened => 1
  | .closed => 2

/-- Word w of log entry i (R321): a record with a flow and no other domain names the flow. -/
def logWord (d : Dev) (i w : Nat) : Word :=
  let e := d.logEntry i
  let (kind, idx) := match e.dom, e.flow with
    | .none, some f => (2, f)
    | dom, _ => logDomain dom
  BitVec.ofNat 32 <|
    match w with
    | 0 => e.eseq
    | 1 => sevCode e.sev + recCode e.st * 4 + e.nested.toNat * 16 + e.escalated.toNat * 32 + sevCode e.origSev * 64 + kind * 256 +
        idx * 4096 + (e.flow.isSome && !(e.dom == .none)).toNat * 2 ^ 25
    | 2 => e.srcPage + e.srcBit * 2 ^ 16 + e.status * 2 ^ 24
    | 3 => e.taskSeq.toNat
    | 4 => e.addr
    | 5 => e.addr / 2 ^ 32 + e.ring * 2 ^ 16 + e.unit * 2 ^ 24
    | 6 => e.time.toNat
    | _ => e.nestCnt + (e.flow.getD 0) * 2 ^ 16

/-- The error log's registers (14). -/
def errlogView (d : Dev) (off : Nat) : Word :=
  let open_ := d.logWhere fun e => e.st == .opened
  if 0x100 ≤ off && off < 0x500 then d.logWord ((off - 0x100) / 0x20) (off % 0x20 / 4)
  else if off = 0x040 then
    BitVec.ofNat 32 (open_.length + d.deviceState.toNat * 2 ^ 8 + d.overflowed.toNat * 2 ^ 9 +
      (open_.any fun i => (d.logEntry i).sev == .safety).toNat * 2 ^ 10)
  else if off = 0x060 then BitVec.ofNat 32 (bitsOf 32 open_.contains)
  else if off = 0x064 then (match d.lowestEseq open_ with | some i => BitVec.ofNat 32 (i + 256) | none => 0)
  else d.reg 0x0F0 off

/-- The registers of ring n (13). -/
def ringView (d : Dev) (a : Agent) (n off : Nat) : Word :=
  let p := ringPage n
  if agentOwn off then d.agentReg a p off
  else if off = 0x088 then
    BitVec.ofNat 32 (d.heldSlots n + (d.flag p 0x088 16).toNat * 2 ^ 16 + (d.fenced n).toNat * 2 ^ 17)
  else d.reg p off

/-- CSTATE.STATE of a core (R360). -/
def coreCode : CoreState → Nat
  | .run => 0
  | .wfi => 1
  | .twait => 2
  | .dbgHalt => 3
  | .stopped => 4

/-- The registers of core n (R360). -/
def coreView (d : Dev) (n off : Nat) : Word :=
  let c := d.core n
  if off = 0x044 then BitVec.ofNat 32 (coreCode c.st + c.inException.toNat * 2 ^ 8 + c.machineMode.toNat * 2 ^ 9)
  else if off = 0x048 then c.pc
  else if off = 0x054 then d.coreTaskWord n
  else if off = 0x058 then d.coreSeq n
  else if off = 0x084 then
    BitVec.ofNat 32 ((c.st == .dbgHalt).toNat + c.dbd.toNat * 2 + c.dsh.toNat * 4 + c.reason * 16)
  else if off = 0x088 then c.dpc
  else if off = 0x090 then (d.dbgRead n).1
  else d.reg (corePage n) off

/-- The registers of region r's page (17). -/
def regionView (d : Dev) (r off : Nat) : Word :=
  let x := d.region r
  if off = 0x044 then
    BitVec.ofNat 32 ((d.regionNow r).stat + d.target r * 2 ^ 4 + x.phases * 2 ^ 8 + x.crack.toNat * 2 ^ 16 + (min 15 x.retries) * 2 ^ 20)
  else if off = 0x050 then BitVec.ofNat 32 (d.vlog r)
  else if off = 0x054 then BitVec.ofNat 32 (d.vsram r)
  else if off = 0x058 then BitVec.ofNat 32 (d.ilim r)
  else d.reg (regionPage r) off

/-- A mover's registers (13): the ring, SEQ and bytes of the task in service. -/
def moverView (d : Dev) (m off : Nat) : Word :=
  match d.moverTask m with
  | none => 0
  | some (_, t) =>
    if off = 0x040 then BitVec.ofNat 32 (1 + t.ring * 2 ^ 8) else if off = 0x044 then t.seq else if off = 0x048 then t.word 8 else 0

/-- The state code that a register of page 0x00A shows: RUN, IDLE, SLEEP, DEEP, RETIRED. -/
def stateShown (s : Nat) : Nat := if s = 4 then 5 else s

/-- The registers of the other blocks that follow state beside them. -/
def blockView (d : Dev) (a : Agent) (p off : Nat) : Word :=
  match pageKind p with
  | .sems => if off = 0x140 || off = 0x144 then half (off == 0x144) (bitsOf 64 d.semHeld) else d.reg p off
  | .update =>
    let w := d.winner
    if off = 0x040 then
      BitVec.ofNat 32 (w.state + w.kind * 8 + w.active * 16 + w.target * 32 + w.setCur * 64 + (d.journalWin.getD 0) * 256 +
        (d.journal 0).valid.toNat * 512 + (d.journal 1).valid.toNat * 1024)
    else if off = 0x044 then BitVec.ofNat 32 w.seq
    else d.reg p off
  | .debug => if off = 0x040 then BitVec.ofNat 32 (d.reg 0x005 0x044 == 0).toNat else d.reg p off
  | .pwr => if off = 0x070 then BitVec.ofNat 32 d.powerLimit else d.reg p off
  | .wakeN => if off = 0x044 then d.wakeNOpen.reg p off else d.reg p off
  | .regionStates =>
    let s := stateShown ((off - 0x040) / 0x10)
    let w := off % 0x10 / 4
    if 0x040 ≤ off && off < 0x090 && w < 3 then BitVec.ofNat 32 (bitsOf 32 fun i => (d.regionNow (32 * w + i)).stat == s) else 0
  | .reelCommon => if off = 0x058 then BitVec.ofNat 32 d.timebaseSrc else d.reg p off
  | .clkSources => if off = 0x040 then putBit (d.reg p off) 0 (d.srcRdy 0) else d.reg p off
  | .reelChannels =>
    let k := 4 * (p - 0x019) + (off - 0x040) / 0x40
    let n := d.rsrc k
    if off % 0x40 = 0x14 && 0x040 ≤ off && off < 0x140 then d.reelStat k else
    if off % 0x40 = 0x24 && off < 0x140 then (if 1 ≤ n && n ≤ 4 then (d.encoder (n - 1)).net else 0) else d.reg p off
  | .whorlCores =>
    let o := (off - 0x040) % 0x40
    let c := 32 * (p - 0x052) + (off - 0x040) / 0x40
    if 0x840 ≤ off then 0
    else if o = 0x0C then BitVec.ofNat 32 ((d.wstate c == 2).toNat * 256)
    else if o = 0x10 then putBits (d.reg p off) 6 0 (d.wdepth c)
    else d.reg p off
  | .streamTable => if 63 * (p - 0x062) + (off - 0x040) / 0x40 < 256 then d.reg p off else 0
  | .tile =>
    if off = 0x040 then putBit (putBits (d.reg p off) 2 0 (d.tilePwr (p - 0x080))) 5 (d.pageBusy p) else d.reg p off
  | .loom =>
    if off = 0x0C0 || off = 0x0C4 then half (off == 0x0C4) (bitsOf 64 fun n => d.tilePwr n == 2)
    else if off = 0x0C8 || off = 0x0CC then half (off == 0x0CC) (bitsOf 64 d.retired)
    else if off = 0x0EC then BitVec.ofNat 32 (d.rootMhz / 2)
    else d.reg p off
  | .carder =>
    let q := (off - 0x040) / 0x10
    if 0x040 ≤ off && off < 0x080 && off % 0x10 = 0 then
      if d.loom.slot.isSome && d.loom.cards.testBit q then BitVec.ofNat 32 (1 + d.loom.cmd * 2 ^ 16) else 0
    else d.reg p off
  | .kv => if off = 0x054 then BitVec.ofNat 32 d.kvSpanBytes else d.reg p off
  | .skein =>
    if off = 0x044 then
      BitVec.ofNat 32 (d.hbmReady.toNat + (!d.hbmReady).toNat * 2 + (match d.pkg with | .rm => 2 | .tc => 6) * 2 ^ 4)
    else d.reg p off
  | .frames =>
    let t := (off - 0x040) / 8
    if 0x040 ≤ off && off < 0x068 then BitVec.ofNat 32 (if off % 8 = 0 then d.freeCount t else d.totalFrames t) else 0
  | .slots =>
    if 0x040 ≤ off && off < 0x140 && off % 0x10 = 0x0C then putBit (d.reg p off) 8 (d.pfSlot ((off - 0x040) / 0x10)).run else d.reg p off
  | .lending =>
    if 0x050 ≤ off && off < 0x090 && off % 0x10 = 0x0C then
      let n := (off - 0x050) / 0x10
      putBits (d.reg p off) 23 0 ((d.nbPages (d.nbDev n)).length + d.lentOut n)
    else d.reg p off
  | .shuttle =>
    if off = 0x040 then BitVec.ofNat 32 d.slotsFree
    else if off = 0x044 then BitVec.ofNat 32 ((List.range 64).map d.reserve).sum
    else if off = 0x048 then d.latLast.elim 0 fun i => BitVec.ofNat 32 (Config.freeValue i)
    else d.reg p off
  | .flows =>
    if 0x040 ≤ off && off < 0x240 then BitVec.ofNat 32 (bitsOf 32 fun i => d.flowBusy (32 * ((off - 0x040) / 4) + i)) else 0
  | .engines =>
    if off = 0x040 then
      BitVec.ofNat 32 (bitsOf 16 (fun n => (d.core n).task.isSome) + d.loom.slot.isSome.toNat * 2 ^ 16 +
        bitsOf 4 (fun m => (d.moverTask m).isSome) * 2 ^ 20)
    else 0
  | .mover => d.moverView (p - 0x0E4) off
  | .errlog => d.errlogView off
  | .ring n => d.ringView a n off
  | .core => d.coreView (p - 0x140) off
  | .traceRead =>
    let r := Sparse.get (fun _ => {}) d.trace (d.field 0x161 0x040 12 0)
    if off = 0x044 then r.w0 else if off = 0x048 then r.w1 else if off = 0x04C then r.w2 else if off = 0x050 then r.w3 else d.reg p off
  | .region r => d.regionView r off
  | _ => d.reg p off

end Dev

/-! ## The fuses (R463) and the halt unit (06) -/

/-- Word i of the identity page. -/
def Fuses.view (f : Fuses) (pkg : Package) (busy : Bool) (off : Nat) : Word :=
  BitVec.ofNat 32 <|
    if off = 0x040 then f.lot.toNat
    else if off = 0x044 then f.lot.toNat / 2 ^ 32
    else if off = 0x048 then f.wafer.toNat + f.dieX.toNat * 2 ^ 8 + f.dieY.toNat * 2 ^ 16
    else if off = 0x04C then f.bin.toNat + f.speed.toNat * 2 ^ 4 + (match pkg with | .rm => 0 | .tc => 1) * 2 ^ 8
    else if off = 0x050 then f.uid.toNat
    else if off = 0x054 then f.uid.toNat / 2 ^ 32
    else if off = 0x058 then
      f.svnCount + f.revoke.toNat * 2 ^ 8 + f.debugOpen.toNat * 2 ^ 12 + busy.toNat * 2 ^ 30 + f.crcOk.toNat * 2 ^ 31
    else if 0x060 ≤ off && off < 0x120 then
      ofBytesLE ((List.range 4).map fun i => Sparse.get (fun _ => 0) f.keyHash (off - 0x060 + i))
    else 0

def HaltSt.code : HaltSt → Nat
  | .safe => 0
  | .armed => 1
  | .hold => 2
  | .tripped => 3

/-- The halt unit's registers that show its own state. -/
def State.haltView (s : State) (off : Nat) : Word :=
  let h := s.halt
  if off = 0x040 then BitVec.ofNat 32 (h.st.code + h.cause * 2 ^ 8 + h.ch * 2 ^ 12)
  else if off = 0x048 then h.cmd.zeroExtend 32
  else if off = 0x04C then BitVec.ofNat 32 (h.pins.toNat + h.fb.toNat * 2 ^ 8 + h.stuck.toNat * 2 ^ 16)
  else if off = 0x050 then BitVec.ofNat 32 h.hb
  else s.dev.reg 0x041 off

/-- What agent a reads at offset `off` of page p while the page answers; an ABSENT page's blocks read zero (R3). -/
def State.view (s : State) (a : Agent) (p off : Nat) : Word :=
  if off < 0x040 then s.dev.headerView p off
  else if s.dev.absentPage p then 0
  else match pageKind p with
    | .fuses => s.fuses.view s.dev.pkg s.dev.fuseOp.isSome off
    | .halt => s.haltView off
    | _ => s.dev.blockView a p off

end Sys2Proof.Machine
end

