-- ==== Sys2Proof/Machine/PageCtrl.lean ====
section
/-!
DEFINITION. The state machine of a page (R37–R41): what CTRL.EN, CTRL.SRST and CTRL.FRZ do, and what each block does as its page
starts, drains and is reset.
-/
namespace Sys2Proof.Machine

namespace Dev

/-- A block starts from its configuration (R37). -/
def blockStart (d : Dev) (p : Nat) : Dev :=
  match pageKind p with
  | .mic => d.micStart.judgeAll
  | .pack => d.packChg
  | .whorlCommon => d.whorlStart
  | .ring _ => d.setFlag p 0x088 16 false
  | .core => d.coreLeaveReset (p - 0x140)
  | .kakan n => d.klinkEnable n
  | _ => d

/-- A page goes to READY (R37): PEND_EN clears. -/
def pageStart (d : Dev) (p : Nat) : Dev := ((d.setFlag p 0x010 4 false).setPageState p 1).blockStart p

/-- A page in DRAINING: the block takes no new work, and the page enters DISABLED once none is in flight (R37). -/
def blockDrain (d : Dev) (p : Nat) : Dev :=
  match pageKind p with
  | .stream n => streamWork n d
  | .aer => d.aerWork
  | .mic => d.micStop.micWork
  | .cliff => d.cliffWork
  | .pack => d.packChg.packWork
  | .whorlCommon => d.whorlWork
  | .flyer => d.flyerDisable.flyerWork
  | .esc => d.escDisable.escWork
  | .loom => d.loomWork
  | .ring n => d.ringDrained n
  | .core => d.coreWork ⟨(p - 0x140) % 16, Nat.mod_lt _ (by decide)⟩
  | .kakan n => (d.klinkDisable n).disabled p
  | _ => d

/-- CTRL.EN = 1 written (R37, R96, R332): on a ring page ORPHANED clears; on the draining page of a camera the open frame is discarded. -/
def enable (d : Dev) (p : Nat) : Dev :=
  if !(pageKind p).hasEn then d
  else
    let st := d.pageState p
    if st = 5 then d.err p 29
    else
      let d := d.setFlag p 0x00C 0 true
      let d := match pageKind p with | .ring _ => d.setFlag p 0x088 16 false | _ => d
      if st = 0 || st = 4 then d.pageStart p
      else if st = 3 then
        let d := d.setFlag p 0x010 4 true
        match pageKind p with
        | .stream n => if n < 8 then streamWork n (d.dropFrame n 4) else d
        | _ => d
      else d

/-- CTRL.EN = 0 written (R37, R139). PEND_EN outlives a fault of the draining page: the EN = 0 that leaves FAULT does not clear it (log
entry 191). -/
def disable (d : Dev) (p : Nat) : Dev :=
  if !(pageKind p).hasEn then d
  else if p = 0x040 && d.cliffDisableRefused then d.err p 29
  else
    let st := d.pageState p
    let d := d.setFlag p 0x00C 0 false
    if st = 1 || st = 2 || st = 5 then (d.setPageState p 3).blockDrain p
    else if st = 3 || st = 4 then d.setFlag p 0x010 4 false
    else d

/-- A block's internal state cleared (R39). -/
def blockClear (d : Dev) (p : Nat) : Dev :=
  match pageKind p with
  | .stream n => d.setChan n {}
  | .aer => { d with aer := {} }
  | .mic => { d with mic := {} }
  | .cliff =>
    forEach (List.range 8) (fun n d =>
      (d.setCliff n { iUse := d.iCmd n }).setField 0x040 (cliffBase n + 8) 15 8 (d.iCmd n)) d
  | .pack =>
    ({ d with packSup := { pin := d.packSup.pin, pinAt := d.packSup.pinAt, presAt := d.packSup.presAt } } : Dev).setReg p 0x048
      (d.reg p 0x048 &&& 1)
  | .whorlCommon => d.whorlEnded
  | .flyer => forEach [0x061, 0x062, 0x063, 0x064, 0x065, 0x066] (fun q d => d.resetRegs q srstKept) { d with streams := [] }
  | .esc => ({ d with snaps := [], hoSeq := 0, escs := [] } : Dev).setReg 0x067 0x058 0
  | .loom => { d with loom := {} }
  | .ring n => { (d.setReg p 0x058 0) with phase := Sparse.put (fun _ => false) d.phase n false }
  | .core => d.coreCleared (p - 0x140)
  | .kakan n => d.setLink n { since := d.now }
  | _ => d

/-- CTRL.SRST = 1 written (R39): in OFF or DISABLED the page is left in OFF; elsewhere the write is refused. -/
def softReset (d : Dev) (p : Nat) : Dev :=
  if d.idlePage p then (((d.resetRegs p srstKept).blockClear p).setFlag p 0x010 4 false).setPageState p 0
  else d.err p 29

/-- Freezing Skein leaves one migration in service, the one served first (R41, R274): it alone may still switch. -/
def migFreeze (d : Dev) : Dev :=
  let m := d.migOrder.find? fun m => d.migReady m
  { d with migs := d.migs.map fun x => { x with svc := some x == m } }

/-- CTRL.FRZ written (R41). -/
def setFrz (d : Dev) (p : Nat) (v : Bool) : Dev :=
  let d := if p = 0x0D0 && v && !d.frozen p then d.migFreeze else d
  d.setFlag p 0x00C 2 v

/-- A page leaves DISABLED for its pending enable (R37). -/
def pendingStart (d : Dev) (p : Nat) : Dev :=
  if d.pageState p = 4 && d.flag p 0x010 4 then d.pageStart p else d

/-- A write of CTRL of page p by agent a (R49): RWL where the page is claimable. -/
def ctrlWrite (a : Agent) (p : Nat) (f : Dev → Dev) (d : Dev) : Dev :=
  if pageKind p = .unassigned || d.absentPage p then d
  else if (pageKind p).claimable && !d.claimedBy a p then d.deny a p
  else f d

/-! ## Claims and votes (R47, R51) -/

/-- OWNER.OP = CLAIM. -/
def claim (d : Dev) (a : Agent) (p : Nat) : Dev :=
  if d.absentPage p || !(pageKind p).claimable || d.field p 0x024 9 8 ≠ 0 then d
  else
    let w := d.reg p 0x024
    d.setReg p 0x024 (a.put (putBits w 23 16 (bits w 23 16 + 1)) 8)

/-- OWNER.OP = RELEASE. -/
def release (d : Dev) (a : Agent) (p : Nat) : Dev := if d.claimedBy a p then d.unclaim p else d

/-- A vote code as written: 5–15 count as 0. -/
def voteCode (v : Nat) : Nat := if v ≤ 4 then v else 0

/-- A write of VOTE by an agent: its class's field alone (R51), and the regions that it counts for follow. -/
def vote (d : Dev) (a : Agent) (p : Nat) (v : Word) : Dev :=
  if d.absentPage p || !(pageKind p).hasVote then d
  else
    let lo := 4 * (a.code - 1)
    forEach (voteRegions p) (fun r d => d.settle r) (d.setField p 0x028 (lo + 3) lo (voteCode (bits v (lo + 3) lo)))

/-! ## Spindle cores (R359) -/

/-- KILL = 1 written (R359): in DRAINING or FAULT the task in service completes 0xF0 and the page goes to DISABLED. -/
def coreKill (d : Dev) (n : Fin 16) : Dev :=
  let p := corePage n.val
  if d.pageState p = 3 || d.pageState p = 5 then
    let d := (d.err p 3).coreRetire n 0xF0 0
    if d.pageState p = 4 then d else (d.disabled p).coreEnterReset n
  else d

/-- A page whose debug registers are locked (R357): the debug path of core n is outside the unlocked scope. -/
def dbgLocked (d : Dev) (n : Nat) : Bool := !d.scope n

/-- A debug request of agent a at core n: its registers are RWL, and locked ones set DBG_LOCKED (R357). -/
def dbgCtrl (a : Agent) (n : Nat) (f : Dev → Dev) (d : Dev) : Dev :=
  rwlWrite a (corePage n) (fun d => if d.dbgLocked n then d.err (corePage n) 2 else f d) d

end Dev

end Sys2Proof.Machine
end

