-- ==== Sys2Proof/Machine/RegWrite.lean ====
section
/-!
DEFINITION. What a write of a block register does, once the bus has delivered it to a page that answers (R33–R35, R48, R50): the
fields it sets, the writes that a block refuses, and the effects that the chapters give their registers.
-/
namespace Sys2Proof.Machine

/-- The bits in the enabled bytes of a write (R33). -/
def byteMask (be : BitVec 4) : Word :=
  BitVec.ofNat 32 (((List.range 4).map fun i => if be.toNat.testBit i then 255 * 256 ^ i else 0).sum)

/-- The write-only fields that are RWL, which `RegRow` does not hold. -/
def woRwl (k : PageKind) (off : Nat) : Nat :=
  match k with
  | .fuses => if off = 0x120 then full else 0
  | .boot => if off = 0x05C then 1 else 0
  | .update => if off = 0x048 then 1 else 0
  | .debug => if off = 0x068 then 1 else 0
  | .reelChannels => if 0x040 ≤ off && off < 0x140 && off % 0x40 = 0 then 0x1000000 else 0
  | .halt => if off = 0x044 then full else if off = 0x048 then 0x3F else if off = 0x050 then 0xFF else if off = 0x060 then 1 else 0
  | .whorlCores => if 0x040 ≤ off && off < 0x840 && off % 0x40 = 0x0C then 3 else 0
  | .plc => if off = 0x054 then 0xF else 0
  | .slots => if 0x040 ≤ off && off < 0x140 && off % 0x10 = 0x0C then 3 else 0
  | .lending => if 0x050 ≤ off && off < 0x090 && off % 0x10 = 0 then 0x10000 else 0
  | .clkMux => if off = 0x040 || off = 0x044 then 0x203 else 0
  | .core => if off = 0x080 then 7 else 0
  | _ => 0

/-- The fields of registers that keep the values written to them and are no plain RW or RWL fields: a byte that a write does not
enable keeps them. -/
def keptBits (k : PageKind) (off : Nat) : Nat :=
  match k with
  | .esc => if off = 0x058 then 0xF00 else 0
  | .clkMux => if off = 0x040 || off = 0x044 then 1 else 0
  | .ring _ => if off = 0x080 then full else 0
  | .core => if off = 0x090 then full else 0
  | _ => 0

/-- The row of a register, an empty one where its table has none. -/
def rowOf (k : PageKind) (off : Nat) : RegRow := (regRow k off).getD (ro off)

/-- The RWL bits of a register. -/
def rwlBits (k : PageKind) (off : Nat) : Nat := (rowOf k off).rwl ||| woRwl k off

/-- The bits of a register that a write stores. -/
def storedBits (k : PageKind) (off : Nat) : Word := BitVec.ofNat 32 ((rowOf k off).rw ||| (rowOf k off).rwl)

/-- Whether a register is the LO half of a pair that its HI half commits (R34). -/
def pairLo (k : PageKind) (off : Nat) : Bool :=
  let r := rowOf k off
  r.hi != 0 && (r.rw != 0 || r.rwl != 0)

/-- Whether a register is the HI half of a pair that it commits (R34). -/
def pairHi (k : PageKind) (off : Nat) : Bool := decide (4 ≤ off) && pairLo k (off - 4)

/-- Whether an offset of a block's page can hold a register: the stream table ends with entry 255 (R35, R179). -/
def implemented (p off : Nat) : Bool :=
  pageKind p != .streamTable || off < 0x040 || decide (63 * (p - 0x062) + (off - 0x040) / 0x40 < 256)

namespace Dev

/-! ## Plain fields -/

/-- The plain effect of a write: the stored fields take `w`, and W1C bits written 1 clear. -/
def storeReg (p off : Nat) (w : Word) (d : Dev) : Dev :=
  let m := storedBits (pageKind p) off
  let c := w &&& BitVec.ofNat 32 (rowOf (pageKind p) off).w1c
  d.setReg p off (((d.reg p off &&& ~~~ m) ||| (w &&& m)) &&& ~~~ c)

/-- The word that a write of some bytes makes of a register: its other bytes keep the fields they hold. -/
def merged (d : Dev) (p off : Nat) (v : Word) (be : BitVec 4) : Word :=
  let m := byteMask be
  (v &&& m) ||| (d.reg p off &&& ~~~ m &&& (storedBits (pageKind p) off ||| BitVec.ofNat 32 (keptBits (pageKind p) off)))

/-! ## Refused writes -/

/-- Whether MIN is above MAX (R25). -/
def boundsBad (w : Word) (hi1 lo1 hi0 lo0 : Nat) : Bool := decide (bits w hi1 lo1 < bits w hi0 lo0)

/-- The configuration that the front end takes only in OFF or DISABLED (R130), but for the fields of FB. -/
def micConfig (off : Nat) : Bool :=
  off == 0x048 || off == 0x050 || off == 0x058 || off == 0x068 || off == 0x06C || off == 0x070 || 0x800 ≤ off

/-- A write that the block of a page ignores as a whole, with the page and the bit it sets. -/
def writeRefused (d : Dev) (p off : Nat) : Option (Nat × Nat) :=
  let if_ (c : Bool) (q b : Nat) : Option (Nat × Nat) := if c then some (q, b) else none
  match pageKind p with
  | .stream n =>
    if_ (!d.idlePage p && (rowOf (.stream n) off).rwl != 0 && !(22 ≤ n && (off == 0x080 || off == 0x084 || off == 0x088))) p 2
  | .mic => if_ (!d.idlePage p && micConfig off && (rowOf .mic off).rwl != 0) p 3
  | .reelMarks => if_ (decide (0x040 ≤ off) && decide (off < 0x440) && (d.markOwner ((off - 0x040) / 0x20)).isSome && (rowOf .reelMarks off).rwl != 0) p 1
  | .streamTable =>
    if_ (decide (0x040 ≤ off) && off % 0x40 != 0 && (rowOf .streamTable off).rwl != 0 &&
      d.entryBusy (63 * (p - 0x062) + (off - 0x040) / 0x40)) 0x060 0
  | .loom => if_ (d.loom.slot.isSome && (rowOf .loom off).rwl != 0) p 1
  | .kv => if_ (off != 0x080 && !d.flag 0x0C4 0x080 8 && (rowOf .kv off).rwl != 0) p 2
  | .formats => if_ (d.loom.slot.isSome && (rowOf .formats off).rwl != 0) p 5
  | .ring _ => if_ (!d.idlePage p && (off == 0x040 || off == 0x044 || off == 0x048 || off == 0x04C || off == 0x050)) p 5
  | .kakan _ => if_ (p == 0x158 && (off == 0x200 || off == 0x204) && (List.range 4).any fun k => d.lstate k != 0) p 8
  | .core =>
    if_ (d.dbgLocked (p - 0x140) && (off == 0x080 || off == 0x08C || off == 0x090 || (0x0A0 ≤ off && off ≤ 0x0C0 && (rowOf .core off).rwl != 0))) p 2
  | _ => none

/-! ## The effects -/

/-- Semaphore n written (R52). -/
def semWrite (d : Dev) (a : Agent) (n : Nat) (w : Word) : Dev :=
  if bit w 0 && !bit w 1 then d.semTake a n else if bit w 1 && !bit w 0 then d.semGive a n else d

/-- A write of FB (R130): SRC_MASK and FRAME change only in OFF or DISABLED. -/
def writeFb (w : Word) (d : Dev) : Dev :=
  let old := d.reg 0x03A 0x074
  let fixed := bits w 15 8 != bits old 15 8 || bits w 17 16 != bits old 17 16
  if d.idlePage 0x03A || !fixed then d.storeReg 0x03A 0x074 w
  else (d.storeReg 0x03A 0x074 (putBits (putBits w 15 8 (bits old 15 8)) 17 16 (bits old 17 16))).err 0x03A 3

/-- A write of WENT0 of entry e (R173, R175): a second entry for one neuron is refused; EN = 0 leaves the entry's storm limiter OPEN,
its history cleared. -/
def writeWent (e : Nat) (w : Word) (d : Dev) : Dev :=
  let same (i : Nat) : Bool :=
    let x := d.reg 0x058 (0x040 + 16 * i)
    i != e && bit x 31 && bits x 6 0 == bits w 6 0 && bits x 15 8 == bits w 15 8
  if bit w 31 && (List.range 64).any same then d.err 0x058 1
  else
    let d := d.storeReg 0x058 (0x040 + 16 * e) w
    if bit w 31 then d else (d.setFlag 0x058 (0x04C + 16 * e) 31 false).setStorm e {}

/-- A write of QUOTA of ring n (R294). -/
def writeQuota (n : Nat) (w : Word) (d : Dev) : Dev :=
  let d' := d.storeReg (ringPage n) 0x044 w
  if 4096 < ((List.range 64).map d'.reserve).sum then d.err 0x0E0 0 else d'

/-- A write of DLd_CFG (R306, R307): CH and CAP change only while EN = 0. -/
def writeDl (l : Nat) (w : Word) (d : Dev) : Dev :=
  let old := d.reg 0x0E2 (dlReg l)
  let d :=
    if !bit old 0 then d.setReg 0x0E2 (dlReg l) (w &&& 0x7FF0070)
    else if bits w 6 4 != bits old 6 4 || bits w 26 16 != bits old 26 16 then d.err 0x0E2 (4 + l)
    else d
  if bit w 0 then d.dlEnable l else d.dlFlush l

/-- A write of DLd_FLOOR (R306): the MARK of an enabled list that has a head takes it at once. -/
def writeDlFloor (l : Nat) (w : Word) (d : Dev) : Dev :=
  let d := d.storeReg 0x0E2 (dlReg l + 4) w
  if d.dlOn l && d.flag 0x01B (0x040 + 0x20 * (28 + l)) 0 then d.dlArm l else d

/-- A write of DBG_CTRL of core n (R356). -/
def writeDbg (n : Nat) (w : Word) (d : Dev) : Dev :=
  let d := d.storeReg (corePage n) 0x080 w
  let d := if bit w 0 then d.debugRequest n else d
  let d := if bit w 2 then d.debugStep n else d
  if bit w 1 then d.debugResume n else d

/-- A write of a core's page. -/
def writeCore (n off : Nat) (w : Word) (d : Dev) : Dev :=
  if off = 0x05C then (if bit w 0 then d.coreKill ⟨n % 16, Nat.mod_lt _ (by decide)⟩ else d)
  else if off = 0x080 then d.writeDbg n w
  else if off = 0x090 then d.dbgWrite n w
  else d.storeReg (corePage n) off w

/-- A write of a ring page's submission, abort and command registers (R292, R308, R309). -/
def writeRing (a : Agent) (n off : Nat) (w : Word) (d : Dev) : Dev :=
  if off = 0x044 then d.writeQuota n w
  else if off = 0x07C then d.submitBatch a n (bits w 8 0)
  else if off = 0x080 then d.taskAbort n w
  else if off = 0x08C then (if bit w 0 then d.ringFlush n else d)
  else if 0x0C0 ≤ off && off < 0x0FC then d.setAgentReg a (ringPage n) off w
  else if off = 0x0FC then d.submitDirect a n w
  else d.storeReg (ringPage n) off w

/-- A write of ESC (R13, R30, R31). -/
def writeEsc (off : Nat) (w : Word) (d : Dev) : Dev :=
  if off = 0x044 || off = 0x048 then
    let d := d.storeReg 0x067 off w
    if d.field 0x067 0x048 15 0 < d.field 0x067 0x044 15 0 then d.err 0x067 0 else d
  else if off = 0x058 then writeHoPtr w d
  else if off = 0x05C && bits w 5 0 < 25 then d
  else d.storeReg 0x067 off w

/-- A write of the cliff page. -/
def writeCliff (off : Nat) (w m : Word) (d : Dev) : Dev :=
  if 0x040 ≤ off && off < 0x140 && off % 0x20 = 0 then d.writeCliffCfg ((off - 0x040) / 0x20) w m
  else if off = 0x140 then d.guardSet (bits w 7 0)
  else if off = 0x14C then d.cliffRequests (bits w 7 0)
  else d.storeReg 0x040 off w

/-- A write of a Whorl core's block. -/
def writeWhorlCore (p off : Nat) (w : Word) (d : Dev) : Dev :=
  let c := 32 * (p - 0x052) + (off - 0x040) / 0x40
  let o := off % 0x40
  if off < 0x040 || 0x840 ≤ off then d
  else if o = 0 then d.writeCcfg c w
  else if o = 4 then
    let d := d.storeReg p off w
    if max 1 (bits w 31 16) < max 1 (bits w 15 0) then (d.setReg 0x050 0x050 (BitVec.ofNat 32 c)).err 0x050 0 else d
  else if o = 0x0C then
    let d := if bit w 0 then d.winOpen c else d
    if bit w 1 then d.winClose c else d
  else d.storeReg p off w

/-- A write of a front end register (R121, R130). -/
def writeMic (off : Nat) (w : Word) (d : Dev) : Dev :=
  if off = 0x040 then d.writeMode w
  else if off = 0x074 then writeFb w d
  else if off = 0x05C then
    let c (x : Nat) : Int := max (-24) (min 72 (signedOf 8 x))
    let d := d.storeReg 0x03A off w
    if c (bits w 15 8) < c (bits w 7 0) then d.err 0x03A 2 else d
  else d.storeReg 0x03A off w

/-- A write of page 0x038. -/
def writeCsi (off : Nat) (w m : Word) (d : Dev) : Dev :=
  if 0x060 ≤ off && off < 0x0A0 then d.writeRoute ((off - 0x060) / 4) w
  else if off = 0x0B0 then d.writeI3c w m
  else if off = 0x0B4 then if !bit m 0 then d else { d with i3c := { d.i3c with fifo := (d.i3c.fifo ++ [BitVec.ofNat 8 w.toNat]).take 64 } }
  else d.storeReg 0x038 off w

/-- A write of a clock page. -/
def writeClock (p off : Nat) (w : Word) (d : Dev) : Dev :=
  match pageKind p with
  | .clkSources => if off = 0x050 || off = 0x054 then writeXtal off w d else d.storeReg p off w
  | .clkPlls =>
    if off = 0x040 || off = 0x044 || off = 0x048 then writePll ((off - 0x040) / 4) w d
    else if off = 0x04C then writeRef w d
    else d.storeReg p off w
  | .clkRoot =>
    if off = 0x040 then writeRoot w d
    else if off = 0x048 then (d.storeReg p off w).clkSettle d
    else d.storeReg p off w
  | _ => if off = 0x040 then writeMux .aon w d else if off = 0x044 then writeMux .rcv w d else d.storeReg p off w

/-- Whether lending entry n's record is open (R333): its EN takes no 1. -/
def nbStopped (d : Dev) (n : Nat) : Bool :=
  !(d.logWhere fun e => e.st == .opened && e.dom == .neighbour n).isEmpty

/-- A write of Skein's placement, slot and lending pages (R277, R279, R282, R333). -/
def writeSkein (p off : Nat) (w : Word) (d : Dev) : Dev :=
  match pageKind p with
  | .plc => if off = 0x054 then d.plcOp (bits w 3 0) else d.storeReg p off w
  | .slots =>
    if 0x040 ≤ off && off < 0x140 && off % 0x10 = 0x0C then
      let j := (off - 0x040) / 0x10
      let d := if bit w 0 then d.pfStart j else d
      if bit w 1 && (d.pfSlot j).run then (d.pfStop j).skeinVotes else d
    else d.storeReg p off w
  | _ =>
    let n := (off - 0x050) / 0x10
    let cfg := decide (0x050 ≤ off) && decide (off < 0x090) && off % 0x10 == 0
    let d := d.storeReg p off (if cfg && d.nbStopped n then putBit w 15 (bit w 15 && d.nbOn n) else w)
    let d : Dev := if 0x050 ≤ off && off < 0x090 && off % 0x10 ≤ 4 then { d with nbBack := d.nbBack.filter (· != n) } else d
    if cfg && bit w 16 && d.nbOn n then d.nbReclaim n
    else d

/-- A write of a block register by an agent, its bytes merged; `m` has ones in the enabled bytes (R33): what the device does. -/
def blockWrite (a : Agent) (p off : Nat) (w m : Word) (d : Dev) : Dev :=
  match pageKind p with
  | .sems =>
    if 0x040 ≤ off && off < 0x140 then d.semWrite a ((off - 0x040) / 4) w
    else if off = 0x150 then d.semForce (bits w 5 0) (bits w 15 8)
    else d.storeReg p off w
  | .boot =>
    if off = 0x060 then { d.storeReg p off w with wdtAt := d.now }
    else if off = 0x064 then (if w = 0xC35A then { d with wdtAt := d.now } else d)
    else d.storeReg p off w
  | .update => if off = 0x048 then journalCommit w d else d.storeReg p off w
  | .flash =>
    if off = 0x040 then
      if d.flashOp.isSome then d.storeReg p off (putBits w 2 0 (d.field p off 2 0))
      else
        let d := d.storeReg p off w
        if bit (w &&& m) 31 && 1 ≤ bits w 2 0 && bits w 2 0 ≤ 4 then flashCmd (bits w 2 0) d else d
    else d.storeReg p off w
  | .debug => if off = 0x068 then unlockGo w d else d.storeReg p off w
  | .pwr =>
    if off = 0x060 || off = 0x064 || off = 0x068 then
      forEach ((List.range 32).filter (bit w)) (fun i d => entryRetry (32 * ((off - 0x060) / 4) + i) d) d
    else d.storeReg p off w
  | .dvfs =>
    let d := d.storeReg p off w
    if off = 0x044 && boundsBad w 27 16 11 0 then d.err 0x009 0 else d
  | .clkSources | .clkPlls | .clkRoot | .clkMux => writeClock p off w d
  | .reelCommon => if off = 0x05C then (if bit w 0 then d.snapTake else d) else d.storeReg p off w
  | .reelChannels =>
    if 0x040 ≤ off && off < 0x140 && off % 0x40 = 0 then d.writeReelCfg (4 * (p - 0x019) + (off - 0x040) / 0x40) w else d.storeReg p off w
  | .reelMarks =>
    if 0x040 ≤ off && off < 0x440 && off % 0x20 = 0 then d.writeMctrl ((off - 0x040) / 0x20) w (bit m 0) else d.storeReg p off w
  | .stream n =>
    if n < 8 && off = 0x098 then d.setReg p off (d.reg p off ||| w)
    else d.storeReg p off w
  | .csi => writeCsi off w m d
  | .aer => if off = 0x040 then d.writeAer w else d.storeReg p off w
  | .mic => writeMic off w d
  | .cliff => writeCliff off w m d
  | .pack => (d.storeReg p off w).packChg
  | .whorlCommon => forEach ((List.range 8).map (· + 68)) (fun r d => d.settle r) (d.storeReg p off w)
  | .whorlCores => writeWhorlCore p off w d
  | .whorlTicks => if off = 0x040 then d.whorlTicks (bits w 7 0) else d.storeReg p off w
  | .whorlWakes =>
    if 0x040 ≤ off && off < 0x440 && off % 16 = 0 then writeWent ((off - 0x040) / 16) w d else d.storeReg p off w
  | .streamTable =>
    let e := (off - 0x040) / 0x40
    if off % 0x40 = 0 && e < 63 then d.writeEntryCtrl (63 * (p - 0x062) + e) w else d.storeReg p off w
  | .esc => writeEsc off w d
  | .kv => if off = 0x080 then (if bit w 0 then d.kvEdit else d.kvEditEnd) else d.storeReg p off w
  | .plc | .slots | .lending => writeSkein p off w d
  | .ring n => writeRing a n off w d
  | .delays =>
    if 0x040 ≤ off && off < 0x0C0 && off % 0x20 = 0 then writeDl ((off - 0x040) / 0x20) w d
    else if 0x040 ≤ off && off < 0x0C0 && off % 0x20 = 4 then writeDlFloor ((off - 0x040) / 0x20) w d
    else d.storeReg p off w
  | .errlog => if off = 0x048 then d.logClose w.toNat else if off = 0x050 then d.clrOvf w else d.storeReg p off w
  | .spindles => if off = 0x040 then d.pendMask (bits w 15 0) 6 else d.storeReg p off w
  | .core => writeCore (p - 0x140) off w d
  | .kakan _ =>
    let d := d.storeReg p off w
    if off = 0x044 && boundsBad w 13 8 5 0 then d.err p 3 else d
  | .trace =>
    let d := d.storeReg p off w
    { d with traceOff := d.traceOff && d.flag 0x160 0x040 0 }
  | .region r =>
    if off = 0x064 then (if bit w 0 then d.crackPreset r else d)
    else
      let d := d.storeReg p off w
      let d := if off = 0x048 && boundsBad w 25 16 9 0 then d.err p 0 else d
      if off = 0x040 then d.settle r else d
  | _ => d.storeReg p off w

/-- A pair committed by the write of its HI half (R34), with the agent's staged LO half; where the agent has staged none since the chip
reset the LO half is 0, and a staged half stays staged (log entry 178). -/
def pairWrite (a : Agent) (p off : Nat) (w : Word) (d : Dev) : Dev :=
  let lo := d.agentReg a p (off - 4)
  let both := (d.storeReg p (off - 4) lo).storeReg p off w
  match pageKind p with
  | .reelChannels =>
    if off % 0x40 = 0x1C then d.writePos (4 * (p - 0x019) + (off - 0x040) / 0x40) (lo.toNat + bits w 15 0 * 2 ^ 32) else both
  | .reelMarks => d.writeTgt ((off - 0x040) / 0x20) lo w
  | .stream n => if 22 ≤ n && off = 0x084 then d.genPush (n - 22) lo w else both
  | .lending => both.lendWritten
  | _ => both

end Dev

end Sys2Proof.Machine
end

