-- ==== Sys2Proof/Machine/Bus.lean ====
section
/-!
DEFINITION. The register bus (02, R32–R57): what a read and a write of one 32-bit register do, for every agent, and the commands
of the register pages.
-/
namespace Sys2Proof.Machine

/-! ## Reads (R33–R36, R57) -/

/-- The key of an agent's latch of a register. -/
def latchKey (a : Agent) (p off : Nat) : Nat := a.index * 2 ^ 25 + p * 4096 + off

namespace Dev

/-- A register whose read the text leaves open, or that a read changes: the measured frequencies (18), the front of the I3C
FIFO (R104), and the debug path's register (R356). -/
def readEffect (d : Dev) (p off : Nat) : Option (Word × Dev) :=
  match pageKind p with
  | .clkSources =>
    if off = 0x058 || off = 0x05C then
      let (v, d) := d.fresh
      some (BitVec.ofNat 32 v, d)
    else none
  | .csi =>
    if off = 0x0B4 then
      match d.i3c.fifo with
      | [] => some (0, d)
      | b :: r => some (b.zeroExtend 32, { d with i3c := { d.i3c with fifo := r } })
    else none
  | .core => if off = 0x090 then some (d.dbgRead (p - 0x140)) else none
  | _ => none

end Dev

/-- A read of a block register of a page that answers: x_LO latches x_HI for the agent, and its next read of x_HI returns the latched
value (R34). -/
def State.blockRead (a : Agent) (p off : Nat) (s : State) : Word × State :=
  match s.dev.readEffect p off with
  | some (v, d) => (v, { s with dev := d })
  | none =>
    let r := rowOf (pageKind p) off
    if r.hi ≠ 0 then
      let l := Sparse.put (fun _ => none) s.dev.latched (latchKey a p (off + 4)) (some (s.view a p (off + 4)))
      (s.view a p off, { s with dev := { s.dev with latched := l } })
    else
      match Sparse.get (fun _ => none) s.dev.latched (latchKey a p off) with
      | some v => (v, { s with dev := { s.dev with latched := Sparse.put (fun _ => none) s.dev.latched (latchKey a p off) none } })
      | none => (s.view a p off, s)

/-- A read of a register by an agent (R35, R36): ERR_COUNT clears (R57), and a page whose region sleeps reads zero. -/
def State.busRead (a : Agent) (p off : Nat) (s : State) : Word × State :=
  if pageKind p = .unassigned then (0, s)
  else if off < 0x040 then
    let v := s.dev.headerView p off
    if off = 0x020 && !s.dev.absentPage p then (v, { s with dev := s.dev.setReg p 0x020 0 }) else (v, s)
  else if s.dev.absentPage p then (0, s)
  else if s.dev.asleep p then (0, { s with dev := s.dev.err p 30 })
  else s.blockRead a p off

/-! ## Writes -/

namespace Dev

/-- ERR_SUM written (R57): the bits written 1 clear, and ERR_FIRST with the last of them. -/
def clearErrors (d : Dev) (p : Nat) (v : Word) : Dev :=
  let w := d.reg p 0x014 &&& ~~~ v
  let d := d.setReg p 0x014 w
  if w = 0 then d.setFlag p 0x01C 31 false else d

/-- CTRL written (R37, R39, R41, R49): SRST, EN and FRZ of one write act in this order. -/
def writeCtrl (a : Agent) (p : Nat) (v : Word) (d : Dev) : Dev :=
  ctrlWrite a p (fun d =>
    let d := if bit v 1 then d.softReset p else d
    let d := if bit v 0 then d.enable p else d.disable p
    d.setFrz p (bit v 2)) d

/-- OWNER written (R47). -/
def writeOwner (a : Agent) (p : Nat) (v : Word) (d : Dev) : Dev :=
  match bits v 1 0 with
  | 1 => d.claim a p
  | 2 => d.release a p
  | _ => d

/-- A header register written in the bytes that `be` enables (R57). -/
def headerWrite (a : Agent) (p off : Nat) (v : Word) (be : BitVec 4) (d : Dev) : Dev :=
  let w := v &&& byteMask be
  if off = 0x00C then (if be.toNat.testBit 0 then writeCtrl a p w d else d)
  else if off = 0x014 then d.clearErrors p w
  else if off = 0x018 then d.setReg p 0x018 (w ||| (d.reg p 0x018 &&& ~~~ byteMask be))
  else if off = 0x024 then writeOwner a p w d
  else if off = 0x028 then d.vote a p (w ||| (d.reg p 0x028 &&& ~~~ byteMask be))
  else d

end Dev

/-- A register whose write reaches beyond the device: the halt unit, the fuses, the resets and OFF. -/
def State.effectWrite (a : Agent) (p off : Nat) (w : Word) (s : State) : Option State :=
  match pageKind p with
  | .halt =>
    if off = 0x044 then some (s.writeArm w)
    else if off = 0x048 then some (s.writeOutCmd w)
    else if off = 0x050 then some (s.writeHb w)
    else if off = 0x060 then some (s.writeTripAck w)
    else if off = 0x064 then some (s.writeForce w)
    else none
  | .fuses =>
    if off = 0x120 then some (if bits w 1 0 = 1 || bits w 1 0 = 2 then s.fuseProg (bits w 1 0) w else s) else none
  | .boot =>
    if off = 0x044 then some (if w = 0x5A5A then s.warm 5 else s)
    else if off = 0x05C then some (s.hostGo a w)
    else none
  | .pwr => if off = 0x07C then some (s.writeOff w) else none
  | _ => none

/-- A write of a block register of a page that answers (R34, R35, R48, R50): an unimplemented offset ignores it; a write of RWL fields by
an agent without the claim is denied, and one of no enabled byte of them leaves them; the block may refuse it; the LO half of a pair is
staged and its HI half commits both. -/
def State.blockWrite (a : Agent) (p off : Nat) (v : Word) (be : BitVec 4) (s : State) : State :=
  let k := pageKind p
  let d := s.dev
  let onD (f : Dev → Dev) : State := { s with dev := f s.dev }
  let locked := BitVec.ofNat 32 (rwlBits k off)
  let touched := locked = 0 || locked &&& byteMask be ≠ 0
  if !implemented p off then s
  else if locked &&& byteMask be ≠ 0 && !d.claimedBy a p then onD fun d => d.deny a p
  else if !touched && !(pairHi k off && d.claimedBy a p) then s
  else
    match d.writeRefused p off with
    | some (q, b) => onD fun d => d.err q b
    | none =>
      if pairLo k off then
        onD fun d => d.setAgentReg a p off ((v &&& byteMask be) ||| (d.agentReg a p off &&& ~~~ byteMask be))
      else
        let own := match k with | .ring _ => decide (0x0C0 ≤ off) && decide (off < 0x100) | _ => false
        let w := if own then (v &&& byteMask be) ||| (d.agentReg a p off &&& ~~~ byteMask be) else d.merged p off v be
        if pairHi k off then onD (Dev.pairWrite a p off w)
        else
          match s.effectWrite a p off w with
          | some s' => s'
          | none => onD (Dev.blockWrite a p off w (byteMask be))

/-- A write of a register by an agent, in the bytes that `be` enables (R33, R35, R36). A Spindle core that it puts in reset takes an
armed halt unit to HOLD (R144). -/
def State.busWrite (a : Agent) (p off : Nat) (v : Word) (be : BitVec 4) (s : State) : State :=
  if pageKind p = .unassigned || s.dev.absentPage p || be = 0 then s
  else
    let s' : State :=
      if off < 0x040 then { s with dev := Dev.headerWrite a p off v be s.dev }
      else if s.dev.asleep p then { s with dev := s.dev.err p 30 }
      else s.blockWrite a p off v be
    if Dev.spindleReset s.dev s'.dev then s'.haltHold else s'

/-! ## BAR0 (R33, R430) -/

/-- A read of BAR0 as 32-bit accesses in ascending order. -/
def State.bar0Read (a : Agent) : Nat → Nat → State → List Word × State
  | _, 0, s => ([], s)
  | w, n + 1, s =>
    let (v, s) := s.busRead a (w / 1024) (4 * (w % 1024))
    let (vs, s) := s.bar0Read a (w + 1) n
    (v :: vs, s)

/-- The enabled bytes of a payload that starts at BAR0 address `a`, by address. -/
def enabledBytes (a : Nat) (data : List Byte) (es : List Bool) : List (Nat × Byte) :=
  ((List.range data.length).filter (es.getD · false)).map fun i => (a + i, data.getD i 0)

/-- The value and byte enables that word `w` of BAR0 takes of some bytes. -/
def wordOf (bs : List (Nat × Byte)) (w : Nat) : Word × BitVec 4 :=
  let mine := bs.filter fun b => b.1 / 4 == w
  (BitVec.ofNat 32 ((mine.map fun b => b.2.toNat * 256 ^ (b.1 % 4)).sum), BitVec.ofNat 4 ((mine.map fun b => 2 ^ (b.1 % 4)).sum))

/-- A request of a port to BAR0 (R33, R427, R430). -/
def State.bar0 (p : Port) (addr : Nat) (r : Request) (poisoned : Bool) (s : State) : State :=
  let say (c : Completion) (s : State) : State := { s with dev := s.dev.answer c }
  let n := match r with | .read n => n | .write l _ => l.length
  let words := (addr + n + 3) / 4 - addr / 4
  if !s.dev.portUp p then s
  else if poisoned then { s with dev := Dev.rxPoison p s.dev }
  else if s.dev.flag p.page 0x040 12 || 64 < n || (n ≠ 0 && addr / 4096 ≠ (addr + n - 1) / 4096) then say .unsupported s
  else
    match r with
    | .read _ => let (vs, s) := s.bar0Read p.agent (addr / 4) words; say (.data vs) s
    | .write data es =>
      let bs := enabledBytes addr data es
      say .done ((List.range words).foldl (fun s i =>
        let w := addr / 4 + i
        let (v, be) := wordOf bs w
        s.busWrite p.agent (w / 1024) (4 * (w % 1024)) v be) s)

/-! ## The commands -/

/-- A read of one register, with its value as the completion. -/
def State.readReg (a : Agent) (p off : Nat) (s : State) : State :=
  let (v, s) := s.busRead a p off
  { s with dev := s.dev.answer (.data [v]) }

/-- A write of one register, which completes (R50). -/
def State.writeReg (a : Agent) (p off : Nat) (v : Word) (be : BitVec 4) (s : State) : State :=
  let s := s.busWrite a p off v be
  { s with dev := s.dev.answer .done }

/-- REGISTER_WRITE (R33, R35, R48, R50). -/
def execRegisterWrite (ag : Agent) (r : RegAddr) (value : Word) (be : BitVec 4) (s : State) : Host.Outcome State Fault Refusal :=
  onState (State.writeReg ag r.page.val (4 * r.word.val) value be) s

/-- REGISTER_READ_CLEAR: a read of ERR_COUNT, which clears it (R57). -/
def execRegisterReadClear (ag : Agent) (page : Fin 8192) (s : State) : Host.Outcome State Fault Refusal :=
  onState (State.readReg ag page.val 0x020) s

/-- BAR0_REQUEST (R33). -/
def execBar0Request (p : Port) (addr : BitVec 25) (req : Request) (poisoned : Bool) (s : State) : Host.Outcome State Fault Refusal :=
  onState (State.bar0 p addr.toNat req poisoned) s

/-- PAIR_LO_READ (R34). -/
def execPairLoRead (ag : Agent) (r : RegAddr) (s : State) : Host.Outcome State Fault Refusal :=
  onState (State.readReg ag r.page.val (4 * r.word.val)) s

/-- PAIR_LO_WRITE (R34). -/
def execPairLoWrite (ag : Agent) (r : RegAddr) (value : Word) (s : State) : Host.Outcome State Fault Refusal :=
  onState (State.writeReg ag r.page.val (4 * r.word.val) value 15) s

/-- PAIR_HI_WRITE (R34). -/
def execPairHiWrite (ag : Agent) (r : RegAddr) (value : Word) (s : State) : Host.Outcome State Fault Refusal :=
  onState (State.writeReg ag r.page.val (4 * r.word.val) value 15) s

/-- PAGE_ENABLE (R37): CTRL.EN = 1, its other bits kept. -/
def execPageEnable (ag : Agent) (page : Fin 8192) (s : State) : Host.Outcome State Fault Refusal :=
  onCores (Dev.ctrlWrite ag page.val fun d => d.enable page.val) s

/-- PAGE_DISABLE (R37): CTRL.EN = 0, its other bits kept. -/
def execPageDisable (ag : Agent) (page : Fin 8192) (s : State) : Host.Outcome State Fault Refusal :=
  onCores (Dev.ctrlWrite ag page.val fun d => d.disable page.val) s

/-- SOFT_RESET (R39). -/
def execSoftReset (ag : Agent) (page : Fin 8192) (s : State) : Host.Outcome State Fault Refusal :=
  onCores (Dev.ctrlWrite ag page.val fun d => d.softReset page.val) s

/-- FREEZE (R41). -/
def execFreeze (ag : Agent) (page : Fin 8192) (frz : Bool) (s : State) : Host.Outcome State Fault Refusal :=
  onCores (Dev.ctrlWrite ag page.val fun d => d.setFrz page.val frz) s

/-- PENDING_ENABLE (R37): a block clock after a page with PEND_EN entered DISABLED. -/
def execPendingEnable (page : Fin 8192) (s : State) : Host.Outcome State Fault Refusal :=
  onDev (fun d => d.pendingStart page.val) s

/-- CLAIM (R47). -/
def execClaim (ag : Agent) (page : Fin 8192) (s : State) : Host.Outcome State Fault Refusal :=
  onDev (fun d => d.claim ag page.val) s

/-- RELEASE (R47). -/
def execRelease (ag : Agent) (page : Fin 8192) (s : State) : Host.Outcome State Fault Refusal :=
  onDev (fun d => d.release ag page.val) s

/-- VOTE_WRITE (R51). -/
def execVoteWrite (ag : Agent) (page : Fin 8192) (value : Word) (s : State) : Host.Outcome State Fault Refusal :=
  onDev (fun d => d.vote ag page.val value) s

/-- SEM_TAKE (R52). -/
def execSemTake (ag : Agent) (n : Fin 64) (s : State) : Host.Outcome State Fault Refusal :=
  onDev (fun d => d.semTake ag n.val) s

/-- SEM_GIVE (R52). -/
def execSemGive (ag : Agent) (n : Fin 64) (s : State) : Host.Outcome State Fault Refusal :=
  onDev (fun d => d.semGive ag n.val) s

/-- SEM_FORCE (R53). -/
def execSemForce (n : Fin 64) (gen : BitVec 8) (s : State) : Host.Outcome State Fault Refusal :=
  onDev (fun d => d.semForce n.val gen.toNat) s

/-- JTAG_REG_ACCESS (R478): within the unlocked scope, an access of a register as agent Port A; else it acts as BYPASS. -/
def execJtagRegAccess (r : RegAddr) (write : Option Word) (s : State) : Host.Outcome State Fault Refusal :=
  onState (fun s =>
    if !s.dev.scope 16 then { s with dev := { s.dev with jtag := .bypass } }
    else
      let s : State := { s with dev := { s.dev with jtag := .regAccess } }
      match write with
      | some v => s.writeReg .portA r.page.val (4 * r.word.val) v 15
      | none => s.readReg .portA r.page.val (4 * r.word.val)) s

end Sys2Proof.Machine
end

