-- ==== Sys2Proof/Machine/Issue.lean ====
section
/-!
DEFINITION. The issue of a Spindle instruction (15, 16): what every instruction does at its boundary before it runs (R354, R356, R337)
and after it has completed, the local map with its loads and stores (R337–R341, R369), and the words that a LOOP checks (R346).
-/
namespace Sys2Proof.Machine

/-! ## The local map (R337) -/

/-- What a local address of a core reaches. -/
inductive Local where
  | sram
  | rom
  | regs
  | skein
  | nothing
  deriving DecidableEq, Repr

/-- The local address map (R337). -/
def localOf (a : Nat) : Local :=
  if a < 0x40000 then .sram
  else if 0x08000000 ≤ a && a < 0x08010000 then .rom
  else if 0x10000000 ≤ a && a < 0x12000000 then .regs
  else if 0x40000000 ≤ a && a < 0x80000000 then .skein
  else .nothing

/-- Whether an instruction can be fetched from an address. -/
def fetchable (a : Word) : Bool := localOf a.toNat == .sram || localOf a.toNat == .rom

/-- The Skein address of local SRAM of core n (R265, R337). -/
def sramAddr (n a : Nat) : Nat := 0x10008000000 + n * 0x40000 + a

/-- The Skein address that window k of a core maps an offset to (R337). -/
def windowAddr (c : Core) (a : Nat) : Nat :=
  (Sparse.get (fun _ => 0) c.win ((a - 0x40000000) / 0x10000000)).toNat % 2 ^ 20 * 2 ^ 28 + a % 0x10000000

/-- Bytes of the boot ROM. -/
def romBytes (a n : Nat) : List Byte := (List.range n).map fun i => Config.bootRom (a - 0x08000000 + i)

namespace Dev

/-- The instruction word at an address of core n; zero where no instruction can be. -/
def codeWord (d : Dev) (n : Nat) (a : Word) : Word :=
  match localOf a.toNat with
  | .sram => BitVec.ofNat 32 (d.num (sramAddr n a.toNat) 4)
  | .rom => BitVec.ofNat 32 (ofBytesLE (romBytes a.toNat 4))
  | .regs | .skein | .nothing => 0

/-- Whether an enabled breakpoint names an address (R356). -/
def breakpoint (d : Dev) (n : Nat) (a : Word) : Bool :=
  (List.range 4).any fun k => d.flag (corePage n) 0x080 (12 + k) && d.reg (corePage n) (0x0A0 + 4 * k) == a

/-- Whether an enabled watchpoint names an access (R356, R360). -/
def watched (d : Dev) (n : Nat) (a : Word) (isWrite : Bool) : Bool :=
  (List.range 2).any fun j =>
    let m := ~~~ d.reg (corePage n) (0x0B4 + 8 * j)
    d.flag (corePage n) 0x0C0 (8 * j) && d.flag (corePage n) 0x0C0 (8 * j + 1 + isWrite.toNat) &&
    (a &&& m) == (d.reg (corePage n) (0x0B0 + 8 * j) &&& m)

/-- An access of a core: a watchpoint that names it halts the core at the next boundary. -/
def access (d : Dev) (n : Nat) (a : Word) (isWrite : Bool) : Dev :=
  if d.watched n a isWrite then d.setCore n { d.core n with hit := true } else d

/-- The instruction of core n completes with the core in state `c`: INSTR counts it, and after a RESUME the breakpoints count
again once its unit is done. -/
def complete (d : Dev) (n : Nat) (c : Core) : Dev :=
  (d.setCore n { c with passBp := c.passBp && c.inSlot }).countFrz (corePage n) 0x060

/-- The instruction completes, and its boundary follows. -/
def finish (d : Dev) (n : Nat) (c : Core) : Dev := (d.complete n c).boundary n

/-- ILLEGAL (R350), with EBAD the instruction's address. -/
def illegal (d : Dev) (n : Fin 16) : Dev := d.exception n 1 (some (d.core n.val).pc)

/-- PRIVILEGE of an instruction (R341). -/
def privilege (d : Dev) (n : Fin 16) : Dev := d.exception n 2 none

end Dev

/-! ## Instruction words (R361–R363) -/

/-- The major opcode and the function of an instruction word (R362). -/
def majOf (w : Word) : Nat := bits w 31 25
def fnOf (w : Word) : Nat := bits w 24 20

/-- The function fields of the RR instructions with MAJ 0x00 and their zero fields (R364). -/
def rrEncodes (fn sx rb : Nat) : Bool :=
  (sx == 0 && (decide (fn ≤ 0x13) || fn == 0x16 || ((fn == 0x14 || fn == 0x15) && rb == 0))) ||
  (rb == 0 && decide (0x18 ≤ fn) && decide (fn ≤ 0x1A))

/-- The function fields of the system instructions and their zero fields (R371). -/
def sysEncodes (fn sx rb ra rd : Nat) : Bool :=
  match fn with
  | 0x00 => rb == 0 && ra == 0
  | 0x01 => rb == 0 && rd == 0
  | 0x02 | 0x04 | 0x05 | 0x06 | 0x08 => sx == 0 && rb == 0 && ra == 0 && rd == 0
  | 0x03 => rb == 0 && ra == 0 && rd == 0
  | 0x09 => sx == 0 && rd == 0
  | 0x0A | 0x0B => sx == 0 && rb == 0
  | _ => false

/-- Whether a word encodes an instruction (R363): its MAJ and FN are listed, its zero fields are zero, and its fields are in range. -/
def encodesInstr (w : Word) : Bool :=
  let m := majOf w
  let (sx, rb, ra, rd) := (bits w 19 15, bits w 14 10, bits w 9 5, bits w 4 0)
  if m = 0x00 then rrEncodes (fnOf w) sx rb
  else if m = 0x01 then sysEncodes (fnOf w) sx rb ra rd
  else if m = 0x17 then rd == 0 && ra == 0 && bits w 17 14 == 0 && bits w 24 22 == 0
  else if m = 0x48 || m = 0x49 then rd == 0 && bits w 24 10 == 0
  else if m = 0x4C then decide (rd ≤ 1) && !bit w 24
  else decide (0x10 ≤ m ∧ m ≤ 0x16) || decide (0x20 ≤ m ∧ m ≤ 0x24) || decide (0x28 ≤ m ∧ m ≤ 0x2A) || decide (0x40 ≤ m ∧ m ≤ 0x45) ||
    m == 0x50 || m == 0x51

/-- Whether the word at an address of core n's local SRAM encodes no instruction (R361, R363). -/
def Dev.undefinedWord (d : Dev) (n : Nat) (a : Word) : Bool :=
  localOf a.toNat == .sram && !encodesInstr (d.codeWord n a)

/-! ## The issue -/

/-- Core n issues the instruction at its PC: it runs only in RUN with its block out of reset and awake; a pending accepted
interrupt is taken in its place (R354); a breakpoint halts before it, unless the core resumes from it (R356); an address that
cannot be fetched raises FETCH (R337), and a word that encodes no instruction ILLEGAL (R363); after a RESUME the breakpoints count again
after one unit. A Spindle core that the instruction puts in reset takes an armed halt unit to HOLD. -/
def State.issue (n : Fin 16) (f : State → State) (s : State) : State :=
  let d := s.dev
  let c := d.core n.val
  if c.st ≠ .run || c.done.isSome || !d.coreAwake n.val then s
  else if c.interruptible then { s with dev := d.takeInterrupt n.val }
  else if !c.passBp && d.breakpoint n.val c.pc then { s with dev := d.debugHalt n.val 4 }
  else
    let s' :=
      if !fetchable c.pc then { s with dev := d.exception n 5 (some c.pc) }
      else if d.undefinedWord n.val c.pc then { s with dev := d.illegal n }
      else f s
    if Dev.spindleReset s.dev s'.dev then s'.haltHold else s'

/-- An instruction that changes the device alone. -/
def State.issueDev (n : Fin 16) (f : Dev → Dev) (s : State) : State := s.issue n fun s => { s with dev := f s.dev }

/-- An instruction that changes the core alone and is no branch. -/
def State.issueCore (n : Fin 16) (f : Core → Core) (s : State) : State :=
  s.issueDev n fun d => d.finish n.val (f (d.core n.val)).advance

/-! ## Loads and stores (R337–R341, R369) -/

/-- The exception of an access (R337, R341, R350), if it has one: PRIVILEGE, ALIGN, ACCESS in this order. -/
def accessFault (c : Core) (a size : Nat) (isStore : Bool) : Option Nat :=
  let p := (a - 0x10000000) / 4096
  let where_ := localOf a
  if where_ = .regs && !c.machineMode && !(p == 0x001 || (0x100 ≤ p && p < 0x140)) then some 2
  else if a % size ≠ 0 then some 4
  else
    match where_ with
    | .sram | .skein => none
    | .rom => if isStore then some 6 else none
    | .regs => if size = 4 then none else some 6
    | .nothing => some 6

/-- The value that a load of `size` bytes writes. -/
def extended (size : Nat) (signed : Bool) (v : Nat) : Word :=
  if signed then BitVec.ofInt 32 (signedOf (8 * size) v) else BitVec.ofNat 32 v

/-- A load completes with a value. -/
def Dev.loaded (d : Dev) (n rd : Nat) (a v : Word) : Dev :=
  (((d.complete n (((d.core n).setReg rd v).advance)).access n a false).boundary n)

/-- A load (R369): one through a Skein window waits for the placed range, and poison and traps raise their exceptions
(R338). -/
def State.load (n : Fin 16) (rd ra : Nat) (imm : BitVec 15) (size : Nat) (signed : Bool) (s : State) : State :=
  let d := s.dev
  let c := d.core n.val
  let addr := c.address ra imm
  let a := addr.toNat
  let onD (d : Dev) : State := { s with dev := d }
  match accessFault c a size false with
  | some code => onD (d.exception n code (some addr))
  | none =>
    match localOf a with
    | .sram =>
      let (r, d) := d.read (.core n) (sramAddr n.val a) size
      onD (d.loaded n.val rd addr (extended size signed (ofBytesLE r.bytes)))
    | .rom => onD (d.loaded n.val rd addr (extended size signed (ofBytesLE (romBytes a size))))
    | .regs =>
      let (v, s) := s.busRead (.spindle n) ((a - 0x10000000) / 4096) (a % 4096)
      { s with dev := s.dev.loaded n.val rd addr v }
    | .skein =>
      let sk := windowAddr c a
      if spanOf sk = .placed && !d.placedOpen then onD d.placedWait
      else
        let (r, d) := d.read (.core n) sk size
        let d := onlyIf (spanOf sk == .placed) Dev.placedServed d.skeinVotes
        if r.poison = 1 then onD (d.exception n 8 (some addr))
        else if r.poison = 2 then onD (d.exception n 9 (some addr))
        else if r.trap then onD (d.exception n 7 (some addr))
        else onD (d.loaded n.val rd addr (extended size signed (ofBytesLE r.bytes)))
    | .nothing => s

/-- A store (R369): a store to a register page has the effect of a write by the core as an agent; the instruction has completed when
the page acts, so that a halt it asks for comes at the boundary after it. -/
def State.storeTo (n : Fin 16) (rd ra : Nat) (imm : BitVec 15) (size : Nat) (s : State) : State :=
  let d := s.dev
  let c := d.core n.val
  let addr := c.address ra imm
  let a := addr.toNat
  let v := c.reg rd
  let data := bytesLE size v.toNat
  let onD (d : Dev) : State := { s with dev := d }
  match accessFault c a size true with
  | some code => onD (d.exception n code (some addr))
  | none =>
    match localOf a with
    | .sram => onD ((((d.complete n.val c.advance).put (.core n) (sramAddr n.val a) data).access n.val addr true).boundary n.val)
    | .regs =>
      let s := (onD ((d.complete n.val c.advance).access n.val addr true)).busWrite (.spindle n) ((a - 0x10000000) / 4096) (a % 4096) v 15
      { s with dev := s.dev.boundary n.val }
    | .skein =>
      let sk := windowAddr c a
      if spanOf sk = .placed && !d.placedOpen then onD d.placedWait
      else
        let (d, ok) := (d.complete n.val c.advance).write (.core n) sk data
        let d := if ok then d else d.err (Dev.corePage n.val) 4
        let d := onlyIf (spanOf sk == .placed) Dev.placedServed d.skeinVotes
        onD ((d.access n.val addr true).boundary n.val)
    | .rom | .nothing => s

/-! ## Branches (R343, R344, R367, R368) -/

/-- A branch or jump to a target: ILLEGAL in a slot or a shadow; `link` writes g31. -/
def State.branch (n : Fin 16) (target : Core → Word) (taken : Core → Bool) (annul link : Bool) (s : State) : State :=
  s.issueDev n fun d =>
    let c := d.core n.val
    if c.inSlot then d.illegal n
    else
      let c' := if link then c.setReg 31 (c.pc + 8) else c
      d.finish n.val (c'.branchTo (target c) (taken c) annul)

/-! ## Loops (R345, R346) -/

/-- A branch or jump (R367). -/
def isBranch (w : Word) : Bool := let m := majOf w; (0x40 ≤ m && m ≤ 0x45) || m == 0x48 || m == 0x49 || m == 0x50 || m == 0x51

/-- An MSET (R372). -/
def isMset (w : Word) : Bool := majOf w == 0x17

/-- A LOOP, an XRET or a TRAP (R370, R371). -/
def isLoopOrSys (w : Word) : Bool := majOf w == 0x4C || (majOf w == 0x01 && (fnOf w == 2 || fnOf w == 3))

/-- The loop end that R346 forbids: `ls` and `le` bound the body of a LOOP of a level. -/
def Dev.loopEndBad (d : Dev) (n : Nat) (c : Core) (level : Nat) (ls le : Word) : Bool :=
  let at_ (k : Nat) : Option Word := if ls.toNat + k ≤ le.toNat then some (d.codeWord n (le - BitVec.ofNat 32 k)) else none
  let last := d.codeWord n le
  decide (le.toNat < ls.toNat) ||
  isBranch last || isMset last || isLoopOrSys last ||
  ((at_ 4).map isBranch).getD false || ((at_ 4).map isMset).getD false || ((at_ 8).map isMset).getD false ||
  (level == 1 && c.lc0 != 0 && !(decide (c.ls0.toNat ≤ ls.toNat) && decide (le.toNat ≤ c.le0.toNat)))

end Sys2Proof.Machine
end

