-- ==== Sys2Proof/Machine/Branch.lean ====
section
/-!
DEFINITION. The branches, jumps, loads and stores of a Spindle core, and LOOP (R367–R370).
-/
namespace Sys2Proof.Machine

/-- A compare and branch (R367, R368). -/
def compareBranch (n : Fin 16) (ra rb : Fin 32) (annul : Bool) (off : BitVec 14) (p : Word → Word → Bool) (s : State) :
    Host.Outcome State Fault Refusal :=
  onState (State.branch n (fun c => bcTarget c.pc off) (fun c => p (c.reg ra.val) (c.reg rb.val)) annul false) s

/-- BEQ (R367). -/
def execBeq (core : Fin 16) (ra rb : Fin 32) (n : Bool) (off : BitVec 14) (s : State) : Host.Outcome State Fault Refusal :=
  compareBranch core ra rb n off (fun a b => a == b) s

/-- BNE (R367). -/
def execBne (core : Fin 16) (ra rb : Fin 32) (n : Bool) (off : BitVec 14) (s : State) : Host.Outcome State Fault Refusal :=
  compareBranch core ra rb n off (fun a b => a != b) s

/-- BLT (R367). -/
def execBlt (core : Fin 16) (ra rb : Fin 32) (n : Bool) (off : BitVec 14) (s : State) : Host.Outcome State Fault Refusal :=
  compareBranch core ra rb n off (fun a b => decide (a.toInt < b.toInt)) s

/-- BGE (R367). -/
def execBge (core : Fin 16) (ra rb : Fin 32) (n : Bool) (off : BitVec 14) (s : State) : Host.Outcome State Fault Refusal :=
  compareBranch core ra rb n off (fun a b => decide (b.toInt ≤ a.toInt)) s

/-- BLTU (R367). -/
def execBltu (core : Fin 16) (ra rb : Fin 32) (n : Bool) (off : BitVec 14) (s : State) : Host.Outcome State Fault Refusal :=
  compareBranch core ra rb n off (fun a b => decide (a.toNat < b.toNat)) s

/-- BGEU (R367). -/
def execBgeu (core : Fin 16) (ra rb : Fin 32) (n : Bool) (off : BitVec 14) (s : State) : Host.Outcome State Fault Refusal :=
  compareBranch core ra rb n off (fun a b => decide (b.toNat ≤ a.toNat)) s

/-- JMPR (R361, R367): bits [1:0] of the register are ignored. -/
def execJmpr (core : Fin 16) (ra : Fin 32) (s : State) : Host.Outcome State Fault Refusal :=
  onState (State.branch core (fun c => c.reg ra.val &&& 0xFFFFFFFC) (fun _ => true) false false) s

/-- CALLR (R344, R361, R367): with ra = g31 it raises ILLEGAL. -/
def execCallr (core : Fin 16) (ra : Fin 32) (s : State) : Host.Outcome State Fault Refusal :=
  onState (fun s =>
    if ra.val = 31 then s.issueDev core fun d => d.illegal core
    else s.branch core (fun c => c.reg ra.val &&& 0xFFFFFFFC) (fun _ => true) false true) s

/-- JMP (R367). -/
def execJmp (core : Fin 16) (off : BitVec 25) (s : State) : Host.Outcome State Fault Refusal :=
  onState (State.branch core (fun c => ljTarget c.pc off) (fun _ => true) false false) s

/-- CALL (R367). -/
def execCall (core : Fin 16) (off : BitVec 25) (s : State) : Host.Outcome State Fault Refusal :=
  onState (State.branch core (fun c => ljTarget c.pc off) (fun _ => true) false true) s

/-- LB (R369). -/
def execLb (core : Fin 16) (rd ra : Fin 32) (imm : BitVec 15) (s : State) : Host.Outcome State Fault Refusal :=
  onState (State.issue core (State.load core rd.val ra.val imm 1 true)) s

/-- LBU (R369). -/
def execLbu (core : Fin 16) (rd ra : Fin 32) (imm : BitVec 15) (s : State) : Host.Outcome State Fault Refusal :=
  onState (State.issue core (State.load core rd.val ra.val imm 1 false)) s

/-- LH (R369). -/
def execLh (core : Fin 16) (rd ra : Fin 32) (imm : BitVec 15) (s : State) : Host.Outcome State Fault Refusal :=
  onState (State.issue core (State.load core rd.val ra.val imm 2 true)) s

/-- LHU (R369). -/
def execLhu (core : Fin 16) (rd ra : Fin 32) (imm : BitVec 15) (s : State) : Host.Outcome State Fault Refusal :=
  onState (State.issue core (State.load core rd.val ra.val imm 2 false)) s

/-- LW (R369). -/
def execLw (core : Fin 16) (rd ra : Fin 32) (imm : BitVec 15) (s : State) : Host.Outcome State Fault Refusal :=
  onState (State.issue core (State.load core rd.val ra.val imm 4 false)) s

/-- SB (R369). -/
def execSb (core : Fin 16) (rd ra : Fin 32) (imm : BitVec 15) (s : State) : Host.Outcome State Fault Refusal :=
  onState (State.issue core (State.storeTo core rd.val ra.val imm 1)) s

/-- SH (R369). -/
def execSh (core : Fin 16) (rd ra : Fin 32) (imm : BitVec 15) (s : State) : Host.Outcome State Fault Refusal :=
  onState (State.issue core (State.storeTo core rd.val ra.val imm 2)) s

/-- SW (R369). -/
def execSw (core : Fin 16) (rd ra : Fin 32) (imm : BitVec 15) (s : State) : Host.Outcome State Fault Refusal :=
  onState (State.issue core (State.storeTo core rd.val ra.val imm 4)) s

/-- The registers of a loop level set by a LOOP (R345, R370): a count of zero passes the body by. -/
def Core.setLoop (c : Core) (level : Nat) (ls le count : Word) : Core :=
  let c := if count = 0 then { c.shadowStep with pc := le + 4 } else c.advance
  if level = 0 then { c with ls0 := ls, le0 := le, lc0 := count } else { c with ls1 := ls, le1 := le, lc1 := count }

/-- LOOP (R343, R345, R346, R370). -/
def execLoop (core : Fin 16) (level : Fin 32) (ra : Fin 32) (off : BitVec 14) (s : State) : Host.Outcome State Fault Refusal :=
  onState (State.issueDev core fun d =>
    let c := d.core core.val
    let ls := c.pc + 4
    let le := bcTarget c.pc off
    if c.inSlot || 2 ≤ level.val then d.illegal core
    else if off.toInt ≤ 0 || d.loopEndBad core.val c level.val ls le then d.exception core 3 none
    else d.finish core.val (c.setLoop level.val ls le (c.reg ra.val))) s

end Sys2Proof.Machine
end

