-- ==== Sys2Proof/Machine/Integer.lean ====
section
/-!
DEFINITION. The integer instructions of a Spindle core (R364–R366).
-/
namespace Sys2Proof.Machine

/-- An instruction whose result does not depend on ARITH. -/
def alu (n : Fin 16) (rd : Fin 32) (v : Core → Word) (s : State) : Host.Outcome State Fault Refusal :=
  onState (State.issueCore n fun c => c.setReg rd.val (v c)) s

/-- A saturating instruction (R365): its exact result. -/
def saturate (n : Fin 16) (rd : Fin 32) (v : Core → Int) (s : State) : Host.Outcome State Fault Refusal :=
  onState (State.issueCore n fun c => c.putSat rd.val (v c)) s

/-- The 0 or 1 of a comparison. -/
def truth (b : Bool) : Word := if b then 1 else 0

/-- Leading zero bits of a word. -/
def clzOf (w : Word) : Nat := ((List.range 32).find? fun i => w.toNat.testBit (31 - i)).getD 32

/-- The shift amount of a register (R364). -/
def shamt (w : Word) : Nat := bits w 4 0

/-- The quotient and remainder of R366. -/
def quotient (a b : Word) : Int := if b = 0 then -1 else Int.tdiv a.toInt b.toInt
def remainder (a b : Word) : Word := if b = 0 then a else BitVec.ofInt 32 (Int.tmod a.toInt b.toInt)
def quotientU (a b : Word) : Word := if b = 0 then 0xFFFFFFFF else BitVec.ofNat 32 (a.toNat / b.toNat)
def remainderU (a b : Word) : Word := if b = 0 then a else BitVec.ofNat 32 (a.toNat % b.toNat)

/-- A right shift with sign fill. -/
def shiftRightA (w : Word) (k : Nat) : Word := BitVec.ofInt 32 (w.toInt / 2 ^ k)

/-- ADD (R364). -/
def execAdd (core : Fin 16) (rd ra rb : Fin 32) (s : State) : Host.Outcome State Fault Refusal :=
  saturate core rd (fun c => (c.reg ra.val).toInt + (c.reg rb.val).toInt) s

/-- SUB (R364). -/
def execSub (core : Fin 16) (rd ra rb : Fin 32) (s : State) : Host.Outcome State Fault Refusal :=
  saturate core rd (fun c => (c.reg ra.val).toInt - (c.reg rb.val).toInt) s

/-- AND (R364). -/
def execAnd (core : Fin 16) (rd ra rb : Fin 32) (s : State) : Host.Outcome State Fault Refusal :=
  alu core rd (fun c => c.reg ra.val &&& c.reg rb.val) s

/-- OR (R364). -/
def execOr (core : Fin 16) (rd ra rb : Fin 32) (s : State) : Host.Outcome State Fault Refusal :=
  alu core rd (fun c => c.reg ra.val ||| c.reg rb.val) s

/-- XOR (R364). -/
def execXor (core : Fin 16) (rd ra rb : Fin 32) (s : State) : Host.Outcome State Fault Refusal :=
  alu core rd (fun c => c.reg ra.val ^^^ c.reg rb.val) s

/-- NOR (R364). -/
def execNor (core : Fin 16) (rd ra rb : Fin 32) (s : State) : Host.Outcome State Fault Refusal :=
  alu core rd (fun c => ~~~ (c.reg ra.val ||| c.reg rb.val)) s

/-- ANDN (R364). -/
def execAndn (core : Fin 16) (rd ra rb : Fin 32) (s : State) : Host.Outcome State Fault Refusal :=
  alu core rd (fun c => c.reg ra.val &&& ~~~ (c.reg rb.val)) s

/-- CMPLT (R364). -/
def execCmplt (core : Fin 16) (rd ra rb : Fin 32) (s : State) : Host.Outcome State Fault Refusal :=
  alu core rd (fun c => truth (decide ((c.reg ra.val).toInt < (c.reg rb.val).toInt))) s

/-- CMPLTU (R364). -/
def execCmpltu (core : Fin 16) (rd ra rb : Fin 32) (s : State) : Host.Outcome State Fault Refusal :=
  alu core rd (fun c => truth (decide ((c.reg ra.val).toNat < (c.reg rb.val).toNat))) s

/-- SHL (R364, R365). -/
def execShl (core : Fin 16) (rd ra rb : Fin 32) (s : State) : Host.Outcome State Fault Refusal :=
  saturate core rd (fun c => (c.reg ra.val).toInt * 2 ^ shamt (c.reg rb.val)) s

/-- SHR (R364). -/
def execShr (core : Fin 16) (rd ra rb : Fin 32) (s : State) : Host.Outcome State Fault Refusal :=
  alu core rd (fun c => c.reg ra.val >>> shamt (c.reg rb.val)) s

/-- SHRA (R364). -/
def execShra (core : Fin 16) (rd ra rb : Fin 32) (s : State) : Host.Outcome State Fault Refusal :=
  alu core rd (fun c => shiftRightA (c.reg ra.val) (shamt (c.reg rb.val))) s

/-- MUL (R364, R365). -/
def execMul (core : Fin 16) (rd ra rb : Fin 32) (s : State) : Host.Outcome State Fault Refusal :=
  saturate core rd (fun c => (c.reg ra.val).toInt * (c.reg rb.val).toInt) s

/-- MULHS (R364). -/
def execMulhs (core : Fin 16) (rd ra rb : Fin 32) (s : State) : Host.Outcome State Fault Refusal :=
  alu core rd (fun c => BitVec.ofInt 32 ((c.reg ra.val).toInt * (c.reg rb.val).toInt / 2 ^ 32)) s

/-- MULHU (R364). -/
def execMulhu (core : Fin 16) (rd ra rb : Fin 32) (s : State) : Host.Outcome State Fault Refusal :=
  alu core rd (fun c => BitVec.ofNat 32 ((c.reg ra.val).toNat * (c.reg rb.val).toNat / 2 ^ 32)) s

/-- DIV (R366). -/
def execDiv (core : Fin 16) (rd ra rb : Fin 32) (s : State) : Host.Outcome State Fault Refusal :=
  saturate core rd (fun c => quotient (c.reg ra.val) (c.reg rb.val)) s

/-- DIVU (R366). -/
def execDivu (core : Fin 16) (rd ra rb : Fin 32) (s : State) : Host.Outcome State Fault Refusal :=
  alu core rd (fun c => quotientU (c.reg ra.val) (c.reg rb.val)) s

/-- REM (R366). -/
def execRem (core : Fin 16) (rd ra rb : Fin 32) (s : State) : Host.Outcome State Fault Refusal :=
  alu core rd (fun c => remainder (c.reg ra.val) (c.reg rb.val)) s

/-- REMU (R366). -/
def execRemu (core : Fin 16) (rd ra rb : Fin 32) (s : State) : Host.Outcome State Fault Refusal :=
  alu core rd (fun c => remainderU (c.reg ra.val) (c.reg rb.val)) s

/-- MIN (R364). -/
def execMin (core : Fin 16) (rd ra rb : Fin 32) (s : State) : Host.Outcome State Fault Refusal :=
  alu core rd (fun c => if (c.reg ra.val).toInt ≤ (c.reg rb.val).toInt then c.reg ra.val else c.reg rb.val) s

/-- MAX (R364). -/
def execMax (core : Fin 16) (rd ra rb : Fin 32) (s : State) : Host.Outcome State Fault Refusal :=
  alu core rd (fun c => if (c.reg ra.val).toInt ≤ (c.reg rb.val).toInt then c.reg rb.val else c.reg ra.val) s

/-- ABS (R364, R365). -/
def execAbs (core : Fin 16) (rd ra : Fin 32) (s : State) : Host.Outcome State Fault Refusal :=
  saturate core rd (fun c => ((c.reg ra.val).toInt.natAbs : Int)) s

/-- CLZ (R364). -/
def execClz (core : Fin 16) (rd ra : Fin 32) (s : State) : Host.Outcome State Fault Refusal :=
  alu core rd (fun c => BitVec.ofNat 32 (clzOf (c.reg ra.val))) s

/-- SHLI (R364, R365). -/
def execShli (core : Fin 16) (rd ra : Fin 32) (sx : Fin 32) (s : State) : Host.Outcome State Fault Refusal :=
  saturate core rd (fun c => (c.reg ra.val).toInt * 2 ^ sx.val) s

/-- SHRI (R364). -/
def execShri (core : Fin 16) (rd ra : Fin 32) (sx : Fin 32) (s : State) : Host.Outcome State Fault Refusal :=
  alu core rd (fun c => c.reg ra.val >>> sx.val) s

/-- SHRAI (R364). -/
def execShrai (core : Fin 16) (rd ra : Fin 32) (sx : Fin 32) (s : State) : Host.Outcome State Fault Refusal :=
  alu core rd (fun c => shiftRightA (c.reg ra.val) sx.val) s

/-- ADDI (R364). -/
def execAddi (core : Fin 16) (rd ra : Fin 32) (imm : BitVec 15) (s : State) : Host.Outcome State Fault Refusal :=
  saturate core rd (fun c => (c.reg ra.val).toInt + (sext15 imm).toInt) s

/-- ANDI (R364). -/
def execAndi (core : Fin 16) (rd ra : Fin 32) (imm : BitVec 15) (s : State) : Host.Outcome State Fault Refusal :=
  alu core rd (fun c => c.reg ra.val &&& zext15 imm) s

/-- ORI (R364). -/
def execOri (core : Fin 16) (rd ra : Fin 32) (imm : BitVec 15) (s : State) : Host.Outcome State Fault Refusal :=
  alu core rd (fun c => c.reg ra.val ||| zext15 imm) s

/-- XORI (R364). -/
def execXori (core : Fin 16) (rd ra : Fin 32) (imm : BitVec 15) (s : State) : Host.Outcome State Fault Refusal :=
  alu core rd (fun c => c.reg ra.val ^^^ zext15 imm) s

/-- CMPLTI (R364). -/
def execCmplti (core : Fin 16) (rd ra : Fin 32) (imm : BitVec 15) (s : State) : Host.Outcome State Fault Refusal :=
  alu core rd (fun c => truth (decide ((c.reg ra.val).toInt < (sext15 imm).toInt))) s

/-- CMPLTIU (R364). -/
def execCmpltiu (core : Fin 16) (rd ra : Fin 32) (imm : BitVec 15) (s : State) : Host.Outcome State Fault Refusal :=
  alu core rd (fun c => truth (decide ((c.reg ra.val).toNat < (sext15 imm).toNat))) s

/-- LDHI (R364). -/
def execLdhi (core : Fin 16) (rd : Fin 32) (imm : BitVec 20) (s : State) : Host.Outcome State Fault Refusal :=
  alu core rd (fun _ => imm.zeroExtend 32 <<< 12) s

end Sys2Proof.Machine
end

