-- ==== Sys2Proof/Machine/SpindleSys.lean ====
section
/-!
DEFINITION. The system and mode instructions of a Spindle core (R371–R374), and the events of the cores: interrupts, waits that end,
the timer, IPI and the debug path (R348, R354–R359).
-/
namespace Sys2Proof.Machine

/-- MSET (R343, R372). -/
def execMset (core : Fin 16) (imm : BitVec 15) (s : State) : Host.Outcome State Fault Refusal :=
  onState (State.issueDev core fun d =>
    let c := d.core core.val
    let i := imm.toNat
    if c.inSlot || i / 16 % 16 ≠ 0 || i / 4096 ≠ 0 then d.illegal core
    else if c.msetDenied i then d.privilege core
    else d.finish core.val { c.advance with shadow := some { mset := c.pc, mode := c.msetMode i, clr := i.testBit 11 && !i.testBit 3, left := 2 } }) s

/-- CRD (R340, R371). -/
def execCrd (core : Fin 16) (rd : Fin 32) (cr : Fin 32) (s : State) : Host.Outcome State Fault Refusal :=
  onState (State.issueDev core fun d =>
    if !(d.core core.val).machineMode && crPrivate cr.val then d.privilege core
    else
      let (v, d) := d.crTake core.val cr.val
      d.finish core.val ((d.core core.val).setReg rd.val v).advance) s

/-- CWR (R340, R371): the value applies from the next instruction. -/
def execCwr (core : Fin 16) (cr : Fin 32) (ra : Fin 32) (s : State) : Host.Outcome State Fault Refusal :=
  onState (State.issueDev core fun d =>
    let c := d.core core.val
    if crForbidden cr.val then d.illegal core
    else if !c.machineMode && !crTaskWrites cr.val then d.privilege core
    else d.finish core.val (Dev.crWrite c.advance cr.val (c.reg ra.val))) s

/-- XRET (R341, R343, R352). -/
def execXret (core : Fin 16) (s : State) : Host.Outcome State Fault Refusal :=
  onState (State.issueDev core fun d =>
    let c := d.core core.val
    if c.inSlot then d.illegal core
    else if !c.machineMode then d.privilege core
    else d.finish core.val c.xret) s

/-- TRAP (R343, R371): the exception TRAP, with SX in EBAD. -/
def execTrap (core : Fin 16) (sx : Fin 32) (s : State) : Host.Outcome State Fault Refusal :=
  onState (State.issueDev core fun d =>
    if (d.core core.val).inSlot then d.illegal core else d.exception core 0x0A (some (BitVec.ofNat 32 sx.val))) s

/-- BREAK (R356, R371): a debug halt with BRK_EN = 1, the exception BREAK without it. -/
def execBreak (core : Fin 16) (s : State) : Host.Outcome State Fault Refusal :=
  onState (State.issueDev core fun d =>
    if d.flag (Dev.corePage core.val) 0x080 8 then (d.complete core.val (d.core core.val).advance).debugHalt core.val 3
    else d.exception core 0x0B none) s

/-- FENCE (R339, R371): completes once the core's earlier stores are visible. -/
def execFence (core : Fin 16) (s : State) : Host.Outcome State Fault Refusal :=
  onState (State.issueDev core fun d =>
    if d.storesVisible core then d.finish core.val (d.core core.val).advance else d) s

/-- The core waits, and the votes that hold its region up are withdrawn (R358). -/
def Dev.coreWait (d : Dev) (n : Nat) (st : CoreState) : Dev :=
  (d.setCore n { d.core n with st := st, voteInt := false, voteWake := false }).settle (coreRegion n)

/-- WFI (R341, R355): completes at once with an enabled interrupt pending, else waits. -/
def execWfi (core : Fin 16) (s : State) : Host.Outcome State Fault Refusal :=
  onState (State.issueDev core fun d =>
    let c := d.core core.val
    if !c.machineMode then d.privilege core
    else if c.pendingSource.isSome then d.finish core.val c.advance
    else d.coreWait core.val .wfi) s

/-- WFI_WAKE (R355): a waiting WFI completes once an enabled interrupt is pending. -/
def execWfiWake (core : Fin 16) (s : State) : Host.Outcome State Fault Refusal :=
  onDev (fun d =>
    let c := d.core core.val
    if c.st = .wfi && c.pendingSource.isSome && d.coreAwake core.val then
      d.finish core.val { c.advance with st := .run }
    else d) s

/-- TWAIT (R341, R347): the core is offered to Shuttle; with a task in service it raises ILLEGAL. -/
def execTwait (core : Fin 16) (s : State) : Host.Outcome State Fault Refusal :=
  onState (State.issueDev core fun d =>
    let c := d.core core.val
    if c.task.isSome then d.illegal core
    else if !c.machineMode then d.privilege core
    else d.coreWait core.val .twait) s

/-- TDONE (R341, R348): waits for its stores, with the status and progress it gives; without a task it sets NO_TASK. -/
def execTdone (core : Fin 16) (ra rb : Fin 32) (s : State) : Host.Outcome State Fault Refusal :=
  onState (State.issueDev core fun d =>
    let c := d.core core.val
    if !c.machineMode then d.privilege core
    else if c.task.isNone then
      let d := d.err (Dev.corePage core.val) 1
      d.finish core.val (d.core core.val).advance
    else d.setCore core.val { c with done := some { status := bits (c.reg ra.val) 7 0, progress := (c.reg rb.val).toNat } }) s

/-- TDONE_RETIRE (R348): the stores are visible, and the task retires; the core goes on unless its page has drained. -/
def Dev.tdoneRetire (n : Fin 16) (d : Dev) : Dev :=
  let c := d.core n.val
  match c.done with
  | none => d
  | some x =>
    if c.st = .run && d.coreAwake n.val && d.storesVisible n then
      let status := d.doneStatus n.val x.status
      let d := d.complete n.val { c.advance with done := none }
      (d.coreRetire n status x.progress).boundary n.val
    else d

def execTdoneRetire (core : Fin 16) (s : State) : Host.Outcome State Fault Refusal := onCores (Dev.tdoneRetire core) s

/-- STAKE (R374): waits for the core's earlier accesses; a TAKE and a read as one access. -/
def execStake (core : Fin 16) (rd ra : Fin 32) (s : State) : Host.Outcome State Fault Refusal :=
  onState (State.issueDev core fun d =>
    if !d.storesVisible core then d
    else
      let c := d.core core.val
      let k := bits (c.reg ra.val) 5 0
      let took := !d.semHeld k
      let d := d.semTake (.spindle core) k
      d.finish core.val (c.setReg rd.val (putBit (d.reg 0x001 (Dev.semOff k)) 0 took)).advance) s

/-- SGIVE (R374): waits for the core's earlier accesses; a GIVE. -/
def execSgive (core : Fin 16) (rd ra : Fin 32) (s : State) : Host.Outcome State Fault Refusal :=
  onState (State.issueDev core fun d =>
    if !d.storesVisible core then d
    else
      let k := bits ((d.core core.val).reg ra.val) 5 0
      let mine := d.semHeldBy (.spindle core) k
      let d := d.semGive (.spindle core) k
      d.finish core.val ((d.core core.val).setReg rd.val (if mine then 1 else 0)).advance) s

/-! ## Events -/

/-- INTERRUPT_ENTRY (R351, R354, R355): at a boundary, or in TWAIT. -/
def execInterruptEntry (core : Fin 16) (s : State) : Host.Outcome State Fault Refusal :=
  onDev (fun d =>
    let c := d.core core.val
    if (c.st = .run || c.st = .twait) && c.done.isNone && c.interruptible && d.coreAwake core.val then d.takeInterrupt core.val
    else d) s

/-- TIMER_INTERRUPT (R354): TB has reached TCMP, once per write of TCMP. -/
def execTimerInterrupt (core : Fin 16) (s : State) : Host.Outcome State Fault Refusal :=
  onDev (fun d =>
    let c := d.core core.val
    if c.tcmpOn && (BitVec.ofNat 32 d.now - c.tcmp).toNat < 2 ^ 31 then (d.setCore core.val { c with tcmpOn := false }).pend core.val 4
    else d) s

/-- IPI_WRITE (R354, R360): a W1S register, so any agent may write it. -/
def execIpiWrite (_ag : Agent) (cores : BitVec 16) (s : State) : Host.Outcome State Fault Refusal :=
  onDev (Dev.anyWrite 0x0F8 fun d => d.pendMask cores.toNat 6) s

/-- DEBUG_HALT_REQ (R356, R357). -/
def execDebugHaltReq (ag : Agent) (core : Fin 16) (s : State) : Host.Outcome State Fault Refusal :=
  onDev (Dev.dbgCtrl ag core.val fun d => d.debugRequest core.val) s

/-- DEBUG_RESUME (R356, R357). -/
def execDebugResume (ag : Agent) (core : Fin 16) (s : State) : Host.Outcome State Fault Refusal :=
  onDev (Dev.dbgCtrl ag core.val fun d => d.debugResume core.val) s

/-- DEBUG_STEP (R356, R357). -/
def execDebugStep (ag : Agent) (core : Fin 16) (s : State) : Host.Outcome State Fault Refusal :=
  onDev (Dev.dbgCtrl ag core.val fun d => d.debugStep core.val) s

/-- DBG_DATA_ACCESS (R356, R357): a write or a read of DBG_DATA, which any agent may make. -/
def execDbgDataAccess (ag : Agent) (core : Fin 16) (write : Option Word) (s : State) : Host.Outcome State Fault Refusal :=
  onState (fun s =>
    match write with
    | some v => s.writeReg ag (Dev.corePage core.val) 0x090 v 15
    | none => s.readReg ag (Dev.corePage core.val) 0x090) s

/-- CORE_KILL (R359): a WO register, so any agent may write it. -/
def execCoreKill (_ag : Agent) (core : Fin 16) (s : State) : Host.Outcome State Fault Refusal :=
  onCores (Dev.anyWrite (Dev.corePage core.val) fun d => d.coreKill core) s

end Sys2Proof.Machine
end

