-- ==== Sys2Proof/Machine/Dispatch.lean ====
section
/-!
DEFINITION. The dispatch of a command to its meaning, one arm for each row of the command table.
-/
namespace Sys2Proof.Machine

/-- The effect of a command on everything but the queue. -/
def exec (i : Instr) (s : State) : Host.Outcome State Fault Refusal :=
  match i with
  -- 02 Register pages
  | .registerWrite ag r value be => Sys2Proof.Machine.execRegisterWrite ag r value be s
  | .registerReadClear ag page => Sys2Proof.Machine.execRegisterReadClear ag page s
  | .bar0Request p addr req poisoned => Sys2Proof.Machine.execBar0Request p addr req poisoned s
  | .pairLoRead ag r => Sys2Proof.Machine.execPairLoRead ag r s
  | .pairLoWrite ag r value => Sys2Proof.Machine.execPairLoWrite ag r value s
  | .pairHiWrite ag r value => Sys2Proof.Machine.execPairHiWrite ag r value s
  | .pageEnable ag page => Sys2Proof.Machine.execPageEnable ag page s
  | .pageDisable ag page => Sys2Proof.Machine.execPageDisable ag page s
  | .softReset ag page => Sys2Proof.Machine.execSoftReset ag page s
  | .freeze ag page frz => Sys2Proof.Machine.execFreeze ag page frz s
  | .pendingEnable page => Sys2Proof.Machine.execPendingEnable page s
  | .claim ag page => Sys2Proof.Machine.execClaim ag page s
  | .release ag page => Sys2Proof.Machine.execRelease ag page s
  | .voteWrite ag page value => Sys2Proof.Machine.execVoteWrite ag page value s
  | .semTake ag n => Sys2Proof.Machine.execSemTake ag n s
  | .semGive ag n => Sys2Proof.Machine.execSemGive ag n s
  | .semForce n gen => Sys2Proof.Machine.execSemForce n gen s
  | .portRelease p => Sys2Proof.Machine.execPortRelease p s
  -- 01 The cascade
  | .wakeRequestArrival => Sys2Proof.Machine.execWakeRequestArrival s
  | .preWindowExpiry stream => Sys2Proof.Machine.execPreWindowExpiry stream s
  | .handoffWrite stream => Sys2Proof.Machine.execHandoffWrite stream s
  | .hoWaitResume stream => Sys2Proof.Machine.execHoWaitResume stream s
  | .hoPtrWrite ag value => Sys2Proof.Machine.execHoPtrWrite ag value s
  -- 03 Reel
  | .encoderEdge enc a b => Sys2Proof.Machine.execEncoderEdge enc a b s
  | .zcCrossing rising => Sys2Proof.Machine.execZcCrossing rising s
  | .zcTimeout => Sys2Proof.Machine.execZcTimeout s
  | .rateWindowEnd ch => Sys2Proof.Machine.execRateWindowEnd ch s
  | .stallTmoExpiry ch => Sys2Proof.Machine.execStallTmoExpiry ch s
  | .channelEnable ag ch => Sys2Proof.Machine.execChannelEnable ag ch s
  | .channelDisable ag ch => Sys2Proof.Machine.execChannelDisable ag ch s
  | .channelRecover ag ch => Sys2Proof.Machine.execChannelRecover ag ch s
  | .snapTake ag => Sys2Proof.Machine.execSnapTake ag s
  | .markArm ag m form => Sys2Proof.Machine.execMarkArm ag m form s
  | .markFloorExpiry m => Sys2Proof.Machine.execMarkFloorExpiry m s
  -- 04 Sensor intake
  | .csiFrameStart p vc ecc => Sys2Proof.Machine.execCsiFrameStart p vc ecc s
  | .csiLinePacket p vc dt line ecc crcOk => Sys2Proof.Machine.execCsiLinePacket p vc dt line ecc crcOk s
  | .csiFrameEnd p vc ecc => Sys2Proof.Machine.execCsiFrameEnd p vc ecc s
  | .csiEventPacket p vc payload ecc crcOk => Sys2Proof.Machine.execCsiEventPacket p vc payload ecc crcOk s
  | .csiLinkDown p => Sys2Proof.Machine.execCsiLinkDown p s
  | .overflowGapWrite ch => Sys2Proof.Machine.execOverflowGapWrite ch s
  | .camTrigEnd cam => Sys2Proof.Machine.execCamTrigEnd cam s
  | .bufFree ag cam bufs => Sys2Proof.Machine.execBufFree ag cam bufs s
  | .evtBatchTimeout k => Sys2Proof.Machine.execEvtBatchTimeout k s
  | .aerBeat frm d => Sys2Proof.Machine.execAerBeat frm d s
  | .aerStuckTimeout reqFell => Sys2Proof.Machine.execAerStuckTimeout reqFell s
  | .i3cTransfer ag value => Sys2Proof.Machine.execI3cTransfer ag value s
  | .tofIbi addr => Sys2Proof.Machine.execTofIbi addr s
  | .tofPeriodExpiry => Sys2Proof.Machine.execTofPeriodExpiry s
  | .tofReadDone r => Sys2Proof.Machine.execTofReadDone r s
  | .imuIntEdge => Sys2Proof.Machine.execImuIntEdge s
  | .imuPeriodExpiry => Sys2Proof.Machine.execImuPeriodExpiry s
  | .imuReadDone r => Sys2Proof.Machine.execImuReadDone r s
  | .encPeriodExpiry => Sys2Proof.Machine.execEncPeriodExpiry s
  | .genPush ag k hi => Sys2Proof.Machine.execGenPush ag k hi s
  | .genPushDone k => Sys2Proof.Machine.execGenPushDone k s
  | .lookbackSnapshot stream => Sys2Proof.Machine.execLookbackSnapshot stream s
  -- 05 The listening path
  | .micModeActive ag => Sys2Proof.Machine.execMicModeActive ag s
  | .micModeListen ag => Sys2Proof.Machine.execMicModeListen ag s
  | .gridBoundary x => Sys2Proof.Machine.execGridBoundary x s
  | .pll1LockTimeout => Sys2Proof.Machine.execPll1LockTimeout s
  | .pll1Loss => Sys2Proof.Machine.execPll1Loss s
  | .micStuck m => Sys2Proof.Machine.execMicStuck m s
  -- 06 Cliff watch, halt unit, pack supervisor
  | .cliffCheckWrite ag chs => Sys2Proof.Machine.execCliffCheckWrite ag chs s
  | .cliffGuardExpiry ch => Sys2Proof.Machine.execCliffGuardExpiry ch s
  | .cliffSlotStart vemit => Sys2Proof.Machine.execCliffSlotStart vemit s
  | .cliffDecision a1 a2 l1 l2 headMv stayMv iMeas overI => Sys2Proof.Machine.execCliffDecision a1 a2 l1 l2 headMv stayMv iMeas overI s
  | .guardSet ag chs => Sys2Proof.Machine.execGuardSet ag chs s
  | .haltArm ag value => Sys2Proof.Machine.execHaltArm ag value s
  | .haltOutCmd ag value => Sys2Proof.Machine.execHaltOutCmd ag value s
  | .heartbeatRefresh ag value => Sys2Proof.Machine.execHeartbeatRefresh ag value s
  | .heartbeatExpiry => Sys2Proof.Machine.execHeartbeatExpiry s
  | .holdWindowExpiry => Sys2Proof.Machine.execHoldWindowExpiry s
  | .tripAck ag value => Sys2Proof.Machine.execTripAck ag value s
  | .haltForce ag value => Sys2Proof.Machine.execHaltForce ag value s
  | .drvFbChange n level => Sys2Proof.Machine.execDrvFbChange n level s
  | .fbTmoExpiry n => Sys2Proof.Machine.execFbTmoExpiry n s
  | .thermtripInput low => Sys2Proof.Machine.execThermtripInput low s
  | .packPoll => Sys2Proof.Machine.execPackPoll s
  | .packReadDone r => Sys2Proof.Machine.execPackReadDone r s
  | .packPresChange level => Sys2Proof.Machine.execPackPresChange level s
  | .packPresAccept => Sys2Proof.Machine.execPackPresAccept s
  -- 07 Whorl
  | .whorlEventArrival core => Sys2Proof.Machine.execWhorlEventArrival core s
  | .whorlInputEvent core => Sys2Proof.Machine.execWhorlInputEvent core s
  | .stormQuietExpiry e => Sys2Proof.Machine.execStormQuietExpiry e s
  | .whorlTick core => Sys2Proof.Machine.execWhorlTick core s
  | .swTick ag groups => Sys2Proof.Machine.execSwTick ag groups s
  | .whorlStoreWrite who core offset data => Sys2Proof.Machine.execWhorlStoreWrite who core offset data s
  | .winOpen ag core => Sys2Proof.Machine.execWinOpen ag core s
  | .winClose ag core => Sys2Proof.Machine.execWinClose ag core s
  | .winTimeout core => Sys2Proof.Machine.execWinTimeout core s
  | .coreEnable ag core => Sys2Proof.Machine.execCoreEnable ag core s
  | .coreDisable ag core => Sys2Proof.Machine.execCoreDisable ag core s
  -- 08 Flyer
  | .chunkStart stream => Sys2Proof.Machine.execChunkStart stream s
  | .chunkRetire stream => Sys2Proof.Machine.execChunkRetire stream s
  | .streamPause ag stream => Sys2Proof.Machine.execStreamPause ag stream s
  | .streamResume ag stream => Sys2Proof.Machine.execStreamResume ag stream s
  | .streamEnd ag stream => Sys2Proof.Machine.execStreamEnd ag stream s
  | .streamInTimeout stream => Sys2Proof.Machine.execStreamInTimeout stream s
  -- 09 Loom
  | .loomTaskStart => Sys2Proof.Machine.execLoomTaskStart s
  | .gemm => Sys2Proof.Machine.execGemm s
  | .conv => Sys2Proof.Machine.execConv s
  | .dwconv => Sys2Proof.Machine.execDwconv s
  | .elemAdd => Sys2Proof.Machine.execElemAdd s
  | .elemMul => Sys2Proof.Machine.execElemMul s
  | .elemAct => Sys2Proof.Machine.execElemAct s
  | .normRms => Sys2Proof.Machine.execNormRms s
  | .normMeanVariance => Sys2Proof.Machine.execNormMeanVariance s
  | .copy => Sys2Proof.Machine.execCopy s
  | .copyQuantise => Sys2Proof.Machine.execCopyQuantise s
  | .cardConv => Sys2Proof.Machine.execCardConv s
  | .cardGemm => Sys2Proof.Machine.execCardGemm s
  | .cardTopk => Sys2Proof.Machine.execCardTopk s
  -- 10 Attention
  | .attnAttend => Sys2Proof.Machine.execAttnAttend s
  | .attnAppend => Sys2Proof.Machine.execAttnAppend s
  | .attnLookup => Sys2Proof.Machine.execAttnLookup s
  | .attnInsert => Sys2Proof.Machine.execAttnInsert s
  | .attnRelease => Sys2Proof.Machine.execAttnRelease s
  | .attnPrune => Sys2Proof.Machine.execAttnPrune s
  | .kvEdit ag => Sys2Proof.Machine.execKvEdit ag s
  | .kvEditEnd ag => Sys2Proof.Machine.execKvEditEnd ag s
  | .kvRescanDone => Sys2Proof.Machine.execKvRescanDone s
  -- 12 Skein
  | .skeinRead who addr len found => Sys2Proof.Machine.execSkeinRead who addr len found s
  | .skeinWrite who addr data => Sys2Proof.Machine.execSkeinWrite who addr data s
  | .migrationSwitch => Sys2Proof.Machine.execMigrationSwitch s
  | .plcSet ag => Sys2Proof.Machine.execPlcSet ag s
  | .plcFree ag => Sys2Proof.Machine.execPlcFree ag s
  | .plcRead ag => Sys2Proof.Machine.execPlcRead ag s
  | .plcDone => Sys2Proof.Machine.execPlcDone s
  | .pfStart ag slot => Sys2Proof.Machine.execPfStart ag slot s
  | .pfStop ag slot => Sys2Proof.Machine.execPfStop ag slot s
  | .tileLend t => Sys2Proof.Machine.execTileLend t s
  | .nbReclaim ag n => Sys2Proof.Machine.execNbReclaim ag n s
  | .nbReclaimTimeout n => Sys2Proof.Machine.execNbReclaimTimeout n s
  | .nbLenderRelease n => Sys2Proof.Machine.execNbLenderRelease n s
  | .neighbourLoss n => Sys2Proof.Machine.execNeighbourLoss n s
  | .hbmInitDone => Sys2Proof.Machine.execHbmInitDone s
  -- 13 Shuttle
  | .submitDirect ag ring d15 => Sys2Proof.Machine.execSubmitDirect ag ring d15 s
  | .submitBatch ag ring n => Sys2Proof.Machine.execSubmitBatch ag ring n s
  | .batchFetchDone ag ring => Sys2Proof.Machine.execBatchFetchDone ag ring s
  | .dispatch c => Sys2Proof.Machine.execDispatch c s
  | .moverRetire m => Sys2Proof.Machine.execMoverRetire m s
  | .completionPost ring => Sys2Proof.Machine.execCompletionPost ring s
  | .taskTimeout slot => Sys2Proof.Machine.execTaskTimeout slot s
  | .taskAbort ag ring seq => Sys2Proof.Machine.execTaskAbort ag ring seq s
  | .dlEnable ag d => Sys2Proof.Machine.execDlEnable ag d s
  | .dlFlush ag d => Sys2Proof.Machine.execDlFlush ag d s
  | .ringFlush ag ring => Sys2Proof.Machine.execRingFlush ag ring s
  | .traceClockExpiry => Sys2Proof.Machine.execTraceClockExpiry s
  -- 14 Error log
  | .logClose ag eseq => Sys2Proof.Machine.execLogClose ag eseq s
  | .clrOvf ag value => Sys2Proof.Machine.execClrOvf ag value s
  | .recordWriteTimeout ring => Sys2Proof.Machine.execRecordWriteTimeout ring s
  -- 16 Spindle instructions
  | .add core rd ra rb => Sys2Proof.Machine.execAdd core rd ra rb s
  | .sub core rd ra rb => Sys2Proof.Machine.execSub core rd ra rb s
  | .and core rd ra rb => Sys2Proof.Machine.execAnd core rd ra rb s
  | .or core rd ra rb => Sys2Proof.Machine.execOr core rd ra rb s
  | .xor core rd ra rb => Sys2Proof.Machine.execXor core rd ra rb s
  | .nor core rd ra rb => Sys2Proof.Machine.execNor core rd ra rb s
  | .andn core rd ra rb => Sys2Proof.Machine.execAndn core rd ra rb s
  | .cmplt core rd ra rb => Sys2Proof.Machine.execCmplt core rd ra rb s
  | .cmpltu core rd ra rb => Sys2Proof.Machine.execCmpltu core rd ra rb s
  | .shl core rd ra rb => Sys2Proof.Machine.execShl core rd ra rb s
  | .shr core rd ra rb => Sys2Proof.Machine.execShr core rd ra rb s
  | .shra core rd ra rb => Sys2Proof.Machine.execShra core rd ra rb s
  | .mul core rd ra rb => Sys2Proof.Machine.execMul core rd ra rb s
  | .mulhs core rd ra rb => Sys2Proof.Machine.execMulhs core rd ra rb s
  | .mulhu core rd ra rb => Sys2Proof.Machine.execMulhu core rd ra rb s
  | .div core rd ra rb => Sys2Proof.Machine.execDiv core rd ra rb s
  | .divu core rd ra rb => Sys2Proof.Machine.execDivu core rd ra rb s
  | .rem core rd ra rb => Sys2Proof.Machine.execRem core rd ra rb s
  | .remu core rd ra rb => Sys2Proof.Machine.execRemu core rd ra rb s
  | .min core rd ra rb => Sys2Proof.Machine.execMin core rd ra rb s
  | .max core rd ra rb => Sys2Proof.Machine.execMax core rd ra rb s
  | .abs core rd ra => Sys2Proof.Machine.execAbs core rd ra s
  | .clz core rd ra => Sys2Proof.Machine.execClz core rd ra s
  | .shli core rd ra sx => Sys2Proof.Machine.execShli core rd ra sx s
  | .shri core rd ra sx => Sys2Proof.Machine.execShri core rd ra sx s
  | .shrai core rd ra sx => Sys2Proof.Machine.execShrai core rd ra sx s
  | .addi core rd ra imm => Sys2Proof.Machine.execAddi core rd ra imm s
  | .andi core rd ra imm => Sys2Proof.Machine.execAndi core rd ra imm s
  | .ori core rd ra imm => Sys2Proof.Machine.execOri core rd ra imm s
  | .xori core rd ra imm => Sys2Proof.Machine.execXori core rd ra imm s
  | .cmplti core rd ra imm => Sys2Proof.Machine.execCmplti core rd ra imm s
  | .cmpltiu core rd ra imm => Sys2Proof.Machine.execCmpltiu core rd ra imm s
  | .ldhi core rd imm => Sys2Proof.Machine.execLdhi core rd imm s
  | .beq core ra rb n off => Sys2Proof.Machine.execBeq core ra rb n off s
  | .bne core ra rb n off => Sys2Proof.Machine.execBne core ra rb n off s
  | .blt core ra rb n off => Sys2Proof.Machine.execBlt core ra rb n off s
  | .bge core ra rb n off => Sys2Proof.Machine.execBge core ra rb n off s
  | .bltu core ra rb n off => Sys2Proof.Machine.execBltu core ra rb n off s
  | .bgeu core ra rb n off => Sys2Proof.Machine.execBgeu core ra rb n off s
  | .jmpr core ra => Sys2Proof.Machine.execJmpr core ra s
  | .callr core ra => Sys2Proof.Machine.execCallr core ra s
  | .jmp core off => Sys2Proof.Machine.execJmp core off s
  | .call core off => Sys2Proof.Machine.execCall core off s
  | .lb core rd ra imm => Sys2Proof.Machine.execLb core rd ra imm s
  | .lbu core rd ra imm => Sys2Proof.Machine.execLbu core rd ra imm s
  | .lh core rd ra imm => Sys2Proof.Machine.execLh core rd ra imm s
  | .lhu core rd ra imm => Sys2Proof.Machine.execLhu core rd ra imm s
  | .lw core rd ra imm => Sys2Proof.Machine.execLw core rd ra imm s
  | .sb core rd ra imm => Sys2Proof.Machine.execSb core rd ra imm s
  | .sh core rd ra imm => Sys2Proof.Machine.execSh core rd ra imm s
  | .sw core rd ra imm => Sys2Proof.Machine.execSw core rd ra imm s
  | .loop core level ra off => Sys2Proof.Machine.execLoop core level ra off s
  | .mset core imm => Sys2Proof.Machine.execMset core imm s
  | .crd core rd cr => Sys2Proof.Machine.execCrd core rd cr s
  | .cwr core cr ra => Sys2Proof.Machine.execCwr core cr ra s
  | .xret core => Sys2Proof.Machine.execXret core s
  | .trap core sx => Sys2Proof.Machine.execTrap core sx s
  | .break core => Sys2Proof.Machine.execBreak core s
  | .fence core => Sys2Proof.Machine.execFence core s
  | .wfi core => Sys2Proof.Machine.execWfi core s
  | .wfiWake core => Sys2Proof.Machine.execWfiWake core s
  | .twait core => Sys2Proof.Machine.execTwait core s
  | .tdone core ra rb => Sys2Proof.Machine.execTdone core ra rb s
  | .tdoneRetire core => Sys2Proof.Machine.execTdoneRetire core s
  | .stake core rd ra => Sys2Proof.Machine.execStake core rd ra s
  | .sgive core rd ra => Sys2Proof.Machine.execSgive core rd ra s
  -- 15 Spindle events and debug
  | .interruptEntry core => Sys2Proof.Machine.execInterruptEntry core s
  | .timerInterrupt core => Sys2Proof.Machine.execTimerInterrupt core s
  | .ipiWrite ag cores => Sys2Proof.Machine.execIpiWrite ag cores s
  | .debugHaltReq ag core => Sys2Proof.Machine.execDebugHaltReq ag core s
  | .debugResume ag core => Sys2Proof.Machine.execDebugResume ag core s
  | .debugStep ag core => Sys2Proof.Machine.execDebugStep ag core s
  | .dbgDataAccess ag core write => Sys2Proof.Machine.execDbgDataAccess ag core write s
  | .coreKill ag core => Sys2Proof.Machine.execCoreKill ag core s
  -- 17 Power
  | .quiesceAnswer r page ans => Sys2Proof.Machine.execQuiesceAnswer r page ans s
  | .quiesceTimeout r => Sys2Proof.Machine.execQuiesceTimeout r s
  | .retryHoldoffExpiry r => Sys2Proof.Machine.execRetryHoldoffExpiry r s
  | .entryRetryWrite ag w bitsSet => Sys2Proof.Machine.execEntryRetryWrite ag w bitsSet s
  | .ungateTimeout r page => Sys2Proof.Machine.execUngateTimeout r page s
  | .phase2Done r => Sys2Proof.Machine.execPhase2Done r s
  | .wakeStepReady r => Sys2Proof.Machine.execWakeStepReady r s
  | .wakeTableStep r allReady => Sys2Proof.Machine.execWakeTableStep r allReady s
  | .wakeTimeout r => Sys2Proof.Machine.execWakeTimeout r s
  | .avsStep r margin => Sys2Proof.Machine.execAvsStep r margin s
  | .dvfsInterval anyBusy90 allBelow50 => Sys2Proof.Machine.execDvfsInterval anyBusy90 allBelow50 s
  | .thermalSample temps => Sys2Proof.Machine.execThermalSample temps s
  | .droopEngage r k => Sys2Proof.Machine.execDroopEngage r k s
  | .phaseLoss r phase => Sys2Proof.Machine.execPhaseLoss r phase s
  | .dropMonitorSample c mv expectedMv => Sys2Proof.Machine.execDropMonitorSample c mv expectedMv s
  | .crackPreset ag r => Sys2Proof.Machine.execCrackPreset ag r s
  | .offRequest ag value => Sys2Proof.Machine.execOffRequest ag value s
  | .wakeNArm => Sys2Proof.Machine.execWakeNArm s
  | .wakeNAccept => Sys2Proof.Machine.execWakeNAccept s
  | .wakeNStuck => Sys2Proof.Machine.execWakeNStuck s
  | .brownout r => Sys2Proof.Machine.execBrownout r s
  | .por c => Sys2Proof.Machine.execPor c s
  -- 20 Resets, boot, fuses, flash, debug port
  | .chipReset => Sys2Proof.Machine.execChipReset s
  | .resetNPin lowUs => Sys2Proof.Machine.execResetNPin lowUs s
  | .warmReset value => Sys2Proof.Machine.execWarmReset value s
  | .watchdogExpiry => Sys2Proof.Machine.execWatchdogExpiry s
  | .wdtKick value => Sys2Proof.Machine.execWdtKick value s
  | .hostGo ag value => Sys2Proof.Machine.execHostGo ag value s
  | .fuseProgSvn ag value => Sys2Proof.Machine.execFuseProgSvn ag value s
  | .fuseProgRevoke ag value => Sys2Proof.Machine.execFuseProgRevoke ag value s
  | .fuseProgDone => Sys2Proof.Machine.execFuseProgDone s
  | .journalCommit ag value => Sys2Proof.Machine.execJournalCommit ag value s
  | .journalCommitDone ok => Sys2Proof.Machine.execJournalCommitDone ok s
  | .flashRead ag => Sys2Proof.Machine.execFlashRead ag s
  | .flashProgram ag => Sys2Proof.Machine.execFlashProgram ag s
  | .flashErase4k ag => Sys2Proof.Machine.execFlashErase4k ag s
  | .flashErase64k ag => Sys2Proof.Machine.execFlashErase64k ag s
  | .flashOpDone ok => Sys2Proof.Machine.execFlashOpDone ok s
  | .debugUnlock ag value => Sys2Proof.Machine.execDebugUnlock ag value s
  | .debugUnlockDone => Sys2Proof.Machine.execDebugUnlockDone s
  | .jtagBypass => Sys2Proof.Machine.execJtagBypass s
  | .jtagIdcode => Sys2Proof.Machine.execJtagIdcode s
  | .jtagSamplePreload => Sys2Proof.Machine.execJtagSamplePreload s
  | .jtagExtest cells => Sys2Proof.Machine.execJtagExtest cells s
  | .jtagCoreDbg core => Sys2Proof.Machine.execJtagCoreDbg core s
  | .jtagRegAccess r write => Sys2Proof.Machine.execJtagRegAccess r write s
  -- 18 Clocks
  | .rootSwitch ag value => Sys2Proof.Machine.execRootSwitch ag value s
  | .rootSwitchDone => Sys2Proof.Machine.execRootSwitchDone s
  | .muxSwitch ag m value => Sys2Proof.Machine.execMuxSwitch ag m value s
  | .muxSwitchDone m => Sys2Proof.Machine.execMuxSwitchDone m s
  | .muxSwitchTimeout m => Sys2Proof.Machine.execMuxSwitchTimeout m s
  | .muxForce ag m => Sys2Proof.Machine.execMuxForce ag m s
  | .sourceLost src => Sys2Proof.Machine.execSourceLost src s
  | .sourceGood src => Sys2Proof.Machine.execSourceGood src s
  | .pllLock n => Sys2Proof.Machine.execPllLock n s
  | .holdoverTimeout => Sys2Proof.Machine.execHoldoverTimeout s
  | .rcvAutoReturn => Sys2Proof.Machine.execRcvAutoReturn s
  -- 19 Host ports and Kakan
  | .bar2Request p addr req poisoned => Sys2Proof.Machine.execBar2Request p addr req poisoned s
  | .bar2ReadTimeout p => Sys2Proof.Machine.execBar2ReadTimeout p s
  | .msixUnmask p vector => Sys2Proof.Machine.execMsixUnmask p vector s
  | .portLinkDown p c => Sys2Proof.Machine.execPortLinkDown p c s
  | .portLinkUp p speed width => Sys2Proof.Machine.execPortLinkUp p speed width s
  | .flrDone p => Sys2Proof.Machine.execFlrDone p s
  | .linkDetectPoll k partner => Sys2Proof.Machine.execLinkDetectPoll k partner s
  | .linkEqDone k code => Sys2Proof.Machine.execLinkEqDone k code s
  | .linkAlignDone k => Sys2Proof.Machine.execLinkAlignDone k s
  | .linkConfig k dev link clX clY => Sys2Proof.Machine.execLinkConfig k dev link clX clY s
  | .linkLockLost k => Sys2Proof.Machine.execLinkLockLost k s
  | .linkRetrainDone k => Sys2Proof.Machine.execLinkRetrainDone k s
  | .linkRetrainTimeout k => Sys2Proof.Machine.execLinkRetrainTimeout k s
  | .flitReceive k seq f check => Sys2Proof.Machine.execFlitReceive k seq f check s
  | .flitNak k seq => Sys2Proof.Machine.execFlitNak k seq s
  | .creditReceive k vc n => Sys2Proof.Machine.execCreditReceive k vc n s
  | .epochSend => Sys2Proof.Machine.execEpochSend s
  | .epochFlit k number => Sys2Proof.Machine.execEpochFlit k number s
  | .eqStep k want => Sys2Proof.Machine.execEqStep k want s
  | .kakanWrite p => Sys2Proof.Machine.execKakanWrite p s
  | .kakanRedWrite p => Sys2Proof.Machine.execKakanRedWrite p s
  | .kakanSig p => Sys2Proof.Machine.execKakanSig p s
  | .kakanRead p => Sys2Proof.Machine.execKakanRead p s
  | .kakanReadData p => Sys2Proof.Machine.execKakanReadData p s
  | .kakanAck p => Sys2Proof.Machine.execKakanAck p s
  | .kakanNakRoute p => Sys2Proof.Machine.execKakanNakRoute p s
  | .remoteTimeout tag => Sys2Proof.Machine.execRemoteTimeout tag s
  -- added rows
  | .timeBaseTick => Sys2Proof.Machine.execTimeBaseTick s
  | .hbmPatrolScrub addr found => Sys2Proof.Machine.execHbmPatrolScrub addr found s
  | .i3cTransferDone r => Sys2Proof.Machine.execI3cTransferDone r s
  | .csiLinkUp p => Sys2Proof.Machine.execCsiLinkUp p s
  | .micStuckClear m => Sys2Proof.Machine.execMicStuckClear m s

end Sys2Proof.Machine
end

