-- ==== Sys2Proof/Safety.lean ====
section
/-!
DEFINITION. What the statements call a safe state, the invariants they speak of, and the conditions on a state under which a
register command reaches its block.
-/
namespace Sys2Proof

/-- The commands that may take the halt unit out of TRIPPED (R144): writes of a register, which may be one of TRIP_ACK, and what
resets the chip or takes its power. -/
def Instr.mayEndTrip : Instr → Bool
  | .tripAck .. | .registerWrite .. | .pairLoWrite .. | .pairHiWrite .. | .bar0Request .. | .sb .. | .sh .. | .sw ..
  | .jtagRegAccess .. => true
  | .chipReset | .resetNPin .. | .sourceLost .. | .brownout .. | .por .. | .phase2Done .. => true
  | _ => false

end Sys2Proof

namespace Sys2Proof.Machine

/-- The device has its power: nothing happens without it (R406). -/
abbrev State.Powered (s : State) : Prop := s.dev.power = .on

/-- A write of any agent to a register of page `p` reaches its block (R3, R36): the page is present and its region is awake. -/
abbrev State.Reaches (s : State) (p : Nat) : Prop :=
  s.Powered ∧ s.dev.absentPage p = false ∧ s.dev.asleep p = false

/-- A write of an RWL register of page `p` by agent `a` has its effect (R48): the page can be reached and the agent holds its
claim. -/
abbrev State.Admits (s : State) (a : Agent) (p : Nat) : Prop :=
  s.Reaches p ∧ s.dev.claimedBy a p = true

/-- Whether a write of a register sets its fields and does nothing else (R5): it is no header register, no half of a pair, and its
chapter gives its write no effect of its own. -/
def storesOnly (p off : Nat) : Bool :=
  let k := pageKind p
  let entry (stride last : Nat) : Bool := decide (off < last) && off % stride == 0
  let effects : Bool := match k with
    | .unassigned | .trace | .pack | .whorlCommon | .lending => true
    | .fuses => off == 0x120
    | .sems => decide (off < 0x140) || off == 0x150
    | .boot => off ∈ [0x044, 0x05C, 0x060, 0x064]
    | .update => off == 0x048
    | .flash => off == 0x040
    | .debug => off == 0x068
    | .pwr => off ∈ [0x060, 0x064, 0x068, 0x07C]
    | .dvfs | .kakan _ => off == 0x044
    | .clkSources => off ∈ [0x050, 0x054]
    | .clkPlls => off ∈ [0x040, 0x044, 0x048, 0x04C]
    | .clkRoot => off ∈ [0x040, 0x048]
    | .clkMux => off ∈ [0x040, 0x044]
    | .reelCommon => off == 0x05C
    | .reelChannels => entry 0x40 0x140
    | .reelMarks => entry 0x20 0x440
    | .stream n => decide (n < 8) && off == 0x098
    | .csi => decide (0x060 ≤ off) && decide (off < 0x0A0) || off == 0x0B0 || off == 0x0B4
    | .aer | .whorlTicks | .spindles => off == 0x040
    | .mic => off ∈ [0x040, 0x05C, 0x074]
    | .cliff => entry 0x20 0x140 || off ∈ [0x140, 0x14C]
    | .halt => off ∈ [0x044, 0x048, 0x050, 0x060, 0x064]
    | .whorlCores => decide (0x840 ≤ off) || off % 0x40 ∈ [0x00, 0x04, 0x0C]
    | .whorlWakes => entry 0x10 0x440
    | .streamTable => off % 0x40 == 0
    | .esc => off ∈ [0x044, 0x048, 0x058, 0x05C]
    | .kv => off == 0x080
    | .plc => off == 0x054
    | .slots => decide (off < 0x140) && off % 0x10 == 0x0C
    | .ring _ => off ∈ [0x044, 0x07C, 0x080, 0x08C] || decide (0x0C0 ≤ off) && decide (off < 0x100)
    | .delays => decide (off < 0x0C0) && decide (off % 0x20 ≤ 4)
    | .errlog => off ∈ [0x048, 0x050]
    | .core => off ∈ [0x05C, 0x080, 0x090]
    | .region _ => off ∈ [0x040, 0x048, 0x064]
    | _ => false
  decide (0x040 ≤ off) && !pairLo k off && !pairHi k off && !effects

/-- A register of a page of kind `k` that held `old`, after a write of `v` in the bytes `be` (R5, R33): the stored fields in those bytes
take `v`, and the W1C bits written 1 clear. -/
def fieldsWritten (k : PageKind) (off : Nat) (old v : Word) (be : BitVec 4) : Word :=
  let m := storedBits k off &&& byteMask be
  ((old &&& ~~~ m) ||| (v &&& m)) &&& ~~~ (v &&& byteMask be &&& BitVec.ofNat 32 (rowOf k off).w1c)

/-- A block register takes a write of agent `a` (R3, R35, R36, R48): its page answers, the register exists, its block does not refuse
the write, and the agent holds the claim where the register has RWL fields. -/
abbrev State.Takes (s : State) (a : Agent) (p off : Nat) : Prop :=
  s.Reaches p ∧ pageKind p ≠ .unassigned ∧ 0x040 ≤ off ∧ implemented p off = true ∧ s.dev.writeRefused p off = none ∧
  (rwlBits (pageKind p) off = 0 ∨ s.dev.claimedBy a p = true)

/-- Whether the write of a pair's HI half does more than set both halves: a position of Reel, the target of a MARK, a push, and the
tiles that may be lent (R66, R78, R108, R281). -/
def pairCommits : PageKind → Nat → Bool
  | .reelMarks, _ | .lending, _ => true
  | .reelChannels, off => off % 0x40 == 0x1C
  | .stream n, off => decide (22 ≤ n) && off == 0x084
  | _, _ => false

/-- The outcome with its completion set to `c`. -/
def ends (c : Completion) : Host.Outcome State Fault Refusal → Host.Outcome State Fault Refusal
  | .next t => .next { t with dev := t.dev.answer c }
  | .fault f => .fault f
  | .refused r => .refused r

/-- The header registers of page `p` a write of `v` to which is another command: OWNER and VOTE (R47, R51). -/
def headerCommands (ag : Agent) (p : Fin 8192) (v : Word) : List (RegAddr × Instr) :=
  [(⟨p, 10⟩, .voteWrite ag p v)] ++ (if bits v 1 0 = 1 then [(⟨p, 9⟩, .claim ag p)] else []) ++
    (if bits v 1 0 = 2 then [(⟨p, 9⟩, .release ag p)] else [])

/-- The block registers a write of `v` to which is another command: the semaphores (R52, R53), HO_PTR (R31), SNAP (R67), the frees of a
camera's buffers (R95), CHECK and GUARD of the cliff watch (R133, R139) and the halt unit (R144–R147). -/
def registerCommands (ag : Agent) (v : Word) : List (RegAddr × Instr) :=
  ((List.finRange 64).map fun n => (⟨0x001, Fin.ofNat 1024 (16 + n.val)⟩, n)).flatMap (fun x =>
    if bits v 1 0 = 1 then [(x.1, Instr.semTake ag x.2)] else if bits v 1 0 = 2 then [(x.1, Instr.semGive ag x.2)] else []) ++
  [(⟨0x001, 0x150 / 4⟩, .semForce (Fin.ofNat 64 v.toNat) (BitVec.ofNat 8 (bits v 15 8))), (⟨0x067, 0x058 / 4⟩, .hoPtrWrite ag v)] ++
  (if bit v 0 then [(⟨0x018, 0x05C / 4⟩, .snapTake ag)] else []) ++
  ((List.finRange 8).map fun n => (⟨⟨0x020 + n.val, by omega⟩, 0x098 / 4⟩, .bufFree ag n v)) ++
  [(⟨0x040, 0x14C / 4⟩, .cliffCheckWrite ag (BitVec.ofNat 8 v.toNat)), (⟨0x040, 0x140 / 4⟩, .guardSet ag (BitVec.ofNat 8 v.toNat)),
   (⟨0x041, 0x044 / 4⟩, .haltArm ag v), (⟨0x041, 0x048 / 4⟩, .haltOutCmd ag v), (⟨0x041, 0x050 / 4⟩, .heartbeatRefresh ag v),
   (⟨0x041, 0x060 / 4⟩, .tripAck ag v), (⟨0x041, 0x064 / 4⟩, .haltForce ag v)]

/-- A read of a register by agent `a` gives what it shows and changes nothing (R33, R34, R57): it is not ERR_COUNT, no LO half of a
pair, no register whose read has an effect, and the agent has no HI half of it latched. -/
abbrev State.ReadsPlain (s : State) (a : Agent) (p off : Nat) : Prop :=
  pageKind p ≠ .unassigned ∧ s.dev.absentPage p = false ∧ off ≠ 0x020 ∧
  (0x040 ≤ off → s.dev.asleep p = false ∧ s.dev.readEffect p off = none ∧ (rowOf (pageKind p) off).hi = 0 ∧
    Sparse.get (fun _ => none) s.dev.latched (latchKey a p off) = none)

/-- Port `q` takes a request to BAR0 (R430, R434): its link is up and no function-level reset is in progress. -/
abbrev Dev.Bar0Open (d : Dev) (q : Port) : Prop := d.portUp q = true ∧ d.flag q.page 0x040 12 = false

/-- The six halt outputs are inactive unless the unit drives them, in ARMED or HOLD (R144). -/
abbrev State.OutputsSafe (s : State) : Prop := s.halt.st.driving = false → s.halt.pins = 0

/-- No programmed fuse is lost from `f` to `g` (R463, R464): the SVN thermometer and the revoked slots only gain bits, and every
other fuse is unchanged. -/
abbrev Fuses.Kept (f g : Fuses) : Prop :=
  f.svn &&& g.svn = f.svn ∧ f.revoke &&& g.revoke = f.revoke ∧ g = { f with svn := g.svn, revoke := g.revoke }

/-- The SVN fuses form a thermometer (R464): the ones stand below the zeros. -/
abbrev Fuses.Thermometer (f : Fuses) : Prop := f.svn &&& (f.svn + 1) = 0

/-- The memory of the device is in canonical form (strictly rising addresses, no byte listed that reads as an unlisted one). -/
abbrev Dev.MemoryWf (d : Dev) : Prop := Memory.wf d.mem = true

/-- The registers of the device are in canonical form. -/
abbrev Dev.RegistersWf (d : Dev) : Prop := Sparse.wf (regDefault d.pkg) d.regs = true

/-- No MARK is armed: no position that moves fires one (R65, R79). -/
abbrev Dev.NoMarks (d : Dev) : Prop := ∀ m : Fin 32, d.mfield m.val 0 0 0 = 0

/-- Stream channel `n` can take captures: its page is present, runs, and is not frozen (R37, R41, R83). -/
abbrev Dev.Captures (d : Dev) (n : Nat) : Prop :=
  d.absentPage (chanPage n) = false ∧ d.running (chanPage n) = true ∧ d.frozen (chanPage n) = false

/-- A record of `len` payload bytes can be written to channel `n` (R85, R88, R90): no gap waits before it, and it fits. -/
abbrev Dev.TakesRecord (d : Dev) (n len : Nat) : Prop :=
  d.Captures n ∧ (d.chan n).gaps = [] ∧ d.recRoom n (d.recNeed n (d.recWr n) len) = true

/-- A CSI-2 packet of port `p` and virtual channel `vc` reaches stream channel `n` (R93, R94): the port is present and up, and a
ROUTE entry names the channel. -/
abbrev Dev.Delivers (d : Dev) (p vc n : Nat) : Prop :=
  d.absentPage 0x038 = false ∧ d.flag 0x038 (0x050 + 4 * p) 0 = true ∧ d.csiRoute p vc = some n

/-- An address of direct SRAM, which holds its bytes in every state of the placed range (R265). -/
abbrev directSram (a : Nat) : Prop := spanOf a = .aon ∨ spanOf a = .local_

/-- What `f` does as a task's engine or a producer can be done at once (R267, R273): it accesses nothing of the placed range while that
is closed, and none of its writes waits for a migration. -/
abbrev Dev.CanServe (d : Dev) (f : Dev → Dev) : Prop :=
  (d.placedOpen = true ∨ (f d).accesses = d.accesses) ∧ ((f d).held.drop d.held.length).isEmpty = true

/-- Loom's command `c` of kind `k` is in service and may start (R205, R216), and its page runs unfrozen. -/
abbrev Dev.Serves (d : Dev) (k : LKind) (c : LCmd) : Prop :=
  d.loomCmd = some c ∧ kindOf c = some k ∧ d.running 0x0C0 = true ∧ d.frozen 0x0C0 = false

/-- A run of a layer command that ends well (R204, R218): it meets no failure, poison or trap, and its output and its statistics go to
direct SRAM alone. -/
abbrev LRun.EndsWell (x : LRun) : Prop :=
  x.fail = none ∧ x.trap = false ∧ x.poison = 0 ∧
  ∀ o ∈ x.outs ++ Dev.statOut x, ∀ p ∈ Dev.pageParts o.1 o.2.length, directSram p.1

/-- What command `c` starts with (R205, R206). -/
abbrev Dev.loomInput (d : Dev) (c : LCmd) : LRun := { d := d, slot := d.loom.slot.getD 0, cmd := c, fwd := d.loom.fwd }

/-- The task slots are in canonical form: each accepted task stands in one slot. -/
abbrev Dev.TasksWf (d : Dev) : Prop := Sparse.wf (fun _ => (none : Option Task)) d.tasks = true

/-- Slot `k` holds a retired task with a status (R298). -/
abbrev Dev.RetiredWith (d : Dev) (k status : Nat) : Prop := ∃ y, d.task k = some y ∧ y.st = .retired ∧ y.status = status

/-- Slot `k` holds a task dispatched to a unit (R300). -/
abbrev Dev.DispatchedTo (d : Dev) (k unit : Nat) : Prop := ∃ y, d.task k = some y ∧ y.st = .dispatched ∧ y.unit = unit

/-- The microphones' front end does not run from PLL1 (R121), so that no loss of that PLL closes an audio record. -/
abbrev Dev.MicsOffPll (d : Dev) : Prop := d.micCur ≠ 4 ∧ d.micCur ≠ 5 ∧ d.micCur ≠ 6

/-- The block of region `r` that reports as `page` refuses to quiesce with BUSY: a tile of the Loom task in service (R219), lanes of a
stream in RUN, PAUSING, ENDING or HO_WAIT (R198), a Whorl core with events in its queue or an open window (R178), an enabled Spindle core that does not wait,
holds a task or has a store outstanding (R358), and Skein with a migration (R289). -/
abbrev Dev.QuiesceRefuses (d : Dev) (r page : Nat) : Prop :=
  (r < 64 ∧ d.loom.slot ≠ none ∧ d.loom.tiles.testBit r = true) ∨
  (64 ≤ r ∧ r < 68 ∧ page = 0x061 ∧ ∃ n, n / 4 = r - 64 ∧ d.flag 0x060 0x048 n = false ∧
    d.sstate (d.field 0x061 (0x040 + 4 * n) 7 0) ∈ [1, 2, 4, 6]) ∨
  (68 ≤ r ∧ r < 76 ∧ ∃ c, c / 16 = r - 68 ∧ (0 < d.wdepth c ∨ d.wstate c = 2)) ∨
  (76 ≤ r ∧ r < 80 ∧ ∃ n : Fin 16, coreRegion n.val = r ∧ (d.running (Dev.corePage n.val) = true ∨ d.pageState (Dev.corePage n.val) = 3) ∧
    (((d.core n.val).st ≠ .wfi ∧ (d.core n.val).st ≠ .twait) ∨ (d.core n.val).task ≠ none ∨ d.storesVisible n = false)) ∨
  (80 ≤ r ∧ r < 88 ∧ d.migs ≠ [])

/-- Core `n` issues the instruction at its PC, and nothing halts it after it (R337, R354, R356, R358, R359, R363). -/
abbrev Dev.Issues (d : Dev) (n : Fin 16) : Prop :=
  (d.core n.val).st = .run ∧ (d.core n.val).done = none ∧ d.coreAwake n.val = true ∧ (d.core n.val).interruptible = false ∧
  ((d.core n.val).passBp = true ∨ d.breakpoint n.val (d.core n.val).pc = false) ∧ fetchable (d.core n.val).pc = true ∧
  d.undefinedWord n.val (d.core n.val).pc = false ∧
  (d.core n.val).hit = false ∧ (d.core n.val).step = false

/-- From `c` to `c'` only general registers, the PC with its delay slot, shadow and loop counts, and MODE by a shadow's end or SATF have
moved. -/
abbrev Core.Moved (c c' : Core) : Prop :=
  c' = { c with g := c'.g, pc := c'.pc, slot := c'.slot, shadow := c'.shadow, mode := c'.mode, lc0 := c'.lc0, lc1 := c'.lc1,
                passBp := c'.passBp }

/-- From `s` to `t` only core `n` has moved, with the instruction count of its page (R360). -/
abbrev State.OnlyCore (s t : State) (n : Fin 16) : Prop :=
  t = { s with dev := { s.dev with cores := t.dev.cores, regs := t.dev.regs } } ∧
  (∀ k, k ≠ n.val → t.dev.core k = s.dev.core k) ∧
  ∀ p off, off < 4096 → p ≠ Dev.corePage n.val ∨ off ≠ 0x060 → t.dev.reg p off = s.dev.reg p off

/-- The general registers of `c'` are those of `c`, but rd holds `v` (R340: g0 reads zero). -/
abbrev Core.Writes (c c' : Core) (rd : Nat) (v : Word) : Prop :=
  c'.reg 0 = 0 ∧ ∀ r, r ≠ 0 → c'.reg r = if r = rd then v else c.reg r

/-- The PC and the loop counts after an instruction that is no branch (R344, R345). -/
abbrev Core.Advances (c c' : Core) : Prop :=
  c'.slot = none ∧ c'.pc = c.advance.pc ∧ c'.lc0 = c.advance.lc0 ∧ c'.lc1 = c.advance.lc1

/-- Core state `c'` has entered an exception or interrupt from `c` (R351): the cause, where it resumes, MODE, EFLAGS and the
handler. -/
abbrev Core.Entered (c c' : Core) (code : Nat) (bad : Option Word) (off : Word) : Prop :=
  c'.ecause = code ∧ c'.ebad = bad.getD c.ebad ∧ c'.pc = c.evec + off ∧ c'.slot = none ∧ c'.shadow = none ∧ c'.g = c.g ∧
  (∀ x, c.slot = some x → c'.epc = x.branch ∧ c'.eflags.testBit 1 = true ∧ c'.eflags.testBit 0 = false) ∧
  (∀ x, c.slot = none → c.shadow = some x → c'.epc = x.mset ∧ c'.eflags.testBit 1 = false ∧ c'.eflags.testBit 0 = true) ∧
  (c.slot = none → c.shadow = none → c'.epc = c.pc ∧ c'.eflags.testBit 1 = false ∧ c'.eflags.testBit 0 = false) ∧
  c'.eflags.testBit 3 = true ∧ c'.eflags.testBit 4 = c.mode.testBit 2 ∧ c'.eflags.testBit 5 = c.mode.testBit 1 ∧
  c'.eflags.testBit 6 = c.mode.testBit 0 ∧ c'.mode.testBit 0 = true ∧ c'.mode.testBit 1 = false ∧ c'.mode.testBit 2 = false ∧
  c'.mode.testBit 3 = c.mode.testBit 3

end Sys2Proof.Machine
end

