-- ==== Sys2Proof/Certificates/Slice0/Obligations.lean ====
section
/-!
DEFINITION. The statements for the provers, family by family of the command table. Each is for every state and every operand that
meets its premises; its docstring names the rules of spec/ that it rests on, and the log entries of the readings that are the
model's own.
-/
open Sys2Proof Sys2Proof.Machine

/-! ## One step, and what every command keeps -/

/-- A step runs the command at the front of the queue on the state whose queue is the rest; on an empty queue the block idles
(the last is the model's choice, log entry 2).
The model's own readings in it: log entry 2. -/
def Obligations.StepRunsFrontCommand : Prop :=
  (∀ (c : Instr) (rest : List Instr) (s : State), s.pending = c :: rest → step s = exec c { s with pending := rest }) ∧
  (∀ s : State, s.pending = [] → step s = .next s)

/-- No command faults and none is refused, in any state: exec answers a next state, and it never touches the queue.
The model's own readings in it: log entries 1 and 3. -/
def Obligations.CommandsAnswerAndKeepQueue : Prop :=
  ∀ (c : Instr) (s : State), ∃ t, exec c s = .next t ∧ t.pending = s.pending

/-- Without power only a power-on reset, a rail, WAKE_N and the time base act (R406, R407); every other command leaves the whole
state as it is.
The model's own readings in it: log entry 3. -/
def Obligations.NothingHappensWithoutPower : Prop :=
  ∀ (c : Instr) (s : State), s.dev.power ≠ .on →
    (∀ k, c ≠ .por k) → (∀ r, c ≠ .brownout r) → c ≠ .wakeNArm → c ≠ .wakeNAccept → c ≠ .wakeNStuck → c ≠ .timeBaseTick →
    exec c s = .next s

/-! ## 02 Register pages -/

/-- Writes and reads of registers (R5, R33–R36, R48, R50, R57). A write without effect completes; one of a sleeping page sets
ASLEEP_ACCESS; one of RWL fields without the claim is denied; one of a register that only stores sets the fields in its enabled bytes
and nothing else; ERR_SUM and ERR_MASK take theirs; and one of a register whose write is a command of the table is that command.
ERR_COUNT clears when it is read. A BAR0 request is refused, or reads each register, or writes each word in the bytes it enables, in
ascending order. A pair's LO half is staged, and its HI half commits both; the HI half of POS moves an OFF channel, those of TGT and of
a push are MARK_ARM and GEN_PUSH; and a read of the LO half latches the HI half for its agent.
The model's own readings in it: log entry 16. -/
def Obligations.RegisterAccesses : Prop :=
  (∀ (s : State) (ag : Agent) (r : RegAddr) (v : Word) (be : BitVec 4), s.Powered →
    (pageKind r.page.val = .unassigned ∨ s.dev.absentPage r.page.val = true ∨
      (s.Reaches r.page.val ∧ 0x040 ≤ 4 * r.word.val ∧ implemented r.page.val (4 * r.word.val) = false)) →
    exec (.registerWrite ag r v be) s = .next { s with dev := s.dev.answer .done }) ∧
  (∀ (s : State) (ag : Agent) (r : RegAddr) (v : Word) (be : BitVec 4), s.Powered → pageKind r.page.val ≠ .unassigned →
    s.dev.absentPage r.page.val = false → 0x040 ≤ 4 * r.word.val → s.dev.asleep r.page.val = true → be ≠ 0 →
    exec (.registerWrite ag r v be) s = .next { s with dev := (s.dev.err r.page.val 30).answer .done }) ∧
  (∀ (s : State) (ag : Agent) (r : RegAddr) (v : Word) (be : BitVec 4), s.Reaches r.page.val → pageKind r.page.val ≠ .unassigned →
    0x040 ≤ 4 * r.word.val → implemented r.page.val (4 * r.word.val) = true →
    BitVec.ofNat 32 (rwlBits (pageKind r.page.val) (4 * r.word.val)) &&& byteMask be ≠ 0 → s.dev.claimedBy ag r.page.val = false →
    exec (.registerWrite ag r v be) s = .next { s with dev := (s.dev.deny ag r.page.val).answer .done }) ∧
  (∀ (s : State) (ag : Agent) (r : RegAddr) (v : Word) (be : BitVec 4), s.Takes ag r.page.val (4 * r.word.val) →
    storesOnly r.page.val (4 * r.word.val) = true →
    ∃ t, exec (.registerWrite ag r v be) s = .next t ∧ t.dev.bus = .done ∧
      t.dev.reg r.page.val (4 * r.word.val) =
        fieldsWritten (pageKind r.page.val) (4 * r.word.val) (s.dev.reg r.page.val (4 * r.word.val)) v be ∧
      (∀ q o : Nat, o < 4096 → (q ≠ r.page.val ∨ o ≠ 4 * r.word.val) → t.dev.reg q o = s.dev.reg q o) ∧
      t = { s with dev := { s.dev with regs := t.dev.regs, bus := .done } }) ∧
  (∀ (s : State) (ag : Agent) (p : Fin 8192) (v : Word) (be : BitVec 4), s.Powered → pageKind p.val ≠ .unassigned →
    s.dev.absentPage p.val = false →
    (∃ t, exec (.registerWrite ag ⟨p, 6⟩ v be) s = .next t ∧ t.dev.bus = .done ∧
      t.dev.reg p.val 0x018 = (s.dev.reg p.val 0x018 &&& ~~~ byteMask be) ||| (v &&& byteMask be) ∧
      ∀ q o : Nat, o < 4096 → (q ≠ p.val ∨ o ≠ 0x018) → t.dev.reg q o = s.dev.reg q o) ∧
    (∃ t, exec (.registerWrite ag ⟨p, 5⟩ v be) s = .next t ∧ t.dev.bus = .done ∧
      t.dev.reg p.val 0x014 = s.dev.reg p.val 0x014 &&& ~~~ (v &&& byteMask be))) ∧
  (∀ (s : State) (ag : Agent) (p : Fin 8192) (v : Word), s.Powered → pageKind p.val ≠ .unassigned → s.dev.absentPage p.val = false →
    ∀ c ∈ headerCommands ag p v, exec (.registerWrite ag c.1 v 15) s = ends .done (exec c.2 s)) ∧
  (∀ (s : State) (ag : Agent) (v : Word), ∀ c ∈ registerCommands ag v, s.Takes ag c.1.page.val (4 * c.1.word.val) →
    exec (.registerWrite ag c.1 v 15) s = ends .done (exec c.2 s)) ∧
  (∀ (s : State) (ag : Agent) (p : Fin 8192), s.Powered → pageKind p.val ≠ .unassigned → s.dev.absentPage p.val = false →
    ∃ t, exec (.registerReadClear ag p) s = .next t ∧ t.dev.bus = .data [s.dev.reg p.val 0x020] ∧ t.dev.reg p.val 0x020 = 0 ∧
      ∀ q o : Nat, o < 4096 → (q ≠ p.val ∨ o ≠ 0x020) → t.dev.reg q o = s.dev.reg q o) ∧
  (∀ (s : State) (q : Port) (a : BitVec 25) (n : Nat) (p : Fin 8192), s.Powered → s.dev.Bar0Open q → n ≤ 64 →
    a.toNat / 4096 = p.val → (n ≠ 0 → (a.toNat + n - 1) / 4096 = p.val) →
    (∀ i, i < (a.toNat + n + 3) / 4 - a.toNat / 4 → s.ReadsPlain q.agent p.val (a.toNat % 4096 / 4 * 4 + 4 * i)) →
    exec (.bar0Request q a (.read n) false) s = .next { s with dev := s.dev.answer (.data
      ((List.range ((a.toNat + n + 3) / 4 - a.toNat / 4)).map fun i => s.view q.agent p.val (a.toNat % 4096 / 4 * 4 + 4 * i))) }) ∧
  (∀ (s : State) (q : Port) (a : BitVec 25) (r : RegAddr), s.Powered → s.dev.Bar0Open q →
    a.toNat = r.page.val * 4096 + 4 * r.word.val →
    exec (.bar0Request q a (.read 4) false) s = exec (if r.word = 8 then .registerReadClear q.agent r.page else .pairLoRead q.agent r) s) ∧
  (∀ (s : State) (q : Port) (a : BitVec 25) (r : RegAddr) (data : List Byte) (es : List Bool), s.Powered → s.dev.Bar0Open q →
    a.toNat / 4 = 1024 * r.page.val + r.word.val → data ≠ [] → a.toNat % 4 + data.length ≤ 4 →
    exec (.bar0Request q a (.write data es) false) s =
      exec (.registerWrite q.agent r (wordOf (enabledBytes a.toNat data es) (a.toNat / 4)).1
        (wordOf (enabledBytes a.toNat data es) (a.toNat / 4)).2) s) ∧
  (∀ (s : State) (q : Port) (a : BitVec 25) (data : List Byte) (es : List Bool), s.Powered → s.dev.Bar0Open q →
    data.length ≤ 64 → (data ≠ [] → a.toNat / 4096 = (a.toNat + data.length - 1) / 4096) →
    exec (.bar0Request q a (.write data es) false) s = ends .done (.next
      ((List.range ((a.toNat + data.length + 3) / 4 - a.toNat / 4)).foldl (fun s i =>
        s.busWrite q.agent ((a.toNat / 4 + i) / 1024) (4 * ((a.toNat / 4 + i) % 1024))
          (wordOf (enabledBytes a.toNat data es) (a.toNat / 4 + i)).1 (wordOf (enabledBytes a.toNat data es) (a.toNat / 4 + i)).2) s))) ∧
  (∀ (s : State) (q : Port) (a : BitVec 25) (req : Request) (n : Nat), s.Powered → s.dev.portUp q = true →
    (req = .read n ∨ ∃ data es, req = .write data es ∧ data.length = n) →
    s.dev.flag q.page 0x040 12 = true ∨ 64 < n ∨ (n ≠ 0 ∧ a.toNat / 4096 ≠ (a.toNat + n - 1) / 4096) →
    exec (.bar0Request q a req false) s = .next { s with dev := s.dev.answer .unsupported }) ∧
  (∀ (s : State) (ag : Agent) (r : RegAddr), s.Reaches r.page.val → pageKind r.page.val ≠ .unassigned → 0x040 ≤ 4 * r.word.val →
    s.dev.readEffect r.page.val (4 * r.word.val) = none → (rowOf (pageKind r.page.val) (4 * r.word.val)).hi ≠ 0 →
    ∃ t, exec (.pairLoRead ag r) s = .next t ∧ t.dev.bus = .data [s.view ag r.page.val (4 * r.word.val)] ∧
      Sparse.get (fun _ => none) t.dev.latched (latchKey ag r.page.val (4 * r.word.val + 4)) =
        some (s.view ag r.page.val (4 * r.word.val + 4)) ∧
      t = { s with dev := { s.dev with latched := t.dev.latched, bus := t.dev.bus } }) ∧
  (∀ (s : State) (ag : Agent) (r : RegAddr) (v : Word), s.Reaches r.page.val → pageKind r.page.val ≠ .unassigned →
    0x040 ≤ 4 * r.word.val → s.dev.readEffect r.page.val (4 * r.word.val) = none → (rowOf (pageKind r.page.val) (4 * r.word.val)).hi = 0 →
    Sparse.get (fun _ => none) s.dev.latched (latchKey ag r.page.val (4 * r.word.val)) = some v →
    ∃ t, exec (.pairLoRead ag r) s = .next t ∧ t.dev.bus = .data [v] ∧
      Sparse.get (fun _ => none) t.dev.latched (latchKey ag r.page.val (4 * r.word.val)) = none) ∧
  (∀ (s : State) (ag : Agent) (r : RegAddr) (v : Word), s.Takes ag r.page.val (4 * r.word.val) →
    pairLo (pageKind r.page.val) (4 * r.word.val) = true →
    ∃ t, exec (.pairLoWrite ag r v) s = .next t ∧ t.dev.bus = .done ∧ t.dev.agentReg ag r.page.val (4 * r.word.val) = v ∧
      t.dev.regs = s.dev.regs) ∧
  (∀ (s : State) (ag : Agent) (r : RegAddr) (v : Word), s.Takes ag r.page.val (4 * r.word.val) →
    pairHi (pageKind r.page.val) (4 * r.word.val) = true → pairCommits (pageKind r.page.val) (4 * r.word.val) = false →
    ∃ t, exec (.pairHiWrite ag r v) s = .next t ∧ t.dev.bus = .done ∧
      t.dev.reg r.page.val (4 * r.word.val) =
        fieldsWritten (pageKind r.page.val) (4 * r.word.val) (s.dev.reg r.page.val (4 * r.word.val)) v 15 ∧
      t.dev.reg r.page.val (4 * r.word.val - 4) = s.dev.agentReg ag r.page.val (4 * r.word.val - 4) ∧
      ∀ q o : Nat, o < 4096 → (q ≠ r.page.val ∨ (o ≠ 4 * r.word.val ∧ o ≠ 4 * r.word.val - 4)) → t.dev.reg q o = s.dev.reg q o) ∧
  (∀ (s : State) (ag : Agent) (k : Fin 8) (r : RegAddr) (v : Word), s.Admits ag (reelReg k.val 0).1 →
    (r.page.val, 4 * r.word.val) = reelReg k.val 0x1C →
    ∃ t, exec (.pairHiWrite ag r v) s = .next t ∧ t.dev.bus = .done ∧ t.dev.reelPos k.val =
      if s.dev.rstate k.val = 0 then (s.dev.agentReg ag r.page.val (4 * r.word.val - 4)).toNat + bits v 15 0 * 2 ^ 32
      else s.dev.reelPos k.val) ∧
  (∀ (s : State) (ag : Agent) (m : Fin 32) (r : RegAddr) (v : Word), s.Admits ag 0x01B → r.page.val = 0x01B →
    4 * r.word.val = Dev.markBase m.val + 8 → s.dev.markOwner m.val = none → s.dev.reelStale (s.dev.mfield m.val 0 3 1) = true →
    exec (.pairHiWrite ag r v) s = ends .done (exec (.markArm ag m (.target v)) s)) ∧
  (∀ (s : State) (ag : Agent) (v : Word), s.Admits ag 0x0D4 → (∀ n, n < 64 → s.dev.lent n = false) →
    ∃ t, exec (.pairHiWrite ag ⟨0x0D4, 0x044 / 4⟩ v) s = .next t ∧ t.dev.bus = .done ∧ t.dev.reg 0x0D4 0x044 = v ∧
      t.dev.reg 0x0D4 0x040 = s.dev.agentReg ag 0x0D4 0x040) ∧
  (∀ (s : State) (ag : Agent) (k : Fin 2) (r : RegAddr) (v : Word), s.Admits ag (chanPage (22 + k.val)) →
    r.page.val = chanPage (22 + k.val) → 4 * r.word.val = 0x084 →
    exec (.pairHiWrite ag r v) s = ends .done (exec (.genPush ag k v) s))

/-- The state machine of a page (R37, R39, R41): EN = 1 takes it from OFF or DISABLED to READY or ACTIVE, leaves a running page as it is,
is pending in DRAINING, and is refused in FAULT; EN = 0 takes a running page and one in FAULT to DRAINING or DISABLED, and cancels an
enable that is pending in DRAINING or DISABLED; SRST takes an idle page to OFF, and is refused elsewhere; FRZ is held; and a pending
enable starts the page.
The model's own readings in it: log entry 19. -/
def Obligations.PageStateMachine : Prop :=
  (∀ (s : State) (ag : Agent) (p : Fin 8192), s.Powered → (pageKind p.val).hasEn = true → s.dev.absentPage p.val = false →
    s.dev.claimedBy ag p.val = true → s.dev.idlePage p.val = true →
    ∃ t, exec (.pageEnable ag p) s = .next t ∧ t.dev.running p.val = true ∧ t.dev.flag p.val 0x00C 0 = true) ∧
  (∀ (s : State) (ag : Agent) (p : Fin 8192), s.Powered → (pageKind p.val).hasEn = true → s.dev.absentPage p.val = false →
    s.dev.claimedBy ag p.val = true → s.dev.running p.val = true →
    ∃ t, exec (.pageEnable ag p) s = .next t ∧ t.dev.pageState p.val = s.dev.pageState p.val ∧ t.dev.flag p.val 0x00C 0 = true) ∧
  (∀ (s : State) (ag : Agent) (p : Fin 8192), s.Powered → (pageKind p.val).hasEn = true → s.dev.absentPage p.val = false →
    s.dev.claimedBy ag p.val = true → s.dev.pageState p.val = 3 → (∀ n, pageKind p.val = .stream n → 8 ≤ n) →
    ∃ t, exec (.pageEnable ag p) s = .next t ∧ t.dev.pageState p.val = 3 ∧ t.dev.flag p.val 0x010 4 = true ∧
      t.dev.flag p.val 0x00C 0 = true) ∧
  (∀ (s : State) (ag : Agent) (p : Fin 8192), s.Powered → (pageKind p.val).hasEn = true → s.dev.absentPage p.val = false →
    s.dev.claimedBy ag p.val = true → s.dev.pageState p.val = 5 →
    ∃ t, exec (.pageEnable ag p) s = .next t ∧ t.dev.pageState p.val = 5 ∧ t.dev.flag p.val 0x014 29 = true) ∧
  (∀ (s : State) (ag : Agent) (p : Fin 8192), s.Powered → (pageKind p.val).hasEn = true → s.dev.absentPage p.val = false →
    s.dev.claimedBy ag p.val = true → (s.dev.running p.val = true ∨ s.dev.pageState p.val = 5) →
    (p.val = 0x040 → s.dev.cliffDisableRefused = false) →
    ∃ t, exec (.pageDisable ag p) s = .next t ∧ (t.dev.pageState p.val = 3 ∨ t.dev.pageState p.val = 4) ∧
      t.dev.flag p.val 0x00C 0 = false) ∧
  (∀ (s : State) (ag : Agent) (p : Fin 8192), s.Powered → (pageKind p.val).hasEn = true → s.dev.absentPage p.val = false →
    s.dev.claimedBy ag p.val = true → (s.dev.pageState p.val = 3 ∨ s.dev.pageState p.val = 4) →
    (p.val = 0x040 → s.dev.cliffDisableRefused = false) →
    ∃ t, exec (.pageDisable ag p) s = .next t ∧ t.dev.pageState p.val = s.dev.pageState p.val ∧ t.dev.flag p.val 0x010 4 = false ∧
      t.dev.flag p.val 0x00C 0 = false) ∧
  (∀ (s : State) (ag : Agent) (p : Fin 8192), s.Powered → (pageKind p.val).hasEn = true → s.dev.absentPage p.val = false →
    s.dev.claimedBy ag p.val = true → s.dev.idlePage p.val = true →
    ∃ t, exec (.softReset ag p) s = .next t ∧ t.dev.pageState p.val = 0 ∧ t.dev.flag p.val 0x010 4 = false) ∧
  (∀ (s : State) (ag : Agent) (p : Fin 8192), s.Powered → pageKind p.val ≠ .unassigned → s.dev.absentPage p.val = false →
    s.dev.claimedBy ag p.val = true → s.dev.idlePage p.val = false →
    exec (.softReset ag p) s = .next { s with dev := s.dev.err p.val 29 }) ∧
  (∀ (s : State) (ag : Agent) (p : Fin 8192) (frz : Bool), s.Powered → pageKind p.val ≠ .unassigned →
    s.dev.absentPage p.val = false → ((pageKind p.val).claimable = false ∨ s.dev.claimedBy ag p.val = true) →
    ∃ t, exec (.freeze ag p frz) s = .next t ∧ t.dev.frozen p.val = frz ∧ t.dev.pageState p.val = s.dev.pageState p.val) ∧
  (∀ (s : State) (p : Fin 8192), s.Powered → (pageKind p.val).hasEn = true → s.dev.absentPage p.val = false →
    s.dev.pageState p.val = 4 → s.dev.flag p.val 0x010 4 = true →
    ∃ t, exec (.pendingEnable p) s = .next t ∧ t.dev.running p.val = true)

/-- Claims and votes (R47, R51): a claim of a free page is taken with the next GEN, one of a held page changes nothing, the holder
releases it; and a vote goes into its writer's field alone, a code of 5 to 15 as 0. -/
def Obligations.ClaimsAndVotes : Prop :=
  (∀ (s : State) (ag : Agent) (p : Fin 8192), s.Powered → (pageKind p.val).claimable = true → s.dev.absentPage p.val = false →
    s.dev.field p.val 0x024 9 8 = 0 →
    ∃ t, exec (.claim ag p) s = .next t ∧ t.dev.claimedBy ag p.val = true ∧
      t.dev.field p.val 0x024 23 16 = (s.dev.field p.val 0x024 23 16 + 1) % 256) ∧
  (∀ (s : State) (ag : Agent) (p : Fin 8192), s.Powered → s.dev.field p.val 0x024 9 8 ≠ 0 → exec (.claim ag p) s = .next s) ∧
  (∀ (s : State) (ag : Agent) (p : Fin 8192), s.Powered → s.dev.claimedBy ag p.val = true →
    ∃ t, exec (.release ag p) s = .next t ∧ t.dev.field p.val 0x024 9 8 = 0 ∧
      t.dev.field p.val 0x024 23 16 = s.dev.field p.val 0x024 23 16) ∧
  (∀ (s : State) (ag : Agent) (p : Fin 8192) (v : Word), s.Powered → (pageKind p.val).hasVote = true →
    s.dev.absentPage p.val = false →
    ∃ t, exec (.voteWrite ag p v) s = .next t ∧
      (∀ c : Nat, c < 3 → t.dev.field p.val 0x028 (4 * c + 3) (4 * c) =
        if c = ag.code - 1 then (if bits v (4 * c + 3) (4 * c) ≤ 4 then bits v (4 * c + 3) (4 * c) else 0)
        else s.dev.field p.val 0x028 (4 * c + 3) (4 * c)))

/-- Semaphores (R52–R55): a TAKE of a free one makes its writer the holder, a GIVE by the holder and a FORCE with the holder's GEN
free it and set its bit in REL; a GIVE by another agent and a FORCE with another GEN leave it held; and 1 ms after its link-down a port
holds none and no claim any more, and its votes are withdrawn. -/
def Obligations.Semaphores : Prop :=
  ((∀ (s : State) (ag : Agent) (n : Fin 64), s.Powered → s.dev.semHeld n.val = false →
    ∃ t, exec (.semTake ag n) s = .next t ∧ t.dev.semHeldBy ag n.val = true ∧
      t.dev.field 0x001 (Dev.semOff n.val) 23 16 = (s.dev.field 0x001 (Dev.semOff n.val) 23 16 + 1) % 256) ∧
  (∀ (s : State) (ag : Agent) (n : Fin 64), s.dev.semHeld n.val = true → exec (.semTake ag n) s = .next s) ∧
  (∀ (s : State) (ag : Agent) (n : Fin 64), s.Powered → s.dev.semHeldBy ag n.val = true →
    ∃ t, exec (.semGive ag n) s = .next t ∧ t.dev.semHeld n.val = false ∧
      t.dev.flag 0x001 (0x148 + 4 * (n.val / 32)) (n.val % 32) = true) ∧
  (∀ (s : State) (ag : Agent) (n : Fin 64), s.Powered → s.dev.semHeldBy ag n.val = false →
    ∃ t, exec (.semGive ag n) s = .next t ∧ t.dev.semHeld n.val = s.dev.semHeld n.val ∧ t.dev.flag 0x001 0x014 0 = true) ∧
  (∀ (s : State) (n : Fin 64) (g : BitVec 8), s.Powered → s.dev.semHeld n.val = true →
    s.dev.field 0x001 (Dev.semOff n.val) 23 16 = g.toNat →
    ∃ t, exec (.semForce n g) s = .next t ∧ t.dev.semHeld n.val = false) ∧
  (∀ (s : State) (n : Fin 64) (g : BitVec 8),
    (s.dev.field 0x001 (Dev.semOff n.val) 23 16 ≠ g.toNat ∨ s.dev.semHeld n.val = false) → exec (.semForce n g) s = .next s)) ∧
  (∀ (s : State) (p : Port) (at_ : Nat), s.Powered → (p, at_) ∈ s.dev.released → at_ + 1000 ≤ s.dev.now →
    ∃ t, exec (.portRelease p) s = .next t ∧ (∀ n : Fin 64, t.dev.semHeldBy p.agent n.val = false) ∧
      ∀ q : Fin 8192, t.dev.claimedBy p.agent q.val = false ∧ t.dev.field q.val 0x028 (4 * p.index + 3) (4 * p.index) = 0)


/-! ## 01 The cascade -/

/-- The cascade's episodes and handoff slots (R15, R19, R22, R31, R197, R290, R295). A wake request of a stream that has an episode
joins it, with the higher score; one of a quiet stream is submitted as a WAKE task on ring 0, or dropped and counted; PRE_WINDOW takes
a pre-ramp back to VERIFY without its vote. The record of the front escalation is written at its slot with its CRC; a stream that
waited for a slot runs on, or is paused, with its escalation; and HO_PTR takes a RD that has been written, and refuses one ahead of
WR.
The model's own readings in it: log entries 32 and 33. -/
def Obligations.CascadeEpisodes : Prop :=
  ((∀ (s : State) (r : WakeReq) (rest : List WakeReq), s.Powered → s.dev.wakes = r :: rest → (s.dev.episode r.stream).st ≠ .quiet →
    ∃ t, exec .wakeRequestArrival s = .next t ∧ t.dev.wakes = rest ∧ t.dev.tasks = s.dev.tasks ∧
      t.dev.episode r.stream =
        { s.dev.episode r.stream with score := max (s.dev.episode r.stream).score r.score, merged := true }) ∧
  (∀ (s : State) (r : WakeReq) (rest : List WakeReq), s.Powered → s.dev.wakes = r :: rest → (s.dev.episode r.stream).st = .quiet →
    s.dev.submitResult 0 = 0 →
    ∃ t, exec .wakeRequestArrival s = .next t ∧ t.dev.wakes = rest ∧ t.dev.reg 0x100 0x064 = s.dev.reg 0x100 0x064 + 1 ∧
      ∃ x, t.dev.task s.dev.freeSlot = some x ∧ x.ring = 0 ∧ x.seq = s.dev.reg 0x100 0x064 ∧ x.words = Dev.wakeWords r ∧
        x.start = r.at_) ∧
  (∀ (s : State) (r : WakeReq) (rest : List WakeReq), s.Powered → s.dev.wakes = r :: rest → (s.dev.episode r.stream).st = .quiet →
    s.dev.submitResult 0 ≠ 0 →
    ∃ t, exec .wakeRequestArrival s = .next t ∧ t.dev.wakes = rest ∧ t.dev.tasks = s.dev.tasks ∧
      t.dev.reg 0x100 0x094 = satAdd (s.dev.reg 0x100 0x094) 1) ∧
  (∀ (s : State) (e : Fin 256), s.Powered → s.dev.running 0x067 = true → s.dev.frozen 0x067 = false →
    (s.dev.episode e.val).st = .pre → (s.dev.episode e.val).deadline ≤ s.dev.now →
    ∃ t, exec (.preWindowExpiry e) s = .next t ∧ (t.dev.episode e.val).st = .verify ∧ (t.dev.episode e.val).voted = false ∧
      t.dev.reg 0x067 0x070 = satAdd (s.dev.reg 0x067 0x070) 1)) ∧
  ((∀ (s : State) (e : Fin 256) (x : Escalation) (rest : List Escalation), s.Powered → s.dev.escs = x :: rest →
    x.stream = e.val → x.snapped = true → s.dev.CanServe (fun d => d.handoffWrite e.val) →
    ∃ t, exec (.handoffWrite e) s = .next t ∧ t.dev.escs = rest ∧ t.dev.hoWr = (s.dev.hoWr + 1) % 16 ∧ t.dev.hoRd = s.dev.hoRd ∧
      ∃ q, (∀ q', x.seq = some q' → q = q') ∧ (spanOf (s.dev.hoAddr x.slot) = .aon →
        t.dev.bytes (s.dev.hoAddr x.slot) 64 = s.dev.handoffBody x q ++ bytesLE 4 (crc32 (s.dev.handoffBody x q)).toNat)) ∧
  (∀ (s : State) (e : Fin 256) (n : Nat) (q : Option Word) (at_ : Nat), s.Powered → (s.dev.stream e.val).hold = some (n, q, at_) →
    s.dev.sstate e.val = 6 → s.dev.hoUsed < 8 →
    ∃ t, exec (.hoWaitResume e) s = .next t ∧ t.dev.sstate e.val = (if s.dev.sflag e.val 0 2 then 2 else 1) ∧
      (t.dev.stream e.val).hold = none ∧ t.dev.hoUsed = s.dev.hoUsed + 1 ∧
      (t.dev.escs.map fun x => (x.stream, x.score, x.at_)) = (s.dev.escs.map fun x => (x.stream, x.score, x.at_)) ++ [(e.val, n, at_)]) ∧
  (∀ (s : State) (ag : Agent) (v : Word), s.Reaches 0x067 →
    (bits v 11 8 + 16 - s.dev.hoRd) % 16 ≤ (s.dev.hoWr + 16 - s.dev.hoRd) % 16 →
    ∃ t, exec (.hoPtrWrite ag v) s = .next t ∧ t.dev.hoRd = bits v 11 8 ∧ t.dev.hoWr = s.dev.hoWr) ∧
  (∀ (s : State) (ag : Agent) (v : Word), s.Reaches 0x067 →
    (s.dev.hoWr + 16 - s.dev.hoRd) % 16 < (bits v 11 8 + 16 - s.dev.hoRd) % 16 →
    ∃ t, exec (.hoPtrWrite ag v) s = .next t ∧ t.dev.hoRd = s.dev.hoRd ∧ t.dev.hoWr = s.dev.hoWr ∧ t.dev.flag 0x067 0x014 1 = true))


/-! ## 03 Reel -/

/-- Encoders and zero crossings (R61, R63, R64): an edge on one pin of an encoder that its MODE counts moves NET by one, forward with
A leading B unless DIR_INV reverses it, and the position of a channel that follows it; an illegal transition moves nothing, nor do
levels that have not changed; on the SV960-TC no encoder counts; a zero crossing is accepted, but within MIN ms of the last; and none
for MAX ms loses the input.
The model's own readings in it: log entry 39. -/
def Obligations.EncodersAndZeroCrossings : Prop :=
  (∀ (s : State) (q : Fin 4) (a b : Bool), s.Powered → s.dev.pkg = .rm → s.dev.NoMarks →
    (a ≠ (s.dev.encoder q.val).a ↔ b = (s.dev.encoder q.val).b) →
    ∃ t, exec (.encoderEdge q a b) s = .next t ∧ (t.dev.encoder q.val).a = a ∧ (t.dev.encoder q.val).b = b ∧
      ((t.dev.encoder q.val).net =
        if s.dev.field 0x018 (0x040 + 4 * q.val) 9 8 = 1 ∧ a = (s.dev.encoder q.val).a then (s.dev.encoder q.val).net
        else if s.dev.field 0x018 (0x040 + 4 * q.val) 9 8 = 2 ∧ (a = (s.dev.encoder q.val).a ∨ a = false) then (s.dev.encoder q.val).net
        else if ((a ≠ (s.dev.encoder q.val).a ↔ a ≠ b) ↔ s.dev.flag 0x018 (0x040 + 4 * q.val) 10 = false) then
          (s.dev.encoder q.val).net + 1
        else (s.dev.encoder q.val).net - 1) ∧
      ∀ k : Fin 8, s.dev.rsrc k.val = q.val + 1 → s.dev.rstate k.val = 1 →
        s.dev.countedEdge q.val (a != (s.dev.encoder q.val).a) a = true →
        t.dev.reelPos k.val = (s.dev.reelPos k.val + ((s.dev.reel k.val).frac + s.dev.rword k.val 4) / 2 ^ 24) % 2 ^ 48) ∧
  (∀ (s : State) (q : Fin 4), exec (.encoderEdge q (s.dev.encoder q.val).a (s.dev.encoder q.val).b) s = .next s) ∧
  (∀ (s : State) (q : Fin 4) (a b : Bool), s.Powered → s.dev.pkg = .rm → a ≠ (s.dev.encoder q.val).a → b ≠ (s.dev.encoder q.val).b →
    ∃ t, exec (.encoderEdge q a b) s = .next t ∧ (t.dev.encoder q.val).a = a ∧ (t.dev.encoder q.val).b = b ∧
      (t.dev.encoder q.val).net = (s.dev.encoder q.val).net ∧ (∀ k, t.dev.reelPos k = s.dev.reelPos k)) ∧
  (∀ (s : State) (q : Fin 4) (a b : Bool), s.dev.pkg = .tc → exec (.encoderEdge q a b) s = .next s) ∧
  (∀ (s : State) (rising : Bool), s.Powered → s.dev.pkg = .rm → s.dev.NoMarks → (rising = true ∨ s.dev.flag 0x018 0x054 8 = true) →
    (s.dev.zc.any = true → s.dev.zc.last + 1000 * s.dev.field 0x018 0x054 19 12 ≤ s.dev.now) →
    ∃ t, exec (.zcCrossing rising) s = .next t ∧ t.dev.zc = { any := true, last := s.dev.now, lost := false }) ∧
  (∀ (s : State) (rising : Bool), s.Powered →
    (s.dev.pkg = .tc ∨ (rising = false ∧ s.dev.flag 0x018 0x054 8 = false) ∨
      (s.dev.zc.any = true ∧ s.dev.now < s.dev.zc.last + 1000 * s.dev.field 0x018 0x054 19 12)) →
    exec (.zcCrossing rising) s = .next s) ∧
  (∀ s : State, s.Powered → s.dev.zc.last + 1000 * s.dev.field 0x018 0x054 31 24 ≤ s.dev.now →
    ∃ t, exec .zcTimeout s = .next t ∧ t.dev.zc.lost = true ∧ t.dev.zc.last = s.dev.zc.last)

/-- Channels (R66, R67, R69, R71, R73): the enable takes an OFF channel to TRACK, or without a source to DEAD_RECKON or HELD; the
disable to OFF; RECOVER back to TRACK; a rate window ends with the mean RATE; a channel that follows a camera or a Kakan link and has no
count for STALL_TMO loses its source; and TAKE copies all eight positions.
The model's own readings in it: log entry 40. -/
def Obligations.ReelChannels : Prop :=
  (∀ (s : State) (ag : Agent) (k : Fin 8), s.Admits ag (reelReg k.val 0).1 → s.dev.NoMarks → s.dev.rstate k.val = 0 →
    ∃ t, exec (.channelEnable ag k) s = .next t ∧ t.dev.renabled k.val = true ∧
      t.dev.rstate k.val = if s.dev.srcLost k.val || s.dev.overspeed k.val then s.dev.lossState k.val else 1) ∧
  (∀ (s : State) (ag : Agent) (k : Fin 8), s.Admits ag (reelReg k.val 0).1 →
    ∃ t, exec (.channelDisable ag k) s = .next t ∧ t.dev.renabled k.val = false ∧ t.dev.rstate k.val = 0 ∧
      t.dev.reelPos k.val = s.dev.reelPos k.val) ∧
  (∀ (s : State) (ag : Agent) (k : Fin 8), s.Admits ag (reelReg k.val 0).1 → s.dev.NoMarks → s.dev.renabled k.val = true →
    (s.dev.rstate k.val = 2 ∨ s.dev.rstate k.val = 3) → 1 ≤ (s.dev.reel k.val).validRun →
    s.dev.srcLost k.val = false → s.dev.overspeed k.val = false →
    ∃ t, exec (.channelRecover ag k) s = .next t ∧ t.dev.rstate k.val = 1) ∧
  (∀ (s : State) (k : Fin 8), s.Powered → s.dev.NoMarks → (s.dev.reel k.val).opened + 1000 * s.dev.rateWin k.val ≤ s.dev.now →
    ∃ t, exec (.rateWindowEnd k) s = .next t ∧
      t.dev.rword k.val 0x20 = min 0xFFFFFFFF ((s.dev.reel k.val).units * 1000 / s.dev.rateWin k.val / 2 ^ 24) ∧
      (t.dev.reel k.val).units = 0 ∧ (t.dev.reel k.val).opened = (s.dev.reel k.val).opened + 1000 * s.dev.rateWin k.val) ∧
  (∀ (s : State) (k : Fin 8), s.Powered → ((8 ≤ s.dev.rsrc k.val ∧ s.dev.rsrc k.val < 0x10) ∨ s.dev.rsrc k.val = 0x12) →
    s.dev.stalled k.val = true → s.dev.rstate k.val = 1 →
    ∃ t, exec (.stallTmoExpiry k) s = .next t ∧ t.dev.rstate k.val = s.dev.lossState k.val ∧ bit (t.dev.reelStat k.val) 5 = true) ∧
  (∀ (s : State) (ag : Agent), s.Reaches 0x018 →
    ∃ t, exec (.snapTake ag) s = .next t ∧
      ∀ k : Fin 8, t.dev.pair48 0x018 (0x080 + 8 * k.val) = s.dev.reelPos k.val ∧ t.dev.reelPos k.val = s.dev.reelPos k.val)

/-- MARKs and the time base (R65, R74, R76, R78, R79, R81): a write of MCTRL with EN = 1 or of TGT arms a MARK, which waits where its
channel stands still or has not reached the target and fires at once where it has; EN = 0 disarms it, and a write of a MARK that a
delay list owns is refused; a MARK without an action fires at its floor with its PEND bit, its COUNT and a cause; and a tick advances the time by 1 µs, or by a period of the AON clock where that is the source, and the position of a TRACK channel of source TIME and of
a channel in DEAD_RECKON.
The model's own readings in it: log entries 4 and 42. -/
def Obligations.MarksAndTime : Prop :=
  (∀ (s : State) (ag : Agent) (m : Fin 32) (v : Word), s.Admits ag 0x01B → s.dev.markOwner m.val = none → bit v 0 = true →
    (s.dev.reelStale (bits v 3 1) = true ∨
      (s.dev.NoMarks ∧ reached (s.dev.reelPos (bits v 3 1)) (s.dev.markTgt m.val) = false)) →
    ∃ t, exec (.markArm ag m (.control v)) s = .next t ∧ t.dev.mfield m.val 0 0 0 = 1 ∧ t.dev.mfield m.val 0 3 1 = bits v 3 1 ∧
      t.dev.armedAt m.val = s.dev.now ∧ t.dev.markTgt m.val = s.dev.markTgt m.val) ∧
  (∀ (s : State) (ag : Agent) (m : Fin 32) (hi : Word), s.Admits ag 0x01B → s.dev.markOwner m.val = none →
    (s.dev.reelStale (s.dev.mfield m.val 0 3 1) = true ∨ (s.dev.NoMarks ∧ reached (s.dev.reelPos (s.dev.mfield m.val 0 3 1))
      ((s.dev.agentReg ag 0x01B (Dev.markBase m.val + 4)).toNat + bits hi 15 0 * 2 ^ 32) = false)) →
    ∃ t, exec (.markArm ag m (.target hi)) s = .next t ∧ t.dev.mfield m.val 0 0 0 = 1 ∧ t.dev.armedAt m.val = s.dev.now ∧
      t.dev.markTgt m.val = (s.dev.agentReg ag 0x01B (Dev.markBase m.val + 4)).toNat + bits hi 15 0 * 2 ^ 32) ∧
  (∀ (s : State) (ag : Agent) (m : Fin 32) (v : Word), s.Admits ag 0x01B → s.dev.markOwner m.val = none → bit v 0 = true →
    s.dev.NoMarks → s.dev.reelStale (bits v 3 1) = false → reached (s.dev.reelPos (bits v 3 1)) (s.dev.markTgt m.val) = true →
    bits v 10 8 = 0 → s.dev.frozen 0x01B = false →
    ∃ t, exec (.markArm ag m (.control v)) s = .next t ∧ t.dev.flag 0x01B 0x440 m.val = true ∧
      t.dev.mfield m.val 0x14 23 0 = satAddN 24 (s.dev.mfield m.val 0x14 23 0) 1 ∧ t.dev.mfield m.val 0x14 25 24 = 1 ∧
      t.dev.mfield m.val 0 0 0 = (bit v 4).toNat) ∧
  (∀ (s : State) (ag : Agent) (m : Fin 32) (v : Word), s.Admits ag 0x01B → s.dev.markOwner m.val = none → bit v 0 = false →
    ∃ t, exec (.markArm ag m (.control v)) s = .next t ∧ t.dev.mfield m.val 0 0 0 = 0 ∧ t.dev.markTgt m.val = s.dev.markTgt m.val) ∧
  (∀ (s : State) (ag : Agent) (m : Fin 32) (f : ArmForm), s.Admits ag 0x01B → (s.dev.markOwner m.val).isSome = true →
    ∃ t, exec (.markArm ag m f) s = .next t ∧ t.dev.flag 0x01B 0x014 1 = true ∧
      t.dev.reg 0x01B (Dev.markBase m.val) = s.dev.reg 0x01B (Dev.markBase m.val) ∧ t.dev.markTgt m.val = s.dev.markTgt m.val) ∧
  (∀ (s : State) (m : Fin 32), s.Powered → s.dev.mfield m.val 0 0 0 = 1 → s.dev.floorDue m.val = true →
    s.dev.markOwner m.val = none → s.dev.mfield m.val 0 10 8 = 0 → s.dev.frozen 0x01B = false →
    ∃ t, exec (.markFloorExpiry m) s = .next t ∧ t.dev.flag 0x01B 0x440 m.val = true ∧ t.dev.armedAt m.val = s.dev.now ∧
      t.dev.mfield m.val 0x14 23 0 = satAddN 24 (s.dev.mfield m.val 0x14 23 0) 1 ∧ 2 ≤ t.dev.mfield m.val 0x14 25 24) ∧
  (∀ s : State, s.dev.NoMarks → (s.dev.power = .on → s.dev.timebaseSrc ≠ 2) →
    ∃ t, exec .timeBaseTick s = .next t ∧ t.dev.sio = s.dev.sio + 1 ∧
      t.dev.now = (if s.dev.power = .on then s.dev.now + 1 else s.dev.now)) ∧
  (∀ s : State, s.Powered → s.dev.NoMarks → s.dev.timebaseSrc = 2 →
    ∃ t, exec .timeBaseTick s = .next t ∧ 512 * t.dev.now + t.dev.aonFrac = 512 * s.dev.now + s.dev.aonFrac + 15625 ∧ t.dev.aonFrac < 512) ∧
  (∀ (s : State) (k : Fin 8), s.Powered → s.dev.NoMarks → s.dev.timebaseSrc ≠ 2 → s.dev.rsrc k.val = 0 → s.dev.rstate k.val = 1 →
    ∃ t, exec .timeBaseTick s = .next t ∧ t.dev.reelPos k.val =
      (s.dev.reelPos k.val + ((s.dev.reel k.val).frac + s.dev.rword k.val 4) / 2 ^ 24) % 2 ^ 48) ∧
  (∀ (s : State) (k : Fin 8), s.Powered → s.dev.NoMarks → s.dev.timebaseSrc ≠ 2 → s.dev.rsrc k.val ≠ 0 → s.dev.rstate k.val = 2 →
    ∃ t, exec .timeBaseTick s = .next t ∧ t.dev.reelPos k.val =
      (s.dev.reelPos k.val + ((s.dev.reel k.val).frac + s.dev.rword k.val 8) / 2 ^ 24) % 2 ^ 48)

/-! ## 04 Sensor intake -/

/-- Camera frames (R93, R95–R97): a frame start takes the lowest free buffer, an open frame is lost to it first; without a free buffer
the frame is discarded; a line joins the open frame, and a bad CRC marks it; a frame end writes the FRAME record and the frame joins
the lookback, ends a discarded frame, or is lost without a frame; a packet whose header has a 2-bit error only counts; and BUF_FREE
releases buffers, but the open frame's is not taken.
The model's own readings in it: log entries 44 and 45. -/
def Obligations.CameraFrames : Prop :=
  (∀ (s : State) (p vc : Fin 4) (ecc : Ecc) (n k : Nat), s.Powered → ecc ≠ .bad → s.dev.Delivers p.val vc.val n → n < 8 →
    s.dev.Captures n → (s.dev.chan n).frame = none → s.dev.freeBuf n = some k →
    ∃ t, exec (.csiFrameStart p vc ecc) s = .next t ∧
      ((t.dev.chan n).frame.map fun f => (f.buf, f.lines)) = some (k, 0) ∧ t.dev.flag (chanPage n) 0x098 k = false ∧
      t.dev.pageState (chanPage n) = 2) ∧
  (∀ (s : State) (p vc : Fin 4) (n k : Nat), s.Powered → s.dev.Delivers p.val vc.val n → n < 8 → s.dev.Captures n →
    (s.dev.chan n).frame.isSome = true → (s.dev.dropFrame n 4).freeBuf n = some k →
    ∃ t, exec (.csiFrameStart p vc .clean) s = .next t ∧
      ((t.dev.chan n).frame.map fun f => (f.buf, f.lines)) = some (k, 0) ∧ t.dev.flag (chanPage n) 0x098 k = false) ∧
  (∀ (s : State) (p vc : Fin 4) (ecc : Ecc) (n : Nat), s.Powered → ecc ≠ .bad → s.dev.Delivers p.val vc.val n → n < 8 →
    s.dev.Captures n → (s.dev.chan n).frame = none → s.dev.freeBuf n = none →
    ∃ t, exec (.csiFrameStart p vc ecc) s = .next t ∧ (t.dev.chan n).frame = none ∧ (t.dev.chan n).skip = true) ∧
  (∀ (s : State) (p vc : Fin 4) (dt : BitVec 6) (l : List Byte) (ok : Bool), s.Powered → s.dev.absentPage 0x038 = false →
    s.dev.flag 0x038 (0x050 + 4 * p.val) 0 = true →
    ∀ c ∈ [Instr.csiFrameStart p vc .bad, .csiLinePacket p vc dt l .bad ok, .csiFrameEnd p vc .bad, .csiEventPacket p vc l .bad ok],
    ∃ t, exec c s = .next t ∧ t.dev.chans = s.dev.chans ∧
      t.dev.field 0x038 (0x050 + 4 * p.val) 23 16 = satAddN 8 (s.dev.field 0x038 (0x050 + 4 * p.val) 23 16) 1) ∧
  (∀ (s : State) (p vc : Fin 4) (dt : BitVec 6) (line : List Byte) (ecc : Ecc) (crcOk : Bool) (n : Nat) (f : OpenFrame),
    s.Powered → s.dev.NoMarks → ecc ≠ .bad → dt = 0x1E ∨ dt = 0x2A ∨ dt = 0x2B ∨ dt = 0x2C → s.dev.Delivers p.val vc.val n → n < 8 →
    s.dev.capturing n = true → (s.dev.chan n).frame = some f → f.lines < 4096 →
    ∃ t, exec (.csiLinePacket p vc dt line ecc crcOk) s = .next t ∧
      ((t.dev.chan n).frame.map fun g => (g.buf, g.lines, g.lineErr)) = some (f.buf, f.lines + 1, f.lineErr || !crcOk)) ∧
  (∀ (s : State) (p vc : Fin 4) (ecc : Ecc) (n : Nat) (f : OpenFrame), s.Powered → ecc ≠ .bad → s.dev.Delivers p.val vc.val n → n < 8 →
    s.dev.TakesRecord n 0 → (s.dev.chan n).frame = some f →
    ∃ t, exec (.csiFrameEnd p vc ecc) s = .next t ∧ (t.dev.chan n).frame = none ∧
      t.dev.reg (chanPage n) 0x058 = s.dev.reg (chanPage n) 0x058 + 1 ∧ ((t.dev.chan n).done.getLast?.map (·.buf)) = some f.buf) ∧
  (∀ (s : State) (p vc : Fin 4) (ecc : Ecc) (n : Nat), s.Powered → ecc ≠ .bad → s.dev.Delivers p.val vc.val n → n < 8 →
    s.dev.Captures n → (s.dev.chan n).frame = none → (s.dev.chan n).words = [] →
    ∃ t, exec (.csiFrameEnd p vc ecc) s = .next t ∧ (t.dev.chan n).skip = false ∧
      ((s.dev.chan n).skip = false →
        t.dev.reg (chanPage n) 0x05C = satAdd (s.dev.reg (chanPage n) 0x05C) 1)) ∧
  (∀ (s : State) (ag : Agent) (cam : Fin 8) (v : Word), s.Reaches (chanPage cam.val) →
    ∃ t, exec (.bufFree ag cam v) s = .next t ∧ t.dev.reg (chanPage cam.val) 0x098 = s.dev.reg (chanPage cam.val) 0x098 ||| v ∧
      ∀ f, (s.dev.chan cam.val).frame = some f → t.dev.freeBuf cam.val ≠ some f.buf)

/-- Ports, gaps and triggers (R71, R90, R91, R96, R98): a port that goes down drops the open frames of its cameras, and comes up again;
a gap is written once it fits, an OVERFLOW gap once the largest record fits behind it; and a trigger pulse ends after TRIG_WIDTH. -/
def Obligations.IntakePorts : Prop :=
  (∀ (s : State) (p : Fin 4), s.Powered → s.dev.absentPage 0x038 = false →
    ∃ t, exec (.csiLinkDown p) s = .next t ∧ t.dev.flag 0x038 (0x050 + 4 * p.val) 0 = false ∧
      ∀ n : Fin 8, s.dev.camPort n.val = some p.val → (t.dev.chan n.val).frame = none) ∧
  (∀ (s : State) (p : Fin 4), s.Powered → s.dev.absentPage 0x038 = false →
    ∃ t, exec (.csiLinkUp p) s = .next t ∧ t.dev.flag 0x038 (0x050 + 4 * p.val) 0 = true ∧ t.dev.chans = s.dev.chans) ∧
  (∀ (s : State) (n : Fin 24) (cause cnt : Nat), s.Powered → s.dev.Captures n.val → (s.dev.chan n.val).gaps = [(cause, cnt)] →
    s.dev.recRoom n.val (if cause = 1 then s.dev.gapNeed n.val (s.dev.maxPayload n.val) else s.dev.recNeed n.val (s.dev.recWr n.val) 0) =
      true →
    ∃ t, exec (.overflowGapWrite n) s = .next t ∧ (t.dev.chan n.val).gaps = [] ∧
      t.dev.reg (chanPage n.val) 0x058 = s.dev.reg (chanPage n.val) 0x058 + 1 ∧
      t.dev.reg (chanPage n.val) 0x060 = satAdd (s.dev.reg (chanPage n.val) 0x060) 1) ∧
  (∀ (s : State) (n : Fin 24) (cnt : Nat) (rest : List (Nat × Nat)), s.Powered → (s.dev.chan n.val).gaps = (1, cnt) :: rest →
    s.dev.recRoom n.val (s.dev.gapNeed n.val (s.dev.maxPayload n.val)) = false → exec (.overflowGapWrite n) s = .next s) ∧
  (∀ (s : State) (cam : Fin 8) (at_ : Nat), s.Powered → (s.dev.chan cam.val).trigOn = some at_ →
    at_ + max 1 (s.dev.field (chanPage cam.val) 0x084 15 8) ≤ s.dev.now →
    ∃ t, exec (.camTrigEnd cam) s = .next t ∧ (t.dev.chan cam.val).trigOn = none ∧
      t.dev.camTrigPin cam.val = s.dev.flag (chanPage cam.val) 0x084 1) ∧
  (∀ (s : State) (cam : Fin 8) (at_ : Nat), (s.dev.chan cam.val).trigOn = some at_ →
    s.dev.now < at_ + max 1 (s.dev.field (chanPage cam.val) 0x084 15 8) → exec (.camTrigEnd cam) s = .next s)

/-- Event channels and the AER port (R99–R103): the words of a packet, and the second beat of a word, join the open record; MAX_US
closes the record; a first beat is kept, a second without a first is a framing error; and a request that stays high for longer than
TMO after ACK is stuck until it falls.
The model's own readings in it: log entries 48, 182 and 183. -/
def Obligations.EventChannels : Prop :=
  (∀ (s : State) (p vc : Fin 4) (payload : List Byte) (ecc : Ecc) (crcOk : Bool) (n k : Nat), s.Powered → ecc ≠ .bad →
    s.dev.Delivers p.val vc.val n → (n = 8 ∨ n = 9) → s.dev.Captures n → payload.length / 8 = k →
    (s.dev.chan n).words.length + k < s.dev.evtBatch n →
    ∃ t, exec (.csiEventPacket p vc payload ecc crcOk) s = .next t ∧ (t.dev.chan n).words.length = (s.dev.chan n).words.length + k) ∧
  (∀ (s : State) (k : Fin 2), s.Powered → s.dev.TakesRecord (8 + k.val) (8 * (s.dev.chan (8 + k.val)).words.length) →
    (s.dev.chan (8 + k.val)).words ≠ [] → (s.dev.chan (8 + k.val)).opened + s.dev.evtMaxUs (8 + k.val) ≤ s.dev.now →
    ∃ t, exec (.evtBatchTimeout k) s = .next t ∧ (t.dev.chan (8 + k.val)).words = [] ∧
      t.dev.reg (chanPage (8 + k.val)) 0x058 = s.dev.reg (chanPage (8 + k.val)) 0x058 + 1) ∧
  (∀ (s : State) (k : Fin 2), ((s.dev.chan (8 + k.val)).words = [] ∨
      s.dev.now < (s.dev.chan (8 + k.val)).opened + s.dev.evtMaxUs (8 + k.val)) → exec (.evtBatchTimeout k) s = .next s) ∧
  (∀ (s : State) (v : BitVec 16), s.Powered → s.dev.absentPage 0x039 = false → s.dev.running 0x039 = true →
    s.dev.frozen 0x039 = false → s.dev.aer.beat0 = none →
    ∃ t, exec (.aerBeat true v) s = .next t ∧ t.dev.aer.beat0 = some v.toNat ∧ t.dev.aer.ackAt = some s.dev.now ∧
      t.dev.pageState 0x039 = 2) ∧
  (∀ (s : State) (v : BitVec 16), s.Powered → s.dev.absentPage 0x039 = false → s.dev.running 0x039 = true →
    s.dev.frozen 0x039 = false → s.dev.aer.beat0 = none →
    ∃ t, exec (.aerBeat false v) s = .next t ∧ t.dev.aer.beat0 = none ∧
      t.dev.reg 0x039 0x044 = satAdd (s.dev.reg 0x039 0x044) 1) ∧
  (∀ (s : State) (v : BitVec 16) (b : Nat), s.Powered → s.dev.absentPage 0x039 = false → s.dev.running 0x039 = true →
    s.dev.frozen 0x039 = false → s.dev.aer.beat0 = some b →
    ∃ t, exec (.aerBeat true v) s = .next t ∧ t.dev.aer.beat0 = some v.toNat ∧
      t.dev.reg 0x039 0x044 = satAdd (s.dev.reg 0x039 0x044) 1) ∧
  (∀ (s : State) (v : BitVec 16) (b : Nat), s.Powered → s.dev.absentPage 0x039 = false → s.dev.running 0x039 = true →
    s.dev.aer.beat0 = some b → s.dev.Captures s.dev.aerChan →
    (s.dev.chan s.dev.aerChan).words.length + 1 < s.dev.evtBatch s.dev.aerChan →
    ∃ t, exec (.aerBeat false v) s = .next t ∧ t.dev.aer.beat0 = none ∧
      (t.dev.chan s.dev.aerChan).words.length = (s.dev.chan s.dev.aerChan).words.length + 1) ∧
  (∀ (s : State) (at_ : Nat), s.Powered → s.dev.absentPage 0x039 = false → s.dev.running 0x039 = true → s.dev.aer.ackAt = some at_ →
    at_ + max 1 (s.dev.field 0x039 0x040 15 8) < s.dev.now → s.dev.aer.stuck = false →
    ∃ t, exec (.aerStuckTimeout false) s = .next t ∧ t.dev.aer.stuck = true ∧ t.dev.flag 0x039 0x014 0 = true) ∧
  (∀ (s : State), (∀ at_, s.dev.aer.ackAt = some at_ → s.dev.now ≤ at_ + max 1 (s.dev.field 0x039 0x040 15 8)) →
    exec (.aerStuckTimeout false) s = .next s) ∧
  (∀ s : State, s.Powered → s.dev.absentPage 0x039 = false → s.dev.running 0x039 = true →
    ∃ t, exec (.aerStuckTimeout true) s = .next t ∧ t.dev.aer.stuck = false ∧ t.dev.aer.ackAt = none ∧
      (s.dev.aer.stuck = true → s.dev.Captures s.dev.aerChan → (s.dev.chan s.dev.aerChan).words = [] →
        t.dev.reg (chanPage s.dev.aerChan) 0x05C = satAdd (s.dev.reg (chanPage s.dev.aerChan) 0x05C) 1))

/-- The sampled sensors (R104–R107): an interrupt or a period starts a read, an edge during a read is held and a further one lost; a
read that ends with its bytes writes a SAMPLE record, one that fails is lost, and a held request starts the next; an encoder snapshot
is a record at once; and a software transfer waits for the channel's, and its bytes end in the FIFO or come from it.
The model's own readings in it: log entries 22, 46 and 47. -/
def Obligations.SampledSensors : Prop :=
  (∀ (s : State) (a : BitVec 7), s.Powered → s.dev.Captures 19 → (s.dev.chan 19).busy = false → s.dev.flag 0x033 0x080 0 = false →
    s.dev.field 0x033 0x080 14 8 = a.toNat →
    ∃ t, exec (.tofIbi a) s = .next t ∧ (t.dev.chan 19).busy = true ∧ (t.dev.chan 19).readTag = s.dev.chanTag 19) ∧
  (∀ (s : State) (a : BitVec 7), s.Powered → s.dev.Captures 19 → (s.dev.chan 19).busy = true → s.dev.flag 0x033 0x080 0 = false →
    s.dev.field 0x033 0x080 14 8 = a.toNat →
    ∃ t, exec (.tofIbi a) s = .next t ∧ (t.dev.chan 19).busy = true ∧ (t.dev.chan 19).edge = true) ∧
  (∀ s : State, s.Powered → s.dev.Captures 19 → (s.dev.chan 19).busy = false → s.dev.flag 0x033 0x080 0 = true →
    s.dev.periodDue 19 (s.dev.reg 0x033 0x084).toNat = true →
    ∃ t, exec .tofPeriodExpiry s = .next t ∧ (t.dev.chan 19).busy = true ∧ (t.dev.chan 19).period = s.dev.now) ∧
  (∀ (s : State) (l : List Byte), s.Powered → (s.dev.chan 19).busy = true →
    s.dev.TakesRecord 19 (min (max 1 (min 256 (s.dev.field 0x033 0x088 8 0))) l.length) →
    ∃ t, exec (.tofReadDone (.data l)) s = .next t ∧ (t.dev.chan 19).busy = (s.dev.chan 19).edge ∧
      t.dev.reg 0x033 0x058 = s.dev.reg 0x033 0x058 + 1) ∧
  (∀ (s : State) (r : BusResult), s.Powered → (s.dev.chan 19).busy = true → s.dev.Captures 19 → (s.dev.chan 19).words = [] →
    (∀ l, r ≠ .data l) →
    ∃ t, exec (.tofReadDone r) s = .next t ∧ (t.dev.chan 19).busy = (s.dev.chan 19).edge ∧
      t.dev.reg 0x033 0x05C = satAdd (s.dev.reg 0x033 0x05C) 1) ∧
  (∀ s : State, s.Powered → s.dev.Captures 18 → (s.dev.chan 18).busy = false → s.dev.flag 0x032 0x080 0 = false →
    ∃ t, exec .imuIntEdge s = .next t ∧ (t.dev.chan 18).busy = true ∧ (t.dev.chan 18).readTag = s.dev.chanTag 18) ∧
  (∀ s : State, s.Powered → s.dev.Captures 18 → (s.dev.chan 18).busy = true → s.dev.flag 0x032 0x080 0 = false →
    ∃ t, exec .imuIntEdge s = .next t ∧ (t.dev.chan 18).edge = true ∧
      t.dev.reg 0x032 0x088 = if (s.dev.chan 18).edge then satAdd (s.dev.reg 0x032 0x088) 1 else s.dev.reg 0x032 0x088) ∧
  (∀ s : State, s.Powered → s.dev.Captures 18 → (s.dev.chan 18).busy = false → s.dev.flag 0x032 0x080 0 = true →
    s.dev.periodDue 18 (s.dev.reg 0x032 0x084).toNat = true →
    ∃ t, exec .imuPeriodExpiry s = .next t ∧ (t.dev.chan 18).busy = true ∧ (t.dev.chan 18).period = s.dev.now) ∧
  (∀ (s : State) (l : List Byte), s.Powered → (s.dev.chan 18).busy = true →
    s.dev.TakesRecord 18 (min (max 1 (min 64 (s.dev.field 0x032 0x080 30 24))) l.length) →
    ∃ t, exec (.imuReadDone (.data l)) s = .next t ∧ (t.dev.chan 18).busy = (s.dev.chan 18).edge ∧
      t.dev.reg 0x032 0x058 = s.dev.reg 0x032 0x058 + 1) ∧
  (∀ (s : State) (r : BusResult), s.Powered → (s.dev.chan 18).busy = true → s.dev.Captures 18 → (s.dev.chan 18).words = [] →
    (∀ l, r ≠ .data l) →
    ∃ t, exec (.imuReadDone r) s = .next t ∧ (t.dev.chan 18).busy = (s.dev.chan 18).edge ∧
      t.dev.reg 0x032 0x05C = satAdd (s.dev.reg 0x032 0x05C) 1) ∧
  (∀ s : State, s.Powered → s.dev.TakesRecord 20 80 → s.dev.flag 0x034 0x080 8 = false →
    s.dev.periodDue 20 (max 100 (s.dev.field 0x034 0x080 31 16)) = true →
    ∃ t, exec .encPeriodExpiry s = .next t ∧ (t.dev.chan 20).period = s.dev.now ∧ t.dev.reg 0x034 0x058 = s.dev.reg 0x034 0x058 + 1) ∧
  (∀ (s : State) (ag : Agent) (v : Word), s.Admits ag 0x038 →
    ∃ t, exec (.i3cTransfer ag v) s = .next t ∧ t.dev.reg 0x038 0x0B0 = v &&& 0x8000FFFF ∧
      (if bit v 31 = false then t.dev.i3c = s.dev.i3c
       else if s.dev.i3c.cur = none ∧ (s.dev.chan 19).busy = false then t.dev.i3c.cur = some v ∧ t.dev.i3c.queue = none
       else t.dev.i3c.cur = s.dev.i3c.cur ∧ t.dev.i3c.queue = some v)) ∧
  (∀ (s : State) (v : Word) (r : BusResult), s.Powered → s.dev.i3c.cur = some v →
    ∃ t, exec (.i3cTransferDone r) s = .next t ∧ t.dev.flag 0x038 0x0B0 31 = s.dev.i3c.queue.isSome ∧
      t.dev.i3c.cur = (if (s.dev.chan 19).busy then none else s.dev.i3c.queue) ∧
      t.dev.i3c.fifo = match r with
        | .data l => if bit v 7 then (s.dev.i3c.fifo ++ l.take (bits v 15 8)).take 64 else s.dev.i3c.fifo.drop (bits v 15 8)
        | _ => s.dev.i3c.fifo)

/-- Pushed records and lookback snapshots (R108, R110): a push starts the copy of its source, and its end writes the record; the
snapshot of an escalation's slot is written and holds what it names until the slot is released.
The model's own readings in it: log entries 22, 46, 54 and 184. -/
def Obligations.PushesAndSnapshots : Prop :=
  (∀ (s : State) (ag : Agent) (k : Fin 2) (hi : Word), s.Admits ag (chanPage (22 + k.val)) → s.dev.Captures (22 + k.val) →
    (s.dev.chan (22 + k.val)).push = none →
    ∃ t, exec (.genPush ag k hi) s = .next t ∧ (t.dev.chan (22 + k.val)).readTag = s.dev.chanTag (22 + k.val) ∧
      (t.dev.chan (22 + k.val)).push = some ((s.dev.agentReg ag (chanPage (22 + k.val)) 0x080).toNat + bits hi 15 0 * 2 ^ 32,
        max 1 (min 4096 (s.dev.field (chanPage (22 + k.val)) 0x088 12 0)), s.dev.field (chanPage (22 + k.val)) 0x088 23 16)) ∧
  (∀ (s : State) (ag : Agent) (k : Fin 2) (hi : Word), s.Admits ag (chanPage (22 + k.val)) →
    (s.dev.chan (22 + k.val)).push.isSome = true → exec (.genPush ag k hi) s = .next s) ∧
  (∀ (s : State) (k : Fin 2) (a len type : Nat), s.Powered → (s.dev.chan (22 + k.val)).push = some (a, len, type) →
    s.dev.TakesRecord (22 + k.val) len → s.dev.CanServe (fun d => d.genDone k.val) →
    ∃ t, exec (.genPushDone k) s = .next t ∧ (t.dev.chan (22 + k.val)).push = none ∧
      t.dev.reg (chanPage (22 + k.val)) 0x058 = s.dev.reg (chanPage (22 + k.val)) 0x058 + 1) ∧
  (∀ (s : State) (e : Fin 256) (x : Escalation), s.Powered →
    (s.dev.escs.find? fun x => x.stream == e.val && !x.snapped) = some x → s.dev.CanServe (fun d => d.lookbackSnapshot e.val) →
    ∃ t, exec (.lookbackSnapshot e) s = .next t ∧ { x with snapped := true } ∈ t.dev.escs ∧
      (s.dev.absentPage 0x038 = false → s.dev.flag 0x038 0x0D0 0 = true →
        (t.dev.snap x.slot).map (·.bufs) = some ((List.range 8).flatMap fun n => (s.dev.chan n).done.map fun f => (n, f.buf))))

/-! ## 05 The listening path -/

/-- The microphone front end (R120–R122, R129): MODE takes it from LISTEN to TO_ACTIVE, from ACTIVE to TO_LISTEN, and back from
TO_ACTIVE, and is kept for later elsewhere; a grid boundary counts its period, fills the open record, ends a settle and switches the
clock; without a lock in 1 ms, and with PLL1's loss, it listens; and a stuck microphone is marked while it lasts. -/
def Obligations.MicrophoneModes : Prop :=
  (∀ (s : State) (ag : Agent), s.Admits ag 0x03A → s.dev.micCur = 2 →
    ∃ t, exec (.micModeActive ag) s = .next t ∧ t.dev.micCur = 3 ∧ t.dev.flag 0x03A 0x040 0 = true ∧ t.dev.clk.pll1Req = true) ∧
  (∀ (s : State) (ag : Agent), s.Admits ag 0x03A → s.dev.micCur ≠ 2 →
    ∃ t, exec (.micModeActive ag) s = .next t ∧ t.dev.micCur = s.dev.micCur ∧ t.dev.flag 0x03A 0x040 0 = true) ∧
  (∀ (s : State) (ag : Agent), s.Admits ag 0x03A → s.dev.micCur ≠ 3 → s.dev.micCur ≠ 5 →
    ∃ t, exec (.micModeListen ag) s = .next t ∧ t.dev.micCur = s.dev.micCur ∧ t.dev.flag 0x03A 0x040 0 = false) ∧
  (∀ (s : State) (ag : Agent), s.Admits ag 0x03A → s.dev.micCur = 5 →
    ∃ t, exec (.micModeListen ag) s = .next t ∧ t.dev.micCur = 6 ∧ t.dev.flag 0x03A 0x040 0 = false) ∧
  (∀ (s : State) (ag : Agent), s.Admits ag 0x03A → s.dev.micCur = 3 →
    ∃ t, exec (.micModeListen ag) s = .next t ∧ t.dev.micCur = (if s.dev.mic.clk = 1 then 2 else 1) ∧ t.dev.clk.pll1Req = false) ∧
  (∀ (s : State) (x : GridSamples), s.Powered → s.dev.NoMarks → s.dev.running 0x03A = true →
    ∃ t, exec (.gridBoundary x) s = .next t ∧ t.dev.mic.periods = (s.dev.mic.periods + 1) % 2 ^ 32) ∧
  (∀ (s : State) (x : GridSamples), s.Powered → s.dev.NoMarks → s.dev.running 0x03A = true → s.dev.frozen 0x03A = false →
    s.dev.micCur = 2 → s.dev.mic.clk ≠ 0 → s.dev.mic.len + 1 < s.dev.recSamples →
    ∃ t, exec (.gridBoundary x) s = .next t ∧ t.dev.mic.len = s.dev.mic.len + 1 ∧ t.dev.micCur = 2) ∧
  (∀ (s : State) (x : GridSamples), s.Powered → s.dev.NoMarks → s.dev.running 0x03A = true → s.dev.micCur = 1 →
    s.dev.mic.settle ≤ 1 → s.dev.flag 0x03A 0x040 0 = false →
    ∃ t, exec (.gridBoundary x) s = .next t ∧ t.dev.micCur = 2) ∧
  (∀ (s : State) (x : GridSamples), s.Powered → s.dev.NoMarks → s.dev.running 0x03A = true → s.dev.micCur = 3 →
    s.dev.pllLocked 1 = true →
    ∃ t, exec (.gridBoundary x) s = .next t ∧ t.dev.micCur = 4 ∧ t.dev.mic.clk = 2) ∧
  (∀ (s : State) (x : GridSamples), s.Powered → s.dev.NoMarks → s.dev.running 0x03A = true → s.dev.micCur = 6 →
    ∃ t, exec (.gridBoundary x) s = .next t ∧ t.dev.micCur = 1 ∧ t.dev.mic.clk = 1 ∧ t.dev.clk.pll1Req = false) ∧
  (∀ s : State, s.Powered → s.dev.micCur = 3 → s.dev.pllLocked 1 = false → s.dev.mic.toAt + 1000 ≤ s.dev.now →
    ∃ t, exec .pll1LockTimeout s = .next t ∧ t.dev.micCur = (if s.dev.mic.clk = 1 then 2 else 1) ∧
      t.dev.flag 0x03A 0x014 0 = true ∧ t.dev.flag 0x03A 0x040 0 = false) ∧
  (∀ s : State, s.Powered → s.dev.pllLocked 1 = true →
    ∃ t, exec .pll1Loss s = .next t ∧ t.dev.pllLocked 1 = false ∧
      (if s.dev.micCur = 4 ∨ s.dev.micCur = 5 ∨ s.dev.micCur = 6 then
        t.dev.micCur = 1 ∧ t.dev.mic.clk = 1 ∧ t.dev.flag 0x03A 0x014 1 = true ∧ t.dev.flag 0x03A 0x040 0 = false
      else t.dev.micCur = s.dev.micCur)) ∧
  (∀ (s : State) (m : Fin 8), s.Powered → s.dev.micClk (m.val / 4) ≠ 0 →
    ∃ t, exec (.micStuck m) s = .next t ∧ t.dev.flag 0x03A 0x04C m.val = true ∧ t.dev.flag 0x03A 0x014 4 = true) ∧
  (∀ (s : State) (m : Fin 8), s.Powered →
    ∃ t, exec (.micStuckClear m) s = .next t ∧ t.dev.flag 0x03A 0x04C m.val = false ∧
      ∀ k : Fin 8, k ≠ m → t.dev.flag 0x03A 0x04C k.val = s.dev.flag 0x03A 0x04C k.val)

/-! ## 06 Cliff watch, halt unit, pack supervisor -/

/-- Arming (R144, R145): ARM = 0xA5A5 arms a SAFE unit whose conditions hold, with the outputs at OUT_CMD, and one in HOLD, with the
outputs as they stand; any other write leaves a SAFE unit SAFE with ARM_REFUSED and changes nothing elsewhere. OUT_CMD reaches the
outputs at once while ARMED alone. The writes of an agent without the claim change nothing of the unit.
The model's own readings in it: log entry 60. -/
def Obligations.HaltArming : Prop :=
  (∀ (s : State) (ag : Agent), s.Admits ag 0x041 → s.halt.st = .safe → s.armable = true →
    ∃ t, exec (.haltArm ag 0xA5A5) s = .next t ∧ t.halt.st = .armed ∧ t.halt.pins = s.halt.cmd ∧ t.halt.hbAt = s.dev.now ∧
      t.halt.hbFresh = true ∧ t.dev = s.dev) ∧
  (∀ (s : State) (ag : Agent), s.Admits ag 0x041 → s.halt.st = .hold → s.armable = true →
    ∃ t, exec (.haltArm ag 0xA5A5) s = .next t ∧ t.halt.st = .armed ∧ t.halt.pins = s.halt.pins ∧ t.halt.hbAt = s.dev.now) ∧
  (∀ (s : State) (ag : Agent) (v : Word), s.Admits ag 0x041 → s.halt.st = .safe → (v ≠ 0xA5A5 ∨ s.armable = false) →
    ∃ t, exec (.haltArm ag v) s = .next t ∧ t.halt = s.halt ∧ t.dev.flag 0x041 0x014 2 = true) ∧
  (∀ (s : State) (ag : Agent) (v : Word), s.Admits ag 0x041 →
    (s.halt.st = .tripped ∨ s.halt.st = .armed ∨ (s.halt.st = .hold ∧ (v ≠ 0xA5A5 ∨ s.armable = false))) →
    exec (.haltArm ag v) s = .next s) ∧
  (∀ (s : State) (ag : Agent) (v : Word), s.Admits ag 0x041 →
    ∃ t, exec (.haltOutCmd ag v) s = .next t ∧ t.halt.cmd = BitVec.ofNat 6 v.toNat ∧ t.halt.st = s.halt.st ∧
      t.halt.pins = (if s.halt.st = .armed then BitVec.ofNat 6 v.toNat else s.halt.pins) ∧ t.dev = s.dev) ∧
  (∀ (s : State) (ag : Agent) (v : Word), s.Powered → s.dev.absentPage 0x041 = false → s.dev.claimedBy ag 0x041 = false →
    ∃ t u w x, exec (.haltArm ag v) s = .next t ∧ exec (.haltOutCmd ag v) s = .next u ∧ exec (.heartbeatRefresh ag v) s = .next w ∧
      exec (.tripAck ag v) s = .next x ∧ t.halt = s.halt ∧ u.halt = s.halt ∧ w.halt = s.halt ∧ x.halt = s.halt ∧
      t.dev.flag 0x041 0x014 31 = true)

/-- Heartbeats and trips (R144, R146–R148, R150): 0x55 and 0xAA by turns refresh, any other value sets HB_BAD; without one for
HB_PERIOD an ARMED unit trips, and at the end of HOLD_WINDOW one in HOLD, as it does on FORCE by any agent; a trip makes every output
inactive, records its cause and counts; and TRIP_ACK takes TRIPPED to SAFE.
The model's own readings in it: log entry 58. -/
def Obligations.HeartbeatsAndTrips : Prop :=
  (∀ (s : State) (ag : Agent) (v : Word), s.Admits ag 0x041 → (v = 0x55 ∨ v = 0xAA) →
    (s.halt.hbFresh = true ∨ v.toNat ≠ s.halt.hb) →
    ∃ t, exec (.heartbeatRefresh ag v) s = .next t ∧ t.halt = { s.halt with hb := v.toNat, hbFresh := false, hbAt := s.dev.now } ∧
      t.dev = s.dev) ∧
  (∀ (s : State) (ag : Agent) (v : Word), s.Admits ag 0x041 →
    (v ≠ 0x55 ∧ v ≠ 0xAA ∨ s.halt.hbFresh = false ∧ v.toNat = s.halt.hb) →
    ∃ t, exec (.heartbeatRefresh ag v) s = .next t ∧ t.halt = s.halt ∧ t.dev.flag 0x041 0x014 3 = true) ∧
  (∀ s : State, s.Powered → s.halt.st = .armed → s.halt.hbAt + s.hbPeriod ≤ s.dev.now →
    ∃ t, exec .heartbeatExpiry s = .next t ∧ t.halt.st = .tripped ∧ t.halt.cause = 3 ∧ t.halt.pins = 0 ∧
      t.dev.reg 0x041 0x068 = (if s.dev.frozen 0x041 then s.dev.reg 0x041 0x068 else satAdd (s.dev.reg 0x041 0x068) 1) ∧ t.dev.flag 0x041 0x014 0 = true ∧
      ∀ n : Fin 8, (t.dev.cliff n.val).checked = false) ∧
  (∀ s : State, (s.halt.st ≠ .armed ∨ s.dev.now < s.halt.hbAt + s.hbPeriod) → exec .heartbeatExpiry s = .next s) ∧
  (∀ s : State, s.Powered → s.halt.st = .hold → s.halt.holdAt + s.holdWindow ≤ s.dev.now →
    ∃ t, exec .holdWindowExpiry s = .next t ∧ t.halt.st = .tripped ∧ t.halt.cause = 4 ∧ t.halt.pins = 0) ∧
  (∀ s : State, (s.halt.st ≠ .hold ∨ s.dev.now < s.halt.holdAt + s.holdWindow) → exec .holdWindowExpiry s = .next s) ∧
  (∀ (s : State) (ag : Agent) (v : Word), s.Powered → s.dev.absentPage 0x041 = false → bit v 0 = true → s.halt.st.driving = true →
    ∃ t, exec (.haltForce ag v) s = .next t ∧ t.halt.st = .tripped ∧ t.halt.cause = 5 ∧ t.halt.ch = 0 ∧ t.halt.pins = 0 ∧
      t.dev.reg 0x041 0x068 = (if s.dev.frozen 0x041 then s.dev.reg 0x041 0x068 else satAdd (s.dev.reg 0x041 0x068) 1)) ∧
  (∀ (s : State) (ag : Agent) (v : Word), (bit v 0 = false ∨ s.halt.st.driving = false) → exec (.haltForce ag v) s = .next s) ∧
  (∀ (s : State) (ag : Agent) (v : Word), s.Admits ag 0x041 → bit v 0 = true → s.halt.st = .tripped →
    ∃ t, exec (.tripAck ag v) s = .next t ∧ t.halt = { s.halt with st := .safe } ∧ t.dev = s.dev) ∧
  (∀ (s : State) (ag : Agent) (v : Word), s.Admits ag 0x041 → (bit v 0 = false ∨ s.halt.st ≠ .tripped) →
    exec (.tripAck ag v) s = .next s)

/-- Readbacks and THERMTRIP (R145, R149, R152): a readback pin that follows its output ends its stuck bit; one that differs for FB_TMO
trips a driving unit with FEEDBACK, and marks an inactive output stuck; and THERMTRIP_N low trips the unit from every other state and
takes CHG_EN low.
The model's own readings in it: log entry 59. -/
def Obligations.ReadbacksAndThermtrip : Prop :=
  (∀ (s : State) (n : Fin 6) (level : Bool), s.Powered → (s.dev.fbEn n.val = false ∨ level = s.halt.pin n.val) →
    ∃ t, exec (.drvFbChange n level) s = .next t ∧ t.halt.fb.toNat.testBit n.val = level ∧
      t.halt.stuck.toNat.testBit n.val = false ∧ t.halt.st = s.halt.st ∧ t.dev = s.dev) ∧
  (∀ (s : State) (n : Fin 6) (level : Bool), s.Powered → s.dev.fbEn n.val = true → level ≠ s.halt.pin n.val →
    s.halt.st.driving = true → Sparse.get (fun _ => 0) s.halt.changed n.val + s.dev.fbTmo ≤ s.dev.now →
    ∃ t, exec (.drvFbChange n level) s = .next t ∧ t.halt.st = .tripped ∧ t.halt.cause = 6 ∧ t.halt.pins = 0) ∧
  (∀ (s : State) (n : Fin 6) (level : Bool), s.Powered → s.dev.fbEn n.val = true → level ≠ s.halt.pin n.val →
    s.dev.now < Sparse.get (fun _ => 0) s.halt.changed n.val + s.dev.fbTmo →
    ∃ t, exec (.drvFbChange n level) s = .next t ∧ t.halt.fb.toNat.testBit n.val = level ∧
      t = { s with halt := { s.halt with fb := t.halt.fb } }) ∧
  (∀ (s : State) (n : Fin 6), (s.fbBad n.val = false ∨ s.dev.now < Sparse.get (fun _ => 0) s.halt.changed n.val + s.dev.fbTmo) →
    exec (.fbTmoExpiry n) s = .next s) ∧
  (∀ (s : State) (n : Fin 6), s.Powered → s.fbBad n.val = true → s.halt.st.driving = true →
    Sparse.get (fun _ => 0) s.halt.changed n.val + s.dev.fbTmo ≤ s.dev.now →
    ∃ t, exec (.fbTmoExpiry n) s = .next t ∧ t.halt.st = .tripped ∧ t.halt.cause = 6 ∧ t.halt.pins = 0) ∧
  (∀ (s : State) (n : Fin 6), s.Powered → s.fbBad n.val = true → s.halt.st.driving = false → s.halt.pin n.val = false →
    Sparse.get (fun _ => 0) s.halt.changed n.val + s.dev.fbTmo ≤ s.dev.now → s.halt.stuck.toNat.testBit n.val = false →
    ∃ t, exec (.fbTmoExpiry n) s = .next t ∧ t.halt.stuck.toNat.testBit n.val = true ∧ t.halt.st = s.halt.st ∧
      t.dev.flag 0x041 0x014 1 = true) ∧
  (∀ s : State, s.Powered → s.dev.absentPage 0x041 = false → s.halt.st ≠ .tripped →
    ∃ t, exec (.thermtripInput true) s = .next t ∧ t.halt.st = .tripped ∧ t.halt.cause = 7 ∧ t.halt.pins = 0 ∧
      t.dev.thermIn = true ∧ t.dev.flag 0x042 0x048 2 = false ∧ t.dev.reg 0x041 0x068 = (if s.dev.frozen 0x041 then s.dev.reg 0x041 0x068 else satAdd (s.dev.reg 0x041 0x068) 1)) ∧
  (∀ s : State, s.Powered → (s.halt.st = .tripped ∨ s.dev.absentPage 0x041 = true) →
    ∃ t, exec (.thermtripInput true) s = .next t ∧ t.halt = s.halt ∧ t.dev.thermIn = true ∧ t.dev.flag 0x042 0x048 2 = false) ∧
  (∀ s : State, s.Powered →
    ∃ t, exec (.thermtripInput false) s = .next t ∧ t.halt = s.halt ∧ t.dev.thermIn = false)

/-- Cliff checks (R132–R140, R158): a request makes an enabled channel's check pending, and the guard one of a GUARD channel after
10,000 µs; a slot takes the next channel of the round with its configuration; a difference below the threshold trips a driving unit with
CLIFF, and one that is not leaves the channel checked with FLOOR; a check that cannot be trusted trips with UNTRUSTED under ACT = 0,
trips nothing under ACT = 2, and is repeated with a lower current for COMPLIANCE under ACT = 1; and GUARD bits are only set.
The model's own readings in it: log entries 56 and 197. -/
def Obligations.CliffChecks : Prop :=
  (∀ (s : State) (ag : Agent) (chs : BitVec 8), s.Reaches 0x040 → s.dev.running 0x040 = true →
    ∃ t, exec (.cliffCheckWrite ag chs) s = .next t ∧ ∀ n : Fin 8, (t.dev.cliff n.val).pending =
      ((s.dev.cliff n.val).pending || (chs.getLsbD n.val && s.dev.flag 0x040 (Dev.cliffBase n.val) 0))) ∧
  (∀ (s : State) (ag : Agent) (chs : BitVec 8), s.Reaches 0x040 → s.dev.running 0x040 = false →
    exec (.cliffCheckWrite ag chs) s = .next s) ∧
  (∀ (s : State) (n : Fin 8), s.Powered → s.dev.flag 0x040 0x140 n.val = true → s.dev.flag 0x040 (Dev.cliffBase n.val) 0 = true →
    s.dev.running 0x040 = true → (s.dev.cliff n.val).pending = false → (s.dev.cliff n.val).started + 10000 ≤ s.dev.now →
    ∃ t, exec (.cliffGuardExpiry n) s = .next t ∧ (t.dev.cliff n.val).pending = true ∧ (t.dev.cliff n.val).guarded = true ∧
      t.dev.reg 0x040 0x154 = (if s.dev.frozen 0x040 then s.dev.reg 0x040 0x154 else satAdd (s.dev.reg 0x040 0x154) 1)) ∧
  (∀ (s : State) (v : BitVec 16) (n : Nat), s.Powered → s.dev.cliffRun = none → s.dev.cliffAhead.head? = some n →
    ∃ t, exec (.cliffSlotStart v) s = .next t ∧
      (t.dev.cliffRun.map fun r => (r.ch, r.iUse, r.cfg, r.thr, r.ambMax, r.headMin)) =
        some (n, (s.dev.cliff n).iUse, s.dev.reg 0x040 (Dev.cliffBase n), s.dev.reg 0x040 (Dev.cliffBase n + 4), s.dev.reg 0x040 0x148,
          s.dev.reg 0x040 0x144) ∧
      (t.dev.cliff n).pending = false ∧ (t.dev.cliff n).started = s.dev.now ∧
      t.dev.reg 0x040 0x158 = (if s.dev.frozen 0x040 then s.dev.reg 0x040 0x158 else v.zeroExtend 32)) ∧
  (∀ (s : State) (v : BitVec 16), (s.dev.cliffRun.isSome = true ∨ s.dev.cliffAhead = []) → exec (.cliffSlotStart v) s = .next s) ∧
  (∀ (s : State) (r : CliffRun) (a1 a2 l1 l2 : BitVec 12) (head stay : BitVec 16) (i : BitVec 8), s.Powered → s.dev.cliffRun = some r →
    r.minHead ≤ stay.toNat → s.dev.reelStale r.reelCh = false → l1 ≠ 4095 → l2 ≠ 4095 →
    rneHalf (a1.toNat + a2.toNat) ≤ r.ambMax.toNat → s.halt.st.driving = true →
    (rneHalf (l1.toNat + l2.toNat) : Int) - rneHalf (a1.toNat + a2.toNat) < ((bits r.thr 11 0 * r.iUse / r.iCmd : Nat) : Int) →
    ∃ t, exec (.cliffDecision a1 a2 l1 l2 head stay i false) s = .next t ∧ t.dev.cliffRun = none ∧ t.halt.st = .tripped ∧
      t.halt.cause = 1 ∧ t.halt.ch = r.ch ∧ t.halt.pins = 0) ∧
  (∀ (s : State) (r : CliffRun) (a1 a2 l1 l2 : BitVec 12) (head stay : BitVec 16) (i : BitVec 8), s.Powered → s.dev.cliffRun = some r →
    r.minHead ≤ stay.toNat → s.dev.reelStale r.reelCh = false → l1 ≠ 4095 → l2 ≠ 4095 →
    rneHalf (a1.toNat + a2.toNat) ≤ r.ambMax.toNat →
    ((bits r.thr 11 0 * r.iUse / r.iCmd : Nat) : Int) ≤ (rneHalf (l1.toNat + l2.toNat) : Int) - rneHalf (a1.toNat + a2.toNat) →
    ∃ t, exec (.cliffDecision a1 a2 l1 l2 head stay i false) s = .next t ∧ t.dev.cliffRun = none ∧ t.halt = s.halt ∧
      (t.dev.cliff r.ch).checked = true ∧ (t.dev.cliff r.ch).result = 0) ∧
  (∀ (s : State) (r : CliffRun) (a1 a2 l1 l2 : BitVec 12) (head stay : BitVec 16) (i : BitVec 8) (overI : Bool), s.Powered →
    s.dev.cliffRun = some r →
    (stay.toNat < r.minHead ∨ s.dev.reelStale r.reelCh = true ∨ r.ambMax.toNat < rneHalf (a1.toNat + a2.toNat) ∨ l1 = 4095 ∨
      l2 = 4095 ∨ overI = true) →
    (r.act = 0 → s.halt.st.driving = true →
      ∃ t, exec (.cliffDecision a1 a2 l1 l2 head stay i overI) s = .next t ∧ t.dev.cliffRun = none ∧ t.halt.st = .tripped ∧
        t.halt.cause = 2 ∧ t.halt.ch = r.ch ∧ t.halt.pins = 0) ∧
    (r.act = 2 →
      ∃ t, exec (.cliffDecision a1 a2 l1 l2 head stay i overI) s = .next t ∧ t.dev.cliffRun = none ∧ t.halt = s.halt ∧
        (t.dev.cliff r.ch).checked = true ∧ (t.dev.cliff r.ch).result = 2) ∧
    (r.act = 1 → stay.toNat < r.minHead → r.iMin < r.iUse → s.dev.running 0x040 = true →
      s.dev.flag 0x040 (Dev.cliffBase r.ch) 0 = true →
      ∃ t, exec (.cliffDecision a1 a2 l1 l2 head stay i overI) s = .next t ∧ t.dev.cliffRun = none ∧ t.halt = s.halt ∧
        (t.dev.cliff r.ch).iUse = max r.iMin (3 * r.iUse / 4) ∧ (t.dev.cliff r.ch).pending = true)) ∧
  (∀ (s : State) (ag : Agent) (chs : BitVec 8), s.Reaches 0x040 →
    ∃ t, exec (.guardSet ag chs) s = .next t ∧ ∀ n : Fin 8,
      t.dev.flag 0x040 0x140 n.val = (s.dev.flag 0x040 0x140 n.val || chs.getLsbD n.val) ∧
      (chs.getLsbD n.val = true → t.dev.field 0x040 (Dev.cliffBase n.val) 2 1 ≠ 2) ∧
      t.dev.flag 0x040 (Dev.cliffBase n.val) 0 = s.dev.flag 0x040 (Dev.cliffBase n.val) 0)

/-- The pack supervisor (R153–R157): a poll starts when it is due, takes its words in turn, and its fifth completes it; a NACK, a
timeout and, where it is checked, a wrong PEC fail it, and the third failure in a row locks the pack out; and PACK_PRES counts once it has been stable for 100 µs: an absent pack locks out a
running supervisor and takes CHG_EN low.
The model's own readings in it: log entry 57. -/
def Obligations.PackSupervision : Prop :=
  (∀ s : State, s.Powered → s.dev.pkg = .rm → s.dev.running 0x042 = true → s.dev.packSup.reading = none →
    s.dev.packSup.pollAt + s.dev.pollPeriod ≤ s.dev.now →
    ∃ t, exec .packPoll s = .next t ∧ t.dev.packSup.reading = some [] ∧ t.dev.packSup.pollAt = s.dev.now ∧ t.dev.pageState 0x042 = 2) ∧
  (∀ (s : State) (ws : List Nat) (r : BusResult) (l : List Byte), s.Powered → s.dev.packSup.reading = some ws →
    (r = .data l ∨ (r = .pecError l ∧ s.dev.flag 0x042 0x040 1 = false)) →
    (ws.length < 4 → ∃ t, exec (.packReadDone r) s = .next t ∧ t.dev.packSup.reading = some (ws ++ [ofBytesLE (l.take 2)])) ∧
    (ws.length = 4 → s.dev.running 0x042 = true → ∃ t, exec (.packReadDone r) s = .next t ∧ t.dev.packSup.reading = none ∧
      t.dev.flag 0x042 0x048 1 = true ∧ t.dev.field 0x042 0x048 7 4 = 0 ∧ t.dev.packSup.volt = some (ws.getD 0 0))) ∧
  (∀ (s : State) (ws : List Nat) (r : BusResult) (b : Nat), s.Powered → s.dev.running 0x042 = true →
    s.dev.packSup.reading = some ws →
    ((r = .nack ∨ r = .timeout) ∧ b = 1 ∨ (∃ l, r = .pecError l) ∧ s.dev.flag 0x042 0x040 1 = true ∧ b = 2) →
    ∃ t, exec (.packReadDone r) s = .next t ∧ t.dev.packSup.reading = none ∧ t.dev.flag 0x042 0x048 1 = false ∧
      t.dev.flag 0x042 0x014 b = true ∧ t.dev.field 0x042 0x048 7 4 = satAddN 4 (s.dev.field 0x042 0x048 7 4) 1 ∧
      (s.dev.field 0x042 0x048 7 4 = 2 → t.dev.flag 0x042 0x048 3 = true ∧ t.dev.field 0x042 0x048 9 8 = 2 ∧
        t.dev.flag 0x042 0x048 2 = false) ∧
      (s.dev.field 0x042 0x048 7 4 ≠ 2 → t.dev.flag 0x042 0x048 3 = s.dev.flag 0x042 0x048 3)) ∧
  (∀ (s : State) (level : Bool), s.Powered →
    ∃ t, exec (.packPresChange level) s = .next t ∧ t.dev.packSup.pin = level ∧ t.dev.packSup.pinAt = s.dev.now ∧
      t.dev.regs = s.dev.regs) ∧
  (∀ s : State, s.Powered → s.dev.pkg = .rm → s.dev.packSup.pinAt + 100 ≤ s.dev.now →
    s.dev.packSup.pin = s.dev.flag 0x042 0x040 2 → s.dev.flag 0x042 0x048 0 = false →
    ∃ t, exec .packPresAccept s = .next t ∧ t.dev.flag 0x042 0x048 0 = true ∧ t.dev.packSup.presAt = s.dev.now) ∧
  (∀ s : State, s.Powered → s.dev.pkg = .rm → s.dev.packSup.pinAt + 100 ≤ s.dev.now →
    s.dev.packSup.pin ≠ s.dev.flag 0x042 0x040 2 → s.dev.flag 0x042 0x048 0 = true → s.dev.running 0x042 = true →
    ∃ t, exec .packPresAccept s = .next t ∧ t.dev.flag 0x042 0x048 0 = false ∧ t.dev.flag 0x042 0x048 3 = true ∧
      t.dev.field 0x042 0x048 9 8 = 1 ∧ t.dev.flag 0x042 0x048 2 = false) ∧
  (∀ s : State, s.Powered → s.dev.pkg = .rm → s.dev.packSup.pinAt + 100 ≤ s.dev.now →
    s.dev.packSup.pin ≠ s.dev.flag 0x042 0x040 2 → s.dev.flag 0x042 0x048 0 = true → s.dev.running 0x042 = false →
    ∃ t, exec .packPresAccept s = .next t ∧ t.dev.flag 0x042 0x048 0 = false ∧ t.dev.flag 0x042 0x048 2 = false ∧
      t.dev.flag 0x042 0x048 3 = s.dev.flag 0x042 0x048 3) ∧
  (∀ s : State, (s.dev.pkg = .tc ∨ s.dev.now < s.dev.packSup.pinAt + 100 ∨
      (s.dev.packSup.pin = s.dev.flag 0x042 0x040 2 ↔ s.dev.flag 0x042 0x048 0 = true)) → exec .packPresAccept s = .next s) ∧
  (∀ s : State, (s.dev.pkg = .tc ∨ s.dev.running 0x042 = false ∨ s.dev.packSup.reading.isSome = true ∨
      s.dev.now < s.dev.packSup.pollAt + s.dev.pollPeriod) → exec .packPoll s = .next s)

/-! ## 07 Whorl -/

/-- Events at a core (R159, R161, R165, R168, R177, R178): a packet, or a Reel marker where the core takes markers, enters the queue of a
core that runs or has its window open, with room; it waits on the mesh while a running core's queue is full; an OFF core, a full window, a
packet of kind 2 and an unwanted marker drop it; in a sleeping region it is lost. The event at the head of the queue is served: a refractory
neuron or one with a zero synapse stays as it is; V takes VALUE times the synapse and saturates; a neuron that crosses its threshold
fires, with V and its refractory count as R165 gives them.
The model's own readings in it: log entries 49 and 64. -/
def Obligations.WhorlEvents : Prop :=
  (∀ (s : State) (c : Fin 128) (p : WPacket), s.Powered → (s.dev.mesh.find? fun p => p.core == c.val) = some p →
    s.dev.wasleep c.val = false → s.dev.wstate c.val ≠ 0 → s.dev.wdepth c.val < 64 →
    (bits p.word 31 30 < 2 →
      ∃ t, exec (.whorlEventArrival c) s = .next t ∧ t.dev.mesh = s.dev.mesh.erase p ∧
        (t.dev.wcore c.val).inbox = (s.dev.wcore c.val).inbox ++ [.event p.input (signedOf 8 (bits p.word 7 0))]) ∧
    (bits p.word 31 30 = 3 → s.dev.wfield c.val 0 7 7 = 1 →
      ∃ t, exec (.whorlEventArrival c) s = .next t ∧ t.dev.mesh = s.dev.mesh.erase p ∧
        (t.dev.wcore c.val).inbox = (s.dev.wcore c.val).inbox ++ [.event (s.dev.wfield c.val 0 16 8) 127])) ∧
  (∀ (s : State) (c : Fin 128) (p : WPacket), s.Powered → (s.dev.mesh.find? fun p => p.core == c.val) = some p →
    s.dev.wasleep c.val = false → s.dev.wstate c.val = 1 → s.dev.wdepth c.val = 64 →
    (bits p.word 31 30 < 2 ∨ bits p.word 31 30 = 3 ∧ s.dev.wfield c.val 0 7 7 = 1) →
    exec (.whorlEventArrival c) s = .next s) ∧
  (∀ (s : State) (c : Fin 128), s.Powered → (s.dev.mesh.find? fun p => p.core == c.val) = none →
    exec (.whorlEventArrival c) s = .next s) ∧
  (∀ (s : State) (c : Fin 128) (p : WPacket), s.Powered → (s.dev.mesh.find? fun p => p.core == c.val) = some p →
    s.dev.wasleep c.val = false → s.dev.running 0x050 = true →
    (s.dev.wstate c.val = 0 ∨ bits p.word 31 30 = 2 ∨ (bits p.word 31 30 = 3 ∧ s.dev.wfield c.val 0 7 7 = 0) ∨
      (s.dev.wstate c.val = 2 ∧ s.dev.wdepth c.val = 64)) →
    ∃ t, exec (.whorlEventArrival c) s = .next t ∧ t.dev.mesh = s.dev.mesh.erase p ∧ t.dev.wcores = s.dev.wcores ∧
      t.dev.reg (whorlReg c.val 0x1C).1 (whorlReg c.val 0x1C).2 = satAdd (s.dev.reg (whorlReg c.val 0x1C).1 (whorlReg c.val 0x1C).2) 1) ∧
  (∀ (s : State) (c : Fin 128) (p : WPacket), s.Powered → (s.dev.mesh.find? fun p => p.core == c.val) = some p →
    s.dev.wasleep c.val = true → s.dev.running 0x050 = true →
    ∃ t, exec (.whorlEventArrival c) s = .next t ∧ t.dev.mesh = s.dev.mesh.erase p ∧ t.dev.wcores = s.dev.wcores ∧
      t.dev.reg 0x057 0x040 = satAdd (s.dev.reg 0x057 0x040) 1) ∧
  (∀ (s : State) (c : Fin 128) (i : Nat) (x : Int) (rest : List WItem), s.Powered →
    (s.dev.wcore c.val).inbox = .event i x :: rest → s.dev.wserves c.val = true →
    ∃ t, exec (.whorlInputEvent c) s = .next t ∧ (s.dev.running 0x050 = true → (t.dev.wcore c.val).inbox = rest ∧
      t.dev.reg (whorlReg c.val 0x14).1 (whorlReg c.val 0x14).2 =
        satAdd (s.dev.reg (whorlReg c.val 0x14).1 (whorlReg c.val 0x14).2) 1)) ∧
  (∀ (s : State) (c : Fin 128) (i : Nat) (x : Int) (rest : List WItem) (n : Fin 256), s.Powered →
    (s.dev.wcore c.val).inbox = .event i x :: rest → s.dev.wserves c.val = true → i < 512 →
    let w := s.dev.syn c.val i n.val
    let g := s.dev.ncfg c.val n.val
    let o := s.dev.nstate c.val n.val
    let v := max (-8388608) (min 8388607 (o.v + x * w))
    ∃ t, exec (.whorlInputEvent c) s = .next t ∧ t.dev.ncfg c.val n.val = g ∧
      ((w = 0 ∨ 0 < o.ref) → t.dev.nstate c.val n.val = o) ∧
      (w ≠ 0 → o.ref = 0 → v < (o.th : Int) → (g.negEn = false ∨ -(o.th : Int) < v) →
        t.dev.nstate c.val n.val = { o with v := v }) ∧
      (w ≠ 0 → o.ref = 0 → (o.th : Int) ≤ v → (t.dev.nstate c.val n.val).ref = g.refract ∧
        (t.dev.nstate c.val n.val).v = if g.subtract then v - o.th else 0) ∧
      (w ≠ 0 → o.ref = 0 → g.negEn = true → v ≤ -(o.th : Int) → (t.dev.nstate c.val n.val).ref = g.refract ∧
        (t.dev.nstate c.val n.val).v = if g.subtract then v + o.th else 0)) ∧
  (∀ (s : State) (c : Fin 128), s.Powered →
    ((∀ i x rest, (s.dev.wcore c.val).inbox ≠ .event i x :: rest) ∨ s.dev.wserves c.val = false) →
    exec (.whorlInputEvent c) s = .next s)

/-- Ticks and wake limiters (R165, R169, R175, R177): a tick of the groups written counts in each, and enters the queue of an enabled core
that runs, the groups ascending; the tick at the head of a core's queue leaks a neuron of its group and takes one from its refractory
count, and leaves the neurons of other groups; and a masked wake entry opens after 100,000 µs without a request, not before.
The model's own readings in it: log entry 61. -/
def Obligations.WhorlTicks : Prop :=
  (∀ (s : State) (ag : Agent) (groups : BitVec 8), s.Reaches 0x056 → s.dev.running 0x050 = true →
    ∃ t, exec (.swTick ag groups) s = .next t ∧ (∀ g : Fin 8, t.dev.reg 0x056 (0x060 + 4 * g.val) =
      if groups.getLsbD g.val then satAdd (s.dev.reg 0x056 (0x060 + 4 * g.val)) 1 else s.dev.reg 0x056 (0x060 + 4 * g.val)) ∧
      ∀ c : Fin 128, s.dev.wenabled c.val = true → s.dev.wasleep c.val = false → s.dev.wstate c.val = 1 →
        (t.dev.wcore c.val).inbox =
          (s.dev.wcore c.val).inbox ++ ((List.range 8).filter groups.toNat.testBit).map WItem.tick) ∧
  (∀ (s : State) (c : Fin 128) (g : Nat) (rest : List WItem) (n : Fin 256), s.Powered → (s.dev.wcore c.val).inbox = .tick g :: rest →
    s.dev.wserves c.val = true →
    let f := s.dev.ncfg c.val n.val
    let o := s.dev.nstate c.val n.val
    let v := if 0 < f.leakShift then o.v - o.v / 2 ^ f.leakShift else o.v
    ∃ t, exec (.whorlTick c) s = .next t ∧ (s.dev.running 0x050 = true → (t.dev.wcore c.val).inbox = rest) ∧
      (f.leakGroup ≠ g → t.dev.nstate c.val n.val = o) ∧
      (f.leakGroup = g → (2 ≤ o.ref ∨ (f.adaptEn = false ∧ -(o.th : Int) < v ∧ v < (o.th : Int))) →
        (t.dev.nstate c.val n.val).ref = o.ref - 1 ∧ (t.dev.nstate c.val n.val).v = v)) ∧
  (∀ (s : State) (c : Fin 128), s.Powered →
    ((∀ g rest, (s.dev.wcore c.val).inbox ≠ .tick g :: rest) ∨ s.dev.wserves c.val = false) →
    exec (.whorlTick c) s = .next s) ∧
  (∀ (s : State) (e : Fin 64), s.Powered →
    (s.dev.stormMasked e.val = true → (s.dev.storm e.val).last + 100000 ≤ s.dev.now →
      ∃ t, exec (.stormQuietExpiry e) s = .next t ∧ t.dev.stormMasked e.val = false ∧ (t.dev.storm e.val).passed = []) ∧
    ((s.dev.stormMasked e.val = false ∨ s.dev.now < (s.dev.storm e.val).last + 100000) →
      exec (.stormQuietExpiry e) s = .next s))

/-- Windows and enables (R163, R164, R166, R176, R177): a running core opens its window, which closes by a write or after WIN_TMO; CCFG.EN
= 1 runs an OFF core, EN = 0 turns it off and discards its queue; elsewhere these commands leave CSTAT.STATE. The synapses and the fan-out of
a core that does not run take the bytes of a write, NCFG its fields with TH at THR_BASE, and NSTATE its fields; a running core refuses the
write and names itself; writes above the store are ignored.
The model's own readings in it: log entry 62. -/
def Obligations.WhorlWindows : Prop :=
  (∀ (s : State) (ag : Agent) (c : Fin 128), s.Admits ag (whorlReg c.val 0).1 →
    (s.dev.wstate c.val = 1 → ∃ t, exec (.winOpen ag c) s = .next t ∧ t.dev.wstate c.val = 2 ∧ (t.dev.wcore c.val).held = [] ∧
      (t.dev.wcore c.val).opened = s.dev.now ∧ (t.dev.wcore c.val).inbox = (s.dev.wcore c.val).inbox) ∧
    (s.dev.wstate c.val ≠ 1 → exec (.winOpen ag c) s = .next s) ∧
    (s.dev.wstate c.val = 2 → ∃ t, exec (.winClose ag c) s = .next t ∧ t.dev.wstate c.val = 1 ∧
      (t.dev.wcore c.val).inbox = (s.dev.wcore c.val).inbox) ∧
    (s.dev.wstate c.val ≠ 2 → exec (.winClose ag c) s = .next s)) ∧
  (∀ (s : State) (c : Fin 128), s.Powered →
    (s.dev.wstate c.val = 2 → (s.dev.wcore c.val).opened + s.dev.winTmo ≤ s.dev.now →
      ∃ t, exec (.winTimeout c) s = .next t ∧ t.dev.wstate c.val = 1 ∧ t.dev.flag 0x050 0x014 2 = true) ∧
    ((s.dev.wstate c.val ≠ 2 ∨ s.dev.now < (s.dev.wcore c.val).opened + s.dev.winTmo) → exec (.winTimeout c) s = .next s)) ∧
  (∀ (s : State) (ag : Agent) (c : Fin 128), s.Admits ag (whorlReg c.val 0).1 →
    (∃ t, exec (.coreEnable ag c) s = .next t ∧ t.dev.wenabled c.val = true ∧
      t.dev.wstate c.val = if s.dev.wstate c.val = 0 && s.dev.running 0x050 then 1 else s.dev.wstate c.val) ∧
    (∃ t, exec (.coreDisable ag c) s = .next t ∧ t.dev.wstate c.val = 0 ∧ t.dev.wenabled c.val = false ∧
      (s.dev.wstate c.val ≠ 0 → (t.dev.wcore c.val).inbox = []))) ∧
  (∀ (s : State) (who : MemAgent) (c : Fin 128) (off : Fin 262144) (data : List Byte), s.Powered → s.dev.wstate c.val ≠ 1 →
    (off.val + data.length ≤ 0x20000 ∨ 0x21000 ≤ off.val ∧ off.val + data.length ≤ 0x22000) →
    ∃ t, exec (.whorlStoreWrite who c off data) s = .next t ∧ t.dev.bytes (whorlBase c.val + off.val) data.length = data ∧
      ∀ a, (a < whorlBase c.val + off.val ∨ whorlBase c.val + off.val + data.length ≤ a) → t.dev.byte a = s.dev.byte a) ∧
  (∀ (s : State) (who : MemAgent) (c : Fin 128) (n : Fin 256) (data : List Byte), s.Powered → s.dev.wstate c.val ≠ 1 →
    data.length = 8 →
    (∃ t, exec (.whorlStoreWrite who c (Fin.ofNat 262144 (0x20000 + 8 * n.val)) data) s = .next t ∧
      t.dev.num (whorlBase c.val + 0x20000 + 8 * n.val) 8 = ofBytesLE data % 2 ^ 50 ∧
      (t.dev.nstate c.val n.val).th = (t.dev.ncfg c.val n.val).thrBase ∧
      ∀ m : Fin 256, m ≠ n → t.dev.ncfg c.val m.val = s.dev.ncfg c.val m.val ∧ t.dev.nstate c.val m.val = s.dev.nstate c.val m.val) ∧
    (∃ t, exec (.whorlStoreWrite who c (Fin.ofNat 262144 (0x20800 + 8 * n.val)) data) s = .next t ∧
      (t.dev.nstate c.val n.val).v = signedOf 24 (slice (ofBytesLE data) 23 0) ∧
      (t.dev.nstate c.val n.val).ref = slice (ofBytesLE data) 27 24 ∧
      (t.dev.nstate c.val n.val).th = (if (s.dev.ncfg c.val n.val).adaptEn then max 1 (slice (ofBytesLE data) 47 32)
        else (s.dev.ncfg c.val n.val).thrBase) ∧
      ∀ m : Fin 256, t.dev.ncfg c.val m.val = s.dev.ncfg c.val m.val ∧
        (m ≠ n → t.dev.nstate c.val m.val = s.dev.nstate c.val m.val))) ∧
  (∀ (s : State) (who : MemAgent) (c : Fin 128) (off : Fin 262144) (data : List Byte), s.Powered → off.val + data.length ≤ 0x40000 →
    (s.dev.wstate c.val = 1 → data ≠ [] → off.val < 0x22000 →
      ∃ t, exec (.whorlStoreWrite who c off data) s = .next t ∧ t.dev.mem = s.dev.mem ∧ t.dev.flag 0x050 0x014 1 = true ∧
        t.dev.field 0x050 0x04C 6 0 = c.val) ∧
    (0x22000 ≤ off.val → exec (.whorlStoreWrite who c off data) s = .next s))

/-! ## 08 Flyer -/

/-- Streams (R187, R188, R190, R194): a chunk starts when its L steps and the A after them are there, or with GREEDY on one step and
its A; an ENDING stream and one that reaches MAX_STEPS take what is left; a pausing stream without input retires without a step; else it
waits. A retire point ends the chunk once its writes are visible, and a stream still running has counted its steps; a pausing stream pauses
there. PAUSE and END act on the state; and IN_TMO without input ends the stream with 0x40.
The model's own readings in it: log entries 68 and 76. -/
def Obligations.FlyerStreams : Prop :=
  (∀ (s : State) (e : Fin 256), s.Powered → (s.dev.stream e.val).chunk = none → s.dev.frozen 0x060 = false →
    s.dev.pageState 0x060 ∈ [1, 2, 3] →
    let f := s.dev.stream e.val
    let L := s.dev.chunkLen e.val
    let A := s.dev.lookahead e.val
    let pend := f.taken - f.scored
    let limit := (s.dev.sreg e.val 0x3C).toNat
    let most := if limit = 0 then L + A - pend else min (L + A - pend) (limit - f.taken)
    let av := s.dev.stepsReady e.val most
    let ends := limit ≠ 0 ∧ limit ≤ f.taken + av
    let greedy := s.dev.sflag e.val 0 5
    let at_ (m n st : Nat) : Prop := ∃ t, exec (.chunkStart e) s = .next t ∧ (t.dev.stream e.val).chunk = some (m, n) ∧
      t.dev.sstate e.val = st
    (s.dev.sstate e.val = 4 ∨ (s.dev.sstate e.val ∈ [1, 2] ∧ ends) → at_ av (pend + av) 4) ∧
    (s.dev.sstate e.val ∈ [1, 2] → ¬ ends →
      (greedy = true → A < pend + av → at_ av (pend + av - A) (s.dev.sstate e.val)) ∧
      (greedy = false → L + A ≤ pend + av → at_ (L + A - pend) L (s.dev.sstate e.val)) ∧
      ((greedy = true → pend + av ≤ A) → (greedy = false → pend + av < L + A) →
        (s.dev.sstate e.val = 2 → at_ 0 0 2) ∧ (s.dev.sstate e.val = 1 → exec (.chunkStart e) s = .next s)))) ∧
  (∀ (s : State) (e : Fin 256), s.Powered →
    ((s.dev.stream e.val).chunk.isSome = true ∨ s.dev.sstate e.val ∉ [1, 2, 4] ∨ s.dev.frozen 0x060 = true ∨
      s.dev.pageState 0x060 = 0 ∨ 4 ≤ s.dev.pageState 0x060) →
    exec (.chunkStart e) s = .next s) ∧
  (∀ (s : State) (e : Fin 256) (m n : Nat), s.Powered → s.dev.CanServe (fun d => d.chunkRetire e.val) →
    (s.dev.stream e.val).chunk = some (m, n) → (s.dev.stream e.val).due = none →
    ∃ t, exec (.chunkRetire e) s = .next t ∧
      ((t.dev.stream e.val).chunk = none ∨ (t.dev.stream e.val).due.isSome = true) ∧
      (t.dev.sstate e.val = 1 → (t.dev.stream e.val).taken = (s.dev.stream e.val).taken + m ∧
        (t.dev.stream e.val).scored = (s.dev.stream e.val).scored + n)) ∧
  (∀ (s : State) (e : Fin 256) (l : List (Nat × Option Word)), s.Powered → s.dev.CanServe (fun d => d.chunkRetire e.val) →
    (s.dev.stream e.val).due = some l →
    (s.dev.unanswered (Dev.streamWho (s.dev.stream e.val)) = true → exec (.chunkRetire e) s = .next s) ∧
    (s.dev.unanswered (Dev.streamWho (s.dev.stream e.val)) = false →
      ∃ t, exec (.chunkRetire e) s = .next t ∧ (t.dev.stream e.val).chunk = none ∧ (t.dev.stream e.val).due = none)) ∧
  (∀ (s : State) (e : Fin 256), s.Powered → s.dev.CanServe (fun d => d.chunkRetire e.val) →
    (s.dev.stream e.val).chunk = some (0, 0) → (s.dev.stream e.val).due = none → s.dev.sstate e.val = 2 → s.dev.sflag e.val 0 7 = false →
    (s.dev.readState e.val (s.dev.stream e.val)).2.1.poison = 0 →
    (∀ p ∈ Dev.pageParts (s.dev.sptr e.val 8)
      (Dev.stateBytes (s.dev.stream e.val) + 4 * (s.dev.stream e.val).dim * s.dev.lookahead e.val), directSram p.1) →
    s.dev.unanswered (Dev.streamWho (s.dev.stream e.val)) = false →
    ∃ t, exec (.chunkRetire e) s = .next t ∧ t.dev.sstate e.val = 3 ∧ (t.dev.stream e.val).lanes = 0 ∧
      (t.dev.stream e.val).taken = (s.dev.stream e.val).taken) ∧
  (∀ (s : State) (ag : Agent) (e : Fin 256), s.Admits ag (Dev.streamReg e.val 0).1 →
    ∃ t, exec (.streamPause ag e) s = .next t ∧ t.dev.sflag e.val 0 2 = true ∧
      t.dev.sstate e.val = if s.dev.sstate e.val = 1 then 2 else s.dev.sstate e.val) ∧
  (∀ (s : State) (ag : Agent) (e : Fin 256), s.Admits ag (Dev.streamReg e.val 0).1 →
    ∃ t, exec (.streamResume ag e) s = .next t ∧ t.dev.sflag e.val 0 2 = false ∧
      (s.dev.sstate e.val ≠ 3 → t.dev.sstate e.val = if s.dev.sstate e.val = 2 then 1 else s.dev.sstate e.val) ∧
      (s.dev.sstate e.val = 3 → s.dev.running 0x060 = true → ∀ b, s.dev.laneGroup (s.dev.laneCount e.val) = some b →
        t.dev.sstate e.val = 1 ∧ (t.dev.stream e.val).lanes = s.dev.laneCount e.val) ∧
      (s.dev.sstate e.val = 3 → (s.dev.running 0x060 = false ∨ s.dev.laneGroup (s.dev.laneCount e.val) = none) →
        t.dev.sstate e.val = 3)) ∧
  (∀ (s : State) (ag : Agent) (e : Fin 256), s.Admits ag (Dev.streamReg e.val 0).1 →
    ∃ t, exec (.streamEnd ag e) s = .next t ∧
      (s.dev.sstate e.val ∈ [1, 2] → t.dev.sstate e.val = 4) ∧
      ((s.dev.sstate e.val = 3 ∧ (s.dev.stream e.val).taken = (s.dev.stream e.val).scored ∨ s.dev.sstate e.val = 5) →
        t.dev.sstate e.val = 0) ∧
      (s.dev.sstate e.val = 3 → (s.dev.stream e.val).taken ≠ (s.dev.stream e.val).scored → t.dev.sstate e.val ∈ [0, 4, 5]) ∧
      (s.dev.sstate e.val = 6 → (t.dev.stream e.val).stop = true) ∧
      (s.dev.sstate e.val ∈ [0, 4, 7] → t = s)) ∧
  (∀ (s : State) (e : Fin 256), s.Powered →
    (s.dev.sstate e.val = 1 → (s.dev.stream e.val).chunk = none →
      s.dev.sfield e.val 0x1C 15 0 ≠ 0 → (s.dev.stream e.val).seenAt + 1000 * s.dev.sfield e.val 0x1C 15 0 ≤ s.dev.now →
      (s.dev.chan (s.dev.srcCh e.val)).wroteAt + 1000 * s.dev.sfield e.val 0x1C 15 0 ≤ s.dev.now →
      ∃ t, exec (.streamInTimeout e) s = .next t ∧ t.dev.sstate e.val = 4 ∧ (t.dev.stream e.val).status = 0x40 ∧
        t.dev.flag 0x060 0x014 4 = true) ∧
    ((s.dev.sstate e.val ≠ 1 ∨ s.dev.sfield e.val 0x1C 15 0 = 0 ∨ (s.dev.stream e.val).chunk.isSome = true ∨
        s.dev.now < (s.dev.stream e.val).seenAt + 1000 * s.dev.sfield e.val 0x1C 15 0) →
      exec (.streamInTimeout e) s = .next s))

/-! ## 09 Loom, 10 Attention -/

/-- A task in service starts once its tiles are ready (R205, R216, R220): its first command comes into service with its LAYER. Until then it
asks for them. A malformed list or command, and a command whose read meets poison or a trap, end it with LAST_FAULT as R204 and R218
give it; an aborted task retires.
The model's own readings in it: log entry 91. -/
def Obligations.LoomTaskStarts : Prop :=
  (∀ (s : State) (t' : Task), s.Powered → s.dev.CanServe Dev.loomStart → s.dev.loomTask = some t' → s.dev.loom.started = false →
    s.dev.tilesReady s.dev.loom.tiles = true → s.dev.loom.cmd = 0 →
    let r := (s.dev.read s.dev.loomWho (t'.addr 0x10) 64).1
    let c : LCmd := { raw := ofBytesLE r.bytes }
    let listBad := t'.addr 0x10 % 64 ≠ 0 ∨ bits (t'.word 5) 31 16 ≠ 0 ∨ Dev.cmdCount t' = 0
    let fails (st : Nat) : Prop := ∃ t, exec .loomTaskStart s = .next t ∧
      t.dev.reg 0x0C0 0x0E4 = BitVec.ofNat 32 (st * 65536)
    (listBad → fails 0x50) ∧
    (¬ listBad → t'.abort = true → ∃ t, exec .loomTaskStart s = .next t ∧ t.dev.reg 0x0C0 0x0E4 = s.dev.reg 0x0C0 0x0E4) ∧
    (¬ listBad → t'.abort = false →
      (∀ st, Dev.readStatus r = some st → fails st) ∧
      (Dev.readStatus r = none → s.dev.cmdBad s.dev.loom.fwd c = true → fails 0x50) ∧
      (Dev.readStatus r = none → s.dev.cmdBad s.dev.loom.fwd c = false →
        ((tilesOf (s.dev.cmdTiles c)).any fun n => (s.dev.liveTile n).isNone) = true → fails 0xF0) ∧
      (Dev.readStatus r = none → s.dev.cmdBad s.dev.loom.fwd c = false →
        ((tilesOf (s.dev.cmdTiles c)).all fun n => (s.dev.liveTile n).isSome) = true →
        ∃ t, exec .loomTaskStart s = .next t ∧ t.dev.loom.started = true ∧ t.dev.loom.slot = s.dev.loom.slot ∧
          t.dev.loom.layer = some c.layer))) ∧
  (∀ (s : State) (t' : Task), s.Powered → s.dev.CanServe Dev.loomStart → s.dev.loomTask = some t' → s.dev.loom.started = false →
    s.dev.tilesReady s.dev.loom.tiles = false →
    ∃ t, exec .loomTaskStart s = .next t ∧ t.dev.loom = s.dev.loom) ∧
  (∀ s : State, s.Powered → (s.dev.loomTask = none ∨ s.dev.loom.started = true) → exec .loomTaskStart s = .next s)

/-- Every layer command completes (R204, R205, R217, R218, R262): where its run meets no failure, poison or trap and writes direct SRAM, it
counts in CMDS, and one that writes one range leaves it there. A run that meets poison or a trap poisons its output lines and ends the task
with 0x30, 0x31 or 0x20, and one that fails ends it with its status; LAST_FAULT names the command. One that is not in service, or may not start,
changes nothing.
The model's own readings in it: log entry 6. -/
def Obligations.LayerCommandsComplete : Prop :=
  ∀ e ∈ [(Instr.gemm, LKind.gemm, LRun.gemm), (.conv, .conv, LRun.conv), (.dwconv, .dwconv, LRun.conv),
      (.elemAdd, .elemAdd, fun x => x.elem (some fadd)), (.elemMul, .elemMul, fun x => x.elem (some fmul)),
      (.elemAct, .elemAct, fun x => x.elem none), (.normRms, .normRms, fun x => x.norm 0),
      (.normMeanVariance, .normMean, fun x => x.norm 1), (.copy, .copy, LRun.copy), (.copyQuantise, .copyQuant, LRun.copyQuant),
      (.cardConv, .cardConv, LRun.cardConv), (.cardGemm, .cardGemm, LRun.gemm), (.cardTopk, .topk, LRun.topk),
      (.attnAttend, .attend, LRun.attend), (.attnAppend, .append, LRun.append), (.attnLookup, .lookup, LRun.lookup),
      (.attnInsert, .insert, LRun.insert), (.attnRelease, .release, LRun.release), (.attnPrune, .prune, LRun.prune)],
    (∀ (s : State) (c : LCmd), s.Powered → s.dev.Serves e.2.1 c → s.dev.CanServe (Dev.loomServe e.2.1 e.2.2) →
      let x := e.2.2 (s.dev.loomInput c)
      (x.EndsWell → s.dev.unanswered s.dev.loomWho = false →
        ∃ t, exec e.1 s = .next t ∧ t.dev.reg 0x0C0 0x0E0 = satAdd (s.dev.reg 0x0C0 0x0E0) 1 ∧
          (s.dev.held = [] → ∀ a l, x.outs ++ Dev.statOut x = [(a, l)] → t.dev.bytes a l.length = l)) ∧
      (∀ st, Dev.readStatus { bytes := [], trap := x.trap, poison := x.poison } = some st →
        ∃ t, exec e.1 s = .next t ∧ t.dev.reg 0x0C0 0x0E4 = BitVec.ofNat 32 (s.dev.loom.cmd + st * 65536) ∧
          ∀ o ∈ x.outs, ∀ n ∈ Dev.linesOf o.1 o.2.length, spanOf (n * 64) = .placed → t.dev.linePoison n = 1) ∧
      (∀ st, Dev.readStatus { bytes := [], trap := x.trap, poison := x.poison } = none → x.fail = some st →
        ∃ t, exec e.1 s = .next t ∧ t.dev.reg 0x0C0 0x0E4 = BitVec.ofNat 32 (s.dev.loom.cmd + st * 65536) ∧
          t.dev.reg 0x0C0 0x0E0 = s.dev.reg 0x0C0 0x0E0)) ∧
    ∀ s : State, s.Powered → (∀ c, s.dev.loomCmd = some c → kindOf c ≠ some e.2.1) → exec e.1 s = .next s

/-- The element commands over FP32 in direct SRAM (R207, R259): OUT[i] is the activation of the sum, the product, or the input alone,
for every i below N. -/
def Obligations.ElementCommands : Prop :=
  ∀ e ∈ [(Instr.elemAdd, LKind.elemAdd, some fadd, fun (a b : Word) => fadd a b),
      (.elemMul, .elemMul, some fmul, fun a b => fmul a b), (.elemAct, .elemAct, none, fun a _ => a)],
    ∀ (s : State) (c : LCmd), s.Powered → s.dev.Serves e.2.1 c → s.dev.CanServe (Dev.loomServe e.2.1 fun x => x.elem e.2.2.1) →
      s.dev.held = [] →
      c.fmtIn = 0 → c.fmtOut = 0 → c.layOut = 0 → c.stat = false →
      c.argIn = false → c.fwdIn = false → c.fwdOut = false → spanOf c.inPtr = .aon → c.inPtr + 4 * c.geom 31 0 ≤ 0x10004100000 →
      (e.1 ≠ .elemAct → spanOf c.auxPtr = .aon ∧ c.auxPtr + 4 * c.geom 31 0 ≤ 0x10004100000) →
      spanOf c.outPtr = .aon → c.outPtr + 4 * c.geom 31 0 ≤ 0x10004100000 →
      ∃ t, exec e.1 s = .next t ∧ ∀ i, i < c.geom 31 0 → t.dev.num (c.outPtr + 4 * i) 4 =
        (convertTo 0 (f32 (activate c (e.2.2.2 (rne (f32 (BitVec.ofNat 32 (s.dev.num (c.inPtr + 4 * i) 4))))
          (rne (f32 (BitVec.ofNat 32 (s.dev.num (c.auxPtr + 4 * i) 4)))))))).1

/-- Edits of the structures (R246): EDIT is acknowledged at once, its end starts the rescan, and the rescan counts the FREE spans and the
nodes in use. The end of an edit that is not under way, and the end of a rescan that is not, change nothing.
The model's own readings in it: log entry 97. -/
def Obligations.AttentionEdits : Prop :=
  (∀ (s : State) (ag : Agent), s.Admits ag 0x0C4 →
    (∃ t, exec (.kvEdit ag) s = .next t ∧ t.dev.flag 0x0C4 0x080 0 = true ∧ t.dev.flag 0x0C4 0x080 8 = true ∧ t.dev.mem = s.dev.mem) ∧
    (s.dev.flag 0x0C4 0x080 0 = true →
      ∃ t, exec (.kvEditEnd ag) s = .next t ∧ t.dev.flag 0x0C4 0x080 0 = false ∧ t.dev.flag 0x0C4 0x080 8 = false ∧
        t.dev.kvScan = true) ∧
    (s.dev.flag 0x0C4 0x080 0 = false → exec (.kvEditEnd ag) s = .next s)) ∧
  (∀ s : State, s.Powered →
    (s.dev.kvScan = true →
      ∃ t, exec .kvRescanDone s = .next t ∧ t.dev.kvScan = false ∧
        (t.dev.reg 0x0C4 0x084).toNat = ((List.range (min 1048576 (s.dev.reg 0x0C4 0x050).toNat)).filter fun i =>
          s.dev.byte (s.dev.pair48 0x0C4 0x058 / 64 * 64 + 32 * i) = 0).length ∧
        t.dev.reg 0x0C4 0x0A0 = BitVec.ofNat 32 ((List.range (s.dev.reg 0x0C4 0x070).toNat).filter fun i =>
          s.dev.byte (s.dev.pair48 0x0C4 0x068 / 64 * 64 + 320 * i) = 1).length) ∧
    (s.dev.kvScan = false → exec .kvRescanDone s = .next s))

/-! ## 12 Skein -/

/-- A write (R265, R267, R270, R272, R273, R283): to direct SRAM, or to placed pages that have frames and do not migrate while the range is
open, it stores its bytes at its address and no others, and sets the W bits; a full line loses its poison. A page without a frame
gets one; where none frees the write is dropped, counted, and its agent named. A write to a page that migrates waits behind it, and while
the placed range is closed a write waits, last of those that do.
The model's own readings in it: log entry 101. -/
def Obligations.SkeinWrites : Prop :=
  ∀ (s : State) (who : MemAgent) (addr : BitVec 48) (data : List Byte), s.Powered →
    let a := addr.toNat
    let p := pageOf a
    let inPage := spanOf a = .placed ∧ s.dev.placedOpen = true ∧ a % 65536 + data.length ≤ 65536
    let stores := ∃ t, exec (.skeinWrite who addr data) s = .next t ∧ t.dev.bus = .done ∧
      t.dev.bytes a data.length = data ∧
      (∀ x, x < a ∨ a + data.length ≤ x → t.dev.byte x = s.dev.byte x) ∧
      (∀ i, i < data.length → t.dev.lineWritten ((a + i) / 64) = true) ∧
      (∀ l, a ≤ 64 * l → 64 * l + 64 ≤ a + data.length → spanOf (64 * l) = .placed → t.dev.linePoison l = 0)
    ((∀ q ∈ Dev.pageParts a data.length, directSram q.1 ∨ (spanOf q.1 = .placed ∧ s.dev.placedOpen = true ∧
      (s.dev.place (pageOf q.1)).tier ≠ 7 ∧ s.dev.migrating (pageOf q.1) = false)) → (spanOf a = .placed → s.dev.placedOpen = true) →
      stores) ∧
    (inPage → s.dev.migrating p = false → (s.dev.place p).tier = 7 → (s.dev.giveFrame p).isSome = true → stores) ∧
    (inPage → s.dev.migrating p = false → (s.dev.place p).tier = 7 → (s.dev.giveFrame p).isNone = true → data ≠ [] →
      ∃ t, exec (.skeinWrite who addr data) s = .next t ∧ t.dev.bus = .done ∧ t.dev.mem = s.dev.mem ∧
        t.dev.reg 0x0D0 0x060 = satAdd (s.dev.reg 0x0D0 0x060) 1 ∧ t.dev.reg 0x0D0 0x064 = BitVec.ofNat 32 (Dev.nfAgent who) ∧
        t.dev.flag 0x0D0 0x014 1 = true) ∧
    (inPage → s.dev.migrating p = true → data ≠ [] →
      ∃ t, exec (.skeinWrite who addr data) s = .next t ∧ t.dev.bus = .done ∧ t.dev.mem = s.dev.mem ∧
        t.dev.held = s.dev.held ++ [{ who := who, addr := a, data := data }]) ∧
    (spanOf a = .placed → s.dev.placedOpen = false →
      ∃ t, exec (.skeinWrite who addr data) s = .next t ∧ t.dev.bus = .waiting ∧ t.dev.mem = s.dev.mem ∧
        t.dev.waits = s.dev.waits ++ [{ who := who, addr := a, data := some data, since := s.dev.now }])

/-- An access to unmapped addresses (R266), which are the addresses outside the five ranges of R265: a read by any agent gives
zeros, and a write is dropped. Either leaves memory and every task as they are, counts in UNMAPPED and sets ERR_SUM.UNMAPPED. An access
that is unmapped in part counts and sets it too, where it ends no task (R330). -/
def Obligations.UnmappedAccesses : Prop :=
  (∀ a : Nat, spanOf a = .unmapped ↔
    ¬ (a < 0x4000000000 ∨ (0x10000000000 ≤ a ∧ a < 0x10002000000) ∨ (0x10004000000 ≤ a ∧ a < 0x10004100000) ∨
      (0x10008000000 ≤ a ∧ a < 0x10008400000) ∨ (0x800000000000 ≤ a ∧ a < 0x1000000000000))) ∧
  (∀ (s : State) (who : MemAgent) (addr : BitVec 48), s.Powered →
    (∀ (n : Nat) (f : EccFind), n ≠ 0 → (∀ q ∈ Dev.pageParts addr.toNat n, spanOf q.1 = .unmapped) →
      ∃ t, exec (.skeinRead who addr n f) s = .next t ∧ t.dev.bus = .bytes (List.replicate n 0) ∧
        t.dev.mem = s.dev.mem ∧ t.dev.tasks = s.dev.tasks ∧ t.dev.reg 0x0D0 0x04C = satAdd (s.dev.reg 0x0D0 0x04C) 1 ∧
        t.dev.flag 0x0D0 0x014 2 = true) ∧
    ∀ data : List Byte, data ≠ [] → (∀ q ∈ Dev.pageParts addr.toNat data.length, spanOf q.1 = .unmapped) →
      ∃ t, exec (.skeinWrite who addr data) s = .next t ∧ t.dev.mem = s.dev.mem ∧
        t.dev.written = s.dev.written ∧ t.dev.tasks = s.dev.tasks ∧ t.dev.reg 0x0D0 0x04C = satAdd (s.dev.reg 0x0D0 0x04C) 1 ∧
        t.dev.flag 0x0D0 0x014 2 = true) ∧
  ∀ (s : State) (who : MemAgent) (addr : BitVec 48), s.Powered → (spanOf addr.toNat = .placed → s.dev.placedOpen = true) →
    (∀ slot y, who = .engine slot → s.dev.task slot.val = some y → y.st ≠ .dispatched) →
    (∀ (n : Nat) (f : EccFind), s.dev.remoteAddr addr.toNat = false → (∃ q ∈ Dev.pageParts addr.toNat n, spanOf q.1 = .unmapped) →
      ∃ t, exec (.skeinRead who addr n f) s = .next t ∧ t.dev.mem = s.dev.mem ∧
        t.dev.reg 0x0D0 0x04C = satAdd (s.dev.reg 0x0D0 0x04C) 1 ∧ t.dev.flag 0x0D0 0x014 2 = true) ∧
    ∀ data : List Byte, (∃ q ∈ Dev.pageParts addr.toNat data.length, spanOf q.1 = .unmapped) →
      ∃ t, exec (.skeinWrite who addr data) s = .next t ∧ t.dev.reg 0x0D0 0x04C = satAdd (s.dev.reg 0x0D0 0x04C) 1 ∧
        t.dev.flag 0x0D0 0x014 2 = true

/-- A read (R265, R267, R273, R284, R287, R330) leaves memory as it is: direct SRAM gives its bytes, the placed range those its agent
sees, its own waiting writes applied; poisoned data to a port that meets poison, and the status of R330 to the task of an engine; while the
placed range is closed it waits, and so does one of another device's memory (R445). The patrol scrub of an HBM word counts a corrected error, poisons the line of an uncorrectable one, and
else changes nothing.
The model's own readings in it: log entry 101. -/
def Obligations.SkeinReads : Prop :=
  (∀ (s : State) (who : MemAgent) (addr : BitVec 48) (n : Nat) (f : EccFind), s.Powered →
    ((∀ q ∈ Dev.pageParts addr.toNat n, directSram q.1) → directSram addr.toNat →
      ∃ t, exec (.skeinRead who addr n f) s = .next t ∧ t.dev.bus = .bytes (s.dev.bytes addr.toNat n) ∧ t.dev.mem = s.dev.mem) ∧
    (spanOf addr.toNat = .placed → s.dev.placedOpen = true → addr.toNat % 65536 + n ≤ 65536 →
      (f ≠ .uncorrectable ∨ (s.dev.place (pageOf addr.toNat)).tier ≠ 3) →
      (∀ l ∈ Dev.linesOf addr.toNat n, s.dev.linePoison l = 0 ∧
        (s.dev.lineWritten l = true ∨ (s.dev.place (pageOf addr.toNat)).trap = false)) →
      ∃ t, exec (.skeinRead who addr n f) s = .next t ∧ t.dev.bus = .bytes (s.dev.view who addr.toNat n) ∧ t.dev.mem = s.dev.mem) ∧
    (spanOf addr.toNat = .placed → s.dev.placedOpen = false →
      ∃ t, exec (.skeinRead who addr n f) s = .next t ∧ t.dev.bus = .waiting ∧ t.dev.mem = s.dev.mem ∧
        t.dev.waits = s.dev.waits ++ [{ who := who, addr := addr.toNat, len := n, found := f, since := s.dev.now }]) ∧
    (s.dev.remoteAddr addr.toNat = true →
      ∃ t, exec (.skeinRead who addr n f) s = .next t ∧ t.dev.bus = .waiting ∧ t.dev.mem = s.dev.mem ∧ t.dev.remotes = s.dev.remotes ++
        [{ tag := s.dev.nextTag, read := true, who := who, addr := addr.toNat, len := n, sent := s.dev.now }])) ∧
  (∀ (s : State) (p : Port) (addr : BitVec 48) (n : Nat), s.Powered → spanOf addr.toNat = .placed → s.dev.placedOpen = true →
    s.dev.heldOf (.port p) = [] → addr.toNat % 65536 + n ≤ 65536 →
    (∃ l ∈ Dev.linesOf addr.toNat n, s.dev.linePoison l ≠ 0) →
    ∃ t, exec (.skeinRead (.port p) addr n .clean) s = .next t ∧ t.dev.bus = .poisoned ∧ t.dev.mem = s.dev.mem) ∧
  (∀ (s : State) (slot : Fin 4096) (y : Task) (addr : BitVec 48) (n st : Nat), s.Powered → s.dev.TasksWf → spanOf addr.toNat = .placed →
    s.dev.placedOpen = true → s.dev.task slot.val = some y → y.st = .dispatched →
    Dev.readStatus (s.dev.read (.engine slot) addr.toNat n).1 = some st →
    ∃ t, exec (.skeinRead (.engine slot) addr n .clean) s = .next t ∧ t.dev.bus = .poisoned ∧ t.dev.mem = s.dev.mem ∧
      t.dev.RetiredWith slot.val st) ∧
  ∀ (s : State) (addr : BitVec 48), s.Powered →
    ((s.dev.reg 0x0D5 0x050 ≠ 0 → s.dev.hbmReady = true → spanOf addr.toNat = .placed →
      (s.dev.place (pageOf addr.toNat)).tier = 3 →
      (∃ t, exec (.hbmPatrolScrub addr .corrected) s = .next t ∧ t.dev.reg 0x0D5 0x040 = satAdd (s.dev.reg 0x0D5 0x040) 1 ∧
        t.dev.mem = s.dev.mem) ∧
      ∃ t, exec (.hbmPatrolScrub addr .uncorrectable) s = .next t ∧ t.dev.reg 0x0D5 0x044 = satAdd (s.dev.reg 0x0D5 0x044) 1 ∧
        t.dev.pair48 0x0D5 0x048 = addr.toNat ∧ t.dev.linePoison (addr.toNat / 64) = 1 ∧ t.dev.mem = s.dev.mem) ∧
    ∀ f : EccFind, (f = .clean ∨ s.dev.reg 0x0D5 0x050 = 0 ∨ s.dev.hbmReady = false ∨ spanOf addr.toNat ≠ .placed ∨
      (s.dev.place (pageOf addr.toNat)).tier ≠ 3) → exec (.hbmPatrolScrub addr f) s = .next s)

/-- A migration switches its page to its new frame and leaves every byte as it was (R273): the first in the order of service (R274) that
can switch. A prefetch slot (R278, R279) runs through the layers of its header, whose first entry is not due yet; a malformed header
stops it with its error bit, and PF_CTRL.STOP ends its moves.
The model's own readings in it: log entries 104 and 105. -/
def Obligations.MigrationsAndPrefetch : Prop :=
  ((∀ (s : State) (m : Migration), s.Powered → Sparse.wf Place.atReset s.dev.places = true → s.dev.migHead = some m →
    let x := s.dev.place m.page
    let d := s.dev.migDest m
    let y := s.dev.migPlace m
    let moves := x.tier ≠ 7 ∧ (x.tier ≠ d ∨ (d = 0 ∧ m.slot.isSome = true))
    (∀ f, moves → s.dev.moveFrame d y = some f →
      (s.dev.held = [] →
        ∃ t, exec .migrationSwitch s = .next t ∧ (t.dev.place m.page).tier = d ∧ (t.dev.place m.page).frame = f ∧
          t.dev.mem = s.dev.mem) ∧
      (∀ h, s.dev.held = [h] → spanOf h.addr = .placed → pageOf h.addr = m.page → h.addr % 65536 + h.data.length ≤ 65536 →
        s.dev.placedOpen = true → (s.dev.migs.filter fun m' => m'.page == m.page) = [m] →
        ∃ t, exec .migrationSwitch s = .next t ∧ (t.dev.place m.page).tier = d ∧ t.dev.held = [] ∧
          t.dev.bytes h.addr h.data.length = h.data)) ∧
    (moves → (s.dev.roomIn d y).moveFrame d y = none → s.dev.held = [] →
      ∃ t, exec .migrationSwitch s = .next t ∧ (t.dev.place m.page).tier = x.tier ∧ t.dev.flag 0x0D0 0x014 1 = true ∧
        t.dev.mem = s.dev.mem) ∧
    (¬ moves → s.dev.held = [] →
      ∃ t, exec .migrationSwitch s = .next t ∧ (t.dev.place m.page).tier = x.tier ∧ t.dev.mem = s.dev.mem)) ∧
  ∀ s : State, s.Powered → s.dev.migHead = none → exec .migrationSwitch s = .next s) ∧
  ((∀ (s : State) (ag : Agent) (j : Fin 16), s.Admits ag 0x0D3 →
    let a := s.dev.pfBase j.val
    let e := s.dev.pfEntry j.val 0
    let b := (s.dev.read .producer a 16).1.bytes
    let num (o n : Nat) : Nat := ofBytesLE ((b.drop o).take n)
    let good := a % 64 = 0 ∧ num 0 1 = 1 ∧ num 1 1 = 0 ∧ num 4 12 = 0 ∧ 1 ≤ num 2 2 ∧ num 2 2 ≤ 4096
    (s.dev.closedAt a = true →
      ∃ t, exec (.pfStart ag j) s = .next t ∧ t.dev.pfSlot j.val = { run := true } ∧ t.dev.mem = s.dev.mem) ∧
    (s.dev.closedAt a = false → good → s.dev.closedAt e = false →
      s.dev.num (e + 2) 2 = 0 → 1 ≤ s.dev.num (e + 4) 4 → s.dev.num (e + 4) 4 ≤ 65535 → s.dev.num (e + 8) 8 % 64 = 0 →
      s.dev.num (e + 8) 8 < 2 ^ 48 →
      (s.dev.loom.layer.map (· + 1)).getD 0 + s.dev.field 0x0D3 (0x048 + 0x10 * j.val) 11 8 ≤ s.dev.num e 2 →
      ∃ t, exec (.pfStart ag j) s = .next t ∧
        t.dev.pfSlot j.val = { run := true, head := true, next := 0, layers := num 2 2 } ∧ t.dev.mem = s.dev.mem) ∧
    (s.dev.closedAt a = false → ¬ good →
      ∃ t, exec (.pfStart ag j) s = .next t ∧ (t.dev.pfSlot j.val).run = false ∧ t.dev.flag 0x0D0 0x014 3 = true)) ∧
  (∀ (s : State) (ag : Agent) (j : Fin 16), s.Admits ag 0x0D3 →
    ((s.dev.pfSlot j.val).run = true →
      ∃ t, exec (.pfStop ag j) s = .next t ∧ (t.dev.pfSlot j.val).run = false ∧ t.dev.flag 0x0D3 (0x04C + 0x10 * j.val) 8 = false ∧
        (s.dev.held = [] → t.dev.places = s.dev.places ∧ t.dev.mem = s.dev.mem) ∧
        ∀ m ∈ t.dev.migs, m.slot = some j.val → some m = s.dev.migHead) ∧
    ((s.dev.pfSlot j.val).run = false → exec (.pfStop ag j) s = .next s)))

/-- The placement command (R277): SET writes the attributes that MASK names to every page of its range, FREE takes the pages' frames,
contents, W bits and poison, READ shows the entry; each is BUSY until PLC_DONE. Beyond the placed range they give RESULT 2, and a
write of PLC_OP while BUSY only gives RESULT 3.
The model's own readings in it: log entry 107. -/
def Obligations.PlacementCommands : Prop :=
  (∀ (s : State) (ag : Agent), s.Admits ag 0x0D1 → s.dev.flag 0x0D1 0x058 0 = false →
    let p := pageOf (s.dev.pair48 0x0D1 0x040)
    let n := max 1 (min 65536 (s.dev.reg 0x0D1 0x048).toNat)
    (p + n ≤ 0x400000 →
      (∃ t, exec (.plcSet ag) s = .next t ∧ t.dev.reg 0x0D1 0x058 = 1 ∧
        ∀ i v m x y, i < n → v = s.dev.reg 0x0D1 0x04C → m = s.dev.reg 0x0D1 0x050 → x = s.dev.place (p + i) →
          y = t.dev.place (p + i) →
          (y.best = if bit m 0 then bits v 5 3 else x.best) ∧ (y.worst = if bit m 0 then bits v 8 6 else x.worst) ∧
          (y.fix = if bit m 1 then bits v 11 9 else x.fix) ∧ (y.pin = if bit m 1 then bit v 12 else x.pin) ∧
          (y.trap = if bit m 2 then bit v 13 else x.trap) ∧ (y.tile = if bit m 3 then bits v 19 14 else x.tile) ∧
          (y.anyTile = if bit m 3 then bit v 20 else x.anyTile)) ∧
      ∃ t, exec (.plcFree ag) s = .next t ∧ t.dev.reg 0x0D1 0x058 = 1 ∧ t.dev.plc = some { result := 0, done := n } ∧
        ∀ i, i < n → (t.dev.place (p + i)).tier = 7 ∧
          ∀ a, pageOf a = p + i → t.dev.byte a = 0 ∧ t.dev.lineWritten (a / 64) = false ∧ t.dev.linePoison (a / 64) = 0) ∧
    (0x400000 < p + n → ∀ c ∈ [Instr.plcSet ag, .plcFree ag],
      ∃ t, exec c s = .next t ∧ t.dev.reg 0x0D1 0x058 = 0x20 ∧ t.dev.places = s.dev.places ∧ t.dev.mem = s.dev.mem) ∧
    (p < 0x400000 → ∃ t, exec (.plcRead ag) s = .next t ∧ t.dev.reg 0x0D1 0x058 = 1 ∧
      t.dev.plc = some { result := 0, done := 1 } ∧ t.dev.reg 0x0D1 0x05C = BitVec.ofNat 32 (s.dev.plcEntry p) ∧
      t.dev.reg 0x0D1 0x060 = BitVec.ofNat 32 (s.dev.plcEntry p / 2 ^ 32) ∧
      t.dev.places = s.dev.places ∧ t.dev.mem = s.dev.mem) ∧
    (0x400000 ≤ p → ∃ t, exec (.plcRead ag) s = .next t ∧ t.dev.reg 0x0D1 0x058 = 0x20 ∧ t.dev.mem = s.dev.mem)) ∧
  (∀ (s : State) (ag : Agent), s.Admits ag 0x0D1 → s.dev.flag 0x0D1 0x058 0 = true →
    ∀ c ∈ [Instr.plcSet ag, .plcFree ag, .plcRead ag],
      ∃ t, exec c s = .next t ∧ t.dev.field 0x0D1 0x058 7 4 = 3 ∧ t.dev.places = s.dev.places ∧ t.dev.mem = s.dev.mem) ∧
  ∀ s : State, s.Powered →
    (∀ x : Plc, s.dev.plc = some x → ∃ t, exec .plcDone s = .next t ∧ t.dev.plc = none ∧
      t.dev.reg 0x0D1 0x058 = BitVec.ofNat 32 (x.result * 16 + x.done * 256)) ∧
    (s.dev.plc = none → exec .plcDone s = .next s)


/-- Lending (R280, R282, R286, R333): a tile that may lend is LENT; a reclaim asks for every page placed at the neighbour, and the
lender's release, once they are back or RECLAIM_TMO + 5 ms after it, takes the lent pages back; pages that do not come back in time, or
whose neighbour is lost, are poisoned and have no frame. HBM is ready once its initialisation is done. Where its condition does not hold
each of these does nothing.
The model's own readings in it: log entries 108, 109 and 196. -/
def Obligations.LendingAndNeighbours : Prop :=
  (∀ (s : State) (n : Fin 64), s.Powered →
    (s.dev.mayLend n.val = true → s.dev.lent n.val = false →
      ∃ t, exec (.tileLend n) s = .next t ∧ t.dev.lent n.val = true ∧
        t.dev.flag 0x0C0 (0x0D0 + 4 * (n.val / 32)) (n.val % 32) = true) ∧
    ((s.dev.mayLend n.val = false ∨ s.dev.lent n.val = true) → exec (.tileLend n) s = .next s)) ∧
  (∀ (s : State) (ag : Agent) (n : Fin 4), s.Admits ag 0x0D4 →
    (s.dev.nbOn n.val = true →
      ∃ t, exec (.nbReclaim ag n) s = .next t ∧ t.dev.nbAsked n.val = some s.dev.now ∧
        ∀ p ∈ s.dev.nbPages (s.dev.nbDev n.val), ∃ m ∈ t.dev.migs, m.page = p ∧ m.dest = 3) ∧
    (s.dev.nbOn n.val = false → exec (.nbReclaim ag n) s = .next s)) ∧
  (∀ (s : State) (n : Fin 4), s.Powered →
    let pages := s.dev.nbPages (s.dev.nbDev n.val)
    let lost (t : State) : Prop := s.dev.held = [] →
      ∀ p ∈ pages, (t.dev.place p).tier = 7 ∧ ∀ l, l / 1024 = p → t.dev.linePoison l = 2
    (∀ a, s.dev.nbAsked n.val = some a →
      (a + s.dev.reclaimTmo ≤ s.dev.now → pages ≠ [] →
        ∃ t, exec (.nbReclaimTimeout n) s = .next t ∧ t.dev.flag 0x0D0 0x014 5 = true ∧ lost t) ∧
      ((s.dev.now < a + s.dev.reclaimTmo ∨ pages = []) → exec (.nbReclaimTimeout n) s = .next s) ∧
      ((a + s.dev.reclaimTmo + 5000 ≤ s.dev.now ∨ pages = []) →
        ∃ t, exec (.nbLenderRelease n) s = .next t ∧ t.dev.nbAsked n.val = none ∧ t.dev.lentOut n.val = 0) ∧
      (s.dev.now < a + s.dev.reclaimTmo + 5000 → pages ≠ [] → exec (.nbLenderRelease n) s = .next s)) ∧
    (s.dev.nbAsked n.val = none → exec (.nbReclaimTimeout n) s = .next s ∧ exec (.nbLenderRelease n) s = .next s) ∧
    (s.dev.nbOn n.val = true →
      ∃ t, exec (.neighbourLoss n) s = .next t ∧ t.dev.nbOn n.val = false ∧ t.dev.flag 0x0D4 (0x05C + 0x10 * n.val) 31 = true ∧
        lost t) ∧
    (s.dev.nbOn n.val = false → exec (.neighbourLoss n) s = .next s)) ∧
  (∀ s : State, s.Powered →
    ∃ t, exec .hbmInitDone s = .next t ∧ t.dev.hbmReady = true ∧
      (s.dev.waits = [] → s.dev.held = [] → t.dev.mem = s.dev.mem))

/-! ## 13 Shuttle, 14 Error log -/

/-- A submission (R292, R293): accepted, the descriptor takes the lowest free slot and the ring's next SEQ, which its agent reads in
SUB_LAST with RESULT 0 and TAKEN 1; otherwise it is counted and changes no task. A batch waits for its fetch, which submits its
descriptor.
The model's own readings in it: log entry 114. -/
def Obligations.Submissions : Prop :=
  (∀ (s : State) (ag : Agent) (r : Fin 64) (v : Word), s.Reaches (ringPage r.val) →
    (s.dev.submitResult r.val = 0 → s.dev.TasksWf →
      ∃ t y, exec (.submitDirect ag r v) s = .next t ∧
        t.dev.reg (ringPage r.val) 0x064 = s.dev.reg (ringPage r.val) 0x064 + 1 ∧
        t.dev.agentReg ag (ringPage r.val) 0x06C = 16 ∧
        t.dev.agentReg ag (ringPage r.val) 0x070 = s.dev.reg (ringPage r.val) 0x064 ∧
        t.dev.task s.dev.freeSlot = some y ∧ y.ring = r.val ∧ y.seq = s.dev.reg (ringPage r.val) 0x064 ∧ y.word 15 = v ∧
        (∀ i, i < 15 → y.word i = s.dev.agentReg ag (ringPage r.val) (0x0C0 + 4 * i))) ∧
    (s.dev.submitResult r.val ≠ 0 →
      ∃ t, exec (.submitDirect ag r v) s = .next t ∧ t.dev.tasks = s.dev.tasks ∧
        t.dev.reg (ringPage r.val) 0x098 = satAdd (s.dev.reg (ringPage r.val) 0x098) 1 ∧
        t.dev.agentReg ag (ringPage r.val) 0x06C = BitVec.ofNat 32 (s.dev.submitResult r.val))) ∧
  (∀ (s : State) (ag : Agent) (r : Fin 64) (n : Fin 512), s.Reaches (ringPage r.val) →
    ∃ t, exec (.submitBatch ag r n) s = .next t ∧ t.dev = { s.dev with batches := s.dev.batches ++
      if n.val = 0 ∨ 256 < n.val then []
      else [{ agent := ag, ring := r.val, addr := s.dev.pair48 (ringPage r.val) 0x074 / 64 * 64, count := n.val }] }) ∧
  (∀ (s : State) (ag : Agent) (r : Fin 64) (b : Batch), s.Powered → s.dev.CanServe (fun d => d.batchDone ag r.val) →
    s.dev.batches.find? (fun b => b.agent == ag && b.ring == r.val) = some b → 1 ≤ b.count →
    (s.dev.submitResult r.val = 0 →
      ∃ t k res, exec (.batchFetchDone ag r) s = .next t ∧ t.dev.batches = s.dev.batches.erase b ∧ 1 ≤ k ∧ k ≤ b.count ∧
        t.dev.reg (ringPage r.val) 0x064 = s.dev.reg (ringPage r.val) 0x064 + BitVec.ofNat 32 k ∧
        t.dev.agentReg ag (ringPage r.val) 0x070 = s.dev.reg (ringPage r.val) 0x064 + BitVec.ofNat 32 (k - 1) ∧
        t.dev.agentReg ag (ringPage r.val) 0x06C = BitVec.ofNat 32 (res + k * 16) ∧ res ≤ 2 ∧ (b.count = 1 → res = 0) ∧
        (k < b.count → res ≠ 0)) ∧
    (s.dev.submitResult r.val ≠ 0 →
      ∃ t, exec (.batchFetchDone ag r) s = .next t ∧ t.dev.batches = s.dev.batches.erase b ∧ t.dev.tasks = s.dev.tasks ∧
        t.dev.reg (ringPage r.val) 0x064 = s.dev.reg (ringPage r.val) 0x064 ∧
        t.dev.agentReg ag (ringPage r.val) 0x06C = BitVec.ofNat 32 (s.dev.submitResult r.val))) ∧
  (∀ (s : State) (ag : Agent) (r : Fin 64), s.Powered →
    s.dev.batches.find? (fun b => b.agent == ag && b.ring == r.val) = none → exec (.batchFetchDone ag r) s = .next s)

/-- Dispatch (R184, R185, R194, R201, R299–R302, R347): a candidate of a class goes to its engine once the regions it needs run, and until
then votes for them. A Spindle task's fields arrive in g1 to g12, g14 and g15 of its core; a mover shows its ring, SEQ and length, and
one of no bytes fails; Loom has one task in service, or fails it while its page does not run; a Flyer task that needs no lanes retires,
one that gets lanes starts its stream or ends with it in FAULT. A class without candidates, and a frozen Loom or Flyer, dispatch none.
The model's own readings in it: log entries 25 and 38. -/
def Obligations.DispatchToEngines : Prop :=
  (∀ (s : State) (k n : Nat) (x : Task), s.Powered → s.dev.TasksWf →
    (s.dev.candidates 0).findSome? (fun e => (s.dev.idleCore [] e.2).map fun n => (e, n)) = some ((k, x), n) →
    (s.dev.regionsRun [coreRegion n] = true →
      ∃ t, exec (.dispatch .spindle) s = .next t ∧ t.dev.DispatchedTo k n ∧ (t.dev.core n).task = some k ∧
        (t.dev.core n).reg 1 = (if x.kind = 8 then s.dev.reg (ringPage x.ring) 0x05C else x.word 4) ∧
        (∀ i, i < 11 → (t.dev.core n).reg (2 + i) = x.word (5 + i)) ∧
        (t.dev.core n).reg 14 = x.tag ∧ (t.dev.core n).reg 15 = x.seq) ∧
    (s.dev.regionsRun [coreRegion n] = false →
      ∃ t y, exec (.dispatch .spindle) s = .next t ∧ t.dev.task k = some y ∧ y.st = x.st ∧ coreRegion n ∈ y.voted ∧
        (t.dev.core n).task = none)) ∧
  (∀ (s : State) (k m : Nat) (x : Task) (l : List (Nat × Task)), s.Powered → s.dev.TasksWf → s.dev.candidates 3 = (k, x) :: l →
    s.dev.idleMover [] x = some m →
    (s.dev.regionsRun [80 + m] = true →
      (x.word 8 ≠ 0 → ∃ t, exec (.dispatch .mover) s = .next t ∧ t.dev.DispatchedTo k m ∧
        t.dev.reg (Dev.moverPage m) 0x040 = BitVec.ofNat 32 (1 + x.ring * 256) ∧ t.dev.reg (Dev.moverPage m) 0x044 = x.seq ∧
        t.dev.reg (Dev.moverPage m) 0x048 = x.word 8) ∧
      (x.word 8 = 0 → ∃ t, exec (.dispatch .mover) s = .next t ∧ t.dev.RetiredWith k 0x50)) ∧
    (s.dev.regionsRun [80 + m] = false →
      ∃ t y, exec (.dispatch .mover) s = .next t ∧ t.dev.task k = some y ∧ y.st = x.st ∧ 80 + m ∈ y.voted)) ∧
  (∀ (s : State) (k : Nat) (x : Task) (l : List (Nat × Task)), s.Powered → s.dev.TasksWf → s.dev.candidates 2 = (k, x) :: l →
    s.dev.loom.slot = none → s.dev.frozen 0x0C0 = false →
    let tiles := s.dev.liveTiles (s.dev.namedTiles x)
    (s.dev.closedAt (x.addr 0x10) = false → tiles.any s.dev.lent = false → s.dev.regionsRun tiles = true →
      (s.dev.running 0x0C0 = true →
        ∃ t, exec (.dispatch .loom) s = .next t ∧ t.dev.DispatchedTo k 0xFF ∧ t.dev.loom.slot = some k) ∧
      (s.dev.running 0x0C0 = false → ∃ t, exec (.dispatch .loom) s = .next t ∧ t.dev.RetiredWith k 0xF0)) ∧
    (s.dev.closedAt (x.addr 0x10) = false → tiles.any s.dev.lent = false → s.dev.regionsRun tiles = false →
      ∃ t y, exec (.dispatch .loom) s = .next t ∧ t.dev.loom.slot = none ∧ t.dev.task k = some y ∧ y.st = x.st ∧
        ∀ n ∈ tiles, n ∈ y.voted ∨ s.dev.regionNow n = .run) ∧
    ((s.dev.closedAt (x.addr 0x10) = true ∨ tiles.any s.dev.lent = true) →
      ∃ t, exec (.dispatch .loom) s = .next t ∧ t.dev.loom.slot = none ∧ t.dev.task k = s.dev.task k)) ∧
  (∀ (s : State) (k : Nat) (x : Task) (l : List (Nat × Task)), s.Powered → s.dev.frozen 0x060 = false → s.dev.resumeAll.TasksWf →
    s.dev.resumeAll.candidates 1 = (k, x) :: l →
    let d := s.dev.resumeAll
    let e := bits (x.word 4) 7 0
    (x.kind = 3 → ∃ t, exec (.dispatch .flyer) s = .next t ∧ t.dev.RetiredWith k
      (if x.word 8 = 0 then 0x50
        else if d.running 0x060 && [1, 2].contains (d.sstate e) && d.srcCh e = 31 then 0 else 0xF0)) ∧
    (x.kind ≠ 3 → ∀ st, d.startStatus e = some st → ∃ t, exec (.dispatch .flyer) s = .next t ∧ t.dev.RetiredWith k st) ∧
    (x.kind ≠ 3 → d.startStatus e = none →
      (d.laneGroup (d.laneCount e) = none → ∃ t, exec (.dispatch .flyer) s = .next t ∧ t.dev = d) ∧
      (∀ b, d.laneGroup (d.laneCount e) = some b → d.regionsRun (Dev.laneRegions b (d.laneCount e)) = false →
        d.CanServe (fun d => d.voteFor k x (Dev.laneRegions b (s.dev.resumeAll.laneCount e))) →
        ∃ t y, exec (.dispatch .flyer) s = .next t ∧ t.dev.task k = some y ∧ y.st = x.st ∧
          ∀ n ∈ Dev.laneRegions b (d.laneCount e), n ∈ y.voted ∨ d.regionNow n = .run) ∧
      ∀ b, d.laneGroup (d.laneCount e) = some b → d.regionsRun (Dev.laneRegions b (d.laneCount e)) = true →
        d.CanServe (fun d => (((d.dispatched k x b).takeLanes e b (s.dev.resumeAll.laneCount e)).streamBegin e k x)) →
        ∃ t, exec (.dispatch .flyer) s = .next t ∧
          ((t.dev.sstate e ∈ [1, 2] ∧ (t.dev.stream e).task = some k ∧ t.dev.DispatchedTo k b) ∨
            (t.dev.sstate e = 5 ∧ ∃ st, st ≠ 0 ∧ t.dev.RetiredWith k st)))) ∧
  ∀ s : State, s.Powered →
    (s.dev.candidates 0 = [] → exec (.dispatch .spindle) s = .next s) ∧
    (s.dev.candidates 3 = [] → exec (.dispatch .mover) s = .next s) ∧
    ((s.dev.candidates 2 = [] ∨ s.dev.loom.slot.isSome = true ∨ s.dev.frozen 0x0C0 = true) → exec (.dispatch .loom) s = .next s) ∧
    (s.dev.frozen 0x060 = true → exec (.dispatch .flyer) s = .next s) ∧
    (s.dev.frozen 0x060 = false → s.dev.resumeAll.candidates 1 = [] →
      ∃ t, exec (.dispatch .flyer) s = .next t ∧ t.dev = s.dev.resumeAll)

/-- A mover's fill (R302) writes its pattern over its range in direct SRAM and no other byte, and its task retires with status 0. A
completion record (R296, R297) is posted for the ring's retired head, in SEQ order, with its SEQ, TAG, STATUS, flags with PHASE and
PROGRESS, at the queue's tail and nowhere else, and its slot is free.
The model's own readings in it: log entries 115 and 120. -/
def Obligations.MoversAndRecords : Prop :=
  ((∀ (s : State) (m : Fin 4) (k : Nat) (x : Task), s.Powered → s.dev.TasksWf → s.dev.CanServe (fun d => d.moverRetire m.val) →
    s.dev.moverTask m.val = some (k, x) → x.moved = none → s.dev.unanswered (.engine (Fin.ofNat 4096 k)) = false →
    let n := (x.word 8).toNat
    let dst := Dev.moverDst x
    n ≠ 0 → spanOf dst = .aon → spanOf (dst + n - 1) = .aon →
    (x.kind = 5 → spanOf (x.addr 0x10) = .aon ∧ spanOf (x.addr 0x10 + n - 1) = .aon) →
    ∃ t, exec (.moverRetire m) s = .next t ∧ t.dev.RetiredWith k (if x.abort then (Dev.abortStatus x).1 else 0) ∧
      t.dev.reg (Dev.moverPage m.val) 0x040 = 0 ∧
      (x.abort = false → x.kind ≠ 5 → ∀ i, i < n → t.dev.byte (dst + i) =
        (bytesLE 8 ((x.word 6).toNat + (x.word 7).toNat * 2 ^ 32)).getD (i % 8) 0) ∧
      (x.abort = false → x.kind = 5 → (x.addr 0x10 + n ≤ dst ∨ dst + n ≤ x.addr 0x10) →
        ∀ i, i < n → t.dev.byte (dst + i) = s.dev.byte (x.addr 0x10 + i)) ∧
      (∀ a, a < dst ∨ dst + n ≤ a → t.dev.byte a = s.dev.byte a)) ∧
  ∀ (s : State) (m : Fin 4), s.Powered → s.dev.moverTask m.val = none → exec (.moverRetire m) s = .next s) ∧
  ((∀ (s : State) (r : Fin 64) (k : Nat) (x : Task), s.Powered → s.dev.running (ringPage r.val) = true →
    s.dev.taskList.find? (fun e => e.2.ring == r.val && e.2.seq == s.dev.reg (ringPage r.val) 0x068 && e.2.st == .retired) = some (k, x) →
    let base := s.dev.pair48 (ringPage r.val) 0x048 / 64 * 64
    let tail := (s.dev.reg (ringPage r.val) 0x054).toNat
    let a := base + 16 * tail
    let full := base ≠ 0 ∧ (tail + 1) % s.dev.cqSize r.val = (s.dev.reg (ringPage r.val) 0x058).toNat
    (¬ full → s.dev.CanServe (fun d => d.completionPost r.val) →
      ∃ t, exec (.completionPost r) s = .next t ∧ t.dev.task k = none ∧
        t.dev.reg (ringPage r.val) 0x068 = s.dev.reg (ringPage r.val) 0x068 + 1 ∧
        (base = 0 → t.dev.mem = s.dev.mem ∧ t.dev.reg (ringPage r.val) 0x054 = s.dev.reg (ringPage r.val) 0x054) ∧
        (base ≠ 0 → (t.dev.reg (ringPage r.val) 0x054).toNat = (tail + 1) % s.dev.cqSize r.val ∧
          (spanOf a = .aon →
            t.dev.num a 4 = (s.dev.reg (ringPage r.val) 0x068).toNat ∧ t.dev.num (a + 4) 4 = x.tag.toNat ∧
            t.dev.num (a + 8) 1 = x.status % 256 ∧
            (x.cflags < 128 → t.dev.num (a + 9) 1 = x.cflags + (s.dev.ringPhase r.val).toNat * 128) ∧
            t.dev.num (a + 12) 4 = x.progress % 2 ^ 32 ∧
            ∀ y, y < a ∨ a + 16 ≤ y → t.dev.byte y = s.dev.byte y))) ∧
    (full → exec (.completionPost r) s = .next s)) ∧
  ∀ (s : State) (r : Fin 64), s.Powered →
    s.dev.taskList.find? (fun e => e.2.ring == r.val && e.2.seq == s.dev.reg (ringPage r.val) 0x068 && e.2.st == .retired) = none →
    exec (.completionPost r) s = .next s)


/-- Timeouts and aborts (R303, R307, R308, R309): a dispatched task past its limit is to be aborted with TIMEOUT, at a core or a mover by
a request that it sees; an abort of a task not dispatched retires it with 0x10 and answers ABORTED, one of a task that has gone answers
TOO_LATE, one of a dispatched task is BUSY until it is answered, one while BUSY or of a SEQ not given yet is an error. A flush of a ring
and of a delay list complete their undispatched tasks with 0x10; a list that is enabled owns its MARK.
The model's own readings in it: log entries 116 and 117. -/
def Obligations.TimeoutsAbortsFlushes : Prop :=
  (∀ (s : State) (k : Fin 4096) (x : Task), s.Powered → s.dev.task k.val = some x →
    (x.st = .dispatched → x.limit ≠ 0 → x.start + x.limit ≤ s.dev.now → x.abort = false →
      ∃ t y, exec (.taskTimeout k) s = .next t ∧ t.dev.task k.val = some y ∧ y.abort = true ∧ y.tmo = true ∧
        (s.dev.ringClass x.ring = 0 ∨ s.dev.ringClass x.ring = 3 → y = { x with abort := true, tmo := true }) ∧
        (s.dev.ringClass x.ring = 0 → (t.dev.core x.unit).abort = true)) ∧
    ((x.st ≠ .dispatched ∨ x.limit = 0 ∨ s.dev.now < x.start + x.limit ∨ x.abort = true) →
      exec (.taskTimeout k) s = .next s)) ∧
  (∀ (s : State) (ag : Agent) (r : Fin 64) (seq : Word), s.Reaches (ringPage r.val) →
    (s.dev.flag (ringPage r.val) 0x084 8 = true ∨ (seq - s.dev.reg (ringPage r.val) 0x064).toNat < 2 ^ 31) →
    ∃ t, exec (.taskAbort ag r seq) s = .next t ∧ t.dev.tasks = s.dev.tasks ∧ t.dev.flag (ringPage r.val) 0x014 4 = true) ∧
  (∀ (s : State) (ag : Agent) (r : Fin 64) (seq : Word), s.Reaches (ringPage r.val) → s.dev.flag (ringPage r.val) 0x084 8 = false →
    2 ^ 31 ≤ (seq - s.dev.reg (ringPage r.val) 0x064).toNat →
    (s.dev.taskList.find? (fun e => e.2.ring == r.val && e.2.seq == seq) = none →
      ∃ t, exec (.taskAbort ag r seq) s = .next t ∧ t.dev.tasks = s.dev.tasks ∧ t.dev.reg (ringPage r.val) 0x084 = 2) ∧
    ∀ k x, s.dev.taskList.find? (fun e => e.2.ring == r.val && e.2.seq == seq) = some (k, x) → s.dev.TasksWf →
      (x.st = .retired →
        ∃ t, exec (.taskAbort ag r seq) s = .next t ∧ t.dev.tasks = s.dev.tasks ∧ t.dev.reg (ringPage r.val) 0x084 = 2) ∧
      (x.st = .dispatched →
        ∃ t y, exec (.taskAbort ag r seq) s = .next t ∧ t.dev.task k = some y ∧ y.abort = true ∧ y.asked = true ∧
          (s.dev.ringClass r.val = 0 ∨ s.dev.ringClass r.val = 3 →
            y = { x with abort := true, asked := true } ∧ t.dev.reg (ringPage r.val) 0x084 = 0x100)) ∧
      (x.st ≠ .retired → x.st ≠ .dispatched → (∀ e ∈ s.dev.taskList, e.2.st ≠ .dispatched → e.2.asked = false) →
        ∃ t, exec (.taskAbort ag r seq) s = .next t ∧ t.dev.RetiredWith k 0x10 ∧ t.dev.reg (ringPage r.val) 0x084 = 1 ∧
          t.dev.reg (ringPage r.val) 0x09C = satAdd (s.dev.reg (ringPage r.val) 0x09C) 1)) ∧
  (∀ (s : State) (ag : Agent) (r : Fin 64), s.Reaches (ringPage r.val) → s.dev.TasksWf →
    ∃ t, exec (.ringFlush ag r) s = .next t ∧
      ∀ k x, s.dev.task k = some x → x.ring = r.val → x.st ≠ .dispatched → x.st ≠ .retired → t.dev.RetiredWith k 0x10) ∧
  (∀ (s : State) (ag : Agent) (l : Fin 4), s.Admits ag 0x0E2 → s.dev.dlOn l.val = true → s.dev.TasksWf →
    ∃ t, exec (.dlFlush ag l) s = .next t ∧ t.dev.dlOn l.val = false ∧ t.dev.flag 0x01B (0x040 + 0x20 * (28 + l.val)) 0 = false ∧
      ∀ k x, s.dev.task k = some x → x.st = .delayed → x.list = l.val → t.dev.RetiredWith k 0x10) ∧
  (∀ (s : State) (ag : Agent) (l : Fin 4), s.Admits ag 0x0E2 →
    (s.dev.dlOn l.val = false → exec (.dlFlush ag l) s = .next s) ∧ (s.dev.dlOn l.val = true → exec (.dlEnable ag l) s = .next s)) ∧
  (∀ (s : State) (ag : Agent) (l : Fin 4), s.Admits ag 0x0E2 → s.dev.dlOn l.val = false →
    ∃ t, exec (.dlEnable ag l) s = .next t ∧ t.dev.dlOn l.val = true ∧
      t.dev.field 0x01B (0x040 + 0x20 * (28 + l.val)) 10 8 = 7 ∧
      t.dev.field 0x01B (0x040 + 0x20 * (28 + l.val)) 3 1 = s.dev.field 0x0E2 (Dev.dlReg l.val) 6 4)

/-- The trace and the error log (R311, R322, R324, R326): a clock record takes the next place; CLOSE closes the open record of its ESEQ
and releases what it held, or answers that there is none; CLR_OVF ends the overflow while an entry is free; a record of recovery that
cannot be written raises its error to DEVICE, and any other record raises nothing.
The model's own readings in it: log entries 119 and 123. -/
def Obligations.TraceAndLog : Prop :=
  (∀ s : State, s.Powered → s.dev.flag 0x160 0x040 0 = true → s.dev.flag 0x160 0x040 31 = true → s.dev.traceOff = false →
    ∃ t, exec .traceClockExpiry s = .next t ∧ t.dev.field 0x160 0x044 12 0 = (s.dev.field 0x160 0x044 12 0 + 1) % 8192 ∧
      (Sparse.get (fun _ => {}) t.dev.trace (s.dev.field 0x160 0x044 12 0)).w1 = 15 ∧
      (Sparse.get (fun _ => {}) t.dev.trace (s.dev.field 0x160 0x044 12 0)).w2 = BitVec.ofNat 32 s.dev.now ∧
      (Sparse.get (fun _ => {}) t.dev.trace (s.dev.field 0x160 0x044 12 0)).w3 = BitVec.ofNat 32 (s.dev.rootMhz / 4)) ∧
  (∀ s : State, s.Powered → (s.dev.flag 0x160 0x040 0 = false ∨ s.dev.flag 0x160 0x040 31 = false ∨ s.dev.traceOff = true) →
    exec .traceClockExpiry s = .next s) ∧
  (∀ (s : State) (ag : Agent) (q : Word), s.Reaches 0x0F0 → s.dev.TasksWf →
    (∀ e ∈ s.dev.taskList, e.2.bad = false) →
    (∀ i l, s.dev.logWhere (fun e => e.st == .opened && e.eseq == q.toNat) = i :: l →
      ∃ t, exec (.logClose ag q) s = .next t ∧ t.dev.logEntry i = { s.dev.logEntry i with st := .closed } ∧
        t.dev.reg 0x0F0 0x04C = 1 ∧ t.dev.holds = s.dev.holds.filter fun h => h.eseq != q.toNat) ∧
    (s.dev.logWhere (fun e => e.st == .opened && e.eseq == q.toNat) = [] →
      ∃ t, exec (.logClose ag q) s = .next t ∧ t.dev.log = s.dev.log ∧ t.dev.holds = s.dev.holds ∧ t.dev.reg 0x0F0 0x04C = 2 ∧
        t.dev.flag 0x0F0 0x014 5 = true)) ∧
  (∀ (s : State) (ag : Agent) (v : Word), s.Reaches 0x0F0 →
    ∃ t, exec (.clrOvf ag v) s = .next t ∧ t.dev.log = s.dev.log ∧
      t.dev.overflowed = (s.dev.overflowed && !(bit v 0 && decide (s.dev.openCount < 32)))) ∧
  (∀ (s : State) (r : Fin 64), s.Powered →
    let head := s.dev.taskList.find? fun e => e.2.ring == r.val && e.2.seq == s.dev.reg (ringPage r.val) 0x068 && e.2.st == .retired
    (∀ k x i, head = some (k, x) → x.status ∈ [0x12, 0x13, 0x31, 0xF0] → s.dev.recoveryRecord x = some i →
      (s.dev.logEntry i).sev = .contained →
      ∃ t, exec (.recordWriteTimeout r) s = .next t ∧
        t.dev.logEntry i = { s.dev.logEntry i with sev := .device, escalated := true, origSev := .contained }) ∧
    ((head = none ∨ ∃ k x, head = some (k, x) ∧ (x.status ∉ [0x12, 0x13, 0x31, 0xF0] ∨ s.dev.recoveryRecord x = none)) →
      exec (.recordWriteTimeout r) s = .next s))

/-! ## 16 Spindle instructions -/

/-- The integer instructions (R342, R364, R365, R366): what each writes to rd, in every position. Only the core moves. A saturating
instruction writes its exact result modulo 2³² with ARITH = WRAP, and with ARITH = SAT the result clamped, setting SATF where the clamp
changed it. -/
def Obligations.IntegerInstructions : Prop :=
  ∀ (s : State) (n : Fin 16) (rd ra rb sx : Fin 32) (imm : BitVec 15) (hi : BitVec 20) (a b : Word), s.Powered → s.dev.Issues n →
    a = (s.dev.core n.val).reg ra.val → b = (s.dev.core n.val).reg rb.val →
    (∀ e ∈ [(Instr.and n rd ra rb, a &&& b), (.or n rd ra rb, a ||| b), (.xor n rd ra rb, a ^^^ b), (.nor n rd ra rb, ~~~ (a ||| b)),
        (.andn n rd ra rb, a &&& ~~~ b), (.cmplt n rd ra rb, if a.slt b then 1 else 0), (.cmpltu n rd ra rb, if a.ult b then 1 else 0),
        (.shr n rd ra rb, a >>> (b.toNat % 32)), (.shra n rd ra rb, a.sshiftRight (b.toNat % 32)),
        (.mulhs n rd ra rb, (a.signExtend 64 * b.signExtend 64).extractLsb' 32 32),
        (.mulhu n rd ra rb, (a.zeroExtend 64 * b.zeroExtend 64).extractLsb' 32 32),
        (.divu n rd ra rb, if b = 0 then 0xFFFFFFFF else a / b), (.rem n rd ra rb, if b = 0 then a else a.srem b),
        (.remu n rd ra rb, if b = 0 then a else a % b), (.min n rd ra rb, if a.slt b then a else b),
        (.max n rd ra rb, if a.slt b then b else a), (.clz n rd ra, a.clz), (.shri n rd ra sx, a >>> sx.val),
        (.shrai n rd ra sx, a.sshiftRight sx.val), (.andi n rd ra imm, a &&& imm.zeroExtend 32), (.ori n rd ra imm, a ||| imm.zeroExtend 32),
        (.xori n rd ra imm, a ^^^ imm.zeroExtend 32), (.cmplti n rd ra imm, if a.slt (imm.signExtend 32) then 1 else 0),
        (.cmpltiu n rd ra imm, if a.ult (imm.signExtend 32) then 1 else 0), (.ldhi n rd hi, hi.zeroExtend 32 <<< 12)],
      ∃ t, exec e.1 s = .next t ∧ s.OnlyCore t n ∧ (s.dev.core n.val).Moved (t.dev.core n.val) ∧
        (s.dev.core n.val).Writes (t.dev.core n.val) rd.val e.2 ∧ (s.dev.core n.val).Advances (t.dev.core n.val) ∧
        (t.dev.core n.val).mode = (s.dev.core n.val).advance.mode) ∧
    (∀ e ∈ [(Instr.add n rd ra rb, a.toInt + b.toInt), (.sub n rd ra rb, a.toInt - b.toInt), (.mul n rd ra rb, a.toInt * b.toInt),
        (.shl n rd ra rb, a.toInt * 2 ^ (b.toNat % 32)), (.shli n rd ra sx, a.toInt * 2 ^ sx.val), (.abs n rd ra, (a.toInt.natAbs : Int)),
        (.addi n rd ra imm, a.toInt + (imm.signExtend 32).toInt), (.div n rd ra rb, if b = 0 then -1 else Int.tdiv a.toInt b.toInt)],
      ∃ t, exec e.1 s = .next t ∧ s.OnlyCore t n ∧ (s.dev.core n.val).Moved (t.dev.core n.val) ∧
        (s.dev.core n.val).Writes (t.dev.core n.val) rd.val
          (if (s.dev.core n.val).mode.testBit 1 = false ∨ -2 ^ 31 ≤ e.2 ∧ e.2 < 2 ^ 31 then BitVec.ofInt 32 e.2
            else if e.2 < 0 then 0x80000000 else 0x7FFFFFFF) ∧
        (s.dev.core n.val).Advances (t.dev.core n.val) ∧
        ((s.dev.core n.val).shadow = none → (t.dev.core n.val).mode.testBit 3 =
          ((s.dev.core n.val).mode.testBit 3 || ((s.dev.core n.val).mode.testBit 1 && !(decide (-2 ^ 31 ≤ e.2) && decide (e.2 < 2 ^ 31))))))

/-- Where execution goes on after an instruction that is no branch (R343, R344, R345): at the next word; after a delay slot at the
branch's target; at the end of an active loop at its start until its count is used up, level 1 before level 0; and the MODE of an MSET
applies after the second instruction of its shadow.
The model's own readings in it: log entries 126 and 131. -/
def Obligations.WhereExecutionGoesOn : Prop :=
  ∀ (s : State) (n : Fin 16) (c : Core), s.Powered → s.dev.Issues n → s.dev.storesVisible n = true → c = s.dev.core n.val →
    ∃ t, exec (.fence n) s = .next t ∧ s.OnlyCore t n ∧ (t.dev.core n.val).slot = none ∧ (t.dev.core n.val).g = c.g ∧
      t.dev.reg (Dev.corePage n.val) 0x060 =
        (if s.dev.frozen (Dev.corePage n.val) then s.dev.reg (Dev.corePage n.val) 0x060
          else satAdd (s.dev.reg (Dev.corePage n.val) 0x060) 1) ∧
      (∀ x, c.slot = some x → (t.dev.core n.val).pc = x.target) ∧
      (c.slot = none →
        ((c.lc1 = 0 ∨ c.pc ≠ c.le1) → (c.lc0 = 0 ∨ c.pc ≠ c.le0) →
          (t.dev.core n.val).pc = c.pc + 4 ∧ (t.dev.core n.val).lc0 = c.lc0 ∧ (t.dev.core n.val).lc1 = c.lc1) ∧
        (2 ≤ c.lc1.toNat → c.pc = c.le1 →
          (t.dev.core n.val).pc = c.ls1 ∧ (t.dev.core n.val).lc1 = c.lc1 - 1 ∧ (t.dev.core n.val).lc0 = c.lc0) ∧
        (c.lc1 = 1 → c.pc = c.le1 → (t.dev.core n.val).lc1 = 0) ∧
        ((c.lc1.toNat ≤ 1 ∨ c.pc ≠ c.le1) → c.pc = c.le0 →
          (2 ≤ c.lc0.toNat → (t.dev.core n.val).pc = c.ls0 ∧ (t.dev.core n.val).lc0 = c.lc0 - 1) ∧
          (c.lc0 = 1 → (t.dev.core n.val).pc = c.pc + 4 ∧ (t.dev.core n.val).lc0 = 0))) ∧
      (c.shadow = none → (t.dev.core n.val).mode = c.mode ∧ (t.dev.core n.val).shadow = none) ∧
      (∀ x, c.shadow = some x → 2 ≤ x.left →
        (t.dev.core n.val).mode = c.mode ∧ (t.dev.core n.val).shadow = some { x with left := x.left - 1 }) ∧
      (∀ x, c.shadow = some x → x.left ≤ 1 → (t.dev.core n.val).mode = x.mode ∧ (t.dev.core n.val).shadow = none)

/-- Branches, jumps and LOOP outside a slot and a shadow (R344, R345, R367, R368, R370): the delay slot comes next, then the target; an
annulled slot is passed by; CALL and CALLR write g31. LOOP sets its level, and a count of zero passes the body by.
The model's own readings in it: log entry 126. -/
def Obligations.BranchesAndLoops : Prop :=
  ∀ (s : State) (n : Fin 16) (ra rb : Fin 32) (off : BitVec 14) (far : BitVec 25) (a b pc : Word), s.Powered → s.dev.Issues n →
    (s.dev.core n.val).inSlot = false → a = (s.dev.core n.val).reg ra.val → b = (s.dev.core n.val).reg rb.val →
    pc = (s.dev.core n.val).pc →
    (∀ e ∈ [(Instr.beq n ra rb, decide (a = b)), (.bne n ra rb, decide (a ≠ b)), (.blt n ra rb, a.slt b), (.bge n ra rb, !a.slt b),
        (.bltu n ra rb, a.ult b), (.bgeu n ra rb, !a.ult b)], ∀ annul : Bool,
      ∃ t, exec (e.1 annul off) s = .next t ∧ s.OnlyCore t n ∧ (s.dev.core n.val).Moved (t.dev.core n.val) ∧
        (t.dev.core n.val).g = (s.dev.core n.val).g ∧
        (e.2 = true → (t.dev.core n.val).pc = pc + 4 ∧
          (t.dev.core n.val).slot = some { branch := pc, target := pc + off.signExtend 32 * 4 }) ∧
        (e.2 = false → annul = true → (t.dev.core n.val).pc = pc + 8 ∧ (t.dev.core n.val).slot = none) ∧
        (e.2 = false → annul = false → (t.dev.core n.val).pc = pc + 4 ∧
          (t.dev.core n.val).slot = some { branch := pc, target := pc + 8 })) ∧
    (∀ e ∈ [(Instr.jmpr n ra, a &&& 0xFFFFFFFC, false), (.jmp n far, pc + far.signExtend 32 * 4, false),
        (.call n far, pc + far.signExtend 32 * 4, true)] ++ (if ra.val = 31 then [] else [(.callr n ra, a &&& 0xFFFFFFFC, true)]),
      ∃ t, exec e.1 s = .next t ∧ s.OnlyCore t n ∧ (s.dev.core n.val).Moved (t.dev.core n.val) ∧
        (t.dev.core n.val).pc = pc + 4 ∧ (t.dev.core n.val).slot = some { branch := pc, target := e.2.1 } ∧
        (e.2.2 = false → (t.dev.core n.val).g = (s.dev.core n.val).g) ∧
        (e.2.2 = true → (s.dev.core n.val).Writes (t.dev.core n.val) 31 (pc + 8))) ∧
    (∀ level : Fin 32, level.val < 2 → 0 < off.toInt →
      s.dev.loopEndBad n.val (s.dev.core n.val) level.val (pc + 4) (pc + off.signExtend 32 * 4) = false →
      ∃ t, exec (.loop n level ra off) s = .next t ∧ s.OnlyCore t n ∧ (t.dev.core n.val).g = (s.dev.core n.val).g ∧
        (level.val = 0 → (t.dev.core n.val).ls0 = pc + 4 ∧ (t.dev.core n.val).le0 = pc + off.signExtend 32 * 4 ∧
          (t.dev.core n.val).lc0 = a ∧ (t.dev.core n.val).ls1 = (s.dev.core n.val).ls1 ∧
          (t.dev.core n.val).le1 = (s.dev.core n.val).le1) ∧
        (level.val = 1 → (t.dev.core n.val).ls1 = pc + 4 ∧ (t.dev.core n.val).le1 = pc + off.signExtend 32 * 4 ∧
          (t.dev.core n.val).lc1 = a ∧ (t.dev.core n.val).ls0 = (s.dev.core n.val).ls0 ∧
          (t.dev.core n.val).le0 = (s.dev.core n.val).le0) ∧
        (a = 0 → (t.dev.core n.val).pc = pc + off.signExtend 32 * 4 + 4) ∧
        (a ≠ 0 → (t.dev.core n.val).pc = (s.dev.core n.val).advance.pc))

/-- Loads and stores (R265, R273, R337, R338, R369): an aligned load of local SRAM, the boot ROM, a Skein window or, as a word, a register
writes rd with the little-endian value, extended, and leaves memory as it is; what it reads poisoned or of a TRAP page raises its
exception. An aligned store to local SRAM, or through a window to memory that takes it, writes its bytes at its address and no other byte,
and no register. An access to the placed range while that is closed waits.
The model's own readings in it: log entry 126. -/
def Obligations.LoadsAndStores : Prop :=
  ∀ (s : State) (n : Fin 16) (rd ra : Fin 32) (imm : BitVec 15) (a : Word), s.Powered → s.dev.Issues n →
    a = (s.dev.core n.val).reg ra.val + imm.signExtend 32 →
    let sram := 0x10008000000 + n.val * 0x40000 + a.toNat
    let sk := windowAddr (s.dev.core n.val) a.toNat
    (∀ e ∈ [(Instr.lb n rd ra imm, 1, fun x => (BitVec.ofNat 8 x).signExtend 32), (.lbu n rd ra imm, 1, fun x => BitVec.ofNat 32 x),
        (.lh n rd ra imm, 2, fun x => (BitVec.ofNat 16 x).signExtend 32), (.lhu n rd ra imm, 2, fun x => BitVec.ofNat 32 x),
        (.lw n rd ra imm, 4, fun x => BitVec.ofNat 32 x)], a.toNat % e.2.1 = 0 → s.dev.watched n.val a false = false →
      let r := (s.dev.read (.core n) sk e.2.1).1
      let reads (x : Nat) : Prop := ∃ t, exec e.1 s = .next t ∧ t.dev.mem = s.dev.mem ∧
        (∀ k, k ≠ n.val → t.dev.core k = s.dev.core k) ∧ t.halt = s.halt ∧
        (s.dev.core n.val).Moved (t.dev.core n.val) ∧ (s.dev.core n.val).Advances (t.dev.core n.val) ∧
        (s.dev.core n.val).Writes (t.dev.core n.val) rd.val (e.2.2 x)
      (a.toNat < 0x40000 → reads (s.dev.num sram e.2.1)) ∧
      (0x08000000 ≤ a.toNat → a.toNat < 0x08010000 →
        reads (ofBytesLE ((List.range e.2.1).map fun i => Config.bootRom (a.toNat - 0x08000000 + i)))) ∧
      (0x40000000 ≤ a.toNat → a.toNat < 0x80000000 →
        (s.dev.closedAt sk = true → ∃ t, exec e.1 s = .next t ∧ t.dev.bus = .waiting ∧ t.dev.mem = s.dev.mem ∧
          t.dev.core n.val = s.dev.core n.val) ∧
        (s.dev.closedAt sk = false → r.poison = 0 → r.trap = false → reads (ofBytesLE r.bytes)) ∧
        (s.dev.closedAt sk = false → (s.dev.core n.val).eflags.testBit 3 = false →
          ∀ code, code = (if r.poison = 1 then 8 else if r.poison = 2 then 9 else if r.trap then 7 else 0) → code ≠ 0 →
          ∃ t, exec e.1 s = .next t ∧ (s.dev.core n.val).Entered (t.dev.core n.val) code (some a) 0 ∧ t.dev.mem = s.dev.mem))) ∧
    (0x10000000 ≤ a.toNat → a.toNat < 0x12000000 → a.toNat % 4 = 0 → s.dev.watched n.val a false = false →
      ((s.dev.core n.val).mode.testBit 0 = true ∨ (a.toNat - 0x10000000) / 4096 = 0x001 ∨
        (0x100 ≤ (a.toNat - 0x10000000) / 4096 ∧ (a.toNat - 0x10000000) / 4096 < 0x140)) →
      ∃ t, exec (.lw n rd ra imm) s = .next t ∧ t.dev.mem = s.dev.mem ∧ (rd.val ≠ 0 → (t.dev.core n.val).reg rd.val =
        (s.busRead (.spindle n) ((a.toNat - 0x10000000) / 4096) (a.toNat % 4096)).1)) ∧
    (∀ e ∈ [(Instr.sb n rd ra imm, 1), (.sh n rd ra imm, 2), (.sw n rd ra imm, 4)], a.toNat % e.2 = 0 →
      s.dev.watched n.val a true = false →
      let writes (x : Nat) : Prop := ∃ t, exec e.1 s = .next t ∧ (∀ k, k ≠ n.val → t.dev.core k = s.dev.core k) ∧ t.halt = s.halt ∧
        (s.dev.core n.val).Moved (t.dev.core n.val) ∧ (s.dev.core n.val).Advances (t.dev.core n.val) ∧
        (t.dev.core n.val).g = (s.dev.core n.val).g ∧
        (∀ i, i < e.2 → t.dev.byte (x + i) = BitVec.ofNat 8 (((s.dev.core n.val).reg rd.val).toNat / 256 ^ i)) ∧
        (∀ y, y < x ∨ x + e.2 ≤ y → t.dev.byte y = s.dev.byte y)
      (a.toNat < 0x40000 → writes sram) ∧
      (0x40000000 ≤ a.toNat → a.toNat < 0x80000000 →
        (s.dev.closedAt sk = true → ∃ t, exec e.1 s = .next t ∧ t.dev.bus = .waiting ∧ t.dev.mem = s.dev.mem ∧
          t.dev.core n.val = s.dev.core n.val) ∧
        ((directSram sk ∨ (spanOf sk = .placed ∧ s.dev.placedOpen = true ∧ (s.dev.place (pageOf sk)).tier ≠ 7 ∧
          s.dev.migrating (pageOf sk) = false)) → writes sk)))

/-- MSET, CRD, CWR and XRET (R340, R343, R352, R371, R372): MSET's MODE waits for its shadow's end; CRD reads and CWR writes each
control register, where the mode may reach it; XRET goes back to EPC with the MODE that EFLAGS holds.
The model's own readings in it: log entries 126 and 133. -/
def Obligations.ControlRegisters : Prop :=
  ∀ (s : State) (n : Fin 16) (rd cr : Fin 32) (imm : BitVec 15) (c : Core), s.Powered → s.dev.Issues n → c = s.dev.core n.val →
    (c.inSlot = false → imm.toNat < 4096 → imm.toNat / 16 % 16 = 0 →
      c.msetDenied imm.toNat = false →
      ∃ t x, exec (.mset n imm) s = .next t ∧ s.OnlyCore t n ∧ c.Moved (t.dev.core n.val) ∧ c.Advances (t.dev.core n.val) ∧
        (t.dev.core n.val).g = c.g ∧ (t.dev.core n.val).mode = c.mode ∧ (t.dev.core n.val).shadow = some x ∧ x.left = 2 ∧ x.mset = c.pc ∧
        (∀ i, i < 3 → x.mode.testBit i = if imm.toNat.testBit (8 + i) then imm.toNat.testBit i else c.mode.testBit i) ∧
        x.mode.testBit 3 = (c.mode.testBit 3 && !(imm.toNat.testBit 11 && !imm.toNat.testBit 3))) ∧
    ((c.mode.testBit 0 = true ∨ cr.val ∉ [1, 2, 3, 4, 5, 6, 14, 22]) →
      (∀ e ∈ [(0, BitVec.ofNat 32 c.mode), (1, BitVec.ofNat 32 c.eflags), (2, c.epc), (3, BitVec.ofNat 32 c.ecause), (4, c.ebad),
          (5, c.evec), (6, c.escr), (7, BitVec.ofNat 32 n.val), (8, c.ls0), (9, c.le0), (10, c.lc0), (11, c.ls1), (12, c.le1), (13, c.lc1),
          (14, BitVec.ofNat 32 c.intEn), (15, BitVec.ofNat 32 c.intPend), (17, s.dev.coreTaskWord n.val),
          (18, Sparse.get (fun _ => 0) c.win 0), (19, Sparse.get (fun _ => 0) c.win 1), (20, Sparse.get (fun _ => 0) c.win 2),
          (21, Sparse.get (fun _ => 0) c.win 3), (22, c.tcmp), (23, s.dev.coreSeq n.val)] ++
          (List.range 8).map (fun k => (24 + k, 0)), cr.val = e.1 →
        ∃ t, exec (.crd n rd cr) s = .next t ∧ s.OnlyCore t n ∧ c.Moved (t.dev.core n.val) ∧ c.Advances (t.dev.core n.val) ∧
          c.Writes (t.dev.core n.val) rd.val e.2) ∧
      (cr.val = 16 → ∃ t, exec (.crd n rd cr) s = .next t ∧ t.dev.mem = s.dev.mem ∧ c.Advances (t.dev.core n.val) ∧
        c.Writes (t.dev.core n.val) rd.val (t.dev.core n.val).cyc)) ∧
    ((c.mode.testBit 0 = true ∨ 8 ≤ cr.val ∧ cr.val ≤ 13 ∨ 24 ≤ cr.val) →
      (∀ e ∈ [(1, (fun (x : Core) => BitVec.ofNat 32 x.eflags), (0x7B : Word)), (2, fun x => x.epc, 0xFFFFFFFF),
          (3, fun x => BitVec.ofNat 32 x.ecause, 0xFF), (4, fun x => x.ebad, 0xFFFFFFFF), (5, fun x => x.evec, 0xFFFFFF00),
          (6, fun x => x.escr, 0xFFFFFFFF), (8, fun x => x.ls0, 0xFFFFFFFF), (9, fun x => x.le0, 0xFFFFFFFF),
          (10, fun x => x.lc0, 0xFFFFFFFF), (11, fun x => x.ls1, 0xFFFFFFFF), (12, fun x => x.le1, 0xFFFFFFFF),
          (13, fun x => x.lc1, 0xFFFFFFFF), (14, fun x => BitVec.ofNat 32 x.intEn, 0x7F),
          (18, fun x => Sparse.get (fun _ => 0) x.win 0, 0xFFFFF), (19, fun x => Sparse.get (fun _ => 0) x.win 1, 0xFFFFF),
          (20, fun x => Sparse.get (fun _ => 0) x.win 2, 0xFFFFF), (21, fun x => Sparse.get (fun _ => 0) x.win 3, 0xFFFFF),
          (22, fun x => x.tcmp, 0xFFFFFFFF)], cr.val = e.1 →
        ∃ t, exec (.cwr n cr rd) s = .next t ∧ s.OnlyCore t n ∧ (t.dev.core n.val).g = c.g ∧ (t.dev.core n.val).pc = c.advance.pc ∧
          e.2.1 (t.dev.core n.val) = c.reg rd.val &&& e.2.2) ∧
      (cr.val = 15 → ∃ t, exec (.cwr n cr rd) s = .next t ∧
        ∀ i, i < 7 → (t.dev.core n.val).intPend.testBit i = (c.intPend.testBit i && !(c.reg rd.val).toNat.testBit i)) ∧
      (24 ≤ cr.val → ∃ t, exec (.cwr n cr rd) s = .next t ∧ s.OnlyCore t n ∧ c.Moved (t.dev.core n.val) ∧
        (t.dev.core n.val).g = c.g ∧ c.Advances (t.dev.core n.val))) ∧
    (c.mode.testBit 0 = true →
      (c.inSlot = false →
        ∃ t, exec (.xret n) s = .next t ∧ s.OnlyCore t n ∧ (t.dev.core n.val).g = c.g ∧
          (t.dev.core n.val).pc = c.epc &&& 0xFFFFFFFC ∧ (t.dev.core n.val).eflags = c.eflags &&& 0x70 ∧
          (t.dev.core n.val).mode.testBit 0 = c.eflags.testBit 6 ∧ (t.dev.core n.val).mode.testBit 1 = c.eflags.testBit 5 ∧
          (t.dev.core n.val).mode.testBit 2 = c.eflags.testBit 4 ∧ (t.dev.core n.val).mode.testBit 3 = c.mode.testBit 3))

/-- Exceptions (R337, R341, R343, R346, R350, R351, R371, R372): what raises each, with its code and EBAD; memory, the tasks and the general
registers stay as they are. A second one while EXL is set stops the core and takes its page to FAULT (R353).
The model's own readings in it: log entries 126 and 128. -/
def Obligations.SpindleExceptions : Prop :=
  ∀ (s : State) (n : Fin 16) (rd ra rb sx level cr : Fin 32) (off : BitVec 14) (far : BitVec 25) (imm : BitVec 15) (annul : Bool) (c : Core)
    (a : Word), s.Powered → s.dev.Issues n → c = s.dev.core n.val → a = c.reg ra.val + imm.signExtend 32 →
    ∀ e ∈ ([.beq n ra rb annul off, .bne n ra rb annul off, .blt n ra rb annul off, .bge n ra rb annul off, .bltu n ra rb annul off,
          .bgeu n ra rb annul off, .jmpr n ra, .callr n ra, .jmp n far, .call n far, .loop n level ra off, .mset n imm, .xret n,
          .trap n sx].map fun i => (i, c.inSlot = true, 1, some c.pc)) ++
        [(Instr.trap n sx, c.inSlot = false, 0x0A, some (BitVec.ofNat 32 sx.val)),
         (.break n, s.dev.flag (Dev.corePage n.val) 0x080 8 = false, 0x0B, none),
         (.callr n ra, ra.val = 31, 1, some c.pc),
         (.loop n level ra off, c.inSlot = false ∧ 2 ≤ level.val, 1, some c.pc),
         (.loop n level ra off, c.inSlot = false ∧ level.val < 2 ∧ (off.toInt ≤ 0 ∨
           s.dev.loopEndBad n.val c level.val (c.pc + 4) (c.pc + off.signExtend 32 * 4) = true), 3, none),
         (.mset n imm, c.inSlot = false ∧ (4096 ≤ imm.toNat ∨ imm.toNat / 16 % 16 ≠ 0), 1, some c.pc),
         (.mset n imm, c.inSlot = false ∧ imm.toNat < 4096 ∧ imm.toNat / 16 % 16 = 0 ∧ c.msetDenied imm.toNat = true, 2, none),
         (.xret n, c.inSlot = false ∧ c.mode.testBit 0 = false, 2, none), (.wfi n, c.mode.testBit 0 = false, 2, none),
         (.tdone n ra rb, c.mode.testBit 0 = false, 2, none), (.twait n, c.task = none ∧ c.mode.testBit 0 = false, 2, none),
         (.twait n, c.task ≠ none, 1, some c.pc),
         (.crd n rd cr, c.mode.testBit 0 = false ∧ cr.val ∈ [1, 2, 3, 4, 5, 6, 14, 22], 2, none),
         (.cwr n cr ra, cr.val ∈ [0, 7, 16, 17, 23], 1, some c.pc),
         (.cwr n cr ra, c.mode.testBit 0 = false ∧ cr.val ∈ [1, 2, 3, 4, 5, 6, 14, 15, 18, 19, 20, 21, 22], 2, none)] ++
        (([(.lb n rd ra imm, 1, false), (.lbu n rd ra imm, 1, false), (.lh n rd ra imm, 2, false), (.lhu n rd ra imm, 2, false),
          (.lw n rd ra imm, 4, false), (.sb n rd ra imm, 1, true), (.sh n rd ra imm, 2, true),
          (.sw n rd ra imm, 4, true)] : List (Instr × Nat × Bool)).flatMap fun x =>
          let p := (a.toNat - 0x10000000) / 4096
          let denied := localOf a.toNat = .regs ∧ c.mode.testBit 0 = false ∧ p ≠ 0x001 ∧ (p < 0x100 ∨ 0x140 ≤ p)
          [(x.1, denied, 2, some a), (x.1, ¬ denied ∧ a.toNat % x.2.1 ≠ 0, 4, some a),
           (x.1, ¬ denied ∧ a.toNat % x.2.1 = 0 ∧ (localOf a.toNat = .nothing ∨ (localOf a.toNat = .rom ∧ x.2.2 = true) ∨
             (localOf a.toNat = .regs ∧ x.2.1 ≠ 4)), 6, some a)]),
      e.2.1 →
        (c.eflags.testBit 3 = false →
          ∃ t, exec e.1 s = .next t ∧ c.Entered (t.dev.core n.val) e.2.2.1 e.2.2.2 0 ∧ (t.dev.core n.val).st = .run ∧
            t.dev.mem = s.dev.mem ∧ t.dev.tasks = s.dev.tasks ∧ t.halt = s.halt ∧ (∀ k, k ≠ n.val → t.dev.core k = s.dev.core k) ∧
            t.dev.field (Dev.corePage n.val) 0x04C 7 0 = e.2.2.1) ∧
        (c.eflags.testBit 3 = true →
          ∃ t, exec e.1 s = .next t ∧ (t.dev.core n.val).st = .stopped ∧ t.dev.pageState (Dev.corePage n.val) = 5 ∧
            (t.dev.core n.val).task = none ∧ t.dev.mem = s.dev.mem)

/-- Waits, tasks and semaphores at a core (R339, R347, R348, R355, R371, R374): WFI and TWAIT wait, WFI ends with a pending enabled
interrupt, TDONE retires the core's task with its status, or that of an abort, once its stores are visible, for which FENCE, STAKE and SGIVE wait too, BREAK halts the core with BRK_EN = 1, and STAKE
and SGIVE take and give a semaphore and say so in rd.
The model's own readings in it: log entry 132. -/
def Obligations.WaitsTasksSemaphores : Prop :=
  ∀ (s : State) (n : Fin 16) (rd ra rb : Fin 32) (c : Core), s.Powered → c = s.dev.core n.val →
    (s.dev.Issues n → c.mode.testBit 0 = true →
      (c.pendingSource = none → ∃ t, exec (.wfi n) s = .next t ∧ (t.dev.core n.val).st = .wfi ∧ (t.dev.core n.val).pc = c.pc) ∧
      (c.pendingSource ≠ none →
        ∃ t, exec (.wfi n) s = .next t ∧ s.OnlyCore t n ∧ c.Moved (t.dev.core n.val) ∧ c.Advances (t.dev.core n.val)) ∧
      (c.task = none → ∃ t, exec (.twait n) s = .next t ∧ (t.dev.core n.val).st = .twait ∧ (t.dev.core n.val).pc = c.pc) ∧
      (c.task ≠ none →
        ∃ t, exec (.tdone n ra rb) s = .next t ∧ t.dev.tasks = s.dev.tasks ∧
          (t.dev.core n.val).done = some { status := (c.reg ra.val).toNat % 256, progress := (c.reg rb.val).toNat }) ∧
      (c.task = none →
        ∃ t, exec (.tdone n ra rb) s = .next t ∧ t.dev.flag (Dev.corePage n.val) 0x014 1 = true ∧ t.dev.tasks = s.dev.tasks)) ∧
    ((c.st ≠ .wfi ∨ c.pendingSource = none ∨ s.dev.coreAwake n.val = false) → exec (.wfiWake n) s = .next s) ∧
    ((c.done = none ∨ c.st ≠ .run ∨ s.dev.coreAwake n.val = false ∨ s.dev.storesVisible n = false) →
      exec (.tdoneRetire n) s = .next s) ∧
    (s.dev.Issues n → s.dev.storesVisible n = false →
      ∀ i ∈ [Instr.fence n, .stake n rd ra, .sgive n rd ra], exec i s = .next s) ∧
    (c.st = .wfi → c.pendingSource ≠ none → s.dev.coreAwake n.val = true → c.hit = false → c.step = false →
      ∃ t, exec (.wfiWake n) s = .next t ∧ (t.dev.core n.val).st = .run ∧ c.Advances (t.dev.core n.val)) ∧
    (∀ x k y, s.dev.TasksWf → c.st = .run → c.done = some x → s.dev.coreAwake n.val = true → s.dev.storesVisible n = true →
      c.task = some k → s.dev.task k = some y → y.st = .dispatched →
      ∃ t, exec (.tdoneRetire n) s = .next t ∧ t.dev.RetiredWith k (s.dev.doneStatus n.val x.status) ∧ (t.dev.core n.val).task = none ∧
        (t.dev.core n.val).done = none) ∧
    (s.dev.Issues n → s.dev.flag (Dev.corePage n.val) 0x080 8 = true →
      ∃ t, exec (.break n) s = .next t ∧ (t.dev.core n.val).st = .dbgHalt ∧ (t.dev.core n.val).reason = 3 ∧ t.dev.mem = s.dev.mem) ∧
    (s.dev.Issues n → s.dev.storesVisible n = true → ∀ k, k = (c.reg ra.val).toNat % 64 →
      (s.dev.semHeld k = false →
        ∃ t, exec (.stake n rd ra) s = .next t ∧ t.dev.semHeldBy (.spindle n) k = true ∧ c.Advances (t.dev.core n.val) ∧
          (rd.val ≠ 0 → bit ((t.dev.core n.val).reg rd.val) 0 = true ∧ bit ((t.dev.core n.val).reg rd.val) 8 = true)) ∧
      (s.dev.semHeld k = true →
        ∃ t, exec (.stake n rd ra) s = .next t ∧ s.OnlyCore t n ∧ c.Advances (t.dev.core n.val) ∧
          (rd.val ≠ 0 → bit ((t.dev.core n.val).reg rd.val) 0 = false ∧ bit ((t.dev.core n.val).reg rd.val) 8 = true)) ∧
      (s.dev.semHeldBy (.spindle n) k = true →
        ∃ t, exec (.sgive n rd ra) s = .next t ∧ t.dev.semHeld k = false ∧ c.Advances (t.dev.core n.val) ∧
          c.Writes (t.dev.core n.val) rd.val 1) ∧
      (s.dev.semHeldBy (.spindle n) k = false →
        ∃ t, exec (.sgive n rd ra) s = .next t ∧ t.dev.semHeld k = s.dev.semHeld k ∧ t.dev.flag 0x001 0x014 0 = true ∧
          c.Advances (t.dev.core n.val) ∧ c.Writes (t.dev.core n.val) rd.val 0))

/-! ## 15 Spindle events and debug -/

/-- Events of a core (R337, R354, R356, R357, R359, R363): a pending enabled interrupt with IE = 1 enters its handler, in place of
the instruction that would issue; a breakpoint halts before one; at a PC that is neither local SRAM nor boot ROM any instruction raises
FETCH, and at a word of local SRAM that encodes none ILLEGAL; a core that does not run issues none; TCMP pends source 4 once; IPI
pends source 6 at the cores it names; the debug path halts, resumes, steps and reaches the registers within the unlocked scope; KILL
takes a draining or failed core to DISABLED, which takes an armed halt unit to HOLD (R144).
The model's own readings in it: log entries 27, 130 and 134. -/
def Obligations.CoreEventsAndDebug : Prop :=
  (∀ (s : State) (n : Fin 16) (c : Core) (k : Nat), s.Powered → c = s.dev.core n.val → (c.st = .run ∨ c.st = .twait) → c.done = none →
    s.dev.coreAwake n.val = true → c.hit = false → c.step = false → c.mode.testBit 2 = true → c.eflags.testBit 3 = false →
    c.pendingSource = some k →
    ∃ t, exec (.interruptEntry n) s = .next t ∧ c.Entered (t.dev.core n.val) (0x80 + k) none 0x80 ∧ (t.dev.core n.val).st = .run ∧
      t.dev.mem = s.dev.mem ∧ t.dev.tasks = s.dev.tasks ∧ ∀ j, j ≠ n.val → t.dev.core j = s.dev.core j) ∧
  (∀ (s : State) (n : Fin 16) (rd ra rb : Fin 32) (sx : Fin 32) (imm : BitVec 15) (hi : BitVec 20) (off : BitVec 14) (far : BitVec 25)
      (annul : Bool) (c : Core), s.Powered → c = s.dev.core n.val →
    ∀ i ∈ ([.and, .or, .xor, .nor, .andn, .cmplt, .cmpltu, .shr, .shra, .mulhs, .mulhu, .divu, .rem, .remu, .min, .max, .add, .sub, .mul,
          .shl, .div].map fun f : Fin 16 → Fin 32 → Fin 32 → Fin 32 → Instr => f n rd ra rb) ++
        [Instr.clz n rd ra, .abs n rd ra, .shri n rd ra sx, .shrai n rd ra sx, .shli n rd ra sx, .andi n rd ra imm, .ori n rd ra imm,
         .xori n rd ra imm, .cmplti n rd ra imm, .cmpltiu n rd ra imm, .addi n rd ra imm, .ldhi n rd hi, .lb n rd ra imm, .lbu n rd ra imm,
         .lh n rd ra imm, .lhu n rd ra imm, .lw n rd ra imm, .sb n rd ra imm, .sh n rd ra imm, .sw n rd ra imm, .beq n ra rb annul off,
         .bne n ra rb annul off, .blt n ra rb annul off, .bge n ra rb annul off, .bltu n ra rb annul off, .bgeu n ra rb annul off,
         .jmpr n ra, .callr n ra, .jmp n far, .call n far, .loop n sx ra off, .mset n imm, .crd n rd sx, .cwr n sx ra, .xret n, .trap n sx,
         .break n, .fence n, .wfi n, .twait n, .tdone n ra rb, .stake n rd ra, .sgive n rd ra],
      ((c.st ≠ .run ∨ c.done.isSome = true ∨ s.dev.coreAwake n.val = false) → exec i s = .next s) ∧
      (c.st = .run → c.done = none → s.dev.coreAwake n.val = true →
        (∀ k, c.mode.testBit 2 = true → c.eflags.testBit 3 = false → c.pendingSource = some k → c.hit = false → c.step = false →
          ∃ t, exec i s = .next t ∧ c.Entered (t.dev.core n.val) (0x80 + k) none 0x80 ∧ t.dev.mem = s.dev.mem) ∧
        (c.interruptible = false → c.passBp = false → s.dev.breakpoint n.val c.pc = true →
          ∃ t, exec i s = .next t ∧ (t.dev.core n.val).st = .dbgHalt ∧ (t.dev.core n.val).reason = 4 ∧ t.dev.mem = s.dev.mem) ∧
        (c.interruptible = false → (c.passBp = true ∨ s.dev.breakpoint n.val c.pc = false) → c.eflags.testBit 3 = false →
          (fetchable c.pc = false → ∃ t, exec i s = .next t ∧ c.Entered (t.dev.core n.val) 5 (some c.pc) 0 ∧ t.dev.mem = s.dev.mem) ∧
          (c.pc.toNat < 0x40000 → encodesInstr (BitVec.ofNat 32 (s.dev.num (0x10008000000 + n.val * 0x40000 + c.pc.toNat) 4)) = false →
            ∃ t, exec i s = .next t ∧ c.Entered (t.dev.core n.val) 1 (some c.pc) 0 ∧ t.dev.mem = s.dev.mem)))) ∧
  (∀ (s : State) (n : Fin 16), s.Powered → (s.dev.core n.val).tcmpOn = true →
    (BitVec.ofNat 32 s.dev.now - (s.dev.core n.val).tcmp).toNat < 2 ^ 31 →
    ∃ t, exec (.timerInterrupt n) s = .next t ∧ (t.dev.core n.val).intPend.testBit 4 = true ∧ (t.dev.core n.val).tcmpOn = false) ∧
  (∀ (s : State) (ag : Agent) (m : BitVec 16), s.Reaches 0x0F8 →
    ∃ t, exec (.ipiWrite ag m) s = .next t ∧ t.dev.mem = s.dev.mem ∧ ∀ n : Fin 16,
      (m.getLsbD n.val = true → (t.dev.core n.val).intPend.testBit 6 = true) ∧
      (m.getLsbD n.val = false → t.dev.core n.val = s.dev.core n.val)) ∧
  (∀ (s : State) (ag : Agent) (n : Fin 16) (c : Core), s.Admits ag (Dev.corePage n.val) → c = s.dev.core n.val →
    (s.dev.scope n.val = false → ∀ i ∈ [Instr.debugHaltReq ag n, .debugResume ag n, .debugStep ag n],
      ∃ t, exec i s = .next t ∧ (t.dev.core n.val).st = c.st ∧ t.dev.flag (Dev.corePage n.val) 0x014 2 = true) ∧
    (s.dev.scope n.val = true →
      (c.st ∈ [CoreState.run, .wfi, .twait] →
        ∃ t, exec (.debugHaltReq ag n) s = .next t ∧ (t.dev.core n.val).st = .dbgHalt ∧ (t.dev.core n.val).reason = 1 ∧
          (c.slot = none → c.shadow = none → (t.dev.core n.val).dpc = c.pc) ∧ (t.dev.core n.val).g = c.g) ∧
      (c.st = .dbgHalt →
        (∃ t, exec (.debugResume ag n) s = .next t ∧ t.dev.core n.val = { c with st := .run, passBp := true }) ∧
        (∃ t, exec (.debugStep ag n) s = .next t ∧ t.dev.core n.val = { c with st := .run, passBp := true, step := true }) ∧
        ∀ r, 1 ≤ r → r < 32 → s.dev.reg (Dev.corePage n.val) 0x08C = BitVec.ofNat 32 r →
          (∃ t, exec (.dbgDataAccess ag n none) s = .next t ∧ t.dev.bus = .data [c.reg r] ∧ t.dev.core n.val = c) ∧
          ∀ v, ∃ t, exec (.dbgDataAccess ag n (some v)) s = .next t ∧ c.Writes (t.dev.core n.val) r v))) ∧
  (∀ (s : State) (ag : Agent) (n : Fin 16), s.Reaches (Dev.corePage n.val) →
    (s.dev.pageState (Dev.corePage n.val) = 3 ∨ s.dev.pageState (Dev.corePage n.val) = 5) →
    ∃ t, exec (.coreKill ag n) s = .next t ∧ t.dev.pageState (Dev.corePage n.val) = 4 ∧ (t.dev.core n.val).st = .stopped ∧
      (t.dev.core n.val).task = none ∧ (s.halt.st = .armed → t.halt.st = .hold))

/-! ## 17 Power -/

/-- Entries (R395, R397, R398, R399): a block refuses with BUSY where its chapter says so (R178, R198, R219, R289, R358) and acknowledges
otherwise, the last ACK starts phase 2; a refusal rolls back to the state left, is recorded, and holds off a
retry or fails, or ends an OFF request; a block that does not answer counts as refusing with NO_ANSWER; one that does not ungate takes
its page to FAULT; phase 2 reaches the state: a page whose frame is not retained keeps no written line, or goes back to its shadow in
HBM, and memory is kept otherwise (the cores' local SRAM in DEEP by the model's reading, log entry 192); the last region of an OFF
request takes the power down. What is not due changes nothing.
The model's own readings in it: log entries 25, 141, 177 and 192. -/
def Obligations.RegionEntries : Prop :=
  (∀ (s : State) (r : Fin 96) (page : Fin 8192) (e : Entry) (ans : Quiesce) (code : Fin 8), s.Powered → (s.dev.region r.val).entry = some e →
    e.phase2 = false → e.offReq = false → (regionBlocks r.val).contains page.val = true → e.acked.contains page.val = false →
    (e.former = .run ∨ e.former = .idle ∨ r.val < 76 ∨ 80 ≤ r.val) →
    ((regionBlocks r.val).all (e.acked ++ [page.val]).contains = true → ¬ s.dev.QuiesceRefuses r.val page.val → r.val < 88 ∨ ans = .ack →
      ∃ t e', exec (.quiesceAnswer r page ans) s = .next t ∧ (t.dev.region r.val).entry = some e' ∧ e'.phase2 = true ∧
        e'.acked = e.acked ++ [page.val] ∧ e'.target = e.target) ∧
    ((s.dev.QuiesceRefuses r.val page.val ∧ code = 1) ∨ (88 ≤ r.val ∧ ans = .refuse code) →
      ∃ t, exec (.quiesceAnswer r page ans) s = .next t ∧ (t.dev.region r.val).st = e.former ∧
      (t.dev.region r.val).entry = none ∧ t.dev.reg 0x008 0x048 = BitVec.ofNat 32 (page.val + code.val * 2 ^ 16 + r.val * 2 ^ 24) ∧
      t.dev.reg 0x008 0x04C = satAdd (s.dev.reg 0x008 0x04C) 1 ∧
      ((s.dev.region r.val).retries < s.dev.field 0x008 0x040 19 16 →
        (t.dev.region r.val).holdoff = some (s.dev.now + max 1 (s.dev.field 0x008 0x044 15 0))) ∧
      (s.dev.field 0x008 0x040 19 16 ≤ (s.dev.region r.val).retries → (t.dev.region r.val).failed = true))) ∧
  (∀ (s : State) (r : Fin 96) (page : Fin 8192) (e : Entry) (ans : Quiesce) (code : Fin 8), s.Powered → (s.dev.region r.val).entry = some e →
    e.phase2 = false → e.offReq = true → (regionBlocks r.val).contains page.val = true → e.acked.contains page.val = false →
    (s.dev.QuiesceRefuses r.val page.val ∧ code = 1) ∨ (88 ≤ r.val ∧ ans = .refuse code) →
    ∃ t, exec (.quiesceAnswer r page ans) s = .next t ∧ t.dev.offReq = false ∧ t.dev.reg 0x008 0x080 = 5 ∧
      t.dev.flag 0x008 0x014 2 = true) ∧
  (∀ (s : State) (r : Fin 96) (page : Fin 8192) (ans : Quiesce),
    (∀ e, (s.dev.region r.val).entry = some e →
      e.phase2 = true ∨ (regionBlocks r.val).contains page.val = false ∨ e.acked.contains page.val = true) →
    exec (.quiesceAnswer r page ans) s = .next s) ∧
  (∀ (s : State) (r : Fin 96) (e : Entry) (p : Nat), s.Powered → (s.dev.region r.val).entry = some e → e.phase2 = false → e.offReq = false →
    (e.former = .run ∨ e.former = .idle ∨ r.val < 76 ∨ 80 ≤ r.val) → e.start + s.dev.quiesceWindow ≤ s.dev.now → (regionBlocks r.val).find? (fun p => !e.acked.contains p) = some p →
    ∃ t, exec (.quiesceTimeout r) s = .next t ∧ (t.dev.region r.val).st = e.former ∧
      t.dev.reg 0x008 0x048 = BitVec.ofNat 32 (p + 2 * 2 ^ 16 + r.val * 2 ^ 24)) ∧
  (∀ (s : State) (r : Fin 96), (∀ e, (s.dev.region r.val).entry = some e → e.phase2 = true ∨ s.dev.now < e.start + s.dev.quiesceWindow) →
    exec (.quiesceTimeout r) s = .next s) ∧
  (∀ (s : State) (r : Fin 96) (a : Nat), s.Powered → (s.dev.region r.val).holdoff = some a → a ≤ s.dev.now →
    ∃ t, exec (.retryHoldoffExpiry r) s = .next t ∧ (t.dev.region r.val).holdoff = none) ∧
  (∀ (s : State) (r : Fin 96), (∀ a, (s.dev.region r.val).holdoff = some a → s.dev.now < a) →
    exec (.retryHoldoffExpiry r) s = .next s) ∧
  (∀ (s : State) (ag : Agent) (w : Fin 3) (v : Word), s.Powered →
    ∃ t, exec (.entryRetryWrite ag w v) s = .next t ∧ t.dev.mem = s.dev.mem ∧
      ∀ i, i < 32 → (bit v i = true → (s.dev.region (32 * w.val + i)).failed = true →
          (t.dev.region (32 * w.val + i)).failed = false) ∧
        (bit v i = false → t.dev.region (32 * w.val + i) = s.dev.region (32 * w.val + i))) ∧
  (∀ (s : State) (r : Fin 96) (page : Fin 8192), s.Powered → (s.dev.region r.val).ungating.contains page.val = true →
    (s.dev.region r.val).ungateAt + 10 ≤ s.dev.now →
    ∃ t, exec (.ungateTimeout r page) s = .next t ∧ (t.dev.region r.val).st = .run ∧ t.dev.pageState page.val = 5 ∧
      t.dev.flag 0x008 0x014 1 = true) ∧
  (∀ (s : State) (r : Fin 96) (page : Fin 8192),
    ((s.dev.region r.val).ungating.contains page.val = false ∨ s.dev.now < (s.dev.region r.val).ungateAt + 10) →
    exec (.ungateTimeout r page) s = .next s) ∧
  (∀ (s : State) (r : Fin 96) (e : Entry), s.Powered → s.dev.MicsOffPll → (s.dev.region r.val).entry = some e → e.phase2 = true →
    s.dev.offReq = false → (e.target = .sleep ∨ e.target = .deep) → s.dev.target r.val = e.target.code →
    ∃ t, exec (.phase2Done r) s = .next t ∧ ((r.val < 76 ∨ 80 ≤ r.val) → (t.dev.region r.val).st = e.target) ∧
      (t.dev.region r.val).entry = none ∧
      ((e.target = .sleep ∨ s.dev.flag (0x200 + r.val) 0x040 8 = true) → t.dev.mem = s.dev.mem ∧ t.dev.places = s.dev.places) ∧
      (e.target = .deep → s.dev.flag (0x200 + r.val) 0x040 8 = false →
        (Sparse.wf Place.atReset s.dev.places = true → ∀ p, Dev.frameRegion (s.dev.place p) = some r.val →
          ((s.dev.place p).clean = true → t.dev.place p =
            { s.dev.place p with tier := 3, frame := 0, clean := false, allWritten := true }) ∧
          ((s.dev.place p).clean = false → p < 0x400000 → ∀ l, l / 1024 = p → t.dev.lineWritten l = false)) ∧
        ((∀ p ∈ s.dev.regionPages r.val, p < 0x400000) → ∀ a, directSram a → t.dev.byte a = s.dev.byte a))) ∧
  (∀ (s : State) (r : Fin 96), (∀ e, (s.dev.region r.val).entry = some e → e.phase2 = false) → s.dev.offReq = false →
    exec (.phase2Done r) s = .next s) ∧
  (∀ (s : State) (r : Fin 96) (e : Entry), s.Powered → (s.dev.region r.val).entry = some e → e.phase2 = true → e.target = .off →
    s.dev.offReq = true → (∀ q : Fin 96, q ≠ r → (s.dev.region q.val).st = .off ∨ (s.dev.region q.val).st = .retired) →
    ∃ t, exec (.phase2Done r) s = .next t ∧ t.dev.power = .off ∧ t.halt.pins = 0 ∧ t.fuses = s.fuses)

/-- Wakes, OFF and WAKE_N (R380, R400–R403, R405, R406, R408, R409, R452): the wake goes through its steps, by ready signals or by the
table; a timeout puts the region back through phase 2, and the second in a row retires it; OFF is refused while the halt unit drives its
outputs; WAKE_N arms, wakes the device from OFF, shows a stuck input, and is masked after eight wakes in 1 s; a brown-out and a power-on reset leave the outputs
inactive.
The model's own readings in it: log entries 139, 145 and 162. -/
def Obligations.WakesAndOff : Prop :=
  (∀ (s : State) (r : Fin 96) (w : Wake), s.Powered → (s.dev.region r.val).wake = some w → (s.dev.region r.val).st = .waking →
    (s.dev.tableMode r.val = false →
      (w.step < 3 → ∃ t, exec (.wakeStepReady r) s = .next t ∧
        (t.dev.region r.val).wake = some { w with step := w.step + 1, stepAt := s.dev.now }) ∧
      (3 ≤ w.step → ∃ t, exec (.wakeStepReady r) s = .next t ∧ (t.dev.region r.val).wake = none ∧ (t.dev.region r.val).timeouts = 0 ∧
        (t.dev.region r.val).st ≠ .waking)) ∧
    (s.dev.tableMode r.val = true → w.early = false → w.stepAt + s.dev.stepTime w.former w.step ≤ s.dev.now →
      (w.step < 3 → ∀ b, ∃ t, exec (.wakeTableStep r b) s = .next t ∧
        (t.dev.region r.val).wake = some { w with step := w.step + 1, stepAt := s.dev.now }) ∧
      (w.step = 3 → ∃ t, exec (.wakeTableStep r false) s = .next t ∧
        (t.dev.region r.val).wake = some { w with early := true } ∧ t.dev.flag 0x008 0x014 4 = true)) ∧
    (s.dev.tableMode r.val = true → (w.early = true ∨ (w.step = 3 ∧ w.stepAt + s.dev.stepTime w.former w.step ≤ s.dev.now)) →
      ∃ t, exec (.wakeTableStep r true) s = .next t ∧ (t.dev.region r.val).wake = none ∧ (t.dev.region r.val).timeouts = 0 ∧
        (t.dev.region r.val).st ≠ .waking) ∧
    (w.start + max 1 (s.dev.field 0x00B 0x064 15 0) ≤ s.dev.now →
      ((s.dev.region r.val).timeouts = 0 → ∃ t e, exec (.wakeTimeout r) s = .next t ∧ (t.dev.region r.val).st = .entering ∧
        (t.dev.region r.val).entry = some e ∧ e.target = w.former ∧ e.phase2 = true ∧ (t.dev.region r.val).timeouts = 1) ∧
      (1 ≤ (s.dev.region r.val).timeouts → ∃ t, exec (.wakeTimeout r) s = .next t ∧ (t.dev.region r.val).st = .retired))) ∧
  (∀ (s : State) (r : Fin 96), (∀ w, (s.dev.region r.val).wake = some w → s.dev.now < w.start + max 1 (s.dev.field 0x00B 0x064 15 0)) →
    exec (.wakeTimeout r) s = .next s) ∧
  (∀ (s : State) (ag : Agent), s.Powered → s.dev.offReq = false →
    (s.halt.st.driving = true → ∃ t, exec (.offRequest ag 0xFF5) s = .next t ∧ t.dev.offReq = false ∧ t.dev.reg 0x008 0x080 = 3 ∧
      t.dev.flag 0x008 0x014 2 = true ∧ t.halt = s.halt) ∧
    (s.halt.st.driving = false → ∃ t, exec (.offRequest ag 0xFF5) s = .next t ∧ t.dev.offReq = true ∧ t.dev.reg 0x008 0x080 = 0 ∧
      ∀ r : Fin 96, (s.dev.region r.val).st ∈ [RegSt.run, .idle, .sleep, .deep] →
        ∃ e, (t.dev.region r.val).st = .entering ∧ (t.dev.region r.val).entry = some e ∧ e.target = .off ∧
          e.former = (s.dev.region r.val).st)) ∧
  (∀ (s : State) (ag : Agent) (v : Word), (v ≠ 0xFF5 ∨ s.dev.offReq = true) → exec (.offRequest ag v) s = .next s) ∧
  (∀ s : State, ∃ t, exec .wakeNArm s = .next t ∧ t.dev.flag 0x00C 0x044 0 = true ∧ t.dev.flag 0x00C 0x044 1 = true ∧
    t.dev.flag 0x00C 0x044 2 = s.dev.flag 0x00C 0x044 2) ∧
  (∀ s : State, s.dev.flag 0x00C 0x044 1 = true → s.dev.flag 0x00C 0x044 2 = false → s.dev.wakeN.passed = [] →
    ∃ t, exec .wakeNAccept s = .next t ∧ t.dev.reg 0x00C 0x048 = satAdd (s.dev.reg 0x00C 0x048) 1 ∧ t.dev.flag 0x00C 0x044 1 = false ∧
      (s.dev.power = .off → t.dev.power = .waking) ∧
      (s.dev.power = .on → s.dev.flag 0x00C 0x040 8 = false →
        (t.dev.core (s.dev.field 0x00C 0x040 15 12)).intPend.testBit 5 = true)) ∧
  (∀ s : State, s.dev.flag 0x00C 0x044 1 = true → s.dev.flag 0x00C 0x044 2 = false →
    8 ≤ (s.dev.wakeN.passed.filter fun t => decide (s.dev.sio < t + 1000000)).length →
    ∃ t, exec .wakeNAccept s = .next t ∧ t.dev.flag 0x00C 0x044 2 = true ∧ t.dev.reg 0x00C 0x048 = s.dev.reg 0x00C 0x048 ∧
      t.dev.reg 0x00C 0x04C = satAdd (s.dev.reg 0x00C 0x04C) 1 ∧ t.dev.power = s.dev.power ∧ t.dev.cores = s.dev.cores) ∧
  (∀ s : State, s.dev.flag 0x00C 0x044 1 = false → exec .wakeNAccept s = .next s) ∧
  (∀ s : State, ∃ t, exec .wakeNStuck s = .next t ∧ t.dev.flag 0x00C 0x044 3 = true ∧ t.dev.flag 0x00C 0x044 0 = false) ∧
  (∀ s : State, ∃ t, exec (.brownout .vstby) s = .next t ∧ t.dev.power = .brownedOut ∧ t.halt.st = .safe ∧ t.halt.pins = 0 ∧
    t.fuses = s.fuses) ∧
  (∀ (s : State) (r : Rail), s.Powered → r ≠ .vstby →
    ∃ t, exec (.brownout r) s = .next t ∧ t.dev.power = .on ∧ t.dev.reg 0x002 0x040 = 8 ∧ t.halt.st = .safe ∧ t.halt.pins = 0) ∧
  (∀ s : State, ∃ t, exec (.por .vstbyRise) s = .next t ∧ t.dev.power = .on ∧ t.dev.reg 0x002 0x040 = 1 ∧ t.halt.st = .safe ∧
    t.halt.pins = 0 ∧ t.fuses = s.fuses ∧ t.dev.flag 0x00C 0x044 2 = false) ∧
  (∀ s : State, s.dev.power = .waking → ∃ t, exec (.por .wakeFromOff) s = .next t ∧ t.dev.power = .on ∧ t.dev.reg 0x002 0x040 = 2)

/-- The loops of power (R24, R26, R382, R384, R385, R386, R388, R389, R390): AVS moves a region's voltage by 5 mV, in RUN and IDLE
alone; DVFS holds unless the root runs from PLL0 and no switch of it is under way, gives way to the voltages, slews to FIX or into its
bounds by a step of 100 MHz per 20 µs, waits for the voltages of a step, and else moves F by one step; the throttle lowers T_CAP and
lets it rise again; two readings of 115 °C trip the device; a lost phase lowers its region's limit, a second one retires it; droop and
drop monitors are counted and set CRACK.
The model's own readings in it: log entries 136, 137, 142, 144 and 193. -/
def Obligations.PowerLoops : Prop :=
  (∀ (s : State) (r : Fin 96) (x : Region), s.Powered → s.dev.MicsOffPll → x = s.dev.region r.val → (x.st = .run ∨ x.st = .idle) →
    (∀ f, s.dev.avsFix r.val = some f → ∀ m, ∃ t, exec (.avsStep r m) s = .next t ∧
      (x.mv + 5 ≤ f → x.mv + 5 ≤ 900 → t.dev.region r.val = { x with mv := x.mv + 5 }) ∧
      (f + 5 ≤ x.mv → 555 ≤ x.mv → Config.fusedMv (s.dev.reg 0x009 0x040).toNat + 5 ≤ x.mv →
        t.dev.region r.val = { x with mv := x.mv - 5 })) ∧
    (s.dev.avsFix r.val = none → x.mv < s.dev.avsMin r.val → x.mv + 5 ≤ 900 → ∀ m,
      ∃ t, exec (.avsStep r m) s = .next t ∧ t.dev.region r.val = { x with mv := x.mv + 5 }) ∧
    (s.dev.avsFix r.val = none → s.dev.fWant = none → s.dev.avsMin r.val ≤ x.mv → x.mv + 5 ≤ s.dev.avsMax r.val → x.mv + 5 ≤ 900 →
      555 ≤ x.mv →
      (∃ t, exec (.avsStep r false) s = .next t ∧ t.dev.region r.val = { x with mv := x.mv + 5 }) ∧
      ∃ t, exec (.avsStep r true) s = .next t ∧ t.dev.region r.val = { x with mv :=
        (if x.mv < Config.fusedMv (s.dev.reg 0x009 0x040).toNat then x.mv + 5
         else if s.dev.avsMin r.val + 5 ≤ x.mv ∧ Config.fusedMv (s.dev.reg 0x009 0x040).toNat + 5 ≤ x.mv then x.mv - 5 else x.mv) })) ∧
  (∀ (s : State) (r : Fin 96) (m : Bool), (s.dev.region r.val).st ≠ .run → (s.dev.region r.val).st ≠ .idle →
    exec (.avsStep r m) s = .next s) ∧
  (∀ (s : State) (b i : Bool), (s.dev.rootCur ≠ 2 ∨ s.dev.clk.target ≠ none) → exec (.dvfsInterval b i) s = .next s) ∧
  (∀ (s : State) (f : Nat), s.Powered → s.dev.rootCur = 2 → s.dev.clk.target = none → f = (s.dev.reg 0x009 0x040).toNat →
    (s.dev.avsPulls f = true → 900 ≤ f → ∀ b i,
      ∃ t, exec (.dvfsInterval b i) s = .next t ∧ t.dev.reg 0x009 0x040 = BitVec.ofNat 32 (f - 100)) ∧
    (s.dev.avsPulls f = false → ∀ g, s.dev.dvfsGoal f = some g → ∀ b i,
      ∃ t, exec (.dvfsInterval b i) s = .next t ∧
        (g ≤ f → t.dev.reg 0x009 0x040 = BitVec.ofNat 32 (f - 100 * min 5 ((f - g) / 100))) ∧
        (f ≤ g → (∀ j, 1 ≤ j → j ≤ 5 → s.dev.voltsFor (f + 100 * j) = true ∧ s.dev.avsPulls (f + 100 * j) = false) →
          t.dev.reg 0x009 0x040 = BitVec.ofNat 32 (f + 100 * min 5 ((g - f) / 100)))) ∧
    (s.dev.avsPulls f = false → s.dev.dvfsGoal f = none →
      ((s.dev.reg 0x008 0x078).toNat < 9 * s.dev.powerLimit → f + 100 ≤ min 3200 s.dev.dvfsMax → s.dev.avsPulls (f + 100) = false → ∀ i,
        ∃ t, exec (.dvfsInterval true i) s = .next t ∧
          (s.dev.voltsFor (f + 100) = true → t.dev.reg 0x009 0x040 = BitVec.ofNat 32 (f + 100)) ∧
          (s.dev.voltsFor (f + 100) = false → t.dev.reg 0x009 0x040 = s.dev.reg 0x009 0x040 ∧ t.dev.fWant = some (f + 100))) ∧
      (s.dev.dvfsMin + 100 ≤ f → 900 ≤ f →
        ∃ t, exec (.dvfsInterval false true) s = .next t ∧ t.dev.reg 0x009 0x040 = BitVec.ofNat 32 (f - 100)) ∧
      ∃ t, exec (.dvfsInterval false false) s = .next t ∧ t.dev.reg 0x009 0x040 = s.dev.reg 0x009 0x040 ∧ t.dev.fWant = none)) ∧
  (∀ (s : State) (temps : List Int) (k : Fin 16), s.Powered → temps.length = 16 →
    (∀ j, j < 16 → -2 ^ 15 ≤ temps.getD j 0 ∧ temps.getD j 0 < 2 ^ 15) →
    (s.dev.throtT ≤ temps.getD k.val 0 → (∀ j : Fin 16, temps.getD j.val 0 < 460) →
      ∃ t, exec (.thermalSample temps) s = .next t ∧ (∀ j : Fin 16, t.dev.temp j.val = temps.getD j.val 0) ∧
        t.dev.reg 0x009 0x04C = BitVec.ofNat 32 (max 800 ((s.dev.reg 0x009 0x04C).toNat - 100)) ∧ t.halt = s.halt) ∧
    ((∀ j : Fin 16, temps.getD j.val 0 < s.dev.throtT - 20 ∧ temps.getD j.val 0 < 460) →
      ∃ t, exec (.thermalSample temps) s = .next t ∧ (2 * (t.dev.reg 0x008 0x078).toNat < 19 * t.dev.powerLimit →
        (s.dev.reg 0x009 0x04C).toNat < 3200 → s.dev.capAt + 1000 ≤ s.dev.now → t.dev.throttle = false ∧
        t.dev.reg 0x009 0x04C = BitVec.ofNat 32 (min 3200 ((s.dev.reg 0x009 0x04C).toNat + 100)))) ∧
    (460 ≤ s.dev.temp k.val → 460 ≤ temps.getD k.val 0 → s.dev.flag 0x014 0x084 0 = false →
      ∃ t, exec (.thermalSample temps) s = .next t ∧ t.dev.flag 0x014 0x084 0 = true ∧
        (∀ r : Fin 96, (t.dev.region r.val).st = .off ∨ (t.dev.region r.val).st = .retired) ∧
        (s.dev.absentPage 0x041 = false → t.halt.st = .tripped ∧ (s.halt.st ≠ .tripped → t.halt.pins = 0 ∧ t.halt.cause = 7)))) ∧
  (∀ (s : State) (r : Fin 96) (k : DroopKind), s.Powered →
    ∃ t, exec (.droopEngage r k) s = .next t ∧ t.dev.flag (0x200 + r.val) 0x014 4 = true ∧
      t.dev.reg (0x200 + r.val) 0x060 = satAdd (s.dev.reg (0x200 + r.val) 0x060) 1) ∧
  (∀ (s : State) (r : Fin 96) (k : Fin 8), s.Powered → (s.dev.region r.val).st ≠ .retired →
    ((s.dev.region r.val).phases = 0xFF → ∃ t, exec (.phaseLoss r k) s = .next t ∧
      (t.dev.region r.val).phases = 0xFF - 2 ^ k.val ∧ (t.dev.region r.val).st ≠ .retired ∧ t.dev.flag (0x200 + r.val) 0x014 1 = true) ∧
    ((s.dev.region r.val).phases = 0xFF - 2 ^ ((k.val + 1) % 8) → ∃ t, exec (.phaseLoss r k) s = .next t ∧
      (t.dev.region r.val).st = .retired)) ∧
  (∀ (s : State) (r : Fin 96) (k : Fin 8), ((s.dev.region r.val).st = .retired ∨ (s.dev.region r.val).phases.testBit k.val = false) →
    exec (.phaseLoss r k) s = .next s) ∧
  (∀ (s : State) (c : Fin 512) (mv expected : BitVec 12) (p o : Nat), s.Powered → p = 0x260 + c.val / 64 → o = 0x040 + 4 * (c.val % 64) →
    expected.toNat * s.dev.field 0x260 0x140 7 0 < 16 * mv.toNat → 10 < mv.toNat → s.dev.flag p o 31 = false →
    max 1 (s.dev.field 0x260 0x140 15 8) ≤ Sparse.get (fun _ => 0) s.dev.drops c.val + 1 →
    ∃ t, exec (.dropMonitorSample c mv expected) s = .next t ∧ t.dev.flag p o 31 = true ∧ t.dev.field p o 11 0 = mv.toNat ∧
      (t.dev.region (Config.clusterRegion c.val % 96)).crack = true ∧ t.dev.flag 0x008 0x014 5 = true) ∧
  (∀ (s : State) (c : Fin 512) (mv expected : BitVec 12), s.Powered →
    (16 * mv.toNat ≤ expected.toNat * s.dev.field 0x260 0x140 7 0 ∨ mv.toNat ≤ 10) →
    ∃ t, exec (.dropMonitorSample c mv expected) s = .next t ∧ Sparse.get (fun _ => 0) t.dev.drops c.val = 0 ∧
      t.dev.regions = s.dev.regions) ∧
  (∀ (s : State) (ag : Agent) (r : Fin 96), s.Powered →
    ∃ t, exec (.crackPreset ag r) s = .next t ∧ t.dev.region r.val = { s.dev.region r.val with crack := true } ∧
      t.dev.flag (0x200 + r.val) 0x064 0 = true)

/-! ## 18 Clocks -/

/-- The clocks (R413, R418, R420–R425): a root switch is BUSY until it is done, and then the root has moved; a mux passes its new input
when its switch ends, is forced by FSW, or after SWITCH_TMO with HUNG; a lost source is marked and a good one is ready again; PLLs lock;
the holdover ends on XTA; RCV is taken again after 100 ms; the loss of FIO is a chip reset. A switch that R418 refuses sets
SWITCH_REFUSED, and what is not due changes nothing.
The model's own readings in it: log entries 147 and 150. -/
def Obligations.ClockSwitches : Prop :=
  (∀ (s : State) (ag : Agent) (v : Word), s.Admits ag 0x012 → bit v 4 = false → s.dev.clk.target = none → s.dev.flag 0x010 0x050 0 = true →
    s.dev.srcRdy 2 = true → bits v 1 0 ≤ 1 → s.dev.srcRdy (Dev.rootSrc (bits v 1 0)) = true → s.dev.rootCur = 1 - bits v 1 0 →
    ∃ t, exec (.rootSwitch ag v) s = .next t ∧ t.dev.clk.target = some (bits v 1 0) ∧ t.dev.flag 0x012 0x044 4 = true ∧
      t.dev.rootCur = s.dev.rootCur ∧ t.dev.field 0x012 0x040 1 0 = bits v 1 0) ∧
  (∀ (s : State) (ag : Agent) (v : Word), s.Admits ag 0x012 →
    (bit v 4 = false → (s.dev.clk.target ≠ none ∨ bits v 1 0 = 3 ∨ s.dev.srcRdy (Dev.rootSrc (bits v 1 0)) = false) →
      ∃ t, exec (.rootSwitch ag v) s = .next t ∧ t.dev.flag 0x012 0x040 4 = false ∧
        t.dev.field 0x012 0x040 1 0 = s.dev.field 0x012 0x040 1 0 ∧ t.dev.flag 0x012 0x014 0 = true) ∧
    (bit v 4 = true → ∃ t, exec (.rootSwitch ag v) s = .next t ∧ t.dev.flag 0x012 0x040 4 = true ∧
      t.dev.field 0x012 0x040 1 0 = s.dev.field 0x012 0x040 1 0)) ∧
  (∀ (s : State) (k : Nat), s.Powered → s.dev.clk.target = some k → k ≤ 1 → s.dev.flag 0x012 0x040 4 = false →
    s.dev.flag 0x010 0x050 0 = true → s.dev.srcRdy 2 = true →
    ∃ t, exec .rootSwitchDone s = .next t ∧ t.dev.rootCur = k ∧ t.dev.clk.target = none ∧ t.dev.flag 0x012 0x044 4 = false ∧
      t.dev.reg 0x012 0x04C = satAdd (s.dev.reg 0x012 0x04C) 1) ∧
  (∀ s : State, s.Powered → s.dev.clk.target = some 2 → s.dev.flag 0x012 0x040 4 = false → s.dev.flag 0x010 0x050 0 = true →
    s.dev.srcRdy 2 = true → s.dev.flag 0x011 0x040 0 = true → s.dev.flag 0x011 0x04C 8 = false → s.dev.pllLocked 0 = true →
    ∃ t, exec .rootSwitchDone s = .next t ∧ t.dev.rootCur = 2 ∧ t.dev.clk.target = none ∧ t.dev.flag 0x012 0x044 4 = false ∧
      t.dev.reg 0x012 0x04C = satAdd (s.dev.reg 0x012 0x04C) 1) ∧
  (∀ s : State, s.dev.clk.target = none → exec .rootSwitchDone s = .next s) ∧
  (∀ (s : State) (ag : Agent) (m : Mux) (v : Word), s.Admits ag 0x013 → s.dev.muxBusy m = false → bit v 0 = !s.dev.muxSel m →
    bit v 1 = false → (m = .aon → bit v 0 = true → s.dev.flag 0x010 0x054 0 = true) →
    ∃ t, exec (.muxSwitch ag m v) s = .next t ∧ t.dev.muxBusy m = true ∧ t.dev.flag 0x013 (Dev.muxReg m) 0 = bit v 0 ∧
      t.dev.muxSel m = s.dev.muxSel m) ∧
  (∀ (s : State) (ag : Agent) (v : Word), s.Admits ag 0x013 → s.dev.muxBusy .aon = false → bit v 0 = true →
    s.dev.flag 0x010 0x054 0 = false →
    ∃ t, exec (.muxSwitch ag .aon v) s = .next t ∧ t.dev.muxBusy .aon = false ∧ t.dev.muxSel .aon = s.dev.muxSel .aon) ∧
  (∀ (s : State) (m : Mux), (s.dev.muxBusy m = false ∨ s.dev.now < s.dev.muxAt m + s.dev.switchTmo) →
    exec (.muxSwitchTimeout m) s = .next s) ∧
  (∀ (s : State) (ag : Agent) (m : Mux), s.Powered → s.dev.muxBusy m = true →
    (∃ t, exec (.muxSwitchDone m) s = .next t ∧ t.dev.muxBusy m = false ∧ t.dev.muxSel m = s.dev.flag 0x013 (Dev.muxReg m) 0 ∧
      t.dev.flag 0x013 (Dev.muxReg m) 9 = s.dev.flag 0x013 (Dev.muxReg m) 9) ∧
    (s.dev.muxAt m + s.dev.switchTmo ≤ s.dev.now → ∃ t, exec (.muxSwitchTimeout m) s = .next t ∧ t.dev.muxBusy m = false ∧
      t.dev.muxSel m = s.dev.flag 0x013 (Dev.muxReg m) 0 ∧ t.dev.flag 0x013 (Dev.muxReg m) 9 = true) ∧
    (s.Admits ag 0x013 → ∃ t, exec (.muxForce ag m) s = .next t ∧ t.dev.muxBusy m = false ∧
      t.dev.muxSel m = s.dev.flag 0x013 (Dev.muxReg m) 0)) ∧
  (∀ s : State, s.Powered → s.dev.monitored .sio = true →
    ∃ t, exec (.sourceLost .sio) s = .next t ∧ t.dev.srcRdy 1 = false ∧ t.dev.flag 0x010 0x044 1 = true) ∧
  (∀ s : State, s.Powered → s.dev.monitored .xta = true →
    ∃ t, exec (.sourceLost .xta) s = .next t ∧ t.dev.srcRdy 2 = false ∧ t.dev.flag 0x010 0x044 2 = true) ∧
  (∀ s : State, s.Powered → s.dev.monitored .xtb = true →
    ∃ t, exec (.sourceLost .xtb) s = .next t ∧ t.dev.srcRdy 3 = false ∧ t.dev.flag 0x010 0x044 3 = true ∧
      (s.dev.flag 0x013 0x040 0 = true → t.dev.muxSel .aon = false)) ∧
  (∀ (s : State) (x : Source), s.dev.monitored x = false → exec (.sourceLost x) s = .next s) ∧
  (∀ s : State, s.Powered → s.dev.monitored .fio = true →
    ∃ t, exec (.sourceLost .fio) s = .next t ∧ t.dev.reg 0x002 0x040 = 16 ∧ t.halt.st = .safe ∧ t.halt.pins = 0) ∧
  (∀ s : State, s.Powered → (∃ t, exec (.sourceGood .sio) s = .next t ∧ t.dev.srcRdy 1 = true) ∧
    (∃ t, exec (.sourceGood .fio) s = .next t ∧ t.dev.srcRdy 0 = true) ∧
    (s.dev.flag 0x010 0x050 0 = true → ∃ t, exec (.sourceGood .xta) s = .next t ∧ t.dev.srcRdy 2 = true) ∧
    (s.dev.flag 0x010 0x054 0 = true → ∃ t, exec (.sourceGood .xtb) s = .next t ∧ t.dev.srcRdy 3 = true)) ∧
  (∀ (s : State) (x : Source), s.dev.sourceRuns x = false → exec (.sourceGood x) s = .next s) ∧
  (∀ s : State, s.Powered → s.dev.pllLocked 2 = false → s.dev.flag 0x011 0x048 0 = true → s.dev.clk.rcvSel = true → s.dev.srcRdy 7 = true →
    ∃ t, exec (.pllLock 2) s = .next t ∧ t.dev.pllLocked 2 = true ∧ t.dev.srcRdy 6 = true ∧ t.dev.clk.holdAt = none) ∧
  (∀ s : State, s.Powered → s.dev.pllLocked 1 = false → s.dev.flag 0x011 0x044 0 = true → s.dev.flag 0x011 0x044 9 = true →
    s.dev.srcRdy 0 = true → ∃ t, exec (.pllLock 1) s = .next t ∧ t.dev.pllLocked 1 = true ∧ t.dev.srcRdy 5 = true) ∧
  (∀ s : State, s.Powered → s.dev.pllLocked 0 = false → s.dev.flag 0x011 0x040 0 = true → s.dev.flag 0x011 0x04C 8 = false →
    s.dev.flag 0x010 0x050 0 = true → s.dev.srcRdy 2 = true →
    ∃ t, exec (.pllLock 0) s = .next t ∧ t.dev.pllLocked 0 = true ∧ t.dev.srcRdy 4 = t.dev.pll0Good) ∧
  (∀ (s : State) (n : Fin 3), (s.dev.pllOn n.val = false ∨ s.dev.pllRef n.val = false ∨ s.dev.pllLocked n.val = true) →
    exec (.pllLock n) s = .next s) ∧
  (∀ (s : State) (a : Nat), s.Powered → s.dev.clk.holdAt = some a → a + s.dev.holdUs ≤ s.dev.now →
    ∃ t, exec .holdoverTimeout s = .next t ∧ t.dev.clk.holdAt = none ∧ t.dev.clk.rcvSel = false ∧ t.dev.flag 0x013 0x044 0 = false) ∧
  (∀ s : State, (∀ a, s.dev.clk.holdAt = some a → s.dev.now < a + s.dev.holdUs) → exec .holdoverTimeout s = .next s) ∧
  (∀ s : State, (∀ a, s.dev.clk.rcvGood = some a → s.dev.now < a + 100000 ∨ s.dev.flag 0x011 0x048 2 = false ∨
      s.dev.pllOn 2 = false ∨ s.dev.clk.rcvSel = true) → exec .rcvAutoReturn s = .next s) ∧
  (∀ (s : State) (a : Nat), s.Powered → s.dev.clk.rcvGood = some a → a + 100000 ≤ s.dev.now → s.dev.flag 0x011 0x048 2 = true →
    s.dev.pllOn 2 = true → s.dev.clk.rcvSel = false → s.dev.muxBusy .rcv = false →
    ∃ t, exec .rcvAutoReturn s = .next t ∧ t.dev.muxBusy .rcv = true ∧ t.dev.flag 0x013 0x044 0 = true)

/-! ## 19 Host ports and Kakan links -/

/-- The host ports (R55, R267, R430, R431, R434, R435): a link-down masks the vectors and is due to release in 1 ms; training and the end
of an FLR bring a trained port up; a BAR2 request to direct SRAM reads its bytes and writes those its byte enables pick, a read of the
placed range waits where it must, one before HBM is ready or longer than 4 KiB is unsupported, one that is poisoned
changes no memory, and a port that is down takes none; a read that waits for 1 ms is aborted; a waiting vector's message goes out when
it or its function is unmasked.
The model's own readings in it: log entries 14, 158 and 161. -/
def Obligations.HostPorts : Prop :=
  (∀ (s : State) (p : Port) (c : LinkDownCause), s.Powered →
    ∃ t, exec (.portLinkDown p c) s = .next t ∧ t.dev.portUp p = false ∧ (p, s.dev.now) ∈ t.dev.released ∧
      t.dev.flag p.page 0x014 0 = true ∧ t.dev.reg p.page 0x044 = satAdd (s.dev.reg p.page 0x044) 1 ∧
      (∀ v, v < 128 → Sparse.get (fun _ => false) t.dev.unmasked (p.index * 128 + v) = false) ∧
      Sparse.get (fun _ => false) t.dev.unmasked (1000 + p.index) = false) ∧
  (∀ (s : State) (p : Port) (speed : Fin 8) (width : Fin 64), s.Powered →
    ∃ t, exec (.portLinkUp p speed width) s = .next t ∧ t.dev.portUp p = true ∧ t.dev.field p.page 0x040 3 1 = speed.val ∧
      t.dev.field p.page 0x040 9 4 = width.val) ∧
  (∀ (s : State) (p : Port), s.Powered → s.dev.field p.page 0x040 3 1 ≠ 0 →
    ∃ t, exec (.flrDone p) s = .next t ∧ t.dev.portUp p = true) ∧
  (∀ (s : State) (p : Port), s.dev.field p.page 0x040 3 1 = 0 → exec (.flrDone p) s = .next s) ∧
  (∀ (s : State) (p : Port) (a : BitVec 41) (r : Request) (b : Bool), s.dev.portUp p = false → exec (.bar2Request p a r b) s = .next s) ∧
  (∀ (s : State) (p : Port) (a : BitVec 41), s.Powered → s.dev.portUp p = true → s.dev.flag p.page 0x040 12 = false →
    (∀ r, ∃ t, exec (.bar2Request p a r true) s = .next t ∧ t.dev.mem = s.dev.mem ∧
      t.dev.reg p.page 0x118 = satAdd (s.dev.reg p.page 0x118) 1) ∧
    (s.dev.hbmReady = false → ∀ r, ∃ t, exec (.bar2Request p a r false) s = .next t ∧ t.dev.bus = .unsupported ∧
      t.dev.mem = s.dev.mem) ∧
    (s.dev.hbmReady = true →
      (∀ n, (4096 < n → ∃ t, exec (.bar2Request p a (.read n) false) s = .next t ∧ t.dev.bus = .unsupported ∧ t.dev.mem = s.dev.mem) ∧
        (n ≤ 4096 → (∀ q ∈ Dev.pageParts a.toNat n, directSram q.1) → directSram a.toNat →
          ∃ t, exec (.bar2Request p a (.read n) false) s = .next t ∧ t.dev.bus = .bytes (s.dev.bytes a.toNat n) ∧
            t.dev.mem = s.dev.mem) ∧
        (n ≤ 4096 → spanOf a.toNat = .placed → s.dev.placedOpen = false →
          ∃ t, exec (.bar2Request p a (.read n) false) s = .next t ∧ t.dev.bus = .waiting ∧ t.dev.mem = s.dev.mem ∧
            t.dev.waits = s.dev.waits ++ [{ who := .port p, addr := a.toNat, len := n, since := s.dev.now }])) ∧
      ∀ (data : List Byte) (es : List Bool), data.length ≤ 4096 → es.length = data.length → data ≠ [] →
        (∀ q ∈ Dev.pageParts a.toNat data.length, directSram q.1) →
        ∃ t, exec (.bar2Request p a (.write data es) false) s = .next t ∧ t.dev.bus = .done ∧
          (∀ i, i < data.length → t.dev.byte (a.toNat + i) = if es.getD i false then data.getD i 0 else s.dev.byte (a.toNat + i)) ∧
          ∀ x, x < a.toNat ∨ a.toNat + data.length ≤ x → t.dev.byte x = s.dev.byte x)) ∧
  (∀ (s : State) (p : Port) (x : WaitAccess), s.Powered → x ∈ s.dev.waits → x.data = none → x.who = .port p →
    x.since + 1000 ≤ s.dev.now →
    ∃ t, exec (.bar2ReadTimeout p) s = .next t ∧ t.dev.bus = .completerAbort ∧ x ∉ t.dev.waits ∧ t.dev.mem = s.dev.mem ∧
      t.dev.reg p.page 0x114 = satAdd (s.dev.reg p.page 0x114) 1) ∧
  (∀ (s : State) (p : Port), s.dev.waits.any (Dev.lateAccess p s.dev) = false → s.dev.remotes.any (Dev.lateRemote p s.dev) = false →
    exec (.bar2ReadTimeout p) s = .next s) ∧
  (∀ (s : State) (p : Port), s.Powered → ∃ t, exec (.msixUnmask p none) s = .next t ∧
    Sparse.get (fun _ => false) t.dev.unmasked (1000 + p.index) = true ∧
    ∀ v : Fin 128, Sparse.get (fun _ => false) s.dev.unmasked (p.index * 128 + v.val) = true →
      Sparse.get (fun _ => false) t.dev.pba (p.index * 128 + v.val) = false) ∧
  (∀ (s : State) (p : Port) (v : Fin 128), s.Powered → Sparse.get (fun _ => false) s.dev.pba (p.index * 128 + v.val) = true →
    Sparse.get (fun _ => false) s.dev.unmasked (1000 + p.index) = true →
    ∃ t, exec (.msixUnmask p (some v)) s = .next t ∧ t.dev.sent = some (p, v.val) ∧
      Sparse.get (fun _ => false) t.dev.pba (p.index * 128 + v.val) = false ∧
      t.dev.reg p.page 0x110 = satAdd (s.dev.reg p.page 0x110) 1)

/-- Kakan links (R437–R441, R443, R445–R449, R451). DETECT, EQ, ALIGN, CONFIG and UP follow in order, with the equaliser's code within
its bounds and the peer checked; RETRAIN on a lost lock leads back to UP within 2 ms, and to DETECT without its unacknowledged packets
after 10 ms; the equaliser slews by one code; epochs are numbered and passed on. A flit that FEC cannot correct changes nothing, and
one in order is taken once; a NAK is counted with its replay; credits return up to 256; a write to the export window stores its bytes,
a reduction adds an element, SIG adds to its register, a read is answered with the window's bytes; and answers end the remote request
they belong to, and so does its timeout.
The model's own readings in it: log entries 153, 154, 155, 156, 203 and 207. -/
def Obligations.KakanLinks : Prop :=
  ((∀ (s : State) (k : Fin 4), s.Powered → s.dev.absentPage (Dev.kpage k.val) = false →
    (s.dev.lstate k.val = 1 → ∃ t, exec (.linkDetectPoll k true) s = .next t ∧ t.dev.lstate k.val = 2) ∧
    (∀ b, s.dev.lstate k.val ≠ 1 ∨ b = false → exec (.linkDetectPoll k b) s = .next s) ∧
    (s.dev.lstate k.val = 2 → ∀ code : Fin 64, ∃ t, exec (.linkEqDone k code) s = .next t ∧ t.dev.lstate k.val = 3 ∧
      t.dev.field (Dev.kpage k.val) 0x048 5 0 = s.dev.eqClamp k.val code.val) ∧
    (s.dev.lstate k.val = 3 → ∃ t, exec (.linkAlignDone k) s = .next t ∧ t.dev.lstate k.val = 4) ∧
    (s.dev.lstate k.val = 4 → ∀ (dev : BitVec 12) (j : Fin 4) (x y : BitVec 7),
      (s.dev.peerMatches k.val dev.toNat j.val x.toNat y.toNat = true →
        ∃ t, exec (.linkConfig k dev j x y) s = .next t ∧ t.dev.lstate k.val = 5) ∧
      (s.dev.peerMatches k.val dev.toNat j.val x.toNat y.toNat = false →
        ∃ t, exec (.linkConfig k dev j x y) s = .next t ∧ t.dev.lstate k.val = 4 ∧ t.dev.flag (Dev.kpage k.val) 0x014 2 = true)) ∧
    (s.dev.lstate k.val = 5 →
      (∃ t, exec (.linkLockLost k) s = .next t ∧ t.dev.lstate k.val = 6 ∧ (t.dev.link k.val).since = s.dev.now) ∧
      (∀ want : Fin 64, ∃ t, exec (.eqStep k want) s = .next t ∧ ∀ c g, c = s.dev.field (Dev.kpage k.val) 0x048 5 0 →
        g = s.dev.eqClamp k.val want.val →
        t.dev.field (Dev.kpage k.val) 0x048 5 0 = if c < g then c + 1 else if g < c then c - 1 else c) ∧
      (∀ n : BitVec 16, s.dev.flag 0x158 0x2C0 0 = false → ∃ t, exec (.epochFlit k n) s = .next t ∧
        (t.dev.link k.val).epoch = some n.toNat ∧ t.dev.field 0x158 0x2C4 15 0 = n.toNat)) ∧
    (s.dev.lstate k.val = 6 →
      ((s.dev.link k.val).since + 2000 < s.dev.now → exec (.linkRetrainDone k) s = .next s) ∧
      (s.dev.now < (s.dev.link k.val).since + 10000 → exec (.linkRetrainTimeout k) s = .next s) ∧
      (s.dev.now ≤ (s.dev.link k.val).since + 2000 → ∃ t, exec (.linkRetrainDone k) s = .next t ∧ t.dev.lstate k.val = 5) ∧
      ((s.dev.link k.val).since + 10000 ≤ s.dev.now → ∃ t, exec (.linkRetrainTimeout k) s = .next t ∧ t.dev.lstate k.val = 1 ∧
        (t.dev.link k.val).unacked = [] ∧ t.dev.flag (Dev.kpage k.val) 0x014 1 = true)) ∧
    (s.dev.lstate k.val ≠ 2 → ∀ code, exec (.linkEqDone k code) s = .next s) ∧
    (s.dev.lstate k.val ≠ 3 → exec (.linkAlignDone k) s = .next s) ∧
    (s.dev.lstate k.val ≠ 4 → ∀ dev j x y, exec (.linkConfig k dev j x y) s = .next s) ∧
    (s.dev.lstate k.val ≠ 5 → exec (.linkLockLost k) s = .next s ∧ (∀ want, exec (.eqStep k want) s = .next s) ∧
      ∀ n, exec (.epochFlit k n) s = .next s) ∧
    (s.dev.lstate k.val ≠ 6 → exec (.linkRetrainDone k) s = .next s ∧ exec (.linkRetrainTimeout k) s = .next s)) ∧
  (∀ s : State, s.dev.flag 0x158 0x2C0 0 = false → exec .epochSend s = .next s) ∧
  (∀ s : State, s.Powered → s.dev.flag 0x158 0x2C0 0 = true →
    ∃ t, exec .epochSend s = .next t ∧ t.dev.field 0x158 0x2C4 15 0 = (s.dev.field 0x158 0x2C4 15 0 + 1) % 65536)) ∧
  ((∀ (s : State) (k : Fin 4) (q : BitVec 12), (s.dev.lstate k.val ≠ 5 ∨ s.dev.absentPage (Dev.kpage k.val) = true) →
    (∀ f c, exec (.flitReceive k q f c) s = .next s) ∧ exec (.flitNak k q) s = .next s) ∧
  (∀ (s : State) (k : Fin 4) (q : BitVec 12), s.Powered → s.dev.absentPage (Dev.kpage k.val) = false → s.dev.lstate k.val = 5 →
    (∀ f, ∃ t, exec (.flitReceive k q f .failed) s = .next t ∧ t = s) ∧
    (∀ up, (s.dev.link k.val).failed = none → ∃ t, exec (.flitReceive k q (.ack up) .good) s = .next t ∧
      (t.dev.link k.val).unacked =
        (s.dev.link k.val).unacked.filter (fun e => decide (2048 ≤ (up.toNat + 4096 - e.1 % 4096) % 4096))) ∧
    (∀ p : KPacket, (q.toNat ≠ (s.dev.link k.val).rxSeq → ∃ t, exec (.flitReceive k q (.data p) .good) s = .next t ∧ t = s) ∧
      (q.toNat = (s.dev.link k.val).rxSeq → ∃ t, exec (.flitReceive k q (.data p) .good) s = .next t ∧
        (t.dev.link k.val).rxSeq = (q.toNat + 1) % 4096)) ∧
    ((s.dev.link k.val).unacked.any (fun e => e.1 == q.toNat) = true → (s.dev.link k.val).failed = none →
      (1 < s.dev.field (Dev.kpage k.val) 0x04C 3 0 → s.dev.frozen (Dev.kpage k.val) = false →
        ∃ t, exec (.flitNak k q) s = .next t ∧ (t.dev.link k.val).failed = some (q.toNat, 1) ∧
          t.dev.reg (Dev.kpage k.val) 0x054 = satAdd (s.dev.reg (Dev.kpage k.val) 0x054) 1) ∧
      (s.dev.field (Dev.kpage k.val) 0x04C 3 0 ≤ 1 →
        ∃ t, exec (.flitNak k q) s = .next t ∧ t.dev.lstate k.val = 6 ∧ (t.dev.link k.val).failed = none ∧
          t.dev.flag (Dev.kpage k.val) 0x014 0 = true)) ∧
    (∀ (vc : Fin 3) (n : Fin 257), (s.dev.link k.val).queue = [] → (s.dev.link k.val).credits.length = 3 →
      ∃ t, exec (.creditReceive k vc n) s = .next t ∧
        (t.dev.link k.val).credits.getD vc.val 0 = min 256 ((s.dev.link k.val).credits.getD vc.val 0 + n.val))) ∧
  (∀ (s : State) (p : KPacket) (a : Nat), s.Powered → a = s.dev.exportBase + Dev.kOffset p →
    (p.payload ≠ [] → Dev.kOffset p + p.payload.length ≤ s.dev.exportSize → (∀ q ∈ Dev.pageParts a p.payload.length, directSram q.1) →
      ∃ t, exec (.kakanWrite p) s = .next t ∧ t.dev.bytes a p.payload.length = p.payload ∧
        ∀ x, x < a ∨ a + p.payload.length ≤ x → t.dev.byte x = s.dev.byte x) ∧
    (∀ f w, s.dev.redFmt = (f, w) → Dev.sigReg p = none → Dev.kOffset p + p.payload.length ≤ s.dev.exportSize →
      (p.payload.length = w → Dev.kOffset p % w = 0 → (∀ q ∈ Dev.pageParts a w, directSram q.1) →
        ∃ t, exec (.kakanRedWrite p) s = .next t ∧
          t.dev.num a w = (f.convert ((f.decode (s.dev.num a w)).add (f.decode (ofBytesLE p.payload)))).1 % 2 ^ (8 * w) ∧
          ∀ x, x < a ∨ a + w ≤ x → t.dev.byte x = s.dev.byte x) ∧
      (p.payload.length = 1 →
        ∃ t, exec (.kakanRedWrite p) s = .next t ∧ t.dev.mem = s.dev.mem ∧
          t.dev.reg 0x158 0x2CC = satAdd (s.dev.reg 0x158 0x2CC) 1)) ∧
    (∀ j, s.dev.route p.src.toNat = some j → s.dev.lstate j ≠ 5 →
      (Dev.kOffset p + p.len ≤ s.dev.exportSize → (∀ q ∈ Dev.pageParts a p.len, directSram q.1) →
        ∃ t, exec (.kakanRead p) s = .next t ∧ t.dev.mem = s.dev.mem ∧ (t.dev.link j).queue = (s.dev.link j).queue ++
          [{ op := .readData, vc := 1, src := p.dst, dst := p.src, offset := p.offset, tag := p.tag, len := p.len,
             payload := s.dev.bytes a p.len }]) ∧
      (s.dev.exportSize ≤ Dev.kOffset p → 0 < p.len →
        ∃ t, exec (.kakanRead p) s = .next t ∧ t.dev.mem = s.dev.mem ∧
          t.dev.reg 0x0D0 0x04C = satAdd (s.dev.reg 0x0D0 0x04C) 1 ∧ (t.dev.link j).queue = (s.dev.link j).queue ++
          [{ op := .readData, vc := 1, src := p.dst, dst := p.src, offset := p.offset, tag := p.tag, len := p.len,
             payload := List.replicate p.len 0 }]))) ∧
  (∀ (s : State) (p : KPacket) (i : Fin 16) (v : Word), s.Powered → p.payload = bytesLE 4 v.toNat → Dev.kRed p = true →
    Dev.kOffset p = 0x3FFFF0000 + 4 * i.val →
    ∀ c ∈ [Instr.kakanSig p, .kakanRedWrite p],
      ∃ t, exec c s = .next t ∧ t.dev.reg 0x158 (0x240 + 4 * i.val) = s.dev.reg 0x158 (0x240 + 4 * i.val) + v ∧
        t.dev.mem = s.dev.mem ∧
        ((s.dev.reg 0x158 (0x240 + 4 * i.val) + v - s.dev.reg 0x158 (0x280 + 4 * i.val)).toNat < 2 ^ 31 →
          t.dev.flag 0x158 0x014 (12 + i.val) = true)) ∧
  (∀ (s : State) (p : KPacket), s.Powered → Dev.sigReg p = none →
    ∃ t, exec (.kakanSig p) s = .next t ∧ t.dev.mem = s.dev.mem ∧ t.dev.reg 0x0D0 0x04C = satAdd (s.dev.reg 0x0D0 0x04C) 1) ∧
  (∀ (s : State) (p : KPacket), s.Powered → ∃ t, exec (.kakanNakRoute p) s = .next t ∧ t = s) ∧
  (∀ (s : State) (p : KPacket) (r : Remote), s.Powered → s.dev.remoteOf p.tag = some r →
    (r.read = true → ∃ t, exec (.kakanReadData p) s = .next t ∧ t.dev.remoteOf p.tag = none ∧
      t.dev.bus = .bytes p.payload ∧ t.dev.mem = s.dev.mem) ∧
    (r.read = false → ((∃ q, r.who = .port q ∨ ∃ n, r.who = .core n) ∨ (s.dev.dropRemote p.tag).unanswered r.who = true) →
      ∃ t, exec (.kakanAck p) s = .next t ∧ t.dev.remoteOf p.tag = none ∧ t.dev.mem = s.dev.mem) ∧
    (r.read = false → ∀ k y m, r.who = .engine k → (s.dev.dropRemote p.tag).unanswered r.who = false → s.dev.TasksWf →
      s.dev.task k.val = some y → y.st = .dispatched → s.dev.ringClass y.ring = 3 → y.moved = some m →
      ∃ t, exec (.kakanAck p) s = .next t ∧ t.dev.RetiredWith k.val m.1) ∧
    (r.sent + s.dev.nbLossTmo ≤ s.dev.now →
      (r.read = true → ∃ t, exec (.remoteTimeout p.tag) s = .next t ∧ t.dev.remoteOf p.tag = none ∧
        t.dev.reg 0x158 0x2C8 = satAdd (s.dev.reg 0x158 0x2C8) 1 ∧ t.dev.bus = .poisoned ∧
        ∀ k y, r.who = .engine k → s.dev.TasksWf → s.dev.task k.val = some y → y.st = .dispatched → s.dev.ringClass y.ring = 3 →
          t.dev.RetiredWith k.val 0x31) ∧
      (r.read = false → ∀ k y, r.who = .engine k → s.dev.TasksWf → s.dev.task k.val = some y → y.st = .dispatched →
        s.dev.ringClass y.ring = 3 →
        ∃ t, exec (.remoteTimeout p.tag) s = .next t ∧ t.dev.RetiredWith k.val 0x31 ∧
          t.dev.reg 0x158 0x2C8 = satAdd (s.dev.reg 0x158 0x2C8) 1)) ∧
    (s.dev.now < r.sent + s.dev.nbLossTmo → exec (.remoteTimeout p.tag) s = .next s) ∧
    (r.read = false → exec (.kakanReadData p) s = .next s) ∧ (r.read = true → exec (.kakanAck p) s = .next s)) ∧
  (∀ (s : State) (p : KPacket), s.dev.remoteOf p.tag = none → exec (.kakanReadData p) s = .next s ∧ exec (.kakanAck p) s = .next s ∧
    exec (.remoteTimeout p.tag) s = .next s))


/-! ## 20 Resets, boot, fuses, flash, debug port -/

/-- Resets and boot (R152, R452–R455, R459, R477): a chip reset leaves the halt unit SAFE with its outputs inactive, its cause and the
fuses; a warm reset takes an armed unit to HOLD with its outputs held and keeps the direct SRAM where nothing is booted; the watchdog
runs from its last kick; HOST_GO jumps into the host's image, or shows the check that failed, and is ignored where the ROM does not wait
for it.
The model's own readings in it: log entries 11, 162 and 164. -/
def Obligations.ResetsAndBoot : Prop :=
  (∀ s : State, s.Powered → ∃ t, exec .chipReset s = .next t ∧ t.halt.st = .safe ∧ t.halt.pins = 0 ∧ t.fuses = s.fuses ∧
    t.pending = s.pending ∧ t.dev.power = .on ∧ (t.dev.reg 0x002 0x040 = 4 ∨ t.dev.reg 0x002 0x040 = 8 ∨ t.dev.reg 0x002 0x040 = 16)) ∧
  (∀ (s : State) (us : Nat), s.Powered → ∃ t, exec (.resetNPin us) s = .next t ∧ t.fuses = s.fuses ∧
    (us = 0 → t = s) ∧ (1 ≤ us → t.halt.st = .safe ∧ t.halt.pins = 0 ∧ t.dev.reg 0x002 0x040 = 4)) ∧
  (∀ (s : State) (v : Word), s.Powered → ∃ t, exec (.warmReset v) s = .next t ∧ (v ≠ 0x5A5A → t = s) ∧
    (v = 0x5A5A → t.dev.flag 0x002 0x040 5 = true ∧ t.fuses = s.fuses ∧ t.halt.pins = s.halt.pins ∧
      t.halt.st = (if s.halt.st = .armed then .hold else s.halt.st) ∧
      (s.fuses.crcOk = false → ∀ a, directSram a → t.dev.byte a = s.dev.byte a))) ∧
  (∀ s : State, s.Powered → s.dev.field 0x002 0x060 19 0 ≠ 0 → s.dev.wdtAt + 1000 * s.dev.field 0x002 0x060 19 0 ≤ s.dev.now →
    ∃ t, exec .watchdogExpiry s = .next t ∧ t.dev.flag 0x002 0x040 6 = true ∧ t.halt.pins = s.halt.pins) ∧
  (∀ s : State, (s.dev.field 0x002 0x060 19 0 = 0 ∨ s.dev.now < s.dev.wdtAt + 1000 * s.dev.field 0x002 0x060 19 0) →
    exec .watchdogExpiry s = .next s) ∧
  (∀ (s : State) (ag : Agent) (v : Word), s.dev.claimedBy ag 0x002 = true →
    (bit v 0 = false ∨ s.dev.field 0x002 0x04C 3 0 ≠ 2 ∨ s.hostPort ag = false) → exec (.hostGo ag v) s = .next s) ∧
  (∀ s : State, s.Powered → (∃ t, exec (.wdtKick 0xC35A) s = .next t ∧ t.dev.wdtAt = s.dev.now ∧ t.dev.mem = s.dev.mem) ∧
    ∀ v, v ≠ 0xC35A → exec (.wdtKick v) s = .next s) ∧
  (∀ (s : State) (ag : Agent) (v : Word) (i : Image) (c : Nat), s.Powered → s.dev.claimedBy ag 0x002 = true → bit v 0 = true →
    s.dev.field 0x002 0x04C 3 0 = 2 → s.hostPort ag = true → i = (fun k => s.dev.byte (0x10000000 + k)) →
    c = (s.dev.loadImage s.fuses i (s.dev.reg 0x002 0x058).toNat).2 →
    ∃ t, exec (.hostGo ag v) s = .next t ∧ t.halt = s.halt ∧ t.fuses = s.fuses ∧
      (c = 0 → t.dev.field 0x002 0x04C 3 0 = 4 ∧ t.dev.field 0x002 0x04C 6 4 = 3 ∧ (t.dev.core 0).st = .run ∧
        (t.dev.core 0).mode = 1 ∧ (t.dev.core 0).pc = BitVec.ofNat 32 i.entry) ∧
      (c ≠ 0 → t.dev.field 0x002 0x04C 3 0 = 2 ∧ t.dev.field 0x002 0x04C 15 12 = c % 16))

/-- Fuses, journal, flash and debug port (R464, R465, R467–R469, R478–R480): a fuse is programmed under its key and stays; a commit that
the journal allows is written to the sector that does not hold the winning record; the flash reads into Skein, programs bits from 1 to 0
alone, and erases to 0xFF, but never the protected ranges; an unlock opens the scope its token names; and the debug port never moves the
halt outputs. A command that comes while one is in progress, and an end of none, change nothing; a fuse write that comes then is refused.
The model's own readings in it: log entries 166, 167 and 169. -/
def Obligations.FusesFlashDebugPort : Prop :=
  (∀ (s : State) (ag : Agent) (v : Word), s.Powered → s.dev.claimedBy ag 0x000 = true → s.dev.fuseOp = none →
    (bits v 31 16 = 0xF05A →
      (∃ t, exec (.fuseProgSvn ag v) s = .next t ∧ t.dev.fuseOp = some (1, bits v 9 8) ∧ t.fuses = s.fuses) ∧
      ∃ t, exec (.fuseProgRevoke ag v) s = .next t ∧ t.dev.fuseOp = some (2, bits v 9 8) ∧ t.fuses = s.fuses) ∧
    (bits v 31 16 ≠ 0xF05A → ∀ i ∈ [Instr.fuseProgSvn ag v, .fuseProgRevoke ag v],
      ∃ t, exec i s = .next t ∧ t.dev.fuseOp = none ∧ t.fuses = s.fuses ∧ t.dev.flag 0x000 0x014 0 = true)) ∧
  (∀ (s : State) (ag : Agent) (v : Word), s.Powered → s.dev.claimedBy ag 0x000 = true → s.dev.fuseOp ≠ none →
    ∀ i ∈ [Instr.fuseProgSvn ag v, .fuseProgRevoke ag v],
      ∃ t, exec i s = .next t ∧ t.dev.fuseOp = s.dev.fuseOp ∧ t.fuses = s.fuses ∧ t.dev.flag 0x000 0x014 0 = true) ∧
  (∀ s : State, (s.dev.fuseOp = none → exec .fuseProgDone s = .next s) ∧
    (s.dev.commit = none → ∀ b, exec (.journalCommitDone b) s = .next s) ∧
    (s.dev.flashOp = none → ∀ b, exec (.flashOpDone b) s = .next s) ∧
    (s.dev.unlock = none → exec .debugUnlockDone s = .next s)) ∧
  (∀ (s : State) (ag : Agent) (v : Word),
    (s.Admits ag 0x003 → (bit v 0 = false ∨ s.dev.commit ≠ none) → exec (.journalCommit ag v) s = .next s) ∧
    (s.Admits ag 0x005 → (bit v 0 = false ∨ s.dev.unlock ≠ none ∨ ∃ a, s.dev.unlockAt = some a ∧ s.dev.now < a + 100000) →
      exec (.debugUnlock ag v) s = .next s) ∧
    (s.Admits ag 0x004 → s.dev.flashOp ≠ none →
      ∀ i ∈ [Instr.flashRead ag, .flashProgram ag, .flashErase4k ag, .flashErase64k ag], exec i s = .next s)) ∧
  (∀ (s : State) (op sel : Nat), s.Powered → s.dev.fuseOp = some (op, sel) → ∃ t, exec .fuseProgDone s = .next t ∧ t.dev.fuseOp = none ∧
    s.fuses.Kept t.fuses ∧ (op = 1 → t.fuses.svn = s.fuses.svn ||| (s.fuses.svn <<< 1) ||| 1) ∧
    (op = 1 → s.fuses.Thermometer → t.fuses.Thermometer) ∧ (op = 2 → sel < 4 → t.fuses.revoked sel = true)) ∧
  (∀ (s : State) (ag : Agent) (v : Word) (r : JRec), s.Admits ag 0x003 → bit v 0 = true → s.dev.commit = none →
    r = s.dev.regBytes 0x003 0x100 256 →
    ∃ t, exec (.journalCommit ag v) s = .next t ∧ t.dev.flash = s.dev.flash ∧
      (commitResult s.dev.winner r = 0 → t.dev.commit = some (r.stamped (s.dev.winner.seq + 1)) ∧ t.dev.reg 0x003 0x04C = 1) ∧
      (commitResult s.dev.winner r ≠ 0 → t.dev.commit = none ∧
        t.dev.reg 0x003 0x04C = BitVec.ofNat 32 (2 * commitResult s.dev.winner r))) ∧
  (∀ (s : State) (r : JRec) (k : Nat), s.Powered → s.dev.commit = some r → r.length = 256 →
    k = (match s.dev.journalWin with | some k => 1 - k | none => 0) →
    (∃ t, exec (.journalCommitDone true) s = .next t ∧ t.dev.commit = none ∧ t.dev.journal k = r ∧ t.dev.reg 0x003 0x04C = 0 ∧
      (∀ a, a < 0x10000 ∨ 0x12000 ≤ a → t.dev.flashByte a = s.dev.flashByte a)) ∧
    ∃ t, exec (.journalCommitDone false) s = .next t ∧ t.dev.commit = none ∧ t.dev.journal (1 - k) = s.dev.journal (1 - k) ∧
      t.dev.flag 0x003 0x014 1 = true) ∧
  (∀ (s : State) (ag : Agent), s.Admits ag 0x004 → s.dev.flashOp = none →
    ∀ e ∈ [(Instr.flashRead ag, 1, (s.dev.reg 0x004 0x044).toNat, (s.dev.reg 0x004 0x048).toNat),
        (.flashProgram ag, 2, (s.dev.reg 0x004 0x044).toNat, (s.dev.reg 0x004 0x048).toNat),
        (.flashErase4k ag, 3, (s.dev.reg 0x004 0x044).toNat / 0x1000 * 0x1000, 0x1000),
        (.flashErase64k ag, 4, (s.dev.reg 0x004 0x044).toNat / 0x10000 * 0x10000, 0x10000)],
      (s.dev.board.flashSize < e.2.2.1 + e.2.2.2 →
        ∃ t, exec e.1 s = .next t ∧ t.dev.flash = s.dev.flash ∧ t.dev.flashOp = none ∧ t.dev.reg 0x004 0x054 = 6) ∧
      (e.2.2.1 + e.2.2.2 ≤ s.dev.board.flashSize →
      ∃ t, exec e.1 s = .next t ∧ t.dev.flash = s.dev.flash ∧
        ((e.2.1 = 1 ∨ s.dev.flashProtected e.2.2.1 e.2.2.2 = false) → t.dev.reg 0x004 0x054 = 1 ∧
          t.dev.flashOp = some { op := e.2.1, addr := e.2.2.1, len := e.2.2.2, buf := s.dev.pair48 0x004 0x04C }) ∧
        (e.2.1 ≠ 1 → s.dev.flashProtected e.2.2.1 e.2.2.2 = true → t.dev.flashOp = none ∧ t.dev.reg 0x004 0x054 = 2 ∧
          t.dev.flag 0x004 0x014 0 = true))) ∧
  (∀ (s : State) (o : FlashOp), s.Powered → s.dev.flashOp = some o → (∀ q ∈ Dev.pageParts o.buf o.len, directSram q.1) →
    (∃ t, exec (.flashOpDone true) s = .next t ∧ t.dev.flashOp = none ∧ t.dev.reg 0x004 0x054 = 0 ∧
      (o.op = 1 → t.dev.flash = s.dev.flash ∧ t.dev.bytes o.buf o.len = s.dev.flashBytes o.addr o.len) ∧
      (o.op = 2 → t.dev.mem = s.dev.mem ∧
        ∀ i, i < o.len → t.dev.flashByte (o.addr + i) = s.dev.flashByte (o.addr + i) &&& s.dev.byte (o.buf + i)) ∧
      ((o.op = 3 ∨ o.op = 4) → t.dev.mem = s.dev.mem ∧ ∀ i, i < o.len → t.dev.flashByte (o.addr + i) = 0xFF) ∧
      (o.op ≠ 1 → ∀ a, a < o.addr ∨ o.addr + o.len ≤ a → t.dev.flashByte a = s.dev.flashByte a)) ∧
    ∃ t, exec (.flashOpDone false) s = .next t ∧ t.dev.flashOp = none ∧ t.dev.reg 0x004 0x054 = 4 ∧ t.dev.mem = s.dev.mem ∧
      t.dev.flag 0x004 0x014 1 = true) ∧
  (∀ (s : State) (ag : Agent) (v : Word), s.Admits ag 0x005 → bit v 0 = true → s.dev.unlock = none →
    (∀ a, s.dev.unlockAt = some a → a + 100000 ≤ s.dev.now) →
    ∃ t, exec (.debugUnlock ag v) s = .next t ∧ t.dev.unlock = some (s.dev.regBytes 0x005 0x100 256) ∧ t.dev.reg 0x005 0x06C = 1) ∧
  (∀ (s : State) (b : List Byte), s.Powered → s.dev.unlock = some b →
    ∃ t, exec .debugUnlockDone s = .next t ∧ t.dev.unlock = none ∧
      t.dev.reg 0x005 0x06C = (if s.dev.tokenOk s.fuses b then 2 else 4) ∧
      t.dev.reg 0x005 0x044 = (if s.dev.tokenOk s.fuses b then BitVec.ofNat 32 (ofBytesLE (b.take 4) % 2 ^ 18) else s.dev.reg 0x005 0x044)) ∧
  (∀ (s : State) (cells : Word) (n : Fin 16) (r : RegAddr), s.Powered →
    ∀ e ∈ [(Instr.jtagBypass, JtagIr.bypass), (.jtagIdcode, .idcode), (.jtagSamplePreload, .sample),
        (.jtagExtest cells, if s.dev.scope 17 then .extest cells else .bypass),
        (.jtagCoreDbg n, if s.dev.scope n.val then .coreDbg n.val else .bypass),
        (.jtagRegAccess r none, if s.dev.scope 16 then .regAccess else .bypass)],
      ∃ t, exec e.1 s = .next t ∧ t.dev.jtag = e.2 ∧ t.halt = s.halt ∧ t.fuses = s.fuses ∧ t.dev.mem = s.dev.mem)

/-! ## The whole device -/

/-- Every step keeps the halt outputs inactive outside ARMED and HOLD (R144), and no step loses a programmed fuse (R463, R464): for
every command and every state. -/
def Obligations.EveryStepKeepsOutputsAndFuses : Prop :=
  ∀ s t : State, s.OutputsSafe → step s = .next t → t.OutputsSafe ∧ s.fuses.Kept t.fuses

/-- Nothing but a write of a register, a chip reset, a power-on, a brown-out or the power-down of OFF takes the halt unit out of TRIPPED
or moves its outputs there (R144). -/
def Obligations.TrippedHolds : Prop :=
  ∀ (s t : State) (c : Instr), s.halt.st = .tripped → c.mayEndTrip = false → exec c s = .next t →
    t.halt.st = .tripped ∧ t.halt.pins = s.halt.pins

/-- The state after reset (R37, R144, R359, R393, R463): no command waits, the halt unit is SAFE with its outputs inactive, page 0x140 is
READY with EN = 1 and core S0 at the boot ROM in machine mode, the other cores are stopped, no semaphore is held, no record is
entered, no task is accepted, every region is in RUN or DEEP, no line of SRAM is written, and the SVN thermometer is empty.
The model's own readings in it: log entries 8, 10 and 12. -/
def Obligations.ResetState : Prop :=
  State.reset.pending = [] ∧ State.reset.OutputsSafe ∧ State.reset.halt.st = .safe ∧ State.reset.halt.pins = 0 ∧
  State.reset.dev.pageState 0x140 = 1 ∧ State.reset.dev.flag 0x140 0x00C 0 = true ∧ (State.reset.dev.core 0).st = .run ∧
  (State.reset.dev.core 0).pc = 0x08000000 ∧ (State.reset.dev.core 0).mode = 1 ∧
  (∀ n : Fin 16, n.val ≠ 0 → (State.reset.dev.core n.val).st = .stopped) ∧
  (∀ n : Fin 64, State.reset.dev.semHeld n.val = false) ∧ State.reset.dev.openCount = 0 ∧ State.reset.dev.taskList = [] ∧
  (∀ r : Fin 96, (State.reset.dev.region r.val).st = .run ∨ (State.reset.dev.region r.val).st = .deep) ∧
  (∀ l, spanOf (64 * l) = .aon ∨ spanOf (64 * l) = .local_ → State.reset.dev.lineWritten l = false) ∧
  State.reset.fuses.svnCount = 0 ∧ State.reset.fuses.Thermometer ∧ State.reset.dev.MemoryWf
end

