-- ==== Sys2Proof/Laws/Sparse.lean ====
section
/-!
SUPPORT. What `put` does to a sparse store: the index written reads the value written, every other index reads as
before, and the canonical form is kept.
-/
namespace Sys2Proof.Machine.Sparse

variable {α : Type}

theorem get_erase_same (d : Nat → α) (m : Sparse α) (k : Nat) : get d (erase m k) k = d k := by
  induction m with
  | nil => rfl
  | cons e r ih =>
    obtain ⟨j, v⟩ := e
    by_cases h : k = j <;> simp_all [erase, get]

theorem get_erase_other (d : Nat → α) (m : Sparse α) {k k' : Nat} (hk : k' ≠ k) :
    get d (erase m k) k' = get d m k' := by
  induction m with
  | nil => rfl
  | cons e r ih =>
    obtain ⟨j, v⟩ := e
    by_cases h : k = j
    · subst h; simp [erase, get, hk, ih]
    · simp [erase, get, h, ih]

theorem get_insert_same (d : Nat → α) (m : Sparse α) (k : Nat) (v : α) : get d (insert m k v) k = v := by
  induction m with
  | nil => simp [insert, get]
  | cons e r ih =>
    obtain ⟨j, w⟩ := e
    simp only [insert]
    split
    · simp [get]
    · split
      · simp [get]
      · simp [get, *]

theorem get_insert_other (d : Nat → α) (m : Sparse α) {k k' : Nat} (v : α) (hk : k' ≠ k) :
    get d (insert m k v) k' = get d m k' := by
  induction m with
  | nil => simp [insert, get, hk]
  | cons e r ih =>
    obtain ⟨j, w⟩ := e
    simp only [insert]
    split
    · simp [get, hk]
    · split
      · rename_i _ h; subst h; simp [get, hk]
      · simp [get, ih]

/-- The index written reads the value written. -/
@[simp] theorem get_put_same [DecidableEq α] (d : Nat → α) (m : Sparse α) (k : Nat) (v : α) :
    get d (put d m k v) k = v := by
  unfold put
  split
  · rename_i h; simp [get_erase_same, h]
  · exact get_insert_same d m k v

/-- Every other index reads as before. -/
theorem get_put_other [DecidableEq α] (d : Nat → α) (m : Sparse α) {k k' : Nat} (v : α) (hk : k' ≠ k) :
    get d (put d m k v) k' = get d m k' := by
  unfold put
  split
  · exact get_erase_other d m hk
  · exact get_insert_other d m v hk

/-- What a store reads after a write, in one line. -/
theorem get_put [DecidableEq α] (d : Nat → α) (m : Sparse α) (k k' : Nat) (v : α) :
    get d (put d m k v) k' = if k' = k then v else get d m k' := by
  split
  · rename_i h; subst h; simp
  · rename_i h; exact get_put_other d m v h

theorem mem_erase (m : Sparse α) (k : Nat) (e : Nat × α) (h : e ∈ erase m k) : e ∈ m := by
  induction m with
  | nil => simp [erase] at h
  | cons x r ih =>
    obtain ⟨j, v⟩ := x
    simp only [erase] at h
    split at h
    · exact List.mem_cons_of_mem _ (ih h)
    · rcases List.mem_cons.mp h with h | h
      · simp [h]
      · exact List.mem_cons_of_mem _ (ih h)

theorem mem_insert (m : Sparse α) (k : Nat) (v : α) (e : Nat × α) (h : e ∈ insert m k v) :
    e = (k, v) ∨ e ∈ m := by
  induction m with
  | nil => simpa [insert] using h
  | cons x r ih =>
    obtain ⟨j, w⟩ := x
    simp only [insert] at h
    split at h
    · rcases List.mem_cons.mp h with h | h
      · exact .inl h
      · exact .inr h
    · split at h
      · rcases List.mem_cons.mp h with h | h
        · exact .inl h
        · exact .inr (List.mem_cons_of_mem _ h)
      · rcases List.mem_cons.mp h with h | h
        · exact .inr (by simp [h])
        · rcases ih h with h | h
          · exact .inl h
          · exact .inr (List.mem_cons_of_mem _ h)

theorem wf_erase [DecidableEq α] (d : Nat → α) (m : Sparse α) (k : Nat) (h : wf d m = true) :
    wf d (erase m k) = true := by
  induction m with
  | nil => rfl
  | cons x r ih =>
    obtain ⟨j, v⟩ := x
    simp only [wf, Bool.and_eq_true] at h
    simp only [erase]
    split
    · exact ih h.2
    · simp only [wf, Bool.and_eq_true]
      refine ⟨⟨?_, h.1.2⟩, ih h.2⟩
      exact List.all_eq_true.mpr fun e he => List.all_eq_true.mp h.1.1 e (mem_erase r k e he)

theorem wf_insert [DecidableEq α] (d : Nat → α) (m : Sparse α) (k : Nat) (v : α) (hv : v ≠ d k)
    (h : wf d m = true) : wf d (insert m k v) = true := by
  induction m with
  | nil => simp [insert, wf, hv]
  | cons x r ih =>
    obtain ⟨j, w⟩ := x
    have h' := h
    simp only [wf, Bool.and_eq_true, List.all_eq_true, decide_eq_true_eq] at h
    simp only [insert]
    split
    · rename_i hlt
      simp only [wf, Bool.and_eq_true, List.all_eq_true, decide_eq_true_eq]
      refine ⟨⟨?_, hv⟩, ⟨h.1.1, h.1.2⟩, h.2⟩
      intro e he
      rcases List.mem_cons.mp he with he | he
      · simp [he, hlt]
      · exact Nat.lt_trans hlt (h.1.1 e he)
    · split
      · rename_i _ hkj; subst hkj
        simp only [wf, Bool.and_eq_true, List.all_eq_true, decide_eq_true_eq]
        exact ⟨⟨h.1.1, hv⟩, h.2⟩
      · rename_i h1 h2
        simp only [wf, Bool.and_eq_true, List.all_eq_true, decide_eq_true_eq]
        refine ⟨⟨?_, h.1.2⟩, ih h.2⟩
        intro e he
        rcases mem_insert r k v e he with he | he
        · subst he; show j < k; omega
        · exact h.1.1 e he

/-- A write keeps the canonical form. -/
theorem wf_put [DecidableEq α] (d : Nat → α) (m : Sparse α) (k : Nat) (v : α) (h : wf d m = true) :
    wf d (put d m k v) = true := by
  unfold put
  split
  · exact wf_erase d m k h
  · rename_i hv; exact wf_insert d m k v hv h

/-- Forgetting indexes keeps the canonical form. -/
theorem wf_forget [DecidableEq α] (d : Nat → α) (m : Sparse α) (p : Nat → Bool) (h : wf d m = true) :
    wf d (forget m p) = true := by
  induction m with
  | nil => rfl
  | cons x r ih =>
    obtain ⟨j, v⟩ := x
    simp only [wf, Bool.and_eq_true, List.all_eq_true, decide_eq_true_eq] at h
    unfold forget at ih ⊢
    simp only [List.filter_cons]
    split
    · simp only [wf, Bool.and_eq_true, List.all_eq_true, decide_eq_true_eq]
      exact ⟨⟨fun e he => h.1.1 e (List.mem_filter.mp he).1, h.1.2⟩, ih h.2⟩
    · exact ih h.2

end Sys2Proof.Machine.Sparse
end

