-- ==== Sys2Proof/Laws/Memory.lean ====
section
/-!
SUPPORT. Memory: what a store of bytes leaves at every address, and that every operation on memory keeps its canonical form.
-/
namespace Sys2Proof.Machine

theorem Memory.wf_put (m : Sparse Byte) (a : Nat) (b : Byte) (h : Memory.wf m = true) :
    Memory.wf (Sparse.put unlistedByte m a b) = true := Sparse.wf_put _ _ _ _ h

theorem Memory.wf_forget (m : Sparse Byte) (p : Nat → Bool) (h : Memory.wf m = true) : Memory.wf (Sparse.forget m p) = true :=
  Sparse.wf_forget _ _ _ h

/-- The memory of the reset state is in canonical form. -/
theorem reset_memoryWf : State.reset.dev.MemoryWf := rfl

namespace Dev

@[simp] theorem byte_setByte (d : Dev) (a : Nat) (b : Byte) (x : Nat) :
    (d.setByte a b).byte x = if x = a then b else d.byte x := Sparse.get_put _ _ _ _ _

/-- A store of one byte moves the memory alone. -/
theorem setByte_frame (d : Dev) (a : Nat) (b : Byte) : d.setByte a b = { d with mem := (d.setByte a b).mem } := rfl

theorem setByte_memoryWf (d : Dev) (a : Nat) (b : Byte) (h : d.MemoryWf) : (d.setByte a b).MemoryWf :=
  Memory.wf_put _ _ _ h

/-- The fold behind `setBytes`, its address counting on. -/
theorem setBytes_fold (l : List Byte) (d : Dev) (a : Nat) :
    l.foldl (fun (x : Dev × Nat) b => (x.1.setByte x.2 b, x.2 + 1)) (d, a) = (d.setBytes a l, a + l.length) := by
  induction l generalizing d a with
  | nil => rfl
  | cons b r ih =>
    change r.foldl _ (d.setByte a b, a + 1) = _
    rw [ih, List.length_cons, Nat.add_assoc, Nat.add_comm 1]; rfl

@[simp] theorem setBytes_nil (d : Dev) (a : Nat) : d.setBytes a [] = d := rfl

theorem setBytes_cons (d : Dev) (a : Nat) (b : Byte) (l : List Byte) :
    d.setBytes a (b :: l) = (d.setByte a b).setBytes (a + 1) l := rfl

/-- A store of bytes moves the memory alone. -/
theorem setBytes_frame (l : List Byte) (d : Dev) (a : Nat) : d.setBytes a l = { d with mem := (d.setBytes a l).mem } := by
  induction l generalizing d a with
  | nil => rfl
  | cons b r ih => rw [setBytes_cons, ih]; rfl

/-- What each address reads as after a store of bytes. -/
theorem byte_setBytes (l : List Byte) (d : Dev) (a x : Nat) :
    (d.setBytes a l).byte x = if a ≤ x ∧ x < a + l.length then l.getD (x - a) 0 else d.byte x := by
  induction l generalizing d a with
  | nil => simp
  | cons b r ih =>
    rw [setBytes_cons, ih, byte_setByte, List.length_cons]
    rcases Nat.lt_trichotomy x a with h | h | h
    · rw [if_neg (by omega), if_neg (by omega), if_neg (by omega)]
    · subst h
      rw [if_neg (by omega), if_pos rfl, if_pos (by omega), Nat.sub_self]; rfl
    · by_cases h2 : x < a + 1 + r.length
      · rw [if_pos (by omega), if_pos (by omega), show x - a = (x - (a + 1)) + 1 by omega]; rfl
      · rw [if_neg (by omega), if_neg (by omega), if_neg (by omega)]

/-- The bytes stored are the bytes read. -/
theorem bytes_setBytes (d : Dev) (a : Nat) (l : List Byte) : (d.setBytes a l).bytes a l.length = l := by
  unfold bytes
  apply List.ext_getElem
  · simp
  · intro i h1 h2
    have h3 : i < l.length := by simpa using h1
    rw [List.getElem_map, List.getElem_range, byte_setBytes, if_pos (by omega), Nat.add_sub_cancel_left]
    simp [List.getD_eq_getElem?_getD, h3]

/-- A store of bytes leaves every other address as it was. -/
theorem byte_setBytes_other (d : Dev) (a : Nat) (l : List Byte) (x : Nat) (h : x < a ∨ a + l.length ≤ x) :
    (d.setBytes a l).byte x = d.byte x := by
  rw [byte_setBytes, if_neg (by omega)]

theorem setBytes_memoryWf (l : List Byte) (d : Dev) (a : Nat) (h : d.MemoryWf) : (d.setBytes a l).MemoryWf := by
  induction l generalizing d a with
  | nil => exact h
  | cons b r ih => exact ih _ _ (setByte_memoryWf d a b h)

theorem forgetPage_memoryWf (d : Dev) (p : Nat) (h : d.MemoryWf) : (d.forgetPage p).MemoryWf :=
  Memory.wf_forget _ (fun a => a / 65536 == p) h

theorem forgetRange_memoryWf (lo hi : Nat) (d : Dev) (h : d.MemoryWf) : (d.forgetRange lo hi).MemoryWf :=
  Memory.wf_forget _ (fun a => decide (lo ≤ a) && decide (a < hi)) h

end Dev

end Sys2Proof.Machine
end

