-- ==== Sys2Proof/Laws/State.lean ====
section
/-!
SUPPORT. What each update of the device leaves unchanged: one lemma per field and update, so that no proof unfolds a record
update.
-/
namespace Sys2Proof.Machine.Dev

/-! ## setReg -/

@[simp] theorem setReg_pkg (d : Dev) (p off : Nat) (v : Word) : (d.setReg p off v).pkg = d.pkg := rfl
@[simp] theorem setReg_now (d : Dev) (p off : Nat) (v : Word) : (d.setReg p off v).now = d.now := rfl
@[simp] theorem setReg_aonFrac (d : Dev) (p off : Nat) (v : Word) : (d.setReg p off v).aonFrac = d.aonFrac := rfl
@[simp] theorem setReg_latLast (d : Dev) (p off : Nat) (v : Word) : (d.setReg p off v).latLast = d.latLast := rfl
@[simp] theorem setReg_free (d : Dev) (p off : Nat) (v : Word) : (d.setReg p off v).free = d.free := rfl
@[simp] theorem setReg_bus (d : Dev) (p off : Nat) (v : Word) : (d.setReg p off v).bus = d.bus := rfl
@[simp] theorem setReg_latched (d : Dev) (p off : Nat) (v : Word) : (d.setReg p off v).latched = d.latched := rfl
@[simp] theorem setReg_staged (d : Dev) (p off : Nat) (v : Word) : (d.setReg p off v).staged = d.staged := rfl
@[simp] theorem setReg_released (d : Dev) (p off : Nat) (v : Word) : (d.setReg p off v).released = d.released := rfl
@[simp] theorem setReg_episodes (d : Dev) (p off : Nat) (v : Word) : (d.setReg p off v).episodes = d.episodes := rfl
@[simp] theorem setReg_escs (d : Dev) (p off : Nat) (v : Word) : (d.setReg p off v).escs = d.escs := rfl
@[simp] theorem setReg_wakes (d : Dev) (p off : Nat) (v : Word) : (d.setReg p off v).wakes = d.wakes := rfl
@[simp] theorem setReg_hoSeq (d : Dev) (p off : Nat) (v : Word) : (d.setReg p off v).hoSeq = d.hoSeq := rfl
@[simp] theorem setReg_encoders (d : Dev) (p off : Nat) (v : Word) : (d.setReg p off v).encoders = d.encoders := rfl
@[simp] theorem setReg_reels (d : Dev) (p off : Nat) (v : Word) : (d.setReg p off v).reels = d.reels := rfl
@[simp] theorem setReg_zc (d : Dev) (p off : Nat) (v : Word) : (d.setReg p off v).zc = d.zc := rfl
@[simp] theorem setReg_armed (d : Dev) (p off : Nat) (v : Word) : (d.setReg p off v).armed = d.armed := rfl
@[simp] theorem setReg_chans (d : Dev) (p off : Nat) (v : Word) : (d.setReg p off v).chans = d.chans := rfl
@[simp] theorem setReg_snaps (d : Dev) (p off : Nat) (v : Word) : (d.setReg p off v).snaps = d.snaps := rfl
@[simp] theorem setReg_aer (d : Dev) (p off : Nat) (v : Word) : (d.setReg p off v).aer = d.aer := rfl
@[simp] theorem setReg_i3c (d : Dev) (p off : Nat) (v : Word) : (d.setReg p off v).i3c = d.i3c := rfl
@[simp] theorem setReg_mic (d : Dev) (p off : Nat) (v : Word) : (d.setReg p off v).mic = d.mic := rfl
@[simp] theorem setReg_cliffs (d : Dev) (p off : Nat) (v : Word) : (d.setReg p off v).cliffs = d.cliffs := rfl
@[simp] theorem setReg_cliffRun (d : Dev) (p off : Nat) (v : Word) : (d.setReg p off v).cliffRun = d.cliffRun := rfl
@[simp] theorem setReg_roundAt (d : Dev) (p off : Nat) (v : Word) : (d.setReg p off v).roundAt = d.roundAt := rfl
@[simp] theorem setReg_packSup (d : Dev) (p off : Nat) (v : Word) : (d.setReg p off v).packSup = d.packSup := rfl
@[simp] theorem setReg_thermIn (d : Dev) (p off : Nat) (v : Word) : (d.setReg p off v).thermIn = d.thermIn := rfl
@[simp] theorem setReg_wcores (d : Dev) (p off : Nat) (v : Word) : (d.setReg p off v).wcores = d.wcores := rfl
@[simp] theorem setReg_mesh (d : Dev) (p off : Nat) (v : Word) : (d.setReg p off v).mesh = d.mesh := rfl
@[simp] theorem setReg_storms (d : Dev) (p off : Nat) (v : Word) : (d.setReg p off v).storms = d.storms := rfl
@[simp] theorem setReg_streams (d : Dev) (p off : Nat) (v : Word) : (d.setReg p off v).streams = d.streams := rfl
@[simp] theorem setReg_loom (d : Dev) (p off : Nat) (v : Word) : (d.setReg p off v).loom = d.loom := rfl
@[simp] theorem setReg_kvScan (d : Dev) (p off : Nat) (v : Word) : (d.setReg p off v).kvScan = d.kvScan := rfl
@[simp] theorem setReg_mem (d : Dev) (p off : Nat) (v : Word) : (d.setReg p off v).mem = d.mem := rfl
@[simp] theorem setReg_written (d : Dev) (p off : Nat) (v : Word) : (d.setReg p off v).written = d.written := rfl
@[simp] theorem setReg_poison (d : Dev) (p off : Nat) (v : Word) : (d.setReg p off v).poison = d.poison := rfl
@[simp] theorem setReg_places (d : Dev) (p off : Nat) (v : Word) : (d.setReg p off v).places = d.places := rfl
@[simp] theorem setReg_migs (d : Dev) (p off : Nat) (v : Word) : (d.setReg p off v).migs = d.migs := rfl
@[simp] theorem setReg_held (d : Dev) (p off : Nat) (v : Word) : (d.setReg p off v).held = d.held := rfl
@[simp] theorem setReg_pf (d : Dev) (p off : Nat) (v : Word) : (d.setReg p off v).pf = d.pf := rfl
@[simp] theorem setReg_plc (d : Dev) (p off : Nat) (v : Word) : (d.setReg p off v).plc = d.plc := rfl
@[simp] theorem setReg_hbmReady (d : Dev) (p off : Nat) (v : Word) : (d.setReg p off v).hbmReady = d.hbmReady := rfl
@[simp] theorem setReg_accesses (d : Dev) (p off : Nat) (v : Word) : (d.setReg p off v).accesses = d.accesses := rfl
@[simp] theorem setReg_demand (d : Dev) (p off : Nat) (v : Word) : (d.setReg p off v).demand = d.demand := rfl
@[simp] theorem setReg_waits (d : Dev) (p off : Nat) (v : Word) : (d.setReg p off v).waits = d.waits := rfl
@[simp] theorem setReg_reclaims (d : Dev) (p off : Nat) (v : Word) : (d.setReg p off v).reclaims = d.reclaims := rfl
@[simp] theorem setReg_nbAt (d : Dev) (p off : Nat) (v : Word) : (d.setReg p off v).nbAt = d.nbAt := rfl
@[simp] theorem setReg_nbBack (d : Dev) (p off : Nat) (v : Word) : (d.setReg p off v).nbBack = d.nbBack := rfl
@[simp] theorem setReg_tasks (d : Dev) (p off : Nat) (v : Word) : (d.setReg p off v).tasks = d.tasks := rfl
@[simp] theorem setReg_orders (d : Dev) (p off : Nat) (v : Word) : (d.setReg p off v).orders = d.orders := rfl
@[simp] theorem setReg_holds (d : Dev) (p off : Nat) (v : Word) : (d.setReg p off v).holds = d.holds := rfl
@[simp] theorem setReg_batches (d : Dev) (p off : Nat) (v : Word) : (d.setReg p off v).batches = d.batches := rfl
@[simp] theorem setReg_phase (d : Dev) (p off : Nat) (v : Word) : (d.setReg p off v).phase = d.phase := rfl
@[simp] theorem setReg_trace (d : Dev) (p off : Nat) (v : Word) : (d.setReg p off v).trace = d.trace := rfl
@[simp] theorem setReg_traceOff (d : Dev) (p off : Nat) (v : Word) : (d.setReg p off v).traceOff = d.traceOff := rfl
@[simp] theorem setReg_log (d : Dev) (p off : Nat) (v : Word) : (d.setReg p off v).log = d.log := rfl
@[simp] theorem setReg_cores (d : Dev) (p off : Nat) (v : Word) : (d.setReg p off v).cores = d.cores := rfl
@[simp] theorem setReg_regions (d : Dev) (p off : Nat) (v : Word) : (d.setReg p off v).regions = d.regions := rfl
@[simp] theorem setReg_power (d : Dev) (p off : Nat) (v : Word) : (d.setReg p off v).power = d.power := rfl
@[simp] theorem setReg_offReq (d : Dev) (p off : Nat) (v : Word) : (d.setReg p off v).offReq = d.offReq := rfl
@[simp] theorem setReg_drops (d : Dev) (p off : Nat) (v : Word) : (d.setReg p off v).drops = d.drops := rfl
@[simp] theorem setReg_throttle (d : Dev) (p off : Nat) (v : Word) : (d.setReg p off v).throttle = d.throttle := rfl
@[simp] theorem setReg_capAt (d : Dev) (p off : Nat) (v : Word) : (d.setReg p off v).capAt = d.capAt := rfl
@[simp] theorem setReg_fWant (d : Dev) (p off : Nat) (v : Word) : (d.setReg p off v).fWant = d.fWant := rfl
@[simp] theorem setReg_wakeN (d : Dev) (p off : Nat) (v : Word) : (d.setReg p off v).wakeN = d.wakeN := rfl
@[simp] theorem setReg_sio (d : Dev) (p off : Nat) (v : Word) : (d.setReg p off v).sio = d.sio := rfl
@[simp] theorem setReg_clk (d : Dev) (p off : Nat) (v : Word) : (d.setReg p off v).clk = d.clk := rfl
@[simp] theorem setReg_msix (d : Dev) (p off : Nat) (v : Word) : (d.setReg p off v).msix = d.msix := rfl
@[simp] theorem setReg_pba (d : Dev) (p off : Nat) (v : Word) : (d.setReg p off v).pba = d.pba := rfl
@[simp] theorem setReg_unmasked (d : Dev) (p off : Nat) (v : Word) : (d.setReg p off v).unmasked = d.unmasked := rfl
@[simp] theorem setReg_sent (d : Dev) (p off : Nat) (v : Word) : (d.setReg p off v).sent = d.sent := rfl
@[simp] theorem setReg_links (d : Dev) (p off : Nat) (v : Word) : (d.setReg p off v).links = d.links := rfl
@[simp] theorem setReg_remotes (d : Dev) (p off : Nat) (v : Word) : (d.setReg p off v).remotes = d.remotes := rfl
@[simp] theorem setReg_nextTag (d : Dev) (p off : Nat) (v : Word) : (d.setReg p off v).nextTag = d.nextTag := rfl
@[simp] theorem setReg_board (d : Dev) (p off : Nat) (v : Word) : (d.setReg p off v).board = d.board := rfl
@[simp] theorem setReg_flash (d : Dev) (p off : Nat) (v : Word) : (d.setReg p off v).flash = d.flash := rfl
@[simp] theorem setReg_flashOp (d : Dev) (p off : Nat) (v : Word) : (d.setReg p off v).flashOp = d.flashOp := rfl
@[simp] theorem setReg_commit (d : Dev) (p off : Nat) (v : Word) : (d.setReg p off v).commit = d.commit := rfl
@[simp] theorem setReg_wdtAt (d : Dev) (p off : Nat) (v : Word) : (d.setReg p off v).wdtAt = d.wdtAt := rfl
@[simp] theorem setReg_unlock (d : Dev) (p off : Nat) (v : Word) : (d.setReg p off v).unlock = d.unlock := rfl
@[simp] theorem setReg_unlockAt (d : Dev) (p off : Nat) (v : Word) : (d.setReg p off v).unlockAt = d.unlockAt := rfl
@[simp] theorem setReg_fuseOp (d : Dev) (p off : Nat) (v : Word) : (d.setReg p off v).fuseOp = d.fuseOp := rfl
@[simp] theorem setReg_jtag (d : Dev) (p off : Nat) (v : Word) : (d.setReg p off v).jtag = d.jtag := rfl

/-! ## setCore -/

@[simp] theorem setCore_pkg (d : Dev) (n : Nat) (c : Core) : (d.setCore n c).pkg = d.pkg := rfl
@[simp] theorem setCore_now (d : Dev) (n : Nat) (c : Core) : (d.setCore n c).now = d.now := rfl
@[simp] theorem setCore_aonFrac (d : Dev) (n : Nat) (c : Core) : (d.setCore n c).aonFrac = d.aonFrac := rfl
@[simp] theorem setCore_latLast (d : Dev) (n : Nat) (c : Core) : (d.setCore n c).latLast = d.latLast := rfl
@[simp] theorem setCore_free (d : Dev) (n : Nat) (c : Core) : (d.setCore n c).free = d.free := rfl
@[simp] theorem setCore_bus (d : Dev) (n : Nat) (c : Core) : (d.setCore n c).bus = d.bus := rfl
@[simp] theorem setCore_regs (d : Dev) (n : Nat) (c : Core) : (d.setCore n c).regs = d.regs := rfl
@[simp] theorem setCore_latched (d : Dev) (n : Nat) (c : Core) : (d.setCore n c).latched = d.latched := rfl
@[simp] theorem setCore_staged (d : Dev) (n : Nat) (c : Core) : (d.setCore n c).staged = d.staged := rfl
@[simp] theorem setCore_released (d : Dev) (n : Nat) (c : Core) : (d.setCore n c).released = d.released := rfl
@[simp] theorem setCore_episodes (d : Dev) (n : Nat) (c : Core) : (d.setCore n c).episodes = d.episodes := rfl
@[simp] theorem setCore_escs (d : Dev) (n : Nat) (c : Core) : (d.setCore n c).escs = d.escs := rfl
@[simp] theorem setCore_wakes (d : Dev) (n : Nat) (c : Core) : (d.setCore n c).wakes = d.wakes := rfl
@[simp] theorem setCore_hoSeq (d : Dev) (n : Nat) (c : Core) : (d.setCore n c).hoSeq = d.hoSeq := rfl
@[simp] theorem setCore_encoders (d : Dev) (n : Nat) (c : Core) : (d.setCore n c).encoders = d.encoders := rfl
@[simp] theorem setCore_reels (d : Dev) (n : Nat) (c : Core) : (d.setCore n c).reels = d.reels := rfl
@[simp] theorem setCore_zc (d : Dev) (n : Nat) (c : Core) : (d.setCore n c).zc = d.zc := rfl
@[simp] theorem setCore_armed (d : Dev) (n : Nat) (c : Core) : (d.setCore n c).armed = d.armed := rfl
@[simp] theorem setCore_chans (d : Dev) (n : Nat) (c : Core) : (d.setCore n c).chans = d.chans := rfl
@[simp] theorem setCore_snaps (d : Dev) (n : Nat) (c : Core) : (d.setCore n c).snaps = d.snaps := rfl
@[simp] theorem setCore_aer (d : Dev) (n : Nat) (c : Core) : (d.setCore n c).aer = d.aer := rfl
@[simp] theorem setCore_i3c (d : Dev) (n : Nat) (c : Core) : (d.setCore n c).i3c = d.i3c := rfl
@[simp] theorem setCore_mic (d : Dev) (n : Nat) (c : Core) : (d.setCore n c).mic = d.mic := rfl
@[simp] theorem setCore_cliffs (d : Dev) (n : Nat) (c : Core) : (d.setCore n c).cliffs = d.cliffs := rfl
@[simp] theorem setCore_cliffRun (d : Dev) (n : Nat) (c : Core) : (d.setCore n c).cliffRun = d.cliffRun := rfl
@[simp] theorem setCore_roundAt (d : Dev) (n : Nat) (c : Core) : (d.setCore n c).roundAt = d.roundAt := rfl
@[simp] theorem setCore_packSup (d : Dev) (n : Nat) (c : Core) : (d.setCore n c).packSup = d.packSup := rfl
@[simp] theorem setCore_thermIn (d : Dev) (n : Nat) (c : Core) : (d.setCore n c).thermIn = d.thermIn := rfl
@[simp] theorem setCore_wcores (d : Dev) (n : Nat) (c : Core) : (d.setCore n c).wcores = d.wcores := rfl
@[simp] theorem setCore_mesh (d : Dev) (n : Nat) (c : Core) : (d.setCore n c).mesh = d.mesh := rfl
@[simp] theorem setCore_storms (d : Dev) (n : Nat) (c : Core) : (d.setCore n c).storms = d.storms := rfl
@[simp] theorem setCore_streams (d : Dev) (n : Nat) (c : Core) : (d.setCore n c).streams = d.streams := rfl
@[simp] theorem setCore_loom (d : Dev) (n : Nat) (c : Core) : (d.setCore n c).loom = d.loom := rfl
@[simp] theorem setCore_kvScan (d : Dev) (n : Nat) (c : Core) : (d.setCore n c).kvScan = d.kvScan := rfl
@[simp] theorem setCore_mem (d : Dev) (n : Nat) (c : Core) : (d.setCore n c).mem = d.mem := rfl
@[simp] theorem setCore_written (d : Dev) (n : Nat) (c : Core) : (d.setCore n c).written = d.written := rfl
@[simp] theorem setCore_poison (d : Dev) (n : Nat) (c : Core) : (d.setCore n c).poison = d.poison := rfl
@[simp] theorem setCore_places (d : Dev) (n : Nat) (c : Core) : (d.setCore n c).places = d.places := rfl
@[simp] theorem setCore_migs (d : Dev) (n : Nat) (c : Core) : (d.setCore n c).migs = d.migs := rfl
@[simp] theorem setCore_held (d : Dev) (n : Nat) (c : Core) : (d.setCore n c).held = d.held := rfl
@[simp] theorem setCore_pf (d : Dev) (n : Nat) (c : Core) : (d.setCore n c).pf = d.pf := rfl
@[simp] theorem setCore_plc (d : Dev) (n : Nat) (c : Core) : (d.setCore n c).plc = d.plc := rfl
@[simp] theorem setCore_hbmReady (d : Dev) (n : Nat) (c : Core) : (d.setCore n c).hbmReady = d.hbmReady := rfl
@[simp] theorem setCore_accesses (d : Dev) (n : Nat) (c : Core) : (d.setCore n c).accesses = d.accesses := rfl
@[simp] theorem setCore_demand (d : Dev) (n : Nat) (c : Core) : (d.setCore n c).demand = d.demand := rfl
@[simp] theorem setCore_waits (d : Dev) (n : Nat) (c : Core) : (d.setCore n c).waits = d.waits := rfl
@[simp] theorem setCore_reclaims (d : Dev) (n : Nat) (c : Core) : (d.setCore n c).reclaims = d.reclaims := rfl
@[simp] theorem setCore_nbAt (d : Dev) (n : Nat) (c : Core) : (d.setCore n c).nbAt = d.nbAt := rfl
@[simp] theorem setCore_nbBack (d : Dev) (n : Nat) (c : Core) : (d.setCore n c).nbBack = d.nbBack := rfl
@[simp] theorem setCore_tasks (d : Dev) (n : Nat) (c : Core) : (d.setCore n c).tasks = d.tasks := rfl
@[simp] theorem setCore_orders (d : Dev) (n : Nat) (c : Core) : (d.setCore n c).orders = d.orders := rfl
@[simp] theorem setCore_holds (d : Dev) (n : Nat) (c : Core) : (d.setCore n c).holds = d.holds := rfl
@[simp] theorem setCore_batches (d : Dev) (n : Nat) (c : Core) : (d.setCore n c).batches = d.batches := rfl
@[simp] theorem setCore_phase (d : Dev) (n : Nat) (c : Core) : (d.setCore n c).phase = d.phase := rfl
@[simp] theorem setCore_trace (d : Dev) (n : Nat) (c : Core) : (d.setCore n c).trace = d.trace := rfl
@[simp] theorem setCore_traceOff (d : Dev) (n : Nat) (c : Core) : (d.setCore n c).traceOff = d.traceOff := rfl
@[simp] theorem setCore_log (d : Dev) (n : Nat) (c : Core) : (d.setCore n c).log = d.log := rfl
@[simp] theorem setCore_regions (d : Dev) (n : Nat) (c : Core) : (d.setCore n c).regions = d.regions := rfl
@[simp] theorem setCore_power (d : Dev) (n : Nat) (c : Core) : (d.setCore n c).power = d.power := rfl
@[simp] theorem setCore_offReq (d : Dev) (n : Nat) (c : Core) : (d.setCore n c).offReq = d.offReq := rfl
@[simp] theorem setCore_drops (d : Dev) (n : Nat) (c : Core) : (d.setCore n c).drops = d.drops := rfl
@[simp] theorem setCore_throttle (d : Dev) (n : Nat) (c : Core) : (d.setCore n c).throttle = d.throttle := rfl
@[simp] theorem setCore_capAt (d : Dev) (n : Nat) (c : Core) : (d.setCore n c).capAt = d.capAt := rfl
@[simp] theorem setCore_fWant (d : Dev) (n : Nat) (c : Core) : (d.setCore n c).fWant = d.fWant := rfl
@[simp] theorem setCore_wakeN (d : Dev) (n : Nat) (c : Core) : (d.setCore n c).wakeN = d.wakeN := rfl
@[simp] theorem setCore_sio (d : Dev) (n : Nat) (c : Core) : (d.setCore n c).sio = d.sio := rfl
@[simp] theorem setCore_clk (d : Dev) (n : Nat) (c : Core) : (d.setCore n c).clk = d.clk := rfl
@[simp] theorem setCore_msix (d : Dev) (n : Nat) (c : Core) : (d.setCore n c).msix = d.msix := rfl
@[simp] theorem setCore_pba (d : Dev) (n : Nat) (c : Core) : (d.setCore n c).pba = d.pba := rfl
@[simp] theorem setCore_unmasked (d : Dev) (n : Nat) (c : Core) : (d.setCore n c).unmasked = d.unmasked := rfl
@[simp] theorem setCore_sent (d : Dev) (n : Nat) (c : Core) : (d.setCore n c).sent = d.sent := rfl
@[simp] theorem setCore_links (d : Dev) (n : Nat) (c : Core) : (d.setCore n c).links = d.links := rfl
@[simp] theorem setCore_remotes (d : Dev) (n : Nat) (c : Core) : (d.setCore n c).remotes = d.remotes := rfl
@[simp] theorem setCore_nextTag (d : Dev) (n : Nat) (c : Core) : (d.setCore n c).nextTag = d.nextTag := rfl
@[simp] theorem setCore_board (d : Dev) (n : Nat) (c : Core) : (d.setCore n c).board = d.board := rfl
@[simp] theorem setCore_flash (d : Dev) (n : Nat) (c : Core) : (d.setCore n c).flash = d.flash := rfl
@[simp] theorem setCore_flashOp (d : Dev) (n : Nat) (c : Core) : (d.setCore n c).flashOp = d.flashOp := rfl
@[simp] theorem setCore_commit (d : Dev) (n : Nat) (c : Core) : (d.setCore n c).commit = d.commit := rfl
@[simp] theorem setCore_wdtAt (d : Dev) (n : Nat) (c : Core) : (d.setCore n c).wdtAt = d.wdtAt := rfl
@[simp] theorem setCore_unlock (d : Dev) (n : Nat) (c : Core) : (d.setCore n c).unlock = d.unlock := rfl
@[simp] theorem setCore_unlockAt (d : Dev) (n : Nat) (c : Core) : (d.setCore n c).unlockAt = d.unlockAt := rfl
@[simp] theorem setCore_fuseOp (d : Dev) (n : Nat) (c : Core) : (d.setCore n c).fuseOp = d.fuseOp := rfl
@[simp] theorem setCore_jtag (d : Dev) (n : Nat) (c : Core) : (d.setCore n c).jtag = d.jtag := rfl

/-! ## setRegion -/

@[simp] theorem setRegion_pkg (d : Dev) (r : Nat) (x : Region) : (d.setRegion r x).pkg = d.pkg := rfl
@[simp] theorem setRegion_now (d : Dev) (r : Nat) (x : Region) : (d.setRegion r x).now = d.now := rfl
@[simp] theorem setRegion_aonFrac (d : Dev) (r : Nat) (x : Region) : (d.setRegion r x).aonFrac = d.aonFrac := rfl
@[simp] theorem setRegion_latLast (d : Dev) (r : Nat) (x : Region) : (d.setRegion r x).latLast = d.latLast := rfl
@[simp] theorem setRegion_free (d : Dev) (r : Nat) (x : Region) : (d.setRegion r x).free = d.free := rfl
@[simp] theorem setRegion_bus (d : Dev) (r : Nat) (x : Region) : (d.setRegion r x).bus = d.bus := rfl
@[simp] theorem setRegion_regs (d : Dev) (r : Nat) (x : Region) : (d.setRegion r x).regs = d.regs := rfl
@[simp] theorem setRegion_latched (d : Dev) (r : Nat) (x : Region) : (d.setRegion r x).latched = d.latched := rfl
@[simp] theorem setRegion_staged (d : Dev) (r : Nat) (x : Region) : (d.setRegion r x).staged = d.staged := rfl
@[simp] theorem setRegion_released (d : Dev) (r : Nat) (x : Region) : (d.setRegion r x).released = d.released := rfl
@[simp] theorem setRegion_episodes (d : Dev) (r : Nat) (x : Region) : (d.setRegion r x).episodes = d.episodes := rfl
@[simp] theorem setRegion_escs (d : Dev) (r : Nat) (x : Region) : (d.setRegion r x).escs = d.escs := rfl
@[simp] theorem setRegion_wakes (d : Dev) (r : Nat) (x : Region) : (d.setRegion r x).wakes = d.wakes := rfl
@[simp] theorem setRegion_hoSeq (d : Dev) (r : Nat) (x : Region) : (d.setRegion r x).hoSeq = d.hoSeq := rfl
@[simp] theorem setRegion_encoders (d : Dev) (r : Nat) (x : Region) : (d.setRegion r x).encoders = d.encoders := rfl
@[simp] theorem setRegion_reels (d : Dev) (r : Nat) (x : Region) : (d.setRegion r x).reels = d.reels := rfl
@[simp] theorem setRegion_zc (d : Dev) (r : Nat) (x : Region) : (d.setRegion r x).zc = d.zc := rfl
@[simp] theorem setRegion_armed (d : Dev) (r : Nat) (x : Region) : (d.setRegion r x).armed = d.armed := rfl
@[simp] theorem setRegion_chans (d : Dev) (r : Nat) (x : Region) : (d.setRegion r x).chans = d.chans := rfl
@[simp] theorem setRegion_snaps (d : Dev) (r : Nat) (x : Region) : (d.setRegion r x).snaps = d.snaps := rfl
@[simp] theorem setRegion_aer (d : Dev) (r : Nat) (x : Region) : (d.setRegion r x).aer = d.aer := rfl
@[simp] theorem setRegion_i3c (d : Dev) (r : Nat) (x : Region) : (d.setRegion r x).i3c = d.i3c := rfl
@[simp] theorem setRegion_mic (d : Dev) (r : Nat) (x : Region) : (d.setRegion r x).mic = d.mic := rfl
@[simp] theorem setRegion_cliffs (d : Dev) (r : Nat) (x : Region) : (d.setRegion r x).cliffs = d.cliffs := rfl
@[simp] theorem setRegion_cliffRun (d : Dev) (r : Nat) (x : Region) : (d.setRegion r x).cliffRun = d.cliffRun := rfl
@[simp] theorem setRegion_roundAt (d : Dev) (r : Nat) (x : Region) : (d.setRegion r x).roundAt = d.roundAt := rfl
@[simp] theorem setRegion_packSup (d : Dev) (r : Nat) (x : Region) : (d.setRegion r x).packSup = d.packSup := rfl
@[simp] theorem setRegion_thermIn (d : Dev) (r : Nat) (x : Region) : (d.setRegion r x).thermIn = d.thermIn := rfl
@[simp] theorem setRegion_wcores (d : Dev) (r : Nat) (x : Region) : (d.setRegion r x).wcores = d.wcores := rfl
@[simp] theorem setRegion_mesh (d : Dev) (r : Nat) (x : Region) : (d.setRegion r x).mesh = d.mesh := rfl
@[simp] theorem setRegion_storms (d : Dev) (r : Nat) (x : Region) : (d.setRegion r x).storms = d.storms := rfl
@[simp] theorem setRegion_streams (d : Dev) (r : Nat) (x : Region) : (d.setRegion r x).streams = d.streams := rfl
@[simp] theorem setRegion_loom (d : Dev) (r : Nat) (x : Region) : (d.setRegion r x).loom = d.loom := rfl
@[simp] theorem setRegion_kvScan (d : Dev) (r : Nat) (x : Region) : (d.setRegion r x).kvScan = d.kvScan := rfl
@[simp] theorem setRegion_mem (d : Dev) (r : Nat) (x : Region) : (d.setRegion r x).mem = d.mem := rfl
@[simp] theorem setRegion_written (d : Dev) (r : Nat) (x : Region) : (d.setRegion r x).written = d.written := rfl
@[simp] theorem setRegion_poison (d : Dev) (r : Nat) (x : Region) : (d.setRegion r x).poison = d.poison := rfl
@[simp] theorem setRegion_places (d : Dev) (r : Nat) (x : Region) : (d.setRegion r x).places = d.places := rfl
@[simp] theorem setRegion_migs (d : Dev) (r : Nat) (x : Region) : (d.setRegion r x).migs = d.migs := rfl
@[simp] theorem setRegion_held (d : Dev) (r : Nat) (x : Region) : (d.setRegion r x).held = d.held := rfl
@[simp] theorem setRegion_pf (d : Dev) (r : Nat) (x : Region) : (d.setRegion r x).pf = d.pf := rfl
@[simp] theorem setRegion_plc (d : Dev) (r : Nat) (x : Region) : (d.setRegion r x).plc = d.plc := rfl
@[simp] theorem setRegion_hbmReady (d : Dev) (r : Nat) (x : Region) : (d.setRegion r x).hbmReady = d.hbmReady := rfl
@[simp] theorem setRegion_accesses (d : Dev) (r : Nat) (x : Region) : (d.setRegion r x).accesses = d.accesses := rfl
@[simp] theorem setRegion_demand (d : Dev) (r : Nat) (x : Region) : (d.setRegion r x).demand = d.demand := rfl
@[simp] theorem setRegion_waits (d : Dev) (r : Nat) (x : Region) : (d.setRegion r x).waits = d.waits := rfl
@[simp] theorem setRegion_reclaims (d : Dev) (r : Nat) (x : Region) : (d.setRegion r x).reclaims = d.reclaims := rfl
@[simp] theorem setRegion_nbAt (d : Dev) (r : Nat) (x : Region) : (d.setRegion r x).nbAt = d.nbAt := rfl
@[simp] theorem setRegion_nbBack (d : Dev) (r : Nat) (x : Region) : (d.setRegion r x).nbBack = d.nbBack := rfl
@[simp] theorem setRegion_tasks (d : Dev) (r : Nat) (x : Region) : (d.setRegion r x).tasks = d.tasks := rfl
@[simp] theorem setRegion_orders (d : Dev) (r : Nat) (x : Region) : (d.setRegion r x).orders = d.orders := rfl
@[simp] theorem setRegion_holds (d : Dev) (r : Nat) (x : Region) : (d.setRegion r x).holds = d.holds := rfl
@[simp] theorem setRegion_batches (d : Dev) (r : Nat) (x : Region) : (d.setRegion r x).batches = d.batches := rfl
@[simp] theorem setRegion_phase (d : Dev) (r : Nat) (x : Region) : (d.setRegion r x).phase = d.phase := rfl
@[simp] theorem setRegion_trace (d : Dev) (r : Nat) (x : Region) : (d.setRegion r x).trace = d.trace := rfl
@[simp] theorem setRegion_traceOff (d : Dev) (r : Nat) (x : Region) : (d.setRegion r x).traceOff = d.traceOff := rfl
@[simp] theorem setRegion_log (d : Dev) (r : Nat) (x : Region) : (d.setRegion r x).log = d.log := rfl
@[simp] theorem setRegion_cores (d : Dev) (r : Nat) (x : Region) : (d.setRegion r x).cores = d.cores := rfl
@[simp] theorem setRegion_power (d : Dev) (r : Nat) (x : Region) : (d.setRegion r x).power = d.power := rfl
@[simp] theorem setRegion_offReq (d : Dev) (r : Nat) (x : Region) : (d.setRegion r x).offReq = d.offReq := rfl
@[simp] theorem setRegion_drops (d : Dev) (r : Nat) (x : Region) : (d.setRegion r x).drops = d.drops := rfl
@[simp] theorem setRegion_throttle (d : Dev) (r : Nat) (x : Region) : (d.setRegion r x).throttle = d.throttle := rfl
@[simp] theorem setRegion_capAt (d : Dev) (r : Nat) (x : Region) : (d.setRegion r x).capAt = d.capAt := rfl
@[simp] theorem setRegion_fWant (d : Dev) (r : Nat) (x : Region) : (d.setRegion r x).fWant = d.fWant := rfl
@[simp] theorem setRegion_wakeN (d : Dev) (r : Nat) (x : Region) : (d.setRegion r x).wakeN = d.wakeN := rfl
@[simp] theorem setRegion_sio (d : Dev) (r : Nat) (x : Region) : (d.setRegion r x).sio = d.sio := rfl
@[simp] theorem setRegion_clk (d : Dev) (r : Nat) (x : Region) : (d.setRegion r x).clk = d.clk := rfl
@[simp] theorem setRegion_msix (d : Dev) (r : Nat) (x : Region) : (d.setRegion r x).msix = d.msix := rfl
@[simp] theorem setRegion_pba (d : Dev) (r : Nat) (x : Region) : (d.setRegion r x).pba = d.pba := rfl
@[simp] theorem setRegion_unmasked (d : Dev) (r : Nat) (x : Region) : (d.setRegion r x).unmasked = d.unmasked := rfl
@[simp] theorem setRegion_sent (d : Dev) (r : Nat) (x : Region) : (d.setRegion r x).sent = d.sent := rfl
@[simp] theorem setRegion_links (d : Dev) (r : Nat) (x : Region) : (d.setRegion r x).links = d.links := rfl
@[simp] theorem setRegion_remotes (d : Dev) (r : Nat) (x : Region) : (d.setRegion r x).remotes = d.remotes := rfl
@[simp] theorem setRegion_nextTag (d : Dev) (r : Nat) (x : Region) : (d.setRegion r x).nextTag = d.nextTag := rfl
@[simp] theorem setRegion_board (d : Dev) (r : Nat) (x : Region) : (d.setRegion r x).board = d.board := rfl
@[simp] theorem setRegion_flash (d : Dev) (r : Nat) (x : Region) : (d.setRegion r x).flash = d.flash := rfl
@[simp] theorem setRegion_flashOp (d : Dev) (r : Nat) (x : Region) : (d.setRegion r x).flashOp = d.flashOp := rfl
@[simp] theorem setRegion_commit (d : Dev) (r : Nat) (x : Region) : (d.setRegion r x).commit = d.commit := rfl
@[simp] theorem setRegion_wdtAt (d : Dev) (r : Nat) (x : Region) : (d.setRegion r x).wdtAt = d.wdtAt := rfl
@[simp] theorem setRegion_unlock (d : Dev) (r : Nat) (x : Region) : (d.setRegion r x).unlock = d.unlock := rfl
@[simp] theorem setRegion_unlockAt (d : Dev) (r : Nat) (x : Region) : (d.setRegion r x).unlockAt = d.unlockAt := rfl
@[simp] theorem setRegion_fuseOp (d : Dev) (r : Nat) (x : Region) : (d.setRegion r x).fuseOp = d.fuseOp := rfl
@[simp] theorem setRegion_jtag (d : Dev) (r : Nat) (x : Region) : (d.setRegion r x).jtag = d.jtag := rfl

/-! ## setTask -/

@[simp] theorem setTask_pkg (d : Dev) (n : Nat) (t : Option Task) : (d.setTask n t).pkg = d.pkg := rfl
@[simp] theorem setTask_now (d : Dev) (n : Nat) (t : Option Task) : (d.setTask n t).now = d.now := rfl
@[simp] theorem setTask_aonFrac (d : Dev) (n : Nat) (t : Option Task) : (d.setTask n t).aonFrac = d.aonFrac := rfl
@[simp] theorem setTask_latLast (d : Dev) (n : Nat) (t : Option Task) : (d.setTask n t).latLast = d.latLast := rfl
@[simp] theorem setTask_free (d : Dev) (n : Nat) (t : Option Task) : (d.setTask n t).free = d.free := rfl
@[simp] theorem setTask_bus (d : Dev) (n : Nat) (t : Option Task) : (d.setTask n t).bus = d.bus := rfl
@[simp] theorem setTask_regs (d : Dev) (n : Nat) (t : Option Task) : (d.setTask n t).regs = d.regs := rfl
@[simp] theorem setTask_latched (d : Dev) (n : Nat) (t : Option Task) : (d.setTask n t).latched = d.latched := rfl
@[simp] theorem setTask_staged (d : Dev) (n : Nat) (t : Option Task) : (d.setTask n t).staged = d.staged := rfl
@[simp] theorem setTask_released (d : Dev) (n : Nat) (t : Option Task) : (d.setTask n t).released = d.released := rfl
@[simp] theorem setTask_episodes (d : Dev) (n : Nat) (t : Option Task) : (d.setTask n t).episodes = d.episodes := rfl
@[simp] theorem setTask_escs (d : Dev) (n : Nat) (t : Option Task) : (d.setTask n t).escs = d.escs := rfl
@[simp] theorem setTask_wakes (d : Dev) (n : Nat) (t : Option Task) : (d.setTask n t).wakes = d.wakes := rfl
@[simp] theorem setTask_hoSeq (d : Dev) (n : Nat) (t : Option Task) : (d.setTask n t).hoSeq = d.hoSeq := rfl
@[simp] theorem setTask_encoders (d : Dev) (n : Nat) (t : Option Task) : (d.setTask n t).encoders = d.encoders := rfl
@[simp] theorem setTask_reels (d : Dev) (n : Nat) (t : Option Task) : (d.setTask n t).reels = d.reels := rfl
@[simp] theorem setTask_zc (d : Dev) (n : Nat) (t : Option Task) : (d.setTask n t).zc = d.zc := rfl
@[simp] theorem setTask_armed (d : Dev) (n : Nat) (t : Option Task) : (d.setTask n t).armed = d.armed := rfl
@[simp] theorem setTask_chans (d : Dev) (n : Nat) (t : Option Task) : (d.setTask n t).chans = d.chans := rfl
@[simp] theorem setTask_snaps (d : Dev) (n : Nat) (t : Option Task) : (d.setTask n t).snaps = d.snaps := rfl
@[simp] theorem setTask_aer (d : Dev) (n : Nat) (t : Option Task) : (d.setTask n t).aer = d.aer := rfl
@[simp] theorem setTask_i3c (d : Dev) (n : Nat) (t : Option Task) : (d.setTask n t).i3c = d.i3c := rfl
@[simp] theorem setTask_mic (d : Dev) (n : Nat) (t : Option Task) : (d.setTask n t).mic = d.mic := rfl
@[simp] theorem setTask_cliffs (d : Dev) (n : Nat) (t : Option Task) : (d.setTask n t).cliffs = d.cliffs := rfl
@[simp] theorem setTask_cliffRun (d : Dev) (n : Nat) (t : Option Task) : (d.setTask n t).cliffRun = d.cliffRun := rfl
@[simp] theorem setTask_roundAt (d : Dev) (n : Nat) (t : Option Task) : (d.setTask n t).roundAt = d.roundAt := rfl
@[simp] theorem setTask_packSup (d : Dev) (n : Nat) (t : Option Task) : (d.setTask n t).packSup = d.packSup := rfl
@[simp] theorem setTask_thermIn (d : Dev) (n : Nat) (t : Option Task) : (d.setTask n t).thermIn = d.thermIn := rfl
@[simp] theorem setTask_wcores (d : Dev) (n : Nat) (t : Option Task) : (d.setTask n t).wcores = d.wcores := rfl
@[simp] theorem setTask_mesh (d : Dev) (n : Nat) (t : Option Task) : (d.setTask n t).mesh = d.mesh := rfl
@[simp] theorem setTask_storms (d : Dev) (n : Nat) (t : Option Task) : (d.setTask n t).storms = d.storms := rfl
@[simp] theorem setTask_streams (d : Dev) (n : Nat) (t : Option Task) : (d.setTask n t).streams = d.streams := rfl
@[simp] theorem setTask_loom (d : Dev) (n : Nat) (t : Option Task) : (d.setTask n t).loom = d.loom := rfl
@[simp] theorem setTask_kvScan (d : Dev) (n : Nat) (t : Option Task) : (d.setTask n t).kvScan = d.kvScan := rfl
@[simp] theorem setTask_mem (d : Dev) (n : Nat) (t : Option Task) : (d.setTask n t).mem = d.mem := rfl
@[simp] theorem setTask_written (d : Dev) (n : Nat) (t : Option Task) : (d.setTask n t).written = d.written := rfl
@[simp] theorem setTask_poison (d : Dev) (n : Nat) (t : Option Task) : (d.setTask n t).poison = d.poison := rfl
@[simp] theorem setTask_places (d : Dev) (n : Nat) (t : Option Task) : (d.setTask n t).places = d.places := rfl
@[simp] theorem setTask_migs (d : Dev) (n : Nat) (t : Option Task) : (d.setTask n t).migs = d.migs := rfl
@[simp] theorem setTask_held (d : Dev) (n : Nat) (t : Option Task) : (d.setTask n t).held = d.held := rfl
@[simp] theorem setTask_pf (d : Dev) (n : Nat) (t : Option Task) : (d.setTask n t).pf = d.pf := rfl
@[simp] theorem setTask_plc (d : Dev) (n : Nat) (t : Option Task) : (d.setTask n t).plc = d.plc := rfl
@[simp] theorem setTask_hbmReady (d : Dev) (n : Nat) (t : Option Task) : (d.setTask n t).hbmReady = d.hbmReady := rfl
@[simp] theorem setTask_accesses (d : Dev) (n : Nat) (t : Option Task) : (d.setTask n t).accesses = d.accesses := rfl
@[simp] theorem setTask_demand (d : Dev) (n : Nat) (t : Option Task) : (d.setTask n t).demand = d.demand := rfl
@[simp] theorem setTask_waits (d : Dev) (n : Nat) (t : Option Task) : (d.setTask n t).waits = d.waits := rfl
@[simp] theorem setTask_reclaims (d : Dev) (n : Nat) (t : Option Task) : (d.setTask n t).reclaims = d.reclaims := rfl
@[simp] theorem setTask_nbAt (d : Dev) (n : Nat) (t : Option Task) : (d.setTask n t).nbAt = d.nbAt := rfl
@[simp] theorem setTask_nbBack (d : Dev) (n : Nat) (t : Option Task) : (d.setTask n t).nbBack = d.nbBack := rfl
@[simp] theorem setTask_orders (d : Dev) (n : Nat) (t : Option Task) : (d.setTask n t).orders = d.orders := rfl
@[simp] theorem setTask_holds (d : Dev) (n : Nat) (t : Option Task) : (d.setTask n t).holds = d.holds := rfl
@[simp] theorem setTask_batches (d : Dev) (n : Nat) (t : Option Task) : (d.setTask n t).batches = d.batches := rfl
@[simp] theorem setTask_phase (d : Dev) (n : Nat) (t : Option Task) : (d.setTask n t).phase = d.phase := rfl
@[simp] theorem setTask_trace (d : Dev) (n : Nat) (t : Option Task) : (d.setTask n t).trace = d.trace := rfl
@[simp] theorem setTask_traceOff (d : Dev) (n : Nat) (t : Option Task) : (d.setTask n t).traceOff = d.traceOff := rfl
@[simp] theorem setTask_log (d : Dev) (n : Nat) (t : Option Task) : (d.setTask n t).log = d.log := rfl
@[simp] theorem setTask_cores (d : Dev) (n : Nat) (t : Option Task) : (d.setTask n t).cores = d.cores := rfl
@[simp] theorem setTask_regions (d : Dev) (n : Nat) (t : Option Task) : (d.setTask n t).regions = d.regions := rfl
@[simp] theorem setTask_power (d : Dev) (n : Nat) (t : Option Task) : (d.setTask n t).power = d.power := rfl
@[simp] theorem setTask_offReq (d : Dev) (n : Nat) (t : Option Task) : (d.setTask n t).offReq = d.offReq := rfl
@[simp] theorem setTask_drops (d : Dev) (n : Nat) (t : Option Task) : (d.setTask n t).drops = d.drops := rfl
@[simp] theorem setTask_throttle (d : Dev) (n : Nat) (t : Option Task) : (d.setTask n t).throttle = d.throttle := rfl
@[simp] theorem setTask_capAt (d : Dev) (n : Nat) (t : Option Task) : (d.setTask n t).capAt = d.capAt := rfl
@[simp] theorem setTask_fWant (d : Dev) (n : Nat) (t : Option Task) : (d.setTask n t).fWant = d.fWant := rfl
@[simp] theorem setTask_wakeN (d : Dev) (n : Nat) (t : Option Task) : (d.setTask n t).wakeN = d.wakeN := rfl
@[simp] theorem setTask_sio (d : Dev) (n : Nat) (t : Option Task) : (d.setTask n t).sio = d.sio := rfl
@[simp] theorem setTask_clk (d : Dev) (n : Nat) (t : Option Task) : (d.setTask n t).clk = d.clk := rfl
@[simp] theorem setTask_msix (d : Dev) (n : Nat) (t : Option Task) : (d.setTask n t).msix = d.msix := rfl
@[simp] theorem setTask_pba (d : Dev) (n : Nat) (t : Option Task) : (d.setTask n t).pba = d.pba := rfl
@[simp] theorem setTask_unmasked (d : Dev) (n : Nat) (t : Option Task) : (d.setTask n t).unmasked = d.unmasked := rfl
@[simp] theorem setTask_sent (d : Dev) (n : Nat) (t : Option Task) : (d.setTask n t).sent = d.sent := rfl
@[simp] theorem setTask_links (d : Dev) (n : Nat) (t : Option Task) : (d.setTask n t).links = d.links := rfl
@[simp] theorem setTask_remotes (d : Dev) (n : Nat) (t : Option Task) : (d.setTask n t).remotes = d.remotes := rfl
@[simp] theorem setTask_nextTag (d : Dev) (n : Nat) (t : Option Task) : (d.setTask n t).nextTag = d.nextTag := rfl
@[simp] theorem setTask_board (d : Dev) (n : Nat) (t : Option Task) : (d.setTask n t).board = d.board := rfl
@[simp] theorem setTask_flash (d : Dev) (n : Nat) (t : Option Task) : (d.setTask n t).flash = d.flash := rfl
@[simp] theorem setTask_flashOp (d : Dev) (n : Nat) (t : Option Task) : (d.setTask n t).flashOp = d.flashOp := rfl
@[simp] theorem setTask_commit (d : Dev) (n : Nat) (t : Option Task) : (d.setTask n t).commit = d.commit := rfl
@[simp] theorem setTask_wdtAt (d : Dev) (n : Nat) (t : Option Task) : (d.setTask n t).wdtAt = d.wdtAt := rfl
@[simp] theorem setTask_unlock (d : Dev) (n : Nat) (t : Option Task) : (d.setTask n t).unlock = d.unlock := rfl
@[simp] theorem setTask_unlockAt (d : Dev) (n : Nat) (t : Option Task) : (d.setTask n t).unlockAt = d.unlockAt := rfl
@[simp] theorem setTask_fuseOp (d : Dev) (n : Nat) (t : Option Task) : (d.setTask n t).fuseOp = d.fuseOp := rfl
@[simp] theorem setTask_jtag (d : Dev) (n : Nat) (t : Option Task) : (d.setTask n t).jtag = d.jtag := rfl

/-! ## answer -/

@[simp] theorem answer_pkg (d : Dev) (c : Completion) : (d.answer c).pkg = d.pkg := rfl
@[simp] theorem answer_now (d : Dev) (c : Completion) : (d.answer c).now = d.now := rfl
@[simp] theorem answer_aonFrac (d : Dev) (c : Completion) : (d.answer c).aonFrac = d.aonFrac := rfl
@[simp] theorem answer_latLast (d : Dev) (c : Completion) : (d.answer c).latLast = d.latLast := rfl
@[simp] theorem answer_free (d : Dev) (c : Completion) : (d.answer c).free = d.free := rfl
@[simp] theorem answer_regs (d : Dev) (c : Completion) : (d.answer c).regs = d.regs := rfl
@[simp] theorem answer_latched (d : Dev) (c : Completion) : (d.answer c).latched = d.latched := rfl
@[simp] theorem answer_staged (d : Dev) (c : Completion) : (d.answer c).staged = d.staged := rfl
@[simp] theorem answer_released (d : Dev) (c : Completion) : (d.answer c).released = d.released := rfl
@[simp] theorem answer_episodes (d : Dev) (c : Completion) : (d.answer c).episodes = d.episodes := rfl
@[simp] theorem answer_escs (d : Dev) (c : Completion) : (d.answer c).escs = d.escs := rfl
@[simp] theorem answer_wakes (d : Dev) (c : Completion) : (d.answer c).wakes = d.wakes := rfl
@[simp] theorem answer_hoSeq (d : Dev) (c : Completion) : (d.answer c).hoSeq = d.hoSeq := rfl
@[simp] theorem answer_encoders (d : Dev) (c : Completion) : (d.answer c).encoders = d.encoders := rfl
@[simp] theorem answer_reels (d : Dev) (c : Completion) : (d.answer c).reels = d.reels := rfl
@[simp] theorem answer_zc (d : Dev) (c : Completion) : (d.answer c).zc = d.zc := rfl
@[simp] theorem answer_armed (d : Dev) (c : Completion) : (d.answer c).armed = d.armed := rfl
@[simp] theorem answer_chans (d : Dev) (c : Completion) : (d.answer c).chans = d.chans := rfl
@[simp] theorem answer_snaps (d : Dev) (c : Completion) : (d.answer c).snaps = d.snaps := rfl
@[simp] theorem answer_aer (d : Dev) (c : Completion) : (d.answer c).aer = d.aer := rfl
@[simp] theorem answer_i3c (d : Dev) (c : Completion) : (d.answer c).i3c = d.i3c := rfl
@[simp] theorem answer_mic (d : Dev) (c : Completion) : (d.answer c).mic = d.mic := rfl
@[simp] theorem answer_cliffs (d : Dev) (c : Completion) : (d.answer c).cliffs = d.cliffs := rfl
@[simp] theorem answer_cliffRun (d : Dev) (c : Completion) : (d.answer c).cliffRun = d.cliffRun := rfl
@[simp] theorem answer_roundAt (d : Dev) (c : Completion) : (d.answer c).roundAt = d.roundAt := rfl
@[simp] theorem answer_packSup (d : Dev) (c : Completion) : (d.answer c).packSup = d.packSup := rfl
@[simp] theorem answer_thermIn (d : Dev) (c : Completion) : (d.answer c).thermIn = d.thermIn := rfl
@[simp] theorem answer_wcores (d : Dev) (c : Completion) : (d.answer c).wcores = d.wcores := rfl
@[simp] theorem answer_mesh (d : Dev) (c : Completion) : (d.answer c).mesh = d.mesh := rfl
@[simp] theorem answer_storms (d : Dev) (c : Completion) : (d.answer c).storms = d.storms := rfl
@[simp] theorem answer_streams (d : Dev) (c : Completion) : (d.answer c).streams = d.streams := rfl
@[simp] theorem answer_loom (d : Dev) (c : Completion) : (d.answer c).loom = d.loom := rfl
@[simp] theorem answer_kvScan (d : Dev) (c : Completion) : (d.answer c).kvScan = d.kvScan := rfl
@[simp] theorem answer_mem (d : Dev) (c : Completion) : (d.answer c).mem = d.mem := rfl
@[simp] theorem answer_written (d : Dev) (c : Completion) : (d.answer c).written = d.written := rfl
@[simp] theorem answer_poison (d : Dev) (c : Completion) : (d.answer c).poison = d.poison := rfl
@[simp] theorem answer_places (d : Dev) (c : Completion) : (d.answer c).places = d.places := rfl
@[simp] theorem answer_migs (d : Dev) (c : Completion) : (d.answer c).migs = d.migs := rfl
@[simp] theorem answer_held (d : Dev) (c : Completion) : (d.answer c).held = d.held := rfl
@[simp] theorem answer_pf (d : Dev) (c : Completion) : (d.answer c).pf = d.pf := rfl
@[simp] theorem answer_plc (d : Dev) (c : Completion) : (d.answer c).plc = d.plc := rfl
@[simp] theorem answer_hbmReady (d : Dev) (c : Completion) : (d.answer c).hbmReady = d.hbmReady := rfl
@[simp] theorem answer_accesses (d : Dev) (c : Completion) : (d.answer c).accesses = d.accesses := rfl
@[simp] theorem answer_demand (d : Dev) (c : Completion) : (d.answer c).demand = d.demand := rfl
@[simp] theorem answer_waits (d : Dev) (c : Completion) : (d.answer c).waits = d.waits := rfl
@[simp] theorem answer_reclaims (d : Dev) (c : Completion) : (d.answer c).reclaims = d.reclaims := rfl
@[simp] theorem answer_nbAt (d : Dev) (c : Completion) : (d.answer c).nbAt = d.nbAt := rfl
@[simp] theorem answer_nbBack (d : Dev) (c : Completion) : (d.answer c).nbBack = d.nbBack := rfl
@[simp] theorem answer_tasks (d : Dev) (c : Completion) : (d.answer c).tasks = d.tasks := rfl
@[simp] theorem answer_orders (d : Dev) (c : Completion) : (d.answer c).orders = d.orders := rfl
@[simp] theorem answer_holds (d : Dev) (c : Completion) : (d.answer c).holds = d.holds := rfl
@[simp] theorem answer_batches (d : Dev) (c : Completion) : (d.answer c).batches = d.batches := rfl
@[simp] theorem answer_phase (d : Dev) (c : Completion) : (d.answer c).phase = d.phase := rfl
@[simp] theorem answer_trace (d : Dev) (c : Completion) : (d.answer c).trace = d.trace := rfl
@[simp] theorem answer_traceOff (d : Dev) (c : Completion) : (d.answer c).traceOff = d.traceOff := rfl
@[simp] theorem answer_log (d : Dev) (c : Completion) : (d.answer c).log = d.log := rfl
@[simp] theorem answer_cores (d : Dev) (c : Completion) : (d.answer c).cores = d.cores := rfl
@[simp] theorem answer_regions (d : Dev) (c : Completion) : (d.answer c).regions = d.regions := rfl
@[simp] theorem answer_power (d : Dev) (c : Completion) : (d.answer c).power = d.power := rfl
@[simp] theorem answer_offReq (d : Dev) (c : Completion) : (d.answer c).offReq = d.offReq := rfl
@[simp] theorem answer_drops (d : Dev) (c : Completion) : (d.answer c).drops = d.drops := rfl
@[simp] theorem answer_throttle (d : Dev) (c : Completion) : (d.answer c).throttle = d.throttle := rfl
@[simp] theorem answer_capAt (d : Dev) (c : Completion) : (d.answer c).capAt = d.capAt := rfl
@[simp] theorem answer_fWant (d : Dev) (c : Completion) : (d.answer c).fWant = d.fWant := rfl
@[simp] theorem answer_wakeN (d : Dev) (c : Completion) : (d.answer c).wakeN = d.wakeN := rfl
@[simp] theorem answer_sio (d : Dev) (c : Completion) : (d.answer c).sio = d.sio := rfl
@[simp] theorem answer_clk (d : Dev) (c : Completion) : (d.answer c).clk = d.clk := rfl
@[simp] theorem answer_msix (d : Dev) (c : Completion) : (d.answer c).msix = d.msix := rfl
@[simp] theorem answer_pba (d : Dev) (c : Completion) : (d.answer c).pba = d.pba := rfl
@[simp] theorem answer_unmasked (d : Dev) (c : Completion) : (d.answer c).unmasked = d.unmasked := rfl
@[simp] theorem answer_sent (d : Dev) (c : Completion) : (d.answer c).sent = d.sent := rfl
@[simp] theorem answer_links (d : Dev) (c : Completion) : (d.answer c).links = d.links := rfl
@[simp] theorem answer_remotes (d : Dev) (c : Completion) : (d.answer c).remotes = d.remotes := rfl
@[simp] theorem answer_nextTag (d : Dev) (c : Completion) : (d.answer c).nextTag = d.nextTag := rfl
@[simp] theorem answer_board (d : Dev) (c : Completion) : (d.answer c).board = d.board := rfl
@[simp] theorem answer_flash (d : Dev) (c : Completion) : (d.answer c).flash = d.flash := rfl
@[simp] theorem answer_flashOp (d : Dev) (c : Completion) : (d.answer c).flashOp = d.flashOp := rfl
@[simp] theorem answer_commit (d : Dev) (c : Completion) : (d.answer c).commit = d.commit := rfl
@[simp] theorem answer_wdtAt (d : Dev) (c : Completion) : (d.answer c).wdtAt = d.wdtAt := rfl
@[simp] theorem answer_unlock (d : Dev) (c : Completion) : (d.answer c).unlock = d.unlock := rfl
@[simp] theorem answer_unlockAt (d : Dev) (c : Completion) : (d.answer c).unlockAt = d.unlockAt := rfl
@[simp] theorem answer_fuseOp (d : Dev) (c : Completion) : (d.answer c).fuseOp = d.fuseOp := rfl
@[simp] theorem answer_jtag (d : Dev) (c : Completion) : (d.answer c).jtag = d.jtag := rfl

/-! ## setLogEntry -/

@[simp] theorem setLogEntry_pkg (d : Dev) (i : Nat) (e : LogEntry) : (d.setLogEntry i e).pkg = d.pkg := rfl
@[simp] theorem setLogEntry_now (d : Dev) (i : Nat) (e : LogEntry) : (d.setLogEntry i e).now = d.now := rfl
@[simp] theorem setLogEntry_aonFrac (d : Dev) (i : Nat) (e : LogEntry) : (d.setLogEntry i e).aonFrac = d.aonFrac := rfl
@[simp] theorem setLogEntry_latLast (d : Dev) (i : Nat) (e : LogEntry) : (d.setLogEntry i e).latLast = d.latLast := rfl
@[simp] theorem setLogEntry_free (d : Dev) (i : Nat) (e : LogEntry) : (d.setLogEntry i e).free = d.free := rfl
@[simp] theorem setLogEntry_bus (d : Dev) (i : Nat) (e : LogEntry) : (d.setLogEntry i e).bus = d.bus := rfl
@[simp] theorem setLogEntry_regs (d : Dev) (i : Nat) (e : LogEntry) : (d.setLogEntry i e).regs = d.regs := rfl
@[simp] theorem setLogEntry_latched (d : Dev) (i : Nat) (e : LogEntry) : (d.setLogEntry i e).latched = d.latched := rfl
@[simp] theorem setLogEntry_staged (d : Dev) (i : Nat) (e : LogEntry) : (d.setLogEntry i e).staged = d.staged := rfl
@[simp] theorem setLogEntry_released (d : Dev) (i : Nat) (e : LogEntry) : (d.setLogEntry i e).released = d.released := rfl
@[simp] theorem setLogEntry_episodes (d : Dev) (i : Nat) (e : LogEntry) : (d.setLogEntry i e).episodes = d.episodes := rfl
@[simp] theorem setLogEntry_escs (d : Dev) (i : Nat) (e : LogEntry) : (d.setLogEntry i e).escs = d.escs := rfl
@[simp] theorem setLogEntry_wakes (d : Dev) (i : Nat) (e : LogEntry) : (d.setLogEntry i e).wakes = d.wakes := rfl
@[simp] theorem setLogEntry_hoSeq (d : Dev) (i : Nat) (e : LogEntry) : (d.setLogEntry i e).hoSeq = d.hoSeq := rfl
@[simp] theorem setLogEntry_encoders (d : Dev) (i : Nat) (e : LogEntry) : (d.setLogEntry i e).encoders = d.encoders := rfl
@[simp] theorem setLogEntry_reels (d : Dev) (i : Nat) (e : LogEntry) : (d.setLogEntry i e).reels = d.reels := rfl
@[simp] theorem setLogEntry_zc (d : Dev) (i : Nat) (e : LogEntry) : (d.setLogEntry i e).zc = d.zc := rfl
@[simp] theorem setLogEntry_armed (d : Dev) (i : Nat) (e : LogEntry) : (d.setLogEntry i e).armed = d.armed := rfl
@[simp] theorem setLogEntry_chans (d : Dev) (i : Nat) (e : LogEntry) : (d.setLogEntry i e).chans = d.chans := rfl
@[simp] theorem setLogEntry_snaps (d : Dev) (i : Nat) (e : LogEntry) : (d.setLogEntry i e).snaps = d.snaps := rfl
@[simp] theorem setLogEntry_aer (d : Dev) (i : Nat) (e : LogEntry) : (d.setLogEntry i e).aer = d.aer := rfl
@[simp] theorem setLogEntry_i3c (d : Dev) (i : Nat) (e : LogEntry) : (d.setLogEntry i e).i3c = d.i3c := rfl
@[simp] theorem setLogEntry_mic (d : Dev) (i : Nat) (e : LogEntry) : (d.setLogEntry i e).mic = d.mic := rfl
@[simp] theorem setLogEntry_cliffs (d : Dev) (i : Nat) (e : LogEntry) : (d.setLogEntry i e).cliffs = d.cliffs := rfl
@[simp] theorem setLogEntry_cliffRun (d : Dev) (i : Nat) (e : LogEntry) : (d.setLogEntry i e).cliffRun = d.cliffRun := rfl
@[simp] theorem setLogEntry_roundAt (d : Dev) (i : Nat) (e : LogEntry) : (d.setLogEntry i e).roundAt = d.roundAt := rfl
@[simp] theorem setLogEntry_packSup (d : Dev) (i : Nat) (e : LogEntry) : (d.setLogEntry i e).packSup = d.packSup := rfl
@[simp] theorem setLogEntry_thermIn (d : Dev) (i : Nat) (e : LogEntry) : (d.setLogEntry i e).thermIn = d.thermIn := rfl
@[simp] theorem setLogEntry_wcores (d : Dev) (i : Nat) (e : LogEntry) : (d.setLogEntry i e).wcores = d.wcores := rfl
@[simp] theorem setLogEntry_mesh (d : Dev) (i : Nat) (e : LogEntry) : (d.setLogEntry i e).mesh = d.mesh := rfl
@[simp] theorem setLogEntry_storms (d : Dev) (i : Nat) (e : LogEntry) : (d.setLogEntry i e).storms = d.storms := rfl
@[simp] theorem setLogEntry_streams (d : Dev) (i : Nat) (e : LogEntry) : (d.setLogEntry i e).streams = d.streams := rfl
@[simp] theorem setLogEntry_loom (d : Dev) (i : Nat) (e : LogEntry) : (d.setLogEntry i e).loom = d.loom := rfl
@[simp] theorem setLogEntry_kvScan (d : Dev) (i : Nat) (e : LogEntry) : (d.setLogEntry i e).kvScan = d.kvScan := rfl
@[simp] theorem setLogEntry_mem (d : Dev) (i : Nat) (e : LogEntry) : (d.setLogEntry i e).mem = d.mem := rfl
@[simp] theorem setLogEntry_written (d : Dev) (i : Nat) (e : LogEntry) : (d.setLogEntry i e).written = d.written := rfl
@[simp] theorem setLogEntry_poison (d : Dev) (i : Nat) (e : LogEntry) : (d.setLogEntry i e).poison = d.poison := rfl
@[simp] theorem setLogEntry_places (d : Dev) (i : Nat) (e : LogEntry) : (d.setLogEntry i e).places = d.places := rfl
@[simp] theorem setLogEntry_migs (d : Dev) (i : Nat) (e : LogEntry) : (d.setLogEntry i e).migs = d.migs := rfl
@[simp] theorem setLogEntry_held (d : Dev) (i : Nat) (e : LogEntry) : (d.setLogEntry i e).held = d.held := rfl
@[simp] theorem setLogEntry_pf (d : Dev) (i : Nat) (e : LogEntry) : (d.setLogEntry i e).pf = d.pf := rfl
@[simp] theorem setLogEntry_plc (d : Dev) (i : Nat) (e : LogEntry) : (d.setLogEntry i e).plc = d.plc := rfl
@[simp] theorem setLogEntry_hbmReady (d : Dev) (i : Nat) (e : LogEntry) : (d.setLogEntry i e).hbmReady = d.hbmReady := rfl
@[simp] theorem setLogEntry_accesses (d : Dev) (i : Nat) (e : LogEntry) : (d.setLogEntry i e).accesses = d.accesses := rfl
@[simp] theorem setLogEntry_demand (d : Dev) (i : Nat) (e : LogEntry) : (d.setLogEntry i e).demand = d.demand := rfl
@[simp] theorem setLogEntry_waits (d : Dev) (i : Nat) (e : LogEntry) : (d.setLogEntry i e).waits = d.waits := rfl
@[simp] theorem setLogEntry_reclaims (d : Dev) (i : Nat) (e : LogEntry) : (d.setLogEntry i e).reclaims = d.reclaims := rfl
@[simp] theorem setLogEntry_nbAt (d : Dev) (i : Nat) (e : LogEntry) : (d.setLogEntry i e).nbAt = d.nbAt := rfl
@[simp] theorem setLogEntry_nbBack (d : Dev) (i : Nat) (e : LogEntry) : (d.setLogEntry i e).nbBack = d.nbBack := rfl
@[simp] theorem setLogEntry_tasks (d : Dev) (i : Nat) (e : LogEntry) : (d.setLogEntry i e).tasks = d.tasks := rfl
@[simp] theorem setLogEntry_orders (d : Dev) (i : Nat) (e : LogEntry) : (d.setLogEntry i e).orders = d.orders := rfl
@[simp] theorem setLogEntry_holds (d : Dev) (i : Nat) (e : LogEntry) : (d.setLogEntry i e).holds = d.holds := rfl
@[simp] theorem setLogEntry_batches (d : Dev) (i : Nat) (e : LogEntry) : (d.setLogEntry i e).batches = d.batches := rfl
@[simp] theorem setLogEntry_phase (d : Dev) (i : Nat) (e : LogEntry) : (d.setLogEntry i e).phase = d.phase := rfl
@[simp] theorem setLogEntry_trace (d : Dev) (i : Nat) (e : LogEntry) : (d.setLogEntry i e).trace = d.trace := rfl
@[simp] theorem setLogEntry_traceOff (d : Dev) (i : Nat) (e : LogEntry) : (d.setLogEntry i e).traceOff = d.traceOff := rfl
@[simp] theorem setLogEntry_cores (d : Dev) (i : Nat) (e : LogEntry) : (d.setLogEntry i e).cores = d.cores := rfl
@[simp] theorem setLogEntry_regions (d : Dev) (i : Nat) (e : LogEntry) : (d.setLogEntry i e).regions = d.regions := rfl
@[simp] theorem setLogEntry_power (d : Dev) (i : Nat) (e : LogEntry) : (d.setLogEntry i e).power = d.power := rfl
@[simp] theorem setLogEntry_offReq (d : Dev) (i : Nat) (e : LogEntry) : (d.setLogEntry i e).offReq = d.offReq := rfl
@[simp] theorem setLogEntry_drops (d : Dev) (i : Nat) (e : LogEntry) : (d.setLogEntry i e).drops = d.drops := rfl
@[simp] theorem setLogEntry_throttle (d : Dev) (i : Nat) (e : LogEntry) : (d.setLogEntry i e).throttle = d.throttle := rfl
@[simp] theorem setLogEntry_capAt (d : Dev) (i : Nat) (e : LogEntry) : (d.setLogEntry i e).capAt = d.capAt := rfl
@[simp] theorem setLogEntry_fWant (d : Dev) (i : Nat) (e : LogEntry) : (d.setLogEntry i e).fWant = d.fWant := rfl
@[simp] theorem setLogEntry_wakeN (d : Dev) (i : Nat) (e : LogEntry) : (d.setLogEntry i e).wakeN = d.wakeN := rfl
@[simp] theorem setLogEntry_sio (d : Dev) (i : Nat) (e : LogEntry) : (d.setLogEntry i e).sio = d.sio := rfl
@[simp] theorem setLogEntry_clk (d : Dev) (i : Nat) (e : LogEntry) : (d.setLogEntry i e).clk = d.clk := rfl
@[simp] theorem setLogEntry_msix (d : Dev) (i : Nat) (e : LogEntry) : (d.setLogEntry i e).msix = d.msix := rfl
@[simp] theorem setLogEntry_pba (d : Dev) (i : Nat) (e : LogEntry) : (d.setLogEntry i e).pba = d.pba := rfl
@[simp] theorem setLogEntry_unmasked (d : Dev) (i : Nat) (e : LogEntry) : (d.setLogEntry i e).unmasked = d.unmasked := rfl
@[simp] theorem setLogEntry_sent (d : Dev) (i : Nat) (e : LogEntry) : (d.setLogEntry i e).sent = d.sent := rfl
@[simp] theorem setLogEntry_links (d : Dev) (i : Nat) (e : LogEntry) : (d.setLogEntry i e).links = d.links := rfl
@[simp] theorem setLogEntry_remotes (d : Dev) (i : Nat) (e : LogEntry) : (d.setLogEntry i e).remotes = d.remotes := rfl
@[simp] theorem setLogEntry_nextTag (d : Dev) (i : Nat) (e : LogEntry) : (d.setLogEntry i e).nextTag = d.nextTag := rfl
@[simp] theorem setLogEntry_board (d : Dev) (i : Nat) (e : LogEntry) : (d.setLogEntry i e).board = d.board := rfl
@[simp] theorem setLogEntry_flash (d : Dev) (i : Nat) (e : LogEntry) : (d.setLogEntry i e).flash = d.flash := rfl
@[simp] theorem setLogEntry_flashOp (d : Dev) (i : Nat) (e : LogEntry) : (d.setLogEntry i e).flashOp = d.flashOp := rfl
@[simp] theorem setLogEntry_commit (d : Dev) (i : Nat) (e : LogEntry) : (d.setLogEntry i e).commit = d.commit := rfl
@[simp] theorem setLogEntry_wdtAt (d : Dev) (i : Nat) (e : LogEntry) : (d.setLogEntry i e).wdtAt = d.wdtAt := rfl
@[simp] theorem setLogEntry_unlock (d : Dev) (i : Nat) (e : LogEntry) : (d.setLogEntry i e).unlock = d.unlock := rfl
@[simp] theorem setLogEntry_unlockAt (d : Dev) (i : Nat) (e : LogEntry) : (d.setLogEntry i e).unlockAt = d.unlockAt := rfl
@[simp] theorem setLogEntry_fuseOp (d : Dev) (i : Nat) (e : LogEntry) : (d.setLogEntry i e).fuseOp = d.fuseOp := rfl
@[simp] theorem setLogEntry_jtag (d : Dev) (i : Nat) (e : LogEntry) : (d.setLogEntry i e).jtag = d.jtag := rfl

end Sys2Proof.Machine.Dev
end

