-- ==== Sys2Proof/Laws/Word.lean ====
section
/-!
SUPPORT. Bit fields of a word: what a field or a bit reads after another was written.
-/
namespace Sys2Proof

/-- The bits of a mask. -/
theorem testBit_mask (hi lo i : Nat) : (mask hi lo).getLsbD i = (decide (i < 32) && (decide (lo ≤ i) && decide (i < hi + 1))) := by
  unfold mask
  rw [BitVec.getLsbD_ofNat]
  by_cases h : lo ≤ i
  · have : (2 ^ (hi + 1 - lo) - 1).testBit (i - lo) = decide (i - lo < hi + 1 - lo) := by
      rw [Nat.testBit_two_pow_sub_one]
    have e : (i - lo < hi + 1 - lo) = (i < hi + 1) := by apply propext; omega
    simp [Nat.testBit_shiftLeft, h, this, e]
  · simp [Nat.testBit_shiftLeft, h]

/-- A bit of a field. -/
theorem testBit_bits (w : Word) (hi lo i : Nat) : (bits w hi lo).testBit i = (decide (i < hi + 1 - lo) && w.getLsbD (lo + i)) := by
  unfold bits
  rw [Nat.testBit_mod_two_pow, Nat.testBit_shiftRight]; rfl

/-- A bit of a word with a field written. -/
theorem testBit_putBits (w : Word) (hi lo v i : Nat) :
    (putBits w hi lo v).getLsbD i = (decide (i < 32) && if lo ≤ i ∧ i ≤ hi then v.testBit (i - lo) else w.getLsbD i) := by
  unfold putBits
  simp only [BitVec.getLsbD_or, BitVec.getLsbD_and, BitVec.getLsbD_not, testBit_mask, BitVec.getLsbD_ofNat, Nat.testBit_shiftLeft]
  by_cases h1 : i < 32 <;> by_cases h2 : lo ≤ i <;> by_cases h3 : i < hi + 1
  all_goals
    have h3' : (i ≤ hi) = (i < hi + 1) := by apply propext; omega
    simp [h1, h2, h3, h3']

/-- A field reads what was written to it, in its width. -/
theorem bits_putBits_same (w : Word) (hi lo v : Nat) (h : hi < 32) :
    bits (putBits w hi lo v) hi lo = v % 2 ^ (hi + 1 - lo) := by
  apply Nat.eq_of_testBit_eq
  intro i
  rw [testBit_bits, testBit_putBits, Nat.testBit_mod_two_pow]
  by_cases hi' : i < hi + 1 - lo
  · have h1 : lo + i < 32 := by omega
    have h2 : lo + i ≤ hi := by omega
    simp [hi', h1, h2]
  · simp [hi']

/-- Another field keeps its value. -/
theorem bits_putBits_other (w : Word) (hi lo v hi' lo' : Nat) (h : hi < lo' ∨ hi' < lo) (h32 : hi' < 32) :
    bits (putBits w hi lo v) hi' lo' = bits w hi' lo' := by
  apply Nat.eq_of_testBit_eq
  intro i
  rw [testBit_bits, testBit_bits, testBit_putBits]
  by_cases hi1 : i < hi' + 1 - lo'
  · have h1 : lo' + i < 32 := by omega
    have h2 : ¬(lo ≤ lo' + i ∧ lo' + i ≤ hi) := by omega
    simp [h1, h2]
  · simp [hi1]

/-- A bit reads what was written to it. -/
theorem bit_putBit_same (w : Word) (i : Nat) (v : Bool) (h : i < 32) : bit (putBit w i v) i = v := by
  show (putBit w i v).getLsbD i = v
  unfold putBit
  rw [testBit_putBits]
  cases v <;> simp [h]

/-- Another bit keeps its value. -/
theorem bit_putBit_other (w : Word) (i j : Nat) (v : Bool) (h : j ≠ i) : bit (putBit w i v) j = bit w j := by
  show (putBit w i v).getLsbD j = w.getLsbD j
  unfold putBit
  rw [testBit_putBits]
  by_cases h1 : j < 32
  · have : ¬(i ≤ j ∧ j ≤ i) := by omega
    simp [h1, this]
  · simp [h1, BitVec.getLsbD_of_ge w j (by omega)]

/-- A bit outside a written field keeps its value. -/
theorem bit_putBits_other (w : Word) (hi lo v j : Nat) (h : j < lo ∨ hi < j) : bit (putBits w hi lo v) j = bit w j := by
  show (putBits w hi lo v).getLsbD j = w.getLsbD j
  rw [testBit_putBits]
  by_cases h1 : j < 32
  · have : ¬(lo ≤ j ∧ j ≤ hi) := by omega
    simp [h1, this]
  · simp [h1, BitVec.getLsbD_of_ge w j (by omega)]

/-- A field without the written bit keeps its value. -/
theorem bits_putBit_other (w : Word) (i : Nat) (v : Bool) (hi lo : Nat) (h : i < lo ∨ hi < i) (h32 : hi < 32) :
    bits (putBit w i v) hi lo = bits w hi lo := bits_putBits_other w i i v.toNat hi lo h h32

end Sys2Proof
end

