-- ==== Sys2Proof/Laws/Ops.lean ====
section
/-!
SUPPORT. The named operations over registers and numbered units: what is read after a write of the same place, that every other
place keeps its value, and what the shared operations keep.
-/
namespace Sys2Proof.Machine.Dev

/-! ## A read after a write -/

/-- A register reads the value written to it, and every other register its own. -/
theorem reg_setReg (d : Dev) (p off : Nat) (v : Word) (q o : Nat) :
    (d.setReg p off v).reg q o = if q * 4096 + o = p * 4096 + off then v else d.reg q o :=
  Sparse.get_put (regDefault d.pkg) d.regs (p * 4096 + off) (q * 4096 + o) v

@[simp] theorem reg_setReg_same (d : Dev) (p off : Nat) (v : Word) : (d.setReg p off v).reg p off = v := by
  simp [reg_setReg]

/-- A register of another page, or another register of the page, keeps its value. -/
theorem reg_setReg_other (d : Dev) (p off : Nat) (v : Word) (q o : Nat) (h : q ≠ p ∨ o ≠ off) (ho : o < 4096) (hf : off < 4096) :
    (d.setReg p off v).reg q o = d.reg q o := by
  rw [reg_setReg, if_neg (by omega)]

@[simp] theorem core_setCore_same (d : Dev) (n : Nat) (c : Core) : (d.setCore n c).core n = c := by
  simp [core, setCore]

theorem core_setCore_other (d : Dev) (n : Nat) (c : Core) (k : Nat) (h : k ≠ n) : (d.setCore n c).core k = d.core k :=
  Sparse.get_put_other _ _ _ h

@[simp] theorem region_setRegion_same (d : Dev) (r : Nat) (x : Region) : (d.setRegion r x).region r = x := by
  simp [region, setRegion]

theorem region_setRegion_other (d : Dev) (r : Nat) (x : Region) (k : Nat) (h : k ≠ r) : (d.setRegion r x).region k = d.region k :=
  Sparse.get_put_other _ _ _ h

@[simp] theorem task_setTask_same (d : Dev) (n : Nat) (t : Option Task) : (d.setTask n t).task n = t := by
  simp [task, setTask]

theorem task_setTask_other (d : Dev) (n : Nat) (t : Option Task) (k : Nat) (h : k ≠ n) : (d.setTask n t).task k = d.task k :=
  Sparse.get_put_other _ _ _ h

@[simp] theorem logEntry_setLogEntry_same (d : Dev) (i : Nat) (e : LogEntry) : (d.setLogEntry i e).logEntry i = e := by
  simp [logEntry, setLogEntry]

theorem logEntry_setLogEntry_other (d : Dev) (i : Nat) (e : LogEntry) (k : Nat) (h : k ≠ i) :
    (d.setLogEntry i e).logEntry k = d.logEntry k :=
  Sparse.get_put_other _ _ _ h

/-! ## Each update keeps what it does not name -/

@[simp] theorem core_setReg (d : Dev) (p' off' : Nat) (v : Word) (n : Nat) : (d.setReg p' off' v).core n = d.core n := rfl
@[simp] theorem region_setReg (d : Dev) (p' off' : Nat) (v : Word) (n : Nat) : (d.setReg p' off' v).region n = d.region n := rfl
@[simp] theorem task_setReg (d : Dev) (p' off' : Nat) (v : Word) (n : Nat) : (d.setReg p' off' v).task n = d.task n := rfl
@[simp] theorem logEntry_setReg (d : Dev) (p' off' : Nat) (v : Word) (n : Nat) : (d.setReg p' off' v).logEntry n = d.logEntry n := rfl
@[simp] theorem reg_setCore (d : Dev) (n' : Nat) (c : Core) (p off : Nat) : (d.setCore n' c).reg p off = d.reg p off := rfl
@[simp] theorem region_setCore (d : Dev) (n' : Nat) (c : Core) (n : Nat) : (d.setCore n' c).region n = d.region n := rfl
@[simp] theorem task_setCore (d : Dev) (n' : Nat) (c : Core) (n : Nat) : (d.setCore n' c).task n = d.task n := rfl
@[simp] theorem logEntry_setCore (d : Dev) (n' : Nat) (c : Core) (n : Nat) : (d.setCore n' c).logEntry n = d.logEntry n := rfl
@[simp] theorem reg_setRegion (d : Dev) (r' : Nat) (x : Region) (p off : Nat) : (d.setRegion r' x).reg p off = d.reg p off := rfl
@[simp] theorem core_setRegion (d : Dev) (r' : Nat) (x : Region) (n : Nat) : (d.setRegion r' x).core n = d.core n := rfl
@[simp] theorem task_setRegion (d : Dev) (r' : Nat) (x : Region) (n : Nat) : (d.setRegion r' x).task n = d.task n := rfl
@[simp] theorem logEntry_setRegion (d : Dev) (r' : Nat) (x : Region) (n : Nat) : (d.setRegion r' x).logEntry n = d.logEntry n := rfl
@[simp] theorem reg_setTask (d : Dev) (n' : Nat) (t : Option Task) (p off : Nat) : (d.setTask n' t).reg p off = d.reg p off := rfl
@[simp] theorem core_setTask (d : Dev) (n' : Nat) (t : Option Task) (n : Nat) : (d.setTask n' t).core n = d.core n := rfl
@[simp] theorem region_setTask (d : Dev) (n' : Nat) (t : Option Task) (n : Nat) : (d.setTask n' t).region n = d.region n := rfl
@[simp] theorem logEntry_setTask (d : Dev) (n' : Nat) (t : Option Task) (n : Nat) : (d.setTask n' t).logEntry n = d.logEntry n := rfl
@[simp] theorem reg_answer (d : Dev) (c : Completion) (p off : Nat) : (d.answer c).reg p off = d.reg p off := rfl
@[simp] theorem core_answer (d : Dev) (c : Completion) (n : Nat) : (d.answer c).core n = d.core n := rfl
@[simp] theorem region_answer (d : Dev) (c : Completion) (n : Nat) : (d.answer c).region n = d.region n := rfl
@[simp] theorem task_answer (d : Dev) (c : Completion) (n : Nat) : (d.answer c).task n = d.task n := rfl
@[simp] theorem logEntry_answer (d : Dev) (c : Completion) (n : Nat) : (d.answer c).logEntry n = d.logEntry n := rfl
@[simp] theorem reg_setLogEntry (d : Dev) (i' : Nat) (e : LogEntry) (p off : Nat) : (d.setLogEntry i' e).reg p off = d.reg p off := rfl
@[simp] theorem core_setLogEntry (d : Dev) (i' : Nat) (e : LogEntry) (n : Nat) : (d.setLogEntry i' e).core n = d.core n := rfl
@[simp] theorem region_setLogEntry (d : Dev) (i' : Nat) (e : LogEntry) (n : Nat) : (d.setLogEntry i' e).region n = d.region n := rfl
@[simp] theorem task_setLogEntry (d : Dev) (i' : Nat) (e : LogEntry) (n : Nat) : (d.setLogEntry i' e).task n = d.task n := rfl

/-! ## Fields -/

theorem field_setReg (d : Dev) (p off : Nat) (v : Word) (q o hi lo : Nat) :
    (d.setReg p off v).field q o hi lo = if q * 4096 + o = p * 4096 + off then bits v hi lo else d.field q o hi lo := by
  unfold field
  rw [reg_setReg]
  split <;> rfl

theorem flag_setReg (d : Dev) (p off : Nat) (v : Word) (q o i : Nat) :
    (d.setReg p off v).flag q o i = if q * 4096 + o = p * 4096 + off then bit v i else d.flag q o i := by
  unfold flag
  rw [reg_setReg]
  split <;> rfl

/-- A field reads what was written to it, in its width. -/
theorem field_setField_same (d : Dev) (p off hi lo v : Nat) (h : hi < 32) :
    (d.setField p off hi lo v).field p off hi lo = v % 2 ^ (hi + 1 - lo) := by
  simp [field, setField, bits_putBits_same _ _ _ _ h]

/-- A bit reads what was written to it. -/
theorem flag_setFlag_same (d : Dev) (p off i : Nat) (v : Bool) (h : i < 32) : (d.setFlag p off i v).flag p off i = v := by
  simp [flag, setFlag, bit_putBit_same _ _ _ h]

/-- A counter reads its value before and the advance, held at 0xFFFF_FFFF. -/
@[simp] theorem reg_count_same (d : Dev) (p off n : Nat) : (d.count p off n).reg p off = satAdd (d.reg p off) n := by
  simp [count]

/-! ## Every operation built on registers keeps the rest of the device -/

@[simp] theorem setField_power (d : Dev) (p off hi lo v : Nat) : (d.setField p off hi lo v).power = d.power := rfl
@[simp] theorem setField_pkg (d : Dev) (p off hi lo v : Nat) : (d.setField p off hi lo v).pkg = d.pkg := rfl
@[simp] theorem setField_now (d : Dev) (p off hi lo v : Nat) : (d.setField p off hi lo v).now = d.now := rfl
@[simp] theorem setField_mem (d : Dev) (p off hi lo v : Nat) : (d.setField p off hi lo v).mem = d.mem := rfl
@[simp] theorem setField_cores (d : Dev) (p off hi lo v : Nat) : (d.setField p off hi lo v).cores = d.cores := rfl
@[simp] theorem setField_tasks (d : Dev) (p off hi lo v : Nat) : (d.setField p off hi lo v).tasks = d.tasks := rfl
@[simp] theorem setField_regions (d : Dev) (p off hi lo v : Nat) : (d.setField p off hi lo v).regions = d.regions := rfl
@[simp] theorem setField_log (d : Dev) (p off hi lo v : Nat) : (d.setField p off hi lo v).log = d.log := rfl
@[simp] theorem setField_bus (d : Dev) (p off hi lo v : Nat) : (d.setField p off hi lo v).bus = d.bus := rfl
@[simp] theorem setField_free (d : Dev) (p off hi lo v : Nat) : (d.setField p off hi lo v).free = d.free := rfl
@[simp] theorem setFlag_power (d : Dev) (p off i : Nat) (v : Bool) : (d.setFlag p off i v).power = d.power := rfl
@[simp] theorem setFlag_pkg (d : Dev) (p off i : Nat) (v : Bool) : (d.setFlag p off i v).pkg = d.pkg := rfl
@[simp] theorem setFlag_now (d : Dev) (p off i : Nat) (v : Bool) : (d.setFlag p off i v).now = d.now := rfl
@[simp] theorem setFlag_mem (d : Dev) (p off i : Nat) (v : Bool) : (d.setFlag p off i v).mem = d.mem := rfl
@[simp] theorem setFlag_cores (d : Dev) (p off i : Nat) (v : Bool) : (d.setFlag p off i v).cores = d.cores := rfl
@[simp] theorem setFlag_tasks (d : Dev) (p off i : Nat) (v : Bool) : (d.setFlag p off i v).tasks = d.tasks := rfl
@[simp] theorem setFlag_regions (d : Dev) (p off i : Nat) (v : Bool) : (d.setFlag p off i v).regions = d.regions := rfl
@[simp] theorem setFlag_log (d : Dev) (p off i : Nat) (v : Bool) : (d.setFlag p off i v).log = d.log := rfl
@[simp] theorem setFlag_bus (d : Dev) (p off i : Nat) (v : Bool) : (d.setFlag p off i v).bus = d.bus := rfl
@[simp] theorem setFlag_free (d : Dev) (p off i : Nat) (v : Bool) : (d.setFlag p off i v).free = d.free := rfl
@[simp] theorem count_power (d : Dev) (p off n : Nat) : (d.count p off n).power = d.power := rfl
@[simp] theorem count_pkg (d : Dev) (p off n : Nat) : (d.count p off n).pkg = d.pkg := rfl
@[simp] theorem count_now (d : Dev) (p off n : Nat) : (d.count p off n).now = d.now := rfl
@[simp] theorem count_mem (d : Dev) (p off n : Nat) : (d.count p off n).mem = d.mem := rfl
@[simp] theorem count_cores (d : Dev) (p off n : Nat) : (d.count p off n).cores = d.cores := rfl
@[simp] theorem count_tasks (d : Dev) (p off n : Nat) : (d.count p off n).tasks = d.tasks := rfl
@[simp] theorem count_regions (d : Dev) (p off n : Nat) : (d.count p off n).regions = d.regions := rfl
@[simp] theorem count_log (d : Dev) (p off n : Nat) : (d.count p off n).log = d.log := rfl
@[simp] theorem count_bus (d : Dev) (p off n : Nat) : (d.count p off n).bus = d.bus := rfl
@[simp] theorem count_free (d : Dev) (p off n : Nat) : (d.count p off n).free = d.free := rfl
@[simp] theorem setPageState_power (d : Dev) (p v : Nat) : (d.setPageState p v).power = d.power := rfl
@[simp] theorem setPageState_pkg (d : Dev) (p v : Nat) : (d.setPageState p v).pkg = d.pkg := rfl
@[simp] theorem setPageState_now (d : Dev) (p v : Nat) : (d.setPageState p v).now = d.now := rfl
@[simp] theorem setPageState_mem (d : Dev) (p v : Nat) : (d.setPageState p v).mem = d.mem := rfl
@[simp] theorem setPageState_cores (d : Dev) (p v : Nat) : (d.setPageState p v).cores = d.cores := rfl
@[simp] theorem setPageState_tasks (d : Dev) (p v : Nat) : (d.setPageState p v).tasks = d.tasks := rfl
@[simp] theorem setPageState_regions (d : Dev) (p v : Nat) : (d.setPageState p v).regions = d.regions := rfl
@[simp] theorem setPageState_log (d : Dev) (p v : Nat) : (d.setPageState p v).log = d.log := rfl
@[simp] theorem setPageState_bus (d : Dev) (p v : Nat) : (d.setPageState p v).bus = d.bus := rfl
@[simp] theorem setPageState_free (d : Dev) (p v : Nat) : (d.setPageState p v).free = d.free := rfl

end Sys2Proof.Machine.Dev
end

