-- ==== Sys2Proof/Laws/Frames.lean ====
section
/-!
SUPPORT. What the shared operations that report something (a counter, an interrupt, a message of a port, an error of a page) may
move: registers, cores, regions, the vectors that wait and the message sent, and nothing else; and which registers they move.
-/
namespace Sys2Proof.Machine

/-- From `d` to `d'` only the registers, the cores, the regions, the vectors that wait and the message sent have moved. -/
def Dev.Signals (d d' : Dev) : Prop :=
  d' = { d with regs := d'.regs, cores := d'.cores, regions := d'.regions, pba := d'.pba, sent := d'.sent }

/-- A relation that `f n` keeps at every `n` of a list is kept by `forEach`. -/
theorem forEach_rel {R : Dev → Dev → Prop} (hr : ∀ d, R d d) (ht : ∀ a b c, R a b → R b c → R a c) {l : List Nat}
    {f : Nat → Dev → Dev} (h : ∀ n ∈ l, ∀ d, R d (f n d)) (d : Dev) : R d (forEach l f d) := by
  unfold forEach
  induction l generalizing d with
  | nil => exact hr d
  | cons n r ih => exact ht _ _ _ (h n (by simp) d) (ih (fun m hm => h m (by simp [hm])) (f n d))

/-- A property that `f n` keeps at every `n` of a list is kept by `forEach`. -/
theorem forEach_keeps {P : Dev → Prop} {l : List Nat} {f : Nat → Dev → Dev} (h : ∀ n ∈ l, ∀ d, P d → P (f n d)) (d : Dev)
    (hd : P d) : P (forEach l f d) :=
  forEach_rel (R := fun a b => P a → P b) (fun _ h => h) (fun _ _ _ h k hp => k (h hp)) h d hd

namespace Dev

/-! ## The relation -/

theorem Signals.refl (d : Dev) : d.Signals d := rfl

theorem Signals.trans {a b c : Dev} (h : a.Signals b) (k : b.Signals c) : a.Signals c := by
  unfold Signals at *
  rw [k, h]

theorem Signals.mem {d d' : Dev} (h : d.Signals d') : d'.mem = d.mem := by rw [h]
theorem Signals.power {d d' : Dev} (h : d.Signals d') : d'.power = d.power := by rw [h]
theorem Signals.pkg {d d' : Dev} (h : d.Signals d') : d'.pkg = d.pkg := by rw [h]
theorem Signals.now {d d' : Dev} (h : d.Signals d') : d'.now = d.now := by rw [h]
theorem Signals.tasks {d d' : Dev} (h : d.Signals d') : d'.tasks = d.tasks := by rw [h]
theorem Signals.log {d d' : Dev} (h : d.Signals d') : d'.log = d.log := by rw [h]
theorem Signals.places {d d' : Dev} (h : d.Signals d') : d'.places = d.places := by rw [h]
theorem Signals.migs {d d' : Dev} (h : d.Signals d') : d'.migs = d.migs := by rw [h]
theorem Signals.written {d d' : Dev} (h : d.Signals d') : d'.written = d.written := by rw [h]
theorem Signals.poison {d d' : Dev} (h : d.Signals d') : d'.poison = d.poison := by rw [h]
theorem Signals.chans {d d' : Dev} (h : d.Signals d') : d'.chans = d.chans := by rw [h]
theorem Signals.bus {d d' : Dev} (h : d.Signals d') : d'.bus = d.bus := by rw [h]
theorem Signals.free {d d' : Dev} (h : d.Signals d') : d'.free = d.free := by rw [h]
theorem Signals.mic {d d' : Dev} (h : d.Signals d') : d'.mic = d.mic := by rw [h]
theorem Signals.loom {d d' : Dev} (h : d.Signals d') : d'.loom = d.loom := by rw [h]
theorem Signals.links {d d' : Dev} (h : d.Signals d') : d'.links = d.links := by rw [h]

/-! ## What stays within it -/

theorem setReg_signals (d : Dev) (p off : Nat) (v : Word) : d.Signals (d.setReg p off v) := rfl
theorem setField_signals (d : Dev) (p off hi lo v : Nat) : d.Signals (d.setField p off hi lo v) := rfl
theorem setFlag_signals (d : Dev) (p off i : Nat) (v : Bool) : d.Signals (d.setFlag p off i v) := rfl
theorem count_signals (d : Dev) (p off n : Nat) : d.Signals (d.count p off n) := rfl
theorem setPageState_signals (d : Dev) (p v : Nat) : d.Signals (d.setPageState p v) := rfl
theorem resetCounters_signals (d : Dev) (p : Nat) : d.Signals (d.resetCounters p) := rfl
theorem disabled_signals (d : Dev) (p : Nat) : d.Signals (d.disabled p) := rfl
theorem setCore_signals (d : Dev) (n : Nat) (c : Core) : d.Signals (d.setCore n c) := rfl
theorem setRegion_signals (d : Dev) (r : Nat) (x : Region) : d.Signals (d.setRegion r x) := rfl

theorem forEach_signals {l : List Nat} {f : Nat → Dev → Dev} (h : ∀ n ∈ l, ∀ d, Signals d (f n d)) (d : Dev) :
    d.Signals (forEach l f d) :=
  forEach_rel Signals.refl (fun _ _ _ => Signals.trans) h d

/-- A target that changes moves its region, and the count of abandoned entries. -/
theorem settle_signals (d : Dev) (r : Nat) : d.Signals (d.settle r) := by
  unfold settle
  simp only
  repeat' split
  all_goals rfl

theorem pend_signals (d : Dev) (n s : Nat) : d.Signals (d.pend n s) := by
  unfold pend
  simp only
  split
  · exact (setCore_signals d n _).trans (settle_signals _ _)
  · rfl

theorem pendMask_signals (d : Dev) (m s : Nat) : d.Signals (d.pendMask m s) :=
  forEach_signals (fun n _ d => pend_signals d n s) d

theorem message_signals (d : Dev) (p : Port) (v : Nat) : d.Signals (d.message p v) := by
  unfold message
  simp only
  repeat' split
  all_goals rfl

/-- A message that is sent only in some states. -/
theorem onlyIf_message_signals (d : Dev) (c : Bool) (p : Port) (v : Nat) : d.Signals (if c then d.message p v else d) := by
  split
  · exact message_signals d p v
  · exact Signals.refl d

theorem pageEvent_signals (d : Dev) (page : Nat) : d.Signals (d.pageEvent page) :=
  ((onlyIf_message_signals d _ _ _).trans (onlyIf_message_signals _ _ _ _)).trans
    (forEach_signals (fun n _ d => pend_signals d n 5) _)

theorem errlogEvent_signals (d : Dev) : d.Signals d.errlogEvent :=
  ((message_signals d _ _).trans (message_signals _ _ _)).trans (pendMask_signals _ _ _)

theorem safetyEvent_signals (d : Dev) : d.Signals d.safetyEvent :=
  ((message_signals d _ _).trans (message_signals _ _ _)).trans (pendMask_signals _ _ _)

theorem markEvent_signals (d : Dev) : d.Signals d.markEvent :=
  ((onlyIf_message_signals d _ _ _).trans (onlyIf_message_signals _ _ _ _)).trans (pendMask_signals _ _ _)

theorem errBit_signals (d : Dev) (p b : Nat) : d.Signals (d.errBit p b) := by
  unfold errBit
  simp only
  split <;> rfl

theorem err_signals (d : Dev) (p b : Nat) : d.Signals (d.err p b) := by
  unfold err
  simp only
  split
  · exact errBit_signals d p b
  · exact (errBit_signals d p b).trans (pageEvent_signals _ p)

theorem errlogErr_signals (d : Dev) (b : Nat) : d.Signals (d.errlogErr b) :=
  (errBit_signals d _ b).trans (errlogEvent_signals _)

theorem deny_signals (d : Dev) (a : Agent) (p : Nat) : d.Signals (d.deny a p) :=
  (setField_signals d p _ _ _ _).trans (err_signals _ p 31)

theorem unmappedAccess_signals (d : Dev) : d.Signals d.unmappedAccess :=
  (count_signals d _ _ _).trans (err_signals _ _ _)

theorem dropWrite_signals (d : Dev) (who : MemAgent) : d.Signals (d.dropWrite who) :=
  ((count_signals d _ _ _).trans (setReg_signals _ _ _ _)).trans (err_signals _ _ _)

/-! ## Which registers they move -/

/-- Every register outside a list of (page, offset) keeps its value from `d` to `d'`. -/
def OnlyRegs (l : List (Nat × Nat)) (d d' : Dev) : Prop := ∀ p off, off < 4096 → (p, off) ∉ l → d'.reg p off = d.reg p off

theorem OnlyRegs.refl (l : List (Nat × Nat)) (d : Dev) : OnlyRegs l d d := fun _ _ _ _ => rfl

theorem OnlyRegs.trans {l : List (Nat × Nat)} {a b c : Dev} (h : OnlyRegs l a b) (k : OnlyRegs l b c) : OnlyRegs l a c :=
  fun p off ho hm => (k p off ho hm).trans (h p off ho hm)

theorem OnlyRegs.mono {l m : List (Nat × Nat)} {a b : Dev} (h : OnlyRegs l a b) (s : ∀ x ∈ l, x ∈ m) : OnlyRegs m a b :=
  fun p off ho hm => h p off ho fun hl => hm (s _ hl)

/-- A write of one register moves that register. -/
theorem setReg_onlyRegs (d : Dev) (p off : Nat) (v : Word) (l : List (Nat × Nat)) (hf : off < 4096) (hm : (p, off) ∈ l) :
    OnlyRegs l d (d.setReg p off v) := fun q o ho hn =>
  reg_setReg_other d p off v q o (Decidable.or_iff_not_imp_left.2 fun hq ho => hn (by
    rw [Decidable.not_not.1 hq, ho]
    exact hm)) ho hf

/-- A target that changes counts an abandoned entry (page 0x008, offset 0x050) and moves no other register. -/
theorem settle_onlyRegs (d : Dev) (r : Nat) : OnlyRegs [(0x008, 0x050)] d (d.settle r) := by
  have hc : OnlyRegs [(0x008, 0x050)] d (d.count 0x008 0x050) := setReg_onlyRegs d _ _ _ _ (by omega) (by simp)
  have hs : ∀ x, OnlyRegs [(0x008, 0x050)] d (d.setRegion r x) := fun x _ _ _ _ => rfl
  have ht : ∀ x, OnlyRegs [(0x008, 0x050)] d ((d.count 0x008 0x050).setRegion r x) := fun x => hc
  unfold settle
  simp only
  repeat' split
  all_goals first | exact hs _ | exact ht _

theorem pend_onlyRegs (d : Dev) (n s : Nat) : OnlyRegs [(0x008, 0x050)] d (d.pend n s) := by
  unfold pend
  simp only
  split
  · exact (OnlyRegs.trans (b := d.setCore n _) (fun _ _ _ _ => rfl) (settle_onlyRegs _ _))
  · exact fun _ _ _ _ => rfl

/-- The registers that the events of the ports and the cores move: the message counts, and the count of abandoned entries. -/
def eventRegs : List (Nat × Nat) := [(0x008, 0x050), (0x150, 0x110), (0x151, 0x110)]

theorem forEach_pend_onlyRegs (l : List Nat) (s : Nat) (d : Dev) : OnlyRegs eventRegs d (forEach l (fun n d => d.pend n s) d) :=
  forEach_rel (OnlyRegs.refl _) (fun _ _ _ => OnlyRegs.trans)
    (fun n _ d => (pend_onlyRegs d n s).mono (by simp [eventRegs])) d

theorem pendMask_onlyRegs (d : Dev) (m s : Nat) : OnlyRegs eventRegs d (d.pendMask m s) := forEach_pend_onlyRegs _ s d

theorem message_onlyRegs (d : Dev) (p : Port) (v : Nat) : OnlyRegs eventRegs d (d.message p v) := by
  unfold message
  simp only
  split
  · exact OnlyRegs.refl _ d
  · split
    · exact setReg_onlyRegs d p.page 0x110 _ eventRegs (by omega) (by cases p <;> simp [eventRegs, Port.page, Port.index])
    · exact fun _ _ _ _ => rfl

theorem onlyIf_message_onlyRegs (d : Dev) (c : Bool) (p : Port) (v : Nat) : OnlyRegs eventRegs d (if c then d.message p v else d) := by
  split
  · exact message_onlyRegs d p v
  · exact OnlyRegs.refl _ d

theorem pageEvent_onlyRegs (d : Dev) (page : Nat) : OnlyRegs eventRegs d (d.pageEvent page) :=
  ((onlyIf_message_onlyRegs d _ _ _).trans (onlyIf_message_onlyRegs _ _ _ _)).trans (forEach_pend_onlyRegs _ _ _)

theorem errlogEvent_onlyRegs (d : Dev) : OnlyRegs eventRegs d d.errlogEvent :=
  ((message_onlyRegs d _ _).trans (message_onlyRegs _ _ _)).trans (pendMask_onlyRegs _ _ _)

theorem safetyEvent_onlyRegs (d : Dev) : OnlyRegs eventRegs d d.safetyEvent :=
  ((message_onlyRegs d _ _).trans (message_onlyRegs _ _ _)).trans (pendMask_onlyRegs _ _ _)

theorem markEvent_onlyRegs (d : Dev) : OnlyRegs eventRegs d d.markEvent :=
  ((onlyIf_message_onlyRegs d _ _ _).trans (onlyIf_message_onlyRegs _ _ _ _)).trans (pendMask_onlyRegs _ _ _)

/-- The registers that an error of page `p` moves: ERR_SUM, ERR_FIRST and ERR_COUNT of the page, and those of its event. -/
def errRegs (p : Nat) : List (Nat × Nat) := [(p, 0x014), (p, 0x01C), (p, 0x020)] ++ eventRegs

theorem errBit_onlyRegs (d : Dev) (p b : Nat) : OnlyRegs (errRegs p) d (d.errBit p b) := by
  have h : ∀ d : Dev, OnlyRegs (errRegs p) d ((d.setFlag p 0x014 b true).count p 0x020) := fun d =>
    (setReg_onlyRegs d p 0x014 _ _ (by omega) (by simp [errRegs])).trans
      (setReg_onlyRegs _ p 0x020 _ _ (by omega) (by simp [errRegs]))
  unfold errBit
  simp only
  split
  · exact h d
  · exact (setReg_onlyRegs d p 0x01C _ _ (by omega) (by simp [errRegs])).trans (h _)

/-- An error of page `p` moves the registers `errRegs p` names and no other. -/
theorem err_onlyRegs (d : Dev) (p b : Nat) : OnlyRegs (errRegs p) d (d.err p b) := by
  unfold err
  simp only
  split
  · exact errBit_onlyRegs d p b
  · exact (errBit_onlyRegs d p b).trans ((pageEvent_onlyRegs _ p).mono fun _ h => List.mem_append_right _ h)

theorem errlogErr_onlyRegs (d : Dev) (b : Nat) : OnlyRegs (errRegs 0x0F0) d (d.errlogErr b) :=
  (errBit_onlyRegs d _ b).trans ((errlogEvent_onlyRegs _).mono fun _ h => List.mem_append_right _ h)

/-- An error sets its bit of ERR_SUM (R57). -/
theorem flag_errBit (d : Dev) (p b : Nat) (hb : b < 32) : (d.errBit p b).flag p 0x014 b = true := by
  unfold errBit count
  simp only
  rw [flag_setReg, if_neg (by omega), flag_setFlag_same _ _ _ _ _ hb]

/-- ERR_SUM of page `p` keeps the bit through the page's event. -/
theorem flag_err (d : Dev) (p b : Nat) (hb : b < 32) : (d.err p b).flag p 0x014 b = true := by
  have h := flag_errBit d p b hb
  unfold err
  simp only
  split
  · exact h
  · have hk := pageEvent_onlyRegs (d.errBit p b) p p 0x014 (by omega) (by simp [eventRegs])
    unfold flag at h ⊢
    rw [hk]
    exact h

/-- An unmapped access counts and sets its bit (R266). -/
theorem unmappedAccess_spec (d : Dev) : d.unmappedAccess.reg 0x0D0 0x04C = satAdd (d.reg 0x0D0 0x04C) 1 ∧
    d.unmappedAccess.flag 0x0D0 0x014 2 = true := by
  refine ⟨?_, flag_err _ _ _ (by omega)⟩
  unfold unmappedAccess
  rw [err_onlyRegs _ _ _ 0x0D0 0x04C (by omega) (by simp [errRegs, eventRegs])]
  simp

/-! ## The canonical form of memory -/

theorem Signals.memoryWf {d d' : Dev} (h : d.Signals d') (hw : d.MemoryWf) : d'.MemoryWf := by
  unfold MemoryWf
  rw [h.mem]
  exact hw

/-- A page's new placement leaves memory as it is. -/
theorem switchPage_mem (d : Dev) (p t f : Nat) : (d.switchPage p t f).mem = d.mem := by
  unfold switchPage
  simp only [apply_ite Dev.mem, count_mem, ite_self]
  rfl

/-- Demotions that make room leave memory as it is (R271, R272). -/
theorem makeRoom_mem (k : Nat) : ∀ (x : Place) (t : Nat) (d d' : Dev), makeRoom x k t d = some d' → d'.mem = d.mem := by
  induction k with
  | zero =>
    intro x t d d' h
    simp [makeRoom] at h
  | succ k ih =>
    intro x t d d' h
    unfold makeRoom at h
    obtain ⟨e, -, he⟩ := List.exists_of_findSome?_eq_some h
    split at he
    · obtain rfl := Option.some.inj he
      exact switchPage_mem ..
    · simp only [Option.bind_eq_some_iff, Option.map_eq_some_iff] at he
      obtain ⟨d1, h1, f, -, rfl⟩ := he
      exact (switchPage_mem ..).trans (ih _ _ _ _ h1)

theorem giveFrame_mem (d : Dev) (p : Nat) (d' : Dev) (h : d.giveFrame p = some d') : d'.mem = d.mem := by
  unfold giveFrame at h
  simp only at h
  split at h
  · obtain rfl := Option.some.inj h
    rfl
  · simp only [Option.bind_eq_some_iff, Option.map_eq_some_iff] at h
    obtain ⟨e, he, tf, -, rfl⟩ := h
    obtain ⟨t, -, ht⟩ := List.exists_of_findSome?_eq_some he
    have he := makeRoom_mem _ _ _ _ _ ht
    exact he

theorem queueMig_mem (d : Dev) (m : Migration) : (d.queueMig m).mem = d.mem := by
  unfold queueMig
  split <;> rfl

theorem touch_mem (d : Dev) (p : Nat) : (d.touch p).mem = d.mem := by
  unfold touch
  simp only [apply_ite Dev.mem, queueMig_mem, ite_self]
  rfl

theorem lowWater_mem (d : Dev) : d.lowWater.mem = d.mem := by
  unfold lowWater
  refine forEach_keeps (P := fun x : Dev => x.mem = d.mem) (fun t _ x hx => ?_) _ rfl
  split
  · split
    · exact (queueMig_mem _ _).trans hx
    · exact hx
  · exact hx

/-- One line of a write keeps the canonical form, with or without a frame for its page. -/
theorem writeLine_memoryWf (x : Dev × Bool) (l : Nat × List Byte) (h : x.1.MemoryWf) : (writeLine x l).1.MemoryWf := by
  unfold writeLine
  simp only
  split
  · split
    · exact h
    · rename_i d hd
      have hw : d.MemoryWf := by
        split at hd
        · unfold MemoryWf
          rw [giveFrame_mem _ _ _ hd]
          exact h
        · exact Option.some.inj hd ▸ h
      have hs := setBytes_memoryWf l.2 (d.setPlace (pageOf l.1) { d.place (pageOf l.1) with clean := false }) l.1 hw
      simp only
      split
      · exact hs
      · exact hs
  · exact setBytes_memoryWf l.2 x.1 l.1 h

theorem storeLines_memoryWf (d : Dev) (a : Nat) (data : List Byte) (h : d.MemoryWf) : (d.storeLines a data).1.MemoryWf := by
  have hl : ∀ (l : List (Nat × List Byte)) (x : Dev × Bool), x.1.MemoryWf → (l.foldl writeLine x).1.MemoryWf := by
    intro l
    induction l with
    | nil => exact fun _ h => h
    | cons e r ih => exact fun x hx => ih _ (writeLine_memoryWf x e hx)
  exact hl _ _ h

theorem store_memoryWf (d : Dev) (who : MemAgent) (a : Nat) (data : List Byte) (h : d.MemoryWf) :
    (d.store who a data).1.MemoryWf := by
  have hs := storeLines_memoryWf d a data h
  unfold store
  simp only
  split
  · exact hs
  · exact (dropWrite_signals _ _).memoryWf hs

theorem syncTh_memoryWf (d : Dev) (c n : Nat) (cfg : Bool) (h : d.MemoryWf) : (d.syncTh c n cfg).MemoryWf := by
  unfold syncTh
  simp only
  split
  · exact setBytes_memoryWf _ _ _ h
  · exact h

theorem whorlPart_memoryWf (d : Dev) (l : Nat × List Byte) (h : d.MemoryWf) : (d.whorlPart l).MemoryWf := by
  unfold whorlPart
  simp only
  split_ifs
  · exact h
  · exact forEach_keeps (fun n _ d hd => syncTh_memoryWf d _ n true hd) _
      (forEach_keeps (fun n _ d hd => syncTh_memoryWf d _ n false hd) _ (setBytes_memoryWf _ _ _ h))
  · exact ((setField_signals d _ _ _ _ _).trans (err_signals _ _ _)).memoryWf h

theorem whorlStore_memoryWf (d : Dev) (a : Nat) (data : List Byte) (h : d.MemoryWf) : (d.whorlStore a data).MemoryWf := by
  have hl : ∀ (l : List (Nat × List Byte)) (x : Dev), x.MemoryWf → (l.foldl whorlPart x).MemoryWf := by
    intro l
    induction l with
    | nil => exact fun _ h => h
    | cons e r ih =>
      intro x hx
      rw [List.foldl_cons]
      exact ih _ (whorlPart_memoryWf x e hx)
  exact hl _ _ h

/-- Packets that leave a queue move their link alone. -/
theorem pump_links (k n : Nat) (d : Dev) : pump k n d = { d with links := (pump k n d).links } := by
  induction n generalizing d with
  | zero => rfl
  | succ n ih =>
    unfold pump
    simp only
    split
    · rfl
    · split
      · rfl
      · exact ih _

/-- A packet that is sent moves its link alone. -/
theorem sendPacket_links (d : Dev) (p : KPacket) : d.sendPacket p = { d with links := (d.sendPacket p).links } := by
  unfold sendPacket
  split
  · rfl
  · exact pump_links _ _ _

theorem sendPacket_mem (d : Dev) (p : KPacket) : (d.sendPacket p).mem = d.mem := by rw [sendPacket_links]

/-- A device with the same memory as one whose memory is in canonical form. -/
theorem MemoryWf.of_mem {d d' : Dev} (h : d.MemoryWf) (he : d'.mem = d.mem) : d'.MemoryWf := by
  unfold MemoryWf
  rw [he]
  exact h

theorem remoteRequest_mem (d : Dev) (who : MemAgent) (rd : Bool) (a len : Nat) (l : List Byte) :
    (d.remoteRequest who rd a len l).mem = d.mem := by
  unfold remoteRequest
  simp only [sendPacket_mem]

/-- One part of a write keeps the canonical form, whether it is stored, waits or goes to another device. -/
theorem writePart_memoryWf (who : MemAgent) (x : Dev × List Byte × Bool × Bool) (p : Nat × Nat) (h : x.1.MemoryWf) :
    (writePart who x p).1.MemoryWf := by
  obtain ⟨d, data, un, ok⟩ := x
  obtain ⟨a, n⟩ := p
  have hs := fun a => storeLines_memoryWf d a (data.take n) h
  unfold writePart
  simp only
  split
  · exact h
  · exact whorlStore_memoryWf _ _ _ h
  · exact hs _
  · exact hs _
  · split
    · exact MemoryWf.of_mem h (touch_mem _ _)
    · refine MemoryWf.of_mem (hs a) ((touch_mem _ _).trans ?_)
      split
      · exact lowWater_mem _
      · rfl
  · split
    · exact h
    · split
      · split
        · exact hs _
        · exact h
      · exact MemoryWf.of_mem h (remoteRequest_mem _ _ _ _ _ _)

/-- Every write of Skein keeps the memory in canonical form. -/
theorem write_memoryWf (d : Dev) (who : MemAgent) (a : Nat) (data : List Byte) (h : d.MemoryWf) :
    (d.write who a data).1.MemoryWf := by
  have hf : ∀ (l : List (Nat × Nat)) (x : Dev × List Byte × Bool × Bool), x.1.MemoryWf → (l.foldl (writePart who) x).1.MemoryWf := by
    intro l
    induction l with
    | nil => exact fun _ h => h
    | cons e r ih => exact fun x hx => ih _ (writePart_memoryWf who x e hx)
  have hu : ∀ (x : Dev) (b : Bool), x.MemoryWf → (if b = true then x.unmappedAccess else x).MemoryWf := fun x b hx => by
    split
    · exact (unmappedAccess_signals _).memoryWf hx
    · exact hx
  have hw := fun b => hu _ b (hf (pageParts a data.length) (d, data, false, true) h)
  unfold write
  simp only
  split
  · exact hw _
  · exact (dropWrite_signals _ _).memoryWf (hw _)

theorem put_memoryWf (d : Dev) (who : MemAgent) (a : Nat) (data : List Byte) (h : d.MemoryWf) : (d.put who a data).MemoryWf :=
  write_memoryWf d who a data h

end Dev

end Sys2Proof.Machine
end

