-- ==== Sys2Proof/Laws/Reads.lean ====
section
/-!
SUPPORT. Reads of sound memory: where no line is poisoned and no page traps, a read of Skein meets neither poison nor a trap and leaves
the memory sound; and a command of Loom's over sound memory runs on without either.
-/
namespace Sys2Proof.Machine

/-- No line is poisoned and no page traps (R284, R287). -/
def Dev.Sound (d : Dev) : Prop := d.poison = [] ∧ ∀ p, (d.place p).trap = false ∧ (d.place p).lostAll = 0

namespace Dev

/-- What moves neither poison nor placement leaves memory sound. -/
theorem Sound.of_same {d d' : Dev} (h : d.Sound) (hp : d'.poison = d.poison) (hq : d'.places = d.places) : d'.Sound := by
  refine ⟨hp.trans h.1, fun p => ?_⟩
  have : d'.place p = d.place p := by unfold place; rw [hq]
  rw [this]
  exact h.2 p

theorem Sound.linePoison {d : Dev} (h : d.Sound) (l : Nat) : d.linePoison l = 0 := by
  unfold Dev.linePoison
  rw [h.1]
  exact (h.2 _).2

theorem Sound.setPlace {d : Dev} (h : d.Sound) (p : Nat) {x : Place} (ht : x.trap = false) (hl : x.lostAll = 0) :
    (d.setPlace p x).Sound := by
  refine ⟨h.1, fun q => ?_⟩
  have : (d.setPlace p x).place q = if q = p then x else d.place q := Sparse.get_put _ _ _ _ _
  rw [this]
  split
  · exact ⟨ht, hl⟩
  · exact h.2 q

theorem Sound.queueMig {d : Dev} (h : d.Sound) (m : Migration) : (d.queueMig m).Sound := by
  unfold Dev.queueMig
  split
  · exact h
  · exact h.of_same rfl rfl

theorem Sound.ite {c : Prop} [Decidable c] {a b : Dev} (ha : a.Sound) (hb : b.Sound) : (if c then a else b).Sound := by
  split
  · exact ha
  · exact hb

theorem Sound.touch {d : Dev} (h : d.Sound) (p : Nat) : (d.touch p).Sound := by
  have key (i j k a : Nat) :
      ({ d.setPlace p { d.place p with last := i, hits := j, interval := k } with accesses := a } : Dev).Sound :=
    (h.setPlace (x := { d.place p with last := i, hits := j, interval := k }) p (h.2 p).1 (h.2 p).2).of_same rfl rfl
  exact Sound.ite ((key _ _ _ _).queueMig _) (key _ _ _ _)

theorem Sound.readLine {d : Dev} (h : d.Sound) (who : MemAgent) (l : Nat) :
    ∃ d', Dev.readLine who (d, false, 0) l = (d', false, 0) ∧ d'.Sound := by
  unfold Dev.readLine
  simp only [h.linePoison, (h.2 _).1]
  refine ⟨_, by simp; rfl, ?_⟩
  split
  · exact h
  · exact h.of_same rfl rfl

theorem Sound.readLines {d : Dev} (h : d.Sound) (who : MemAgent) (ls : List Nat) :
    ∃ d', ls.foldl (Dev.readLine who) (d, false, 0) = (d', false, 0) ∧ d'.Sound := by
  induction ls generalizing d with
  | nil => exact ⟨d, rfl, h⟩
  | cons l r ih =>
    obtain ⟨e, he, hs⟩ := h.readLine who l
    rw [List.foldl_cons, he]
    exact ih hs

theorem Sound.fmtCount {d : Dev} (h : d.Sound) (o b n : Nat) : (d.fmtCount o b n).Sound := by
  have hc : (d.count 0x0C8 o n).Sound := h.of_same rfl rfl
  exact Sound.ite h (Sound.ite hc (hc.of_same (err_signals _ _ _).poison (err_signals _ _ _).places))

/-- A read that has met nothing so far. -/
def Unmet (x : ReadOut × Dev × Bool) : Prop := x.1.trap = false ∧ x.1.poison = 0 ∧ x.2.1.Sound

theorem Unmet.readPart {x : ReadOut × Dev × Bool} (h : Unmet x) (who : MemAgent) (p : Nat × Nat) : Unmet (Dev.readPart who x p) := by
  obtain ⟨r, d, un⟩ := x
  obtain ⟨a, n⟩ := p
  obtain ⟨ht, hp, hs⟩ := h
  obtain ⟨e, he, hse⟩ := Sound.readLines hs who (linesOf a n)
  unfold Dev.readPart
  simp only at ht hp hs he ⊢
  split
  · exact ⟨ht, hp, hs⟩
  · split
    · exact ⟨ht, hp, hs⟩
    · split
      · split
        · exact ⟨ht, hp, hs⟩
        · exact ⟨ht, hp, hs⟩
      · exact ⟨ht, hp, hs.of_same rfl rfl⟩
  · exact ⟨ht, hp, hs⟩
  · rw [he]; exact ⟨ht, hp, hse⟩
  · rw [he]; exact ⟨ht, hp, hse⟩
  · rw [he]; exact ⟨by simp [ht], by simp [hp], hse.touch _⟩

/-- A read of sound memory meets neither a trap nor poison, and leaves it sound. -/
theorem Sound.read {d : Dev} (h : d.Sound) (who : MemAgent) (a n : Nat) :
    (d.read who a n).1.trap = false ∧ (d.read who a n).1.poison = 0 ∧ (d.read who a n).2.Sound := by
  have key (ps : List (Nat × Nat)) (x : ReadOut × Dev × Bool) (hx : Unmet x) : Unmet (ps.foldl (Dev.readPart who) x) := by
    induction ps generalizing x with
    | nil => exact hx
    | cons p r ih => exact ih _ (hx.readPart who p)
  obtain ⟨ht, hp, hs⟩ := key (pageParts a n) ({}, d, false) ⟨rfl, rfl, h⟩
  unfold Dev.read
  refine ⟨ht, hp, ?_⟩
  show Sound (if _ then _ else _)
  split
  · exact Sound.of_same hs (by unfold unmappedAccess; rw [(err_signals _ _ _).poison]; rfl)
      (by unfold unmappedAccess; rw [(err_signals _ _ _).places]; rfl)
  · exact hs

end Dev

namespace LRun

/-- A command under way over sound memory, which has met nothing and written nothing. -/
structure Fine (c : LCmd) (x : LRun) : Prop where
  cmd    : x.cmd = c
  outs   : x.outs = []
  stats  : x.stats = none
  fail   : x.fail = none
  trap   : x.trap = false
  poison : x.poison = 0
  sound  : x.d.Sound

variable {c : LCmd} {x : LRun}

theorem Fine.read (h : x.Fine c) (a n : Nat) : (x.read a n).2.Fine c := by
  have hs := h.sound.read (.engine (Fin.ofNat 4096 x.slot)) a n
  have e : x.read a n = ((x.d.read (.engine (Fin.ofNat 4096 x.slot)) a n).1.bytes,
      { x with d := (x.d.read (.engine (Fin.ofNat 4096 x.slot)) a n).2,
               poison := max x.poison (x.d.read (.engine (Fin.ofNat 4096 x.slot)) a n).1.poison,
               trap := x.trap || (x.d.read (.engine (Fin.ofNat 4096 x.slot)) a n).1.trap }) := by
    unfold LRun.read
    rw [h.fail]
    rfl
  rw [e]
  refine ⟨h.cmd, h.outs, h.stats, h.fail, ?_, ?_, hs.2.2⟩
  · show (x.trap || _) = false
    rw [h.trap, hs.1]
    rfl
  · show max x.poison _ = 0
    rw [h.poison, hs.2.1]
    rfl

theorem Fine.dev (h : x.Fine c) {d : Dev} (hp : d.poison = x.d.poison) (hq : d.places = x.d.places) : Fine c { x with d := d } :=
  ⟨h.cmd, h.outs, h.stats, h.fail, h.trap, h.poison, h.sound.of_same hp hq⟩

theorem Fine.input (h : x.Fine c) (n : Nat) : (x.input n).2.Fine c := by
  unfold LRun.input
  split
  · exact h
  · exact h.read _ _

theorem Fine.fcount (h : x.Fine c) (o b n : Nat) : (x.fcount o b n).Fine c :=
  ⟨h.cmd, h.outs, h.stats, h.fail, h.trap, h.poison, h.sound.fmtCount _ _ _⟩

/-- A command without bias and scale area reads nothing at AUX_PTR. -/
theorem Fine.aux (h : x.Fine c) (hb : c.bias = false) (ha : hasArea c = false) (a n : Nat) (dm : ScaleDims) :
    (x.aux a n dm).2.2 = x ∧ (x.aux a n dm).2.1.wMode = 0 ∧ (x.aux a n dm).2.1.iMode = 0 := by
  simp [LRun.aux, h.cmd, hb, ha]

/-- The bytes of FP32 elements: four each. -/
theorem packElems_fp32_length (l : List Nat) : (packElems 0 l).length = 4 * l.length := by
  show (l.flatMap fun x => bytesLE 4 x).length = 4 * l.length
  simp [List.length_flatMap, bytesLE, List.map_const', Nat.mul_comm]

/-- A matrix command without residual operand and statistics, whose FP32 outputs go row by row to direct SRAM, ends well. -/
theorem Fine.matOut (h : x.Fine c) (hr : c.resid = false) (hs : c.stat = false) (hf : c.fwdOut = false) (bias : List Word) (s : Scales)
    (m : Matrix) (n : Nat) (hn : m.rows * m.cols = n) (ho : c.fmtOut = 0) (hl : c.layOut = 0)
    (hd : ∀ p ∈ Dev.pageParts c.outPtr (4 * n), directSram p.1) : (x.matOut bias s m).EndsWell := by
  have key (y : LRun) (hy : y.Fine c) (vals : List Word) (hv : vals.length = n) : (y.finish m.rows m.cols vals).EndsWell := by
    unfold LRun.finish LRun.emit
    simp only [hy.cmd, hs, hf, ho, hl, Bool.false_eq_true, if_false, Bool.false_and, hy.outs]
    refine ⟨hy.fail, hy.trap, hy.poison, fun o hm p hp => ?_⟩
    simp only [Dev.statOut, hy.stats, List.nil_append, List.append_nil, List.mem_singleton] at hm
    subst hm
    refine hd p ?_
    simpa [layOut, packElems_fp32_length, hv] using hp
  unfold LRun.matOut
  simp only [h.cmd, hr, Bool.false_eq_true, if_false]
  exact key _ ((h.fcount _ _ _).fcount _ _ _) _ (by simp [hn])

theorem Fine.matClocks (h : x.Fine c) (m n k taps : Nat) (dw : Bool) : (x.matClocks m n k taps dw).Fine c :=
  ⟨h.cmd, h.outs, h.stats, h.fail, h.trap, h.poison, h.sound⟩

theorem Fine.cardPixels (h : x.Fine c) (rows width : Nat) : (x.cardPixels rows width).Fine c := by
  have key (f : Nat → Nat × Nat) (l : List Nat) (d : Dev) (hd : d.Sound) :
      (l.foldl (fun (d : Dev) i => d.countFrz 0x0C1 (f i).1 (f i).2) d).Sound := by
    induction l generalizing d with
    | nil => exact hd
    | cons q r ih => exact ih _ (Dev.Sound.ite hd (hd.of_same rfl rfl))
  exact ⟨h.cmd, h.outs, h.stats, h.fail, h.trap, h.poison, key (fun _ => (_, _)) _ _ h.sound⟩

/-- A matrix command as `Fine.matOut` takes it, without bias and scale area. -/
structure Plain (c : LCmd) : Prop where
  bias   : c.bias = false
  area   : hasArea c = false
  resid  : c.resid = false
  stat   : c.stat = false
  fwdOut : c.fwdOut = false
  fmt    : c.fmtOut = 0
  lay    : c.layOut = 0

/-- A GEMM over sound memory ends well. -/
theorem Fine.gemm (h : x.Fine c) (hc : Plain c)
    (hd : ∀ p ∈ Dev.pageParts c.outPtr (4 * (c.geom 31 0 * c.geom 63 32)), directSram p.1) : x.gemm.EndsWell := by
  unfold LRun.gemm
  simp only [h.cmd]
  generalize he : x.aux _ _ _ = r
  obtain ⟨hy, -, -⟩ := he ▸ h.aux hc.bias hc.area _ _ _
  obtain ⟨bias, s, y⟩ := r
  subst hy
  refine Fine.matOut ?_ hc.resid hc.stat hc.fwdOut _ _ _ _ rfl hc.fmt hc.lay hd
  split
  · exact ((h.input _).read _ _).fcount _ _ _
  · exact (((h.input _).read _ _).fcount _ _ _).matClocks _ _ _ _ _

/-- A convolution over sound memory of a geometry ends well. -/
theorem Fine.convolve (h : x.Fine c) (hc : Plain c) (g : ConvGeo) (el : Scales → Nat → Nat → FVal × Bool) (f : LRun → LRun)
    (hf : (f x).Fine c) (hd : ∀ p ∈ Dev.pageParts c.outPtr (4 * (g.ow * g.oh * g.co)), directSram p.1) :
    (x.convolve g el f).EndsWell := by
  unfold LRun.convolve
  simp only [h.cmd]
  generalize he : x.aux _ _ _ = r
  obtain ⟨hy, hw, hi⟩ := he ▸ h.aux hc.bias hc.area _ _ _
  obtain ⟨bias, s, y⟩ := r
  subst hy
  simp only at hw hi
  have hn : (!decide (c.op = 3) && (decide (s.wMode = 2) || decide (s.iMode = 2)) && decide (g.ci % 32 ≠ 0)) = false := by
    simp [hw, hi]
  simp only [hn, Bool.false_eq_true, if_false]
  refine Fine.matOut ?_ hc.resid hc.stat hc.fwdOut _ _ _ (g.ow * g.oh * g.co) rfl hc.fmt hc.lay hd
  split
  · exact ((hf.read _ _).fcount _ _ _).cardPixels _ _
  · exact ((hf.read _ _).fcount _ _ _).matClocks _ _ _ _ _

/-- CONV, DWCONV, and CARD_CONV of a tensor, over sound memory end well. -/
theorem Fine.conv (h : x.Fine c) (hc : Plain c) (g : ConvGeo) (hg : convGeo c (c.geom 15 0) (c.geom 31 16) = some g)
    (hd : ∀ p ∈ Dev.pageParts c.outPtr (4 * (g.ow * g.oh * g.co)), directSram p.1) : x.conv.EndsWell := by
  unfold LRun.conv
  simp only [h.cmd, hg]
  exact (h.input _).convolve hc g _ _ ((h.input _).fcount _ _ _) hd

end LRun

end Sys2Proof.Machine
end

