-- ==== Sys2Proof/WellFormed.lean ====
section
/-!
DEFINITION. Well-formed commands. The operands' types bound nearly everything; what they leave open is checked here: the lengths
of what a link, a bus or a sensor delivers. A meaning is total on ill-formed commands too; no claim need speak of them.
-/
namespace Sys2Proof

/-- A PCIe memory request: 1 to 4,096 bytes (R430), with one byte enable for each byte of a write (R33). -/
def Request.wf : Request → Bool
  | .read n => decide (1 ≤ n) && decide (n ≤ 4096)
  | .write data enables => decide (1 ≤ data.length) && decide (data.length ≤ 4096) && decide (enables.length = data.length)

/-- What a bus read delivers: at most 256 bytes (R105). -/
def BusResult.wf : BusResult → Bool
  | .data bytes | .pecError bytes => decide (bytes.length ≤ 256)
  | .nack | .timeout => true

/-- A grid period brings the bits of four data pins at each edge, at most 192 of each (R112, R114). -/
def GridSamples.wf (x : GridSamples) : Bool :=
  decide (x.rise.length = 4) && decide (x.fall.length = 4) && (x.rise ++ x.fall).all fun l => decide (l.length ≤ 192)

/-- A Kakan packet (R438): at most 4,064 payload bytes; LEN is the payload's length, or what a READ asks for. -/
def KPacket.wf (p : KPacket) : Bool :=
  decide (p.len ≤ 4064) &&
  match p.op with
  | .write | .readData | .sig => decide (1 ≤ p.len) && decide (p.payload.length = p.len)
  | .read => decide (1 ≤ p.len) && p.payload.isEmpty
  | .ack | .nakRoute => p.payload.isEmpty

/-- A flit that carries a packet carries a well-formed one (R438). -/
def FlitKind.wf : FlitKind → Bool
  | .data p => p.wf
  | .ack _ | .idle => true

/-- The bytes of an access to Skein: at least one, and none beyond the 48-bit range (R265). -/
def skeinRangeWf (addr len : Nat) : Bool := decide (1 ≤ len) && decide (addr + len ≤ 2 ^ 48)

/-- A well-formed command. -/
def Instr.wf : Instr → Bool
  | .bar0Request _ _ req _ | .bar2Request _ _ req _ => req.wf
  | .gridBoundary x => x.wf
  | .tofReadDone b | .imuReadDone b | .i3cTransferDone b | .packReadDone b => b.wf
  | .whorlStoreWrite _ _ off data => decide (1 ≤ data.length) && decide (off.val + data.length ≤ 0x40000)
  | .skeinRead _ addr len _ => skeinRangeWf addr.toNat len
  | .skeinWrite _ addr data => skeinRangeWf addr.toNat data.length
  | .thermalSample temps => decide (temps.length = 16) && temps.all fun t => decide (-2 ^ 15 ≤ t) && decide (t < 2 ^ 15)
  | .flitReceive _ _ f _ => f.wf
  | .kakanWrite p | .kakanRedWrite p | .kakanSig p | .kakanRead p | .kakanReadData p | .kakanAck p | .kakanNakRoute p => p.wf
  | _ => true

end Sys2Proof
end

