-- ==== Sys2Proof/Tests/Slice0.lean ====
section
/-!
SUPPORT. The model's own tests: the checks of WellFormed with a command that each refuses, and for each statement of the obligations
a concrete state that meets the premises of each clause, with what the command leaves there. Each is one step on a small state; what
it expects is worked out by hand from the rule that the statement cites.
-/
namespace Sys2Proof.Tests

open Sys2Proof.Machine

set_option Elab.async false

/-- The state after one command; the state itself where there is none. -/
def after (c : Instr) (s : State) : State :=
  match exec c s with
  | .next t => t
  | .fault _ | .refused _ => s

/-- The reset state with another device. -/
def on (d : Dev) : State := { State.reset with dev := d }

/-- Page `p` claimed by Port A. -/
def own (p : Nat) (d : Dev) : Dev := d.setField p 0x024 9 8 1

/-- Page `p` in STATUS.STATE `v`. -/
def paged (p v : Nat) (d : Dev) : Dev := d.setPageState p v

/-- Registers of page `p` set. -/
def with_ (p : Nat) (l : List (Nat × Word)) (d : Dev) : Dev := l.foldl (fun d e => d.setReg p e.1 e.2) d

/-- Region `r` in RUN. -/
def runs (r : Nat) (d : Dev) : Dev := d.setRegion r { st := .run }

/-! ## WellFormed: a command that each check refuses, beside one at its bound -/

theorem test_wf_request :
    (Instr.bar0Request .a 0 (.read 0) false).wf = false ∧ (Instr.bar0Request .a 0 (.read 4097) false).wf = false ∧
      (Instr.bar2Request .a 0 (.write [] []) false).wf = false ∧ (Instr.bar2Request .a 0 (.write [1, 2] [true]) false).wf = false ∧
      (Instr.bar2Request .a 0 (.write (List.replicate 4097 0) (List.replicate 4097 true)) false).wf = false ∧
      (Instr.bar2Request .a 0 (.read 4096) false).wf = true := by decide +kernel

theorem test_wf_grid :
    let none_ : List (List Bool) := List.replicate 4 []
    let long (n : Nat) : List (List Bool) := List.replicate n false :: List.replicate 3 []
    (Instr.gridBoundary { rise := List.replicate 3 [], fall := none_ }).wf = false ∧
      (Instr.gridBoundary { rise := none_, fall := List.replicate 5 [] }).wf = false ∧
      (Instr.gridBoundary { rise := long 193, fall := none_ }).wf = false ∧
      (Instr.gridBoundary { rise := long 192, fall := long 192 }).wf = true := by decide +kernel

theorem test_wf_bus :
    (∀ f ∈ [Instr.tofReadDone, .imuReadDone, .i3cTransferDone, .packReadDone], (f (.data (List.replicate 257 0))).wf = false) ∧
      (Instr.packReadDone (.data (List.replicate 256 0))).wf = true := by decide +kernel

theorem test_wf_store :
    (Instr.whorlStoreWrite .producer 0 0 []).wf = false ∧ (Instr.whorlStoreWrite .producer 0 0x3FFFF [1, 2]).wf = false ∧
      (Instr.whorlStoreWrite .producer 0 0x3FFFF [1]).wf = true := by decide +kernel

theorem test_wf_skein :
    (Instr.skeinRead .producer 0 0 .clean).wf = false ∧ (Instr.skeinRead .producer 0xFFFFFFFFFFFF 2 .clean).wf = false ∧
      (Instr.skeinWrite .producer 0 []).wf = false ∧ (Instr.skeinWrite .producer 0xFFFFFFFFFFFF [1, 2]).wf = false ∧
      (Instr.skeinWrite .producer 0xFFFFFFFFFFFF [1]).wf = true := by decide +kernel

theorem test_wf_temps :
    (Instr.thermalSample (List.replicate 15 0)).wf = false ∧ (Instr.thermalSample (List.replicate 16 32768)).wf = false ∧
      (Instr.thermalSample (List.replicate 16 (-32769))).wf = false ∧ (Instr.thermalSample (List.replicate 16 (-32768))).wf = true := by
  decide +kernel

theorem test_wf_packet :
    let p (op : KOp) (n m : Nat) : KPacket :=
      { op := op, vc := 0, src := 0, dst := 0, offset := 0, tag := 0, len := n, payload := List.replicate m 0 }
    (Instr.flitReceive 0 0 (.data (p .write 0 0)) .good).wf = false ∧ (Instr.kakanWrite (p .write 4065 4065)).wf = false ∧
      (Instr.kakanWrite (p .write 2 1)).wf = false ∧ (Instr.kakanRedWrite (p .write 2 3)).wf = false ∧
      (Instr.kakanSig (p .sig 4 3)).wf = false ∧ (Instr.kakanRead (p .read 1 1)).wf = false ∧ (Instr.kakanRead (p .read 0 0)).wf = false ∧
      (Instr.kakanReadData (p .readData 1 0)).wf = false ∧ (Instr.kakanAck (p .ack 0 1)).wf = false ∧
      (Instr.kakanNakRoute (p .nakRoute 0 1)).wf = false ∧ (Instr.kakanWrite (p .write 4064 4064)).wf = true := by decide +kernel

/-! ## 02 Register pages -/

theorem test_step_front : step { State.reset with pending := [.claim .portA 0x0C0, .wakeNArm] } =
    exec (.claim .portA 0x0C0) { State.reset with pending := [.wakeNArm] } := rfl

theorem test_step_idle : step State.reset = .next State.reset := rfl

theorem test_no_power : (on { power := .off : Dev }).dev.power ≠ .on ∧
    after (.claim .portA 0x0C0) (on { power := .off }) = on { power := .off } := by decide +kernel

theorem test_register_write : (on {}).Powered ∧ pageKind 0x0D0 ≠ .unassigned ∧ (on {}).dev.absentPage 0x0D0 = false ∧
    (after (.registerWrite .portA ⟨0x0D0, 6⟩ 0x80000005 15) (on {})).dev.reg 0x0D0 0x018 = 0x80000005 := by decide +kernel

/-- The upper byte alone is enabled. -/
theorem test_register_write_bytes :
    (after (.registerWrite .portA ⟨0x0D0, 6⟩ 0xAABBCCDD 8) (on {})).dev.reg 0x0D0 0x018 = 0xAA000000 := by decide +kernel

theorem test_register_read_clear :
    let s := on (with_ 0x0D0 [(0x020, 7)] {})
    s.Powered ∧ s.dev.absentPage 0x0D0 = false ∧ (after (.registerReadClear .portA 0x0D0) s).dev.bus = .data [7] ∧
      (after (.registerReadClear .portA 0x0D0) s).dev.reg 0x0D0 0x020 = 0 := by decide +kernel

theorem test_bar0_read :
    let s := on (({} : Dev).setFlag 0x150 0x040 0 true |> with_ 0x0D0 [(0x018, 5)])
    s.Powered ∧ s.dev.absentPage 0x0D0 = false ∧ s.dev.portUp .a = true ∧ s.dev.flag 0x150 0x040 12 = false ∧
      (after (.bar0Request .a 0xD0018 (.read 4) false) s).dev.bus = .data [5] := by decide +kernel

/-- The pair SNAP_POS of Reel: its high half is kept when its low half is read. -/
theorem test_pair_lo_read :
    let s := on (with_ 0x018 [(0x080, 5), (0x084, 9)] {})
    let t := after (.pairLoRead .portA ⟨0x018, 0x20⟩) s
    s.Reaches 0x018 ∧ pageKind 0x018 ≠ .unassigned ∧ s.dev.readEffect 0x018 0x080 = none ∧ (rowOf (pageKind 0x018) 0x080).hi ≠ 0 ∧
      t.dev.bus = .data [5] ∧ Sparse.get (fun _ => none) t.dev.latched (latchKey .portA 0x018 0x084) = some 9 := by decide +kernel

theorem test_pair_lo_write :
    let s := on (own 0x0D1 {})
    let t := after (.pairLoWrite .portA ⟨0x0D1, 0x10⟩ 0x1234) s
    s.Admits .portA 0x0D1 ∧ s.dev.writeRefused 0x0D1 0x040 = none ∧ pairLo (pageKind 0x0D1) 0x040 = true ∧
      t.dev.agentReg .portA 0x0D1 0x040 = 0x1234 ∧ t.dev.reg 0x0D1 0x040 = s.dev.reg 0x0D1 0x040 := by decide +kernel

theorem test_pair_hi_write :
    let s := on (runs 64 {})
    let t := after (.pairHiWrite .portA ⟨0x067, 0x15⟩ 0xABCD1234) (after (.pairLoWrite .portA ⟨0x067, 0x14⟩ 0x55AA0000) s)
    s.Reaches 0x067 ∧ t.dev.reg 0x067 0x054 = 0x1234 ∧ t.dev.reg 0x067 0x050 = 0x55AA0000 := by decide +kernel

theorem test_page_enable :
    let s := on (own 0x0C0 {})
    let t := after (.pageEnable .portA 0x0C0) s
    s.Powered ∧ (pageKind 0x0C0).hasEn = true ∧ s.dev.absentPage 0x0C0 = false ∧ s.dev.claimedBy .portA 0x0C0 = true ∧
      s.dev.idlePage 0x0C0 = true ∧ t.dev.running 0x0C0 = true ∧ t.dev.flag 0x00C0 0x00C 0 = true := by decide +kernel

theorem test_page_enable_from_disabled :
    let s := on (own 0x0C0 (paged 0x0C0 4 {}))
    s.dev.idlePage 0x0C0 = true ∧ (after (.pageEnable .portA 0x0C0) s).dev.running 0x0C0 = true := by decide +kernel

theorem test_page_disable :
    let s := on (own 0x0C0 (paged 0x0C0 1 (with_ 0x0C0 [(0x00C, 1)] {})))
    let t := after (.pageDisable .portA 0x0C0) s
    s.dev.running 0x0C0 = true ∧ s.dev.claimedBy .portA 0x0C0 = true ∧ t.dev.pageState 0x0C0 = 4 ∧ t.dev.flag 0x0C0 0x00C 0 = false := by
  decide +kernel

/-- A page that is ACTIVE drains. -/
theorem test_page_disable_active :
    let s := on { own 0x0C0 (paged 0x0C0 2 (with_ 0x0C0 [(0x00C, 1)] {})) with loom := { slot := some 3 } }
    (after (.pageDisable .portA 0x0C0) s).dev.pageState 0x0C0 = 3 := by decide +kernel

/-- A pending enable of a disabled page is cancelled. -/
theorem test_page_disable_pending :
    let s := on (own 0x0C0 (with_ 0x0C0 [(0x00C, 1), (0x010, 0x14)] {}))
    let t := after (.pageDisable .portA 0x0C0) s
    s.dev.pageState 0x0C0 = 4 ∧ s.dev.flag 0x0C0 0x010 4 = true ∧ t.dev.pageState 0x0C0 = 4 ∧ t.dev.flag 0x0C0 0x010 4 = false := by
  decide +kernel

theorem test_soft_reset :
    let s := on (own 0x0C0 (paged 0x0C0 4 {}))
    s.dev.idlePage 0x0C0 = true ∧ (after (.softReset .portA 0x0C0) s).dev.pageState 0x0C0 = 0 := by decide +kernel

theorem test_freeze :
    let s := on (own 0x0C0 {})
    (after (.freeze .portA 0x0C0 true) s).dev.frozen 0x0C0 = true ∧
      (after (.freeze .portA 0x0C0 false) (after (.freeze .portA 0x0C0 true) s)).dev.frozen 0x0C0 = false := by decide +kernel

theorem test_pending_enable :
    let s := on (with_ 0x0C0 [(0x00C, 1), (0x010, 0x14)] {})
    s.Powered ∧ s.dev.pageState 0x0C0 = 4 ∧ s.dev.flag 0x0C0 0x010 4 = true ∧
      (after (.pendingEnable 0x0C0) s).dev.running 0x0C0 = true := by decide +kernel

theorem test_claim_free :
    let t := after (.claim (.spindle 15) 0x0C0) (on (with_ 0x0C0 [(0x024, 0xFF0000)] {}))
    (on {}).dev.field 0x0C0 0x024 9 8 = 0 ∧ t.dev.claimedBy (.spindle 15) 0x0C0 = true ∧ t.dev.field 0x0C0 0x024 23 16 = 0 := by
  decide +kernel

theorem test_claim_held :
    let s := on (own 0x0C0 {})
    s.dev.field 0x0C0 0x024 9 8 ≠ 0 ∧ after (.claim .portB 0x0C0) s = s := by decide +kernel

theorem test_release :
    let s := on (own 0x0C0 {})
    s.dev.claimedBy .portA 0x0C0 = true ∧ (after (.release .portA 0x0C0) s).dev.field 0x0C0 0x024 9 8 = 0 := by decide +kernel

/-- Port B's field takes its code; a code above 4 counts as 0. -/
theorem test_vote :
    let t := after (.voteWrite .portB 0x200 0x00000041) (on {})
    (pageKind 0x200).hasVote = true ∧ (on {}).dev.absentPage 0x200 = false ∧ t.dev.field 0x200 0x028 3 0 = 0 ∧
      t.dev.field 0x200 0x028 7 4 = 4 ∧ (after (.voteWrite .portB 0x200 0x50) t).dev.field 0x200 0x028 7 4 = 0 := by decide +kernel

theorem test_sem_take :
    let t := after (.semTake (.spindle 3) 63) (on {})
    (on {}).dev.semHeld 63 = false ∧ t.dev.semHeldBy (.spindle 3) 63 = true ∧
      t.dev.field 0x001 (Dev.semOff 63) 23 16 = 1 ∧ after (.semTake .portA 63) t = t := by decide +kernel

theorem test_sem_give :
    let s := after (.semTake .portA 33) (on {})
    s.dev.semHeldBy .portA 33 = true ∧ (after (.semGive .portA 33) s).dev.semHeld 33 = false ∧
      (after (.semGive .portA 33) s).dev.flag 0x001 0x14C 1 = true ∧
      (after (.semGive .portB 33) s).dev.semHeld 33 = true ∧ (after (.semGive .portB 33) s).dev.flag 0x001 0x014 0 = true := by
  decide +kernel

theorem test_sem_force :
    let s := after (.semTake .portA 0) (on {})
    (after (.semForce 0 1) s).dev.semHeld 0 = false ∧ after (.semForce 0 2) s = s ∧
      after (.semForce 1 0) s = s := by decide +kernel

theorem test_port_release :
    let s := on { (after (.semTake .portA 5) (on {})).dev with released := [(.a, 0)], now := 1000 }
    (Port.a, 0) ∈ s.dev.released ∧ s.dev.semHeldBy .portA 5 = true ∧
      (after (.portRelease .a) s).dev.semHeldBy .portA 5 = false := by decide +kernel

/-! Clauses of RegisterAccesses: what a write that has no effect, a denied one and one of a sleeping page do (R3, R35, R36, R50). -/

/-- An unassigned page, an absent one, and a word behind the last entry of the stream table. -/
theorem test_write_nothing :
    let s := on (runs 64 {})
    pageKind 0x006 = .unassigned ∧ s.dev.absentPage 0x15A = true ∧ s.Reaches 0x066 ∧ implemented 0x066 0x140 = false ∧
      [(⟨0x006, 0x10⟩ : RegAddr), ⟨0x15A, 0x10⟩, ⟨0x066, 0x50⟩].all fun r =>
        after (.registerWrite .portA r 5 15) s = { s with dev := s.dev.answer .done } := by decide +kernel

theorem test_write_asleep :
    let s := on {}
    let t := after (.registerWrite .portA ⟨0x060, 0x10⟩ 5 1) s
    s.dev.asleep 0x060 = true ∧ s.dev.absentPage 0x060 = false ∧ t.dev.flag 0x060 0x014 30 = true ∧ t.dev.reg 0x060 0x040 = s.dev.reg 0x060 0x040 := by
  decide +kernel

/-- PLC_ATTR needs the claim; Port A does not hold it. -/
theorem test_write_denied :
    let s := on {}
    let t := after (.registerWrite .portA ⟨0x0D1, 0x13⟩ 5 1) s
    s.Reaches 0x0D1 ∧ implemented 0x0D1 0x04C = true ∧
      BitVec.ofNat 32 (rwlBits (pageKind 0x0D1) 0x04C) &&& byteMask 1 ≠ 0 ∧ s.dev.claimedBy .portA 0x0D1 = false ∧
      t.dev.flag 0x0D1 0x014 31 = true ∧ t.dev.reg 0x0D1 0x04C = s.dev.reg 0x0D1 0x04C := by decide +kernel

/-- PLC_ATTR only stores; the byte that is not enabled keeps its value. -/
theorem test_write_stores :
    let s := on (own 0x0D1 {})
    let t := after (.registerWrite .portA ⟨0x0D1, 0x13⟩ 0x00001248 1) s
    s.Takes .portA 0x0D1 0x04C ∧ storesOnly 0x0D1 0x04C = true ∧
      t.dev.reg 0x0D1 0x04C = fieldsWritten (pageKind 0x0D1) 0x04C (s.dev.reg 0x0D1 0x04C) 0x00001248 1 ∧
      bits (t.dev.reg 0x0D1 0x04C) 15 8 = bits (s.dev.reg 0x0D1 0x04C) 15 8 := by decide +kernel

theorem test_write_err_sum :
    let s := on (with_ 0x0D0 [(0x014, 0x80000007)] {})
    (after (.registerWrite .portA ⟨0x0D0, 5⟩ 0x80000001 1) s).dev.reg 0x0D0 0x014 = 0x80000006 := by decide +kernel

/-- Writes that are commands of the table: a vote, a claim, a TAKE and ARM. -/
theorem test_write_commands :
    let s := on (own 0x041 {})
    (⟨0x0C0, 9⟩, Instr.claim .portA 0x0C0) ∈ headerCommands .portA 0x0C0 1 ∧
      (⟨0x041, 0x044 / 4⟩, Instr.haltArm .portA 1) ∈ registerCommands .portA 1 ∧ s.Takes .portA 0x041 0x044 ∧
      (after (.registerWrite .portA ⟨0x0C0, 9⟩ 1 15) s).dev.claimedBy .portA 0x0C0 = true ∧
      after (.registerWrite .portA ⟨0x041, 0x11⟩ 1 15) s =
        { after (.haltArm .portA 1) s with dev := (after (.haltArm .portA 1) s).dev.answer .done } := by decide +kernel

/-- BAR0: two words read, one byte written, a request that crosses a page, and one of 65 bytes. -/
theorem test_bar0 :
    let s := on ((({} : Dev).setFlag 0x150 0x040 0 true |> with_ 0x0D0 [(0x018, 5), (0x01C, 6)]))
    let w := after (.bar0Request .a 0xD0019 (.write [0xAB] [true]) false) s
    s.dev.Bar0Open .a ∧ (after (.bar0Request .a 0xD0018 (.read 8) false) s).dev.bus = .data [5, 6] ∧
      w.dev.reg 0x0D0 0x018 = 0xAB05 ∧ w.dev.bus = .done ∧
      (after (.bar0Request .a 0xD0FFC (.read 8) false) s).dev.bus = .unsupported ∧
      (after (.bar0Request .a 0xD0000 (.read 65) false) s).dev.bus = .unsupported := by decide +kernel

theorem test_bar0_plain : (on (({} : Dev).setFlag 0x150 0x040 0 true)).ReadsPlain .portA 0x0D0 0x018 := by decide +kernel

/-- A HI half that its agent has latched is read from there, once. -/
theorem test_pair_hi_latched :
    let s := after (.pairLoRead .portA ⟨0x018, 0x20⟩) (on (with_ 0x018 [(0x080, 5), (0x084, 9)] {}))
    let t := after (.pairLoRead .portA ⟨0x018, 0x21⟩) s
    (rowOf (pageKind 0x018) 0x084).hi = 0 ∧ s.dev.readEffect 0x018 0x084 = none ∧
      Sparse.get (fun _ => none) s.dev.latched (latchKey .portA 0x018 0x084) = some 9 ∧ t.dev.bus = .data [9] ∧
      Sparse.get (fun _ => none) t.dev.latched (latchKey .portA 0x018 0x084) = none := by decide +kernel

/-- The commits of POS, TGT, LEND_EN and a push. -/
theorem test_pair_commits :
    let p := after (.pairHiWrite .portA ⟨0x01A, 0x47⟩ 1) (after (.pairLoWrite .portA ⟨0x01A, 0x46⟩ 5) (on (own 0x01A {})))
    let l := after (.pairHiWrite .portA ⟨0x0D4, 0x11⟩ 3) (after (.pairLoWrite .portA ⟨0x0D4, 0x10⟩ 5) (on (own 0x0D4 {})))
    (0x01A, 0x11C) = reelReg 7 0x1C ∧ p.dev.reelPos 7 = 0x100000005 ∧ pairCommits (pageKind 0x01A) 0x11C = true ∧
      l.dev.reg 0x0D4 0x044 = 3 ∧ l.dev.reg 0x0D4 0x040 = 5 ∧ (on (own 0x0D4 {})).Admits .portA 0x0D4 ∧
      (List.range 64).all (fun n => (on (own 0x0D4 {})).dev.lent n = false) ∧ pairCommits (pageKind 0x037) 0x084 = true ∧
      Dev.markBase 31 + 8 = 0x428 ∧ pairCommits (pageKind 0x067) 0x054 = false ∧ pairHi (pageKind 0x067) 0x054 = true := by
  decide +kernel

/-- EN = 1 on a running page, in DRAINING and in FAULT; EN = 0 in FAULT and in DRAINING; SRST refused (R37, R39). -/
theorem test_page_other_states :
    let s (v : Nat) := on (own 0x0C0 (paged 0x0C0 v {}))
    let en (v : Nat) := after (.pageEnable .portA 0x0C0) (s v)
    (s 1).dev.running 0x0C0 = true ∧ (en 1).dev.pageState 0x0C0 = 1 ∧ (en 3).dev.pageState 0x0C0 = 3 ∧
      (en 3).dev.flag 0x0C0 0x010 4 = true ∧ (en 5).dev.pageState 0x0C0 = 5 ∧ (en 5).dev.flag 0x0C0 0x014 29 = true ∧
      (after (.pageDisable .portA 0x0C0) (s 5)).dev.pageState 0x0C0 = 4 ∧
      (after (.pageDisable .portA 0x0C0) (en 3)).dev.flag 0x0C0 0x010 4 = false ∧
      after (.softReset .portA 0x0C0) (s 1) = { s 1 with dev := (s 1).dev.err 0x0C0 29 } := by decide +kernel

theorem test_port_release_claim :
    let s := on { (own 0x0C0 {}).setField 0x200 0x028 3 0 2 with released := [(.a, 0)], now := 1000 }
    s.dev.claimedBy .portA 0x0C0 = true ∧ (after (.portRelease .a) s).dev.claimedBy .portA 0x0C0 = false ∧
      (after (.portRelease .a) s).dev.field 0x200 0x028 3 0 = 0 := by decide +kernel
/-! ## 01 The cascade -/

/-- A wake request of stream `n`. -/
def wakeReq (n score : Nat) : WakeReq := { src := 9, score := score, stream := n, kind := 0, reelCh := 0, pos := 0, at_ := 0 }

/-- RING0 READY with LIMIT 8. -/
def escRing (d : Dev) : Dev := paged 0x100 1 (with_ 0x100 [(0x044, 8)] d)

theorem test_wake_merges :
    let s := on (({ wakes := [wakeReq 255 70, wakeReq 3 1] } : Dev).setEpisode 255 { st := .verify, score := 60 })
    let t := after .wakeRequestArrival s
    s.Powered ∧ (s.dev.episode 255).st ≠ .quiet ∧ t.dev.wakes = [wakeReq 3 1] ∧ t.dev.tasks = s.dev.tasks ∧
      t.dev.episode 255 = { st := .verify, score := 70, merged := true } := by decide +kernel

theorem test_wake_submits :
    let s := on (escRing { wakes := [wakeReq 255 70] })
    let t := after .wakeRequestArrival s
    s.Powered ∧ (s.dev.episode 255).st = .quiet ∧ s.dev.submitResult 0 = 0 ∧ t.dev.wakes = [] ∧ t.dev.reg 0x100 0x064 = 1 := by
  decide +kernel

theorem test_pre_window :
    let s := on ((paged 0x067 1 { now := 5 }).setEpisode 0 { st := .pre, voted := true, deadline := 5 })
    let t := after (.preWindowExpiry 0) s
    s.dev.running 0x067 = true ∧ s.dev.frozen 0x067 = false ∧ (s.dev.episode 0).st = .pre ∧ (s.dev.episode 0).deadline ≤ s.dev.now ∧
      (t.dev.episode 0).st = .verify ∧ (t.dev.episode 0).voted = false ∧ t.dev.reg 0x067 0x070 = 1 := by decide +kernel

/-- The handoff ring at 0x100_0400_0200, WR = 15. -/
theorem test_handoff_write :
    let x : Escalation := { stream := 7, slot := 3, score := 200, seq := some 0x11, at_ := 0, snapped := true }
    let s := on (escRing (paged 0x067 1 (with_ 0x067 [(0x050, 0x04000200), (0x054, 0x100), (0x058, 0x80F)] { escs := [x] })))
    let t := after (.handoffWrite 7) s
    s.Powered ∧ s.dev.running 0x067 = true ∧ spanOf (s.dev.hoAddr 3) = .aon ∧ s.dev.CanServe (fun d => d.handoffWrite 7) ∧ t.dev.escs = [] ∧ t.dev.hoWr = 0 ∧ t.dev.hoRd = 8 ∧
      t.dev.bytes (s.dev.hoAddr 3) 60 = s.dev.handoffBody x 0x11 := by decide +kernel

theorem test_ho_wait_resume :
    let s := on (({ } : Dev).setStream 255 { hold := some (77, none, 5) } |> fun d => d.setSstate 255 6)
    let t := after (.hoWaitResume 255) s
    s.Powered ∧ (s.dev.stream 255).hold = some (77, none, 5) ∧ s.dev.sstate 255 = 6 ∧ s.dev.hoUsed < 8 ∧ t.dev.sstate 255 = 1 ∧
      (t.dev.stream 255).hold = none ∧ t.dev.hoUsed = s.dev.hoUsed + 1 ∧ (t.dev.escs.map fun x => (x.stream, x.score, x.at_)) = [(255, 77, 5)] := by
  decide +kernel

/-- WR = 2, RD = 0: RD may go to 2 and not to 3. -/
theorem test_ho_ptr :
    let s := on (runs 64 (with_ 0x067 [(0x058, 2)] {}))
    let t := after (.hoPtrWrite .portA 0x200) s
    let u := after (.hoPtrWrite .portA 0x300) s
    s.Reaches 0x067 ∧ t.dev.hoRd = 2 ∧ t.dev.hoWr = 2 ∧ u.dev.hoRd = 0 ∧ u.dev.hoWr = 2 ∧ u.dev.flag 0x067 0x014 1 = true := by
  decide +kernel

/-- A request that RING0 has no room for is dropped and counted. -/
theorem test_wake_dropped :
    let s := on (paged 0x100 1 (with_ 0x100 [(0x044, 0)] { wakes := [wakeReq 255 70] }))
    let t := after .wakeRequestArrival s
    (s.dev.episode 255).st = .quiet ∧ s.dev.submitResult 0 ≠ 0 ∧ t.dev.reg 0x100 0x094 = 1 ∧ t.dev.wakes = [] ∧ t.dev.tasks = s.dev.tasks := by
  decide +kernel
/-! ## 03 Reel -/

/-- A forward edge of A, then a backward one. -/
theorem test_encoder_edge :
    let s := on {}
    let t := after (.encoderEdge 3 true false) s
    let u := after (.encoderEdge 3 false false) t
    s.Powered ∧ s.dev.pkg = .rm ∧ s.dev.NoMarks ∧ (true ≠ (s.dev.encoder 3).a ↔ false = (s.dev.encoder 3).b) ∧
      s.dev.field 0x018 0x04C 9 8 = 0 ∧ s.dev.flag 0x018 0x04C 10 = false ∧ (t.dev.encoder 3).net = 1 ∧ (u.dev.encoder 3).net = 0 := by
  decide +kernel

theorem test_encoder_illegal :
    let t := after (.encoderEdge 0 true true) (on {})
    (t.dev.encoder 0).a = true ∧ (t.dev.encoder 0).b = true ∧ (t.dev.encoder 0).net = 0 := by decide +kernel

theorem test_encoder_tc : after (.encoderEdge 0 true false) (on { pkg := .tc }) = on { pkg := .tc } := by decide +kernel

theorem test_zc_crossing :
    let s := on { now := 9 }
    let t := after (.zcCrossing true) s
    s.Powered ∧ s.dev.NoMarks ∧ t.dev.zc = { any := true, last := 9, lost := false } := by decide +kernel

/-- A crossing less than MIN after the last one is ignored, one MIN after it is accepted. -/
theorem test_zc_min :
    let s := on (with_ 0x018 [(0x054, 0x2000)] { now := 1999, zc := { any := true } })
    after (.zcCrossing true) s = s ∧
      (after (.zcCrossing true) { s with dev := { s.dev with now := 2000 } }).dev.zc.last = 2000 := by decide +kernel

theorem test_zc_timeout :
    let s := on (with_ 0x018 [(0x054, 0x05000000)] { now := 5000 })
    s.Powered ∧ s.dev.zc.last + 1000 * s.dev.field 0x018 0x054 31 24 ≤ s.dev.now ∧ (after .zcTimeout s).dev.zc.lost = true := by
  decide +kernel

/-- Channel 7 of source TIME. -/
theorem test_channel_enable :
    let s := on (own 0x01A {})
    let t := after (.channelEnable .portA 7) s
    s.Admits .portA (reelReg 7 0).1 ∧ s.dev.NoMarks ∧ s.dev.rstate 7 = 0 ∧ t.dev.renabled 7 = true ∧ t.dev.rstate 7 = 1 := by
  decide +kernel

/-- A camera channel that never counted is lost: HELD with LOSS = 0. -/
theorem test_channel_enable_lost :
    let s := on (own 0x019 (with_ 0x019 [(0x040, 0x10)] { now := 1000000 }))
    let t := after (.channelEnable .portA 0) s
    s.dev.srcLost 0 = true ∧ t.dev.rstate 0 = 3 := by decide +kernel

theorem test_channel_disable :
    let s := on (own 0x019 (with_ 0x019 [(0x040, 1), (0x054, 1), (0x058, 77)] {}))
    let t := after (.channelDisable .portA 0) s
    s.Admits .portA (reelReg 0 0).1 ∧ t.dev.renabled 0 = false ∧ t.dev.rstate 0 = 0 ∧ t.dev.reelPos 0 = 77 := by decide +kernel

theorem test_channel_recover :
    let s := on ((own 0x019 (with_ 0x019 [(0x040, 1), (0x054, 3)] {})).setReel 0 { validRun := 1 })
    let t := after (.channelRecover .portA 0) s
    s.Admits .portA (reelReg 0 0).1 ∧ s.dev.NoMarks ∧ s.dev.renabled 0 = true ∧ s.dev.rstate 0 = 3 ∧ 1 ≤ (s.dev.reel 0).validRun ∧
      s.dev.srcLost 0 = false ∧ s.dev.overspeed 0 = false ∧ t.dev.rstate 0 = 1 := by decide +kernel

/-- 2^26 units of 2⁻²⁴ in a window of 4 ms are 4 counts, 1,000 a second. -/
theorem test_rate_window :
    let s := on (({ now := 4000 } : Dev).setReel 2 { units := 2 ^ 26 })
    let t := after (.rateWindowEnd 2) s
    s.Powered ∧ s.dev.NoMarks ∧ (s.dev.reel 2).opened + 1000 * s.dev.rateWin 2 ≤ s.dev.now ∧ t.dev.rword 2 0x20 = 1000 ∧
      (t.dev.reel 2).units = 0 ∧ (t.dev.reel 2).opened = 4000 := by decide +kernel

theorem test_stall :
    let s := on (with_ 0x019 [(0x040, 0x11), (0x054, 1)] { now := 1000000 })
    let t := after (.stallTmoExpiry 0) s
    s.Powered ∧ 8 ≤ s.dev.rsrc 0 ∧ s.dev.rsrc 0 < 0x10 ∧ s.dev.stalled 0 = true ∧ s.dev.rstate 0 = 1 ∧ t.dev.rstate 0 = s.dev.lossState 0 ∧
      bit (t.dev.reelStat 0) 5 = true := by decide +kernel

theorem test_snap :
    let s := on (with_ 0x01A [(0x118, 5), (0x11C, 0x10)] {})
    let t := after (.snapTake .portB) s
    s.Reaches 0x018 ∧ s.dev.reelPos 7 = 0x1000000005 ∧ t.dev.pair48 0x018 0x0B8 = 0x1000000005 := by decide +kernel

/-- MARK 31 on channel 0, which is OFF. -/
theorem test_mark_arm :
    let s := on (own 0x01B { now := 3 })
    let t := after (.markArm .portA 31 (.control 1)) s
    s.Admits .portA 0x01B ∧ s.dev.markOwner 31 = none ∧ s.dev.reelStale 0 = true ∧ t.dev.mfield 31 0 0 0 = 1 ∧ t.dev.armedAt 31 = 3 := by
  decide +kernel

theorem test_mark_target :
    let s := after (.pairLoWrite .portA ⟨0x01B, 0x11⟩ 5) (on (own 0x01B { now := 3 }))
    let t := after (.markArm .portA 0 (.target 0x10001)) s
    s.Admits .portA 0x01B ∧ s.dev.markOwner 0 = none ∧ s.dev.reelStale (s.dev.mfield 0 0 3 1) = true ∧ t.dev.markTgt 0 = 0x100000005 := by
  decide +kernel

/-- MARK 28 belongs to delay list 0. -/
theorem test_mark_owned :
    let s := on (own 0x0E2 (own 0x01B {}))
    let s := after (.dlEnable .portA 0) s
    let t := after (.markArm .portA 28 (.control 0)) s
    (s.dev.markOwner 28).isSome = true ∧ t.dev.flag 0x01B 0x014 1 = true ∧ t.dev.mfield 28 0 0 0 = s.dev.mfield 28 0 0 0 := by
  decide +kernel

theorem test_mark_floor :
    let s := on (with_ 0x01B [(0x040, 1), (0x050, 1)] { now := 1000000 })
    let t := after (.markFloorExpiry 0) s
    s.Powered ∧ s.dev.mfield 0 0 0 0 = 1 ∧ s.dev.floorDue 0 = true ∧ s.dev.markOwner 0 = none ∧ s.dev.mfield 0 0 10 8 = 0 ∧
      s.dev.frozen 0x01B = false ∧ t.dev.flag 0x01B 0x440 0 = true ∧ t.dev.armedAt 0 = 1000000 ∧ t.dev.mfield 0 0x14 23 0 = 1 ∧
      2 ≤ t.dev.mfield 0 0x14 25 24 := by decide +kernel

theorem test_tick :
    let s := on { now := 4, sio := 7 }
    let t := after .timeBaseTick s
    s.dev.NoMarks ∧ s.dev.timebaseSrc ≠ 2 ∧ t.dev.sio = 8 ∧ t.dev.now = 5 ∧ (after .timeBaseTick (on { power := .off, now := 4 })).dev.now = 4 := by
  decide +kernel

/-- A channel of source TIME at its last position wraps: STEP is 1 count. -/
theorem test_tick_time :
    let s := on (with_ 0x019 [(0x040, 1), (0x044, 0x1000000), (0x054, 1), (0x058, 0xFFFFFFFF), (0x05C, 0xFFFF)] {})
    let t := after .timeBaseTick s
    s.Powered ∧ s.dev.NoMarks ∧ s.dev.rsrc 0 = 0 ∧ s.dev.rstate 0 = 1 ∧ t.dev.reelPos 0 = 0 := by decide +kernel

theorem test_tick_dead_reckon :
    let s := on (with_ 0x019 [(0x040, 0x23), (0x048, 0x1800000), (0x054, 2)] {})
    let t := after .timeBaseTick s
    s.dev.timebaseSrc ≠ 2 ∧ s.dev.rsrc 0 ≠ 0 ∧ s.dev.rstate 0 = 2 ∧ t.dev.reelPos 0 = 1 := by decide +kernel

/-- From the AON clock a period is 30 ticks, with a fraction kept (R76). -/
theorem test_tick_aon :
    let s := on { regions := (List.range 96).map fun r => (r, { Region.atReset r with st := .deep }) }
    let t := after .timeBaseTick s
    s.Powered ∧ s.dev.timebaseSrc = 2 ∧ t.dev.now = 30 ∧ t.dev.aonFrac = 265 := by decide +kernel

/-- DIR_INV reverses NET alone; a forward edge leaves REVERSE 0 (R61). With A = B of ODO an edge is a whole count (R62). -/
theorem test_dir_inv_and_odo :
    let s := on (with_ 0x019 [(0x040, 0x0B), (0x054, 1)] (with_ 0x018 [(0x040, 0x408), (0x050, 0)] {}))
    let t := after (.encoderEdge 0 true false) s
    (t.dev.encoder 0).net = 0xFFFFFFFF ∧ bit (t.dev.reelStat 0) 8 = false ∧ t.dev.reelPos 0 = 1 := by decide +kernel

/-- The two windows after the last one with illegal transitions bring TRACK back (R73 and its example). -/
theorem test_recovery_windows :
    let s := on ((with_ 0x019 [(0x040, 0x2303), (0x054, 2)] { now := 4000 }).setReel 0 { illegalA := 4 })
    let w (n : Nat) (s : State) : State := after (.rateWindowEnd 0) { s with dev := { s.dev with now := n } }
    let a := w 4000 s
    (a.dev.reel 0).lossWin = true ∧ ((w 8000 a).dev.reel 0).validRun = 1 ∧ (w 8000 a).dev.rstate 0 = 2 ∧ (w 12000 (w 8000 a)).dev.rstate 0 = 1 := by
  decide +kernel

/-- STALE reads 1 from reset on (R75, log entry 179). -/
theorem test_stale_at_reset : bit ((State.reset.view .portA 0x019 0x054)) 7 = true := by decide +kernel

/-- X1 counts no edge of B; an illegal transition moves no position; a falling crossing without BOTH is ignored (R61, R64). -/
theorem test_encoder_modes :
    let s := on (with_ 0x018 [(0x040, 0x200)] {})
    let t := after (.encoderEdge 0 false true) s
    let z := on { now := 9 }
    s.dev.field 0x018 0x040 9 8 = 2 ∧ (t.dev.encoder 0).net = 0 ∧ (t.dev.encoder 0).b = true ∧
      after (.encoderEdge 0 false false) s = s ∧ z.dev.flag 0x018 0x054 8 = false ∧ after (.zcCrossing false) z = z := by decide +kernel

/-- MARK 3 on a TIME channel in TRACK at position 5: TGT 4 is reached, so it fires at once; TGT 6 waits; EN = 0 disarms (R78, R79). -/
theorem test_mark_fires :
    let s (tgt : Word) := on (own 0x01B (with_ 0x01B [(0x0A4, tgt), (0x0B4, 0)] (with_ 0x019 [(0x040, 1), (0x054, 1), (0x058, 5)] {})))
    let t := after (.markArm .portA 3 (.control 1)) (s 4)
    let u := after (.markArm .portA 3 (.control 1)) (s 6)
    (s 4).dev.NoMarks ∧ (s 4).dev.reelStale 0 = false ∧ reached ((s 4).dev.reelPos 0) ((s 4).dev.markTgt 3) = true ∧
      (s 4).dev.frozen 0x01B = false ∧ t.dev.flag 0x01B 0x440 3 = true ∧ t.dev.mfield 3 0x14 25 24 = 1 ∧ t.dev.mfield 3 0 0 0 = 0 ∧
      reached ((s 6).dev.reelPos 0) ((s 6).dev.markTgt 3) = false ∧ u.dev.mfield 3 0 0 0 = 1 ∧
      (after (.markArm .portA 3 (.control 0)) u).dev.mfield 3 0 0 0 = 0 := by decide +kernel
/-! ## 04 Sensor intake -/

/-- Stream channel `n` READY with a record buffer of 1,024 bytes in the AON SRAM. -/
def chanOn (n : Nat) (d : Dev) : Dev :=
  paged (chanPage n) 1 (with_ (chanPage n) [(0x044, 0x04001000), (0x048, 0x100), (0x04C, 1024)] d)

/-- Port 3 up, its virtual channel 3 routed to channel `n`. -/
def routed (n : Nat) (d : Dev) : Dev := with_ 0x038 [(0x05C, 1), (0x09C, BitVec.ofNat 32 (0x80 + n))] d

/-- Camera 7 of 4 × 2 RAW8 pixels, its frame buffers in the AON SRAM, buffers 2 and 5 free. -/
def cam7 (d : Dev) : Dev :=
  routed 7 (chanOn 7 (with_ 0x027 [(0x080, 0x20004), (0x088, 0x04002000), (0x08C, 0x100), (0x090, 128), (0x094, 10), (0x098, 0x24)] d))

theorem test_frame_start :
    let s := on (cam7 {})
    let t := after (.csiFrameStart 3 3 .clean) s
    s.Powered ∧ s.dev.Delivers 3 3 7 ∧ s.dev.Captures 7 ∧ (s.dev.chan 7).frame = none ∧ s.dev.freeBuf 7 = some 2 ∧
      ((t.dev.chan 7).frame.map fun f => (f.buf, f.lines)) = some (2, 0) ∧ t.dev.flag 0x027 0x098 2 = false ∧
      t.dev.pageState 0x027 = 2 := by decide +kernel

/-- A 2-bit error in the header of any packet only counts, up to 255. -/
theorem test_header_bad :
    let s := on (cam7 {})
    let u := on (cam7 ({} : Dev) |>.setField 0x038 0x05C 23 16 255)
    s.dev.absentPage 0x038 = false ∧ s.dev.flag 0x038 0x05C 0 = true ∧ u.dev.flag 0x038 0x05C 0 = true ∧
      [Instr.csiFrameStart 3 3 .bad, .csiLinePacket 3 3 0x2A [1] .bad true, .csiFrameEnd 3 3 .bad, .csiEventPacket 3 3 [] .bad true].all
        (fun c => decide ((after c s).dev.chans = s.dev.chans ∧ (after c s).dev.field 0x038 0x05C 23 16 = 1 ∧
          (after c u).dev.field 0x038 0x05C 23 16 = 255)) = true := by decide +kernel

/-- A RAW8 line goes to its row of the buffer. -/
theorem test_frame_line :
    let s := after (.csiFrameStart 3 3 .clean) (on (cam7 {}))
    let t := after (.csiLinePacket 3 3 0x2A [1, 2, 3, 4] .clean false) s
    s.dev.NoMarks ∧ s.dev.Delivers 3 3 7 ∧ s.dev.capturing 7 = true ∧
      ((s.dev.chan 7).frame.map fun f => decide (f.lines < 4096)) = some true ∧
      ((t.dev.chan 7).frame.map fun g => (g.buf, g.lines, g.lineErr)) = some (2, 1, true) ∧
      t.dev.bytes 0x10004002100 4 = [1, 2, 3, 4] := by decide +kernel

theorem test_frame_end :
    let s := after (.csiFrameStart 3 3 .clean) (on (cam7 {}))
    let t := after (.csiFrameEnd 3 3 .corrected) s
    s.dev.Delivers 3 3 7 ∧ s.dev.TakesRecord 7 0 ∧ (s.dev.chan 7).frame.isSome = true ∧ (t.dev.chan 7).frame = none ∧
      t.dev.reg 0x027 0x058 = 1 ∧ ((t.dev.chan 7).done.getLast?.map (·.buf)) = some 2 := by decide +kernel

theorem test_buf_free :
    let s := on (cam7 {})
    s.Reaches 0x027 ∧ (s.dev.chan 7).frame = none ∧ (after (.bufFree .portA 7 0x80000001) s).dev.reg 0x027 0x098 = 0x80000025 := by
  decide +kernel

/-- The buffer of the open frame is not taken though its bit is written. -/
theorem test_buf_free_open :
    let s := after (.csiFrameStart 3 3 .clean) (on (cam7 {}))
    let t := after (.bufFree .portA 7 0x4) s
    s.Reaches 0x027 ∧ ((s.dev.chan 7).frame.map (·.buf)) = some 2 ∧ t.dev.reg 0x027 0x098 = 0x24 ∧ t.dev.freeBuf 7 = some 5 := by
  decide +kernel

/-- A second frame start discards the open frame and takes its buffer again. -/
theorem test_frame_restart :
    let s := after (.csiLinePacket 3 3 0x2A [1] .clean true) (after (.csiFrameStart 3 3 .clean) (on (cam7 {})))
    let t := after (.csiFrameStart 3 3 .clean) s
    s.Powered ∧ s.dev.Delivers 3 3 7 ∧ s.dev.Captures 7 ∧ (s.dev.chan 7).frame.isSome = true ∧
      (s.dev.dropFrame 7 4).freeBuf 7 = some 2 ∧ ((t.dev.chan 7).frame.map fun f => (f.buf, f.lines)) = some (2, 0) ∧
      t.dev.reg 0x027 0x05C = 1 := by decide +kernel

/-- Without a free buffer the frame is discarded, and its frame end ends it. -/
theorem test_frame_skipped :
    let s := on (with_ 0x027 [(0x098, 0)] (cam7 {}))
    let t := after (.csiFrameStart 3 3 .clean) s
    let u := after (.csiFrameEnd 3 3 .clean) t
    s.dev.Delivers 3 3 7 ∧ s.dev.Captures 7 ∧ (s.dev.chan 7).frame = none ∧ s.dev.freeBuf 7 = none ∧
      (t.dev.chan 7).frame = none ∧ (t.dev.chan 7).skip = true ∧ t.dev.Delivers 3 3 7 ∧ t.dev.Captures 7 ∧
      (t.dev.chan 7).words = [] ∧ (u.dev.chan 7).skip = false ∧ u.dev.reg 0x027 0x05C = t.dev.reg 0x027 0x05C := by decide +kernel

/-- A frame end without a frame start is a loss. -/
theorem test_frame_end_alone :
    let s := on (cam7 {})
    s.dev.Delivers 3 3 7 ∧ s.dev.Captures 7 ∧ (s.dev.chan 7).frame = none ∧ (s.dev.chan 7).words = [] ∧ (s.dev.chan 7).skip = false ∧
      (after (.csiFrameEnd 3 3 .corrected) s).dev.reg 0x027 0x05C = 1 := by decide +kernel

theorem test_link_down :
    let s := after (.csiFrameStart 3 3 .clean) (on (cam7 {}))
    let t := after (.csiLinkDown 3) s
    s.dev.absentPage 0x038 = false ∧ s.dev.camPort 7 = some 3 ∧ (s.dev.chan 7).frame.isSome = true ∧
      t.dev.flag 0x038 0x05C 0 = false ∧ (t.dev.chan 7).frame = none := by decide +kernel

theorem test_link_up :
    let s := on {}
    let t := after (.csiLinkUp 0) s
    s.dev.absentPage 0x038 = false ∧ t.dev.flag 0x038 0x050 0 = true ∧ t.dev.chans = s.dev.chans := by decide +kernel

theorem test_gap :
    let s := on ((chanOn 23 {}).setChan 23 { gaps := [(6, 6)] })
    let t := after (.overflowGapWrite 23) s
    s.Powered ∧ s.dev.Captures 23 ∧ s.dev.recRoom 23 (s.dev.recNeed 23 (s.dev.recWr 23) 0) = true ∧ (t.dev.chan 23).gaps = [] ∧
      t.dev.reg 0x037 0x058 = 1 ∧ t.dev.reg 0x037 0x060 = 1 := by decide +kernel

/-- An OVERFLOW gap is written with exactly its 64 bytes, the 64 of the largest record and the 64 that stay free. -/
theorem test_overflow_gap :
    let s := on ((chanOn 0 (with_ 0x020 [(0x050, 832), (0x054, 0)] {})).setChan 0 { gaps := [(1, 6)] })
    let t := after (.overflowGapWrite 0) s
    s.Powered ∧ s.dev.Captures 0 ∧ s.dev.recFree 0 = s.dev.gapNeed 0 (s.dev.maxPayload 0) + 64 ∧
      s.dev.recRoom 0 (s.dev.gapNeed 0 (s.dev.maxPayload 0)) = true ∧ (t.dev.chan 0).gaps = [] ∧ t.dev.reg 0x020 0x058 = 1 ∧
      t.dev.reg 0x020 0x060 = 1 := by decide +kernel

/-- With 64 bytes less, nothing is written. -/
theorem test_overflow_waits :
    let s := on ((chanOn 0 (with_ 0x020 [(0x050, 896), (0x054, 0)] {})).setChan 0 { gaps := [(1, 6)] })
    s.Powered ∧ s.dev.recRoom 0 (s.dev.gapNeed 0 (s.dev.maxPayload 0)) = false ∧ after (.overflowGapWrite 0) s = s := by decide +kernel

theorem test_trig_end :
    let s := on ((chanOn 1 (with_ 0x021 [(0x084, 0x0A02)] { now := 12 })).setChan 1 { trigOn := some 2 })
    let t := after (.camTrigEnd 1) s
    s.Powered ∧ 2 + max 1 (s.dev.field 0x021 0x084 15 8) ≤ s.dev.now ∧ (t.dev.chan 1).trigOn = none ∧ t.dev.camTrigPin 1 = true := by
  decide +kernel

theorem test_trig_runs :
    let s := on ((chanOn 1 (with_ 0x021 [(0x084, 0x0A00)] { now := 11 })).setChan 1 { trigOn := some 2 })
    s.dev.now < 2 + max 1 (s.dev.field 0x021 0x084 15 8) ∧ s.dev.camTrigPin 1 = true ∧ after (.camTrigEnd 1) s = s := by decide +kernel

theorem test_event_packet :
    let s := on (routed 9 (chanOn 9 (with_ 0x029 [(0x080, 512)] {})))
    let t := after (.csiEventPacket 3 3 [1, 0, 0, 0, 0, 0, 0, 0] .clean true) s
    s.dev.Delivers 3 3 9 ∧ s.dev.Captures 9 ∧ (s.dev.chan 9).words.length + 1 < s.dev.evtBatch 9 ∧ (t.dev.chan 9).words.length = 1 := by
  decide +kernel

theorem test_event_timeout :
    let s := on ((chanOn 8 (with_ 0x028 [(0x084, 0x640000)] { now := 100 })).setChan 8 { words := [5], opened := 0 })
    let t := after (.evtBatchTimeout 0) s
    s.dev.TakesRecord 8 (8 * (s.dev.chan 8).words.length) ∧ (s.dev.chan 8).words ≠ [] ∧
      (s.dev.chan 8).opened + s.dev.evtMaxUs 8 ≤ s.dev.now ∧ (t.dev.chan 8).words = [] ∧ t.dev.reg 0x028 0x058 = 1 := by decide +kernel

/-- The AER port READY, its words to channel 9. -/
def aerOn (d : Dev) : Dev := paged 0x039 1 (with_ 0x039 [(0x040, 1)] (chanOn 9 (with_ 0x029 [(0x080, 512)] d)))

theorem test_aer_beats :
    let s := on (aerOn {})
    let t := after (.aerBeat true 0xABCD) s
    let u := after (.aerBeat false 3) t
    s.dev.absentPage 0x039 = false ∧ s.dev.running 0x039 = true ∧ s.dev.aer.beat0 = none ∧ t.dev.aer.beat0 = some 0xABCD ∧
      t.dev.pageState 0x039 = 2 ∧ t.dev.aerChan = 9 ∧ t.dev.Captures 9 ∧
      (t.dev.chan 9).words.length + 1 < t.dev.evtBatch 9 ∧ u.dev.aer.beat0 = none ∧ (u.dev.chan 9).words.length = 1 := by
  decide +kernel

theorem test_aer_framing :
    let t := after (.aerBeat false 1) (on (aerOn {}))
    t.dev.aer.beat0 = none ∧ t.dev.reg 0x039 0x044 = 1 := by decide +kernel

/-- A second first beat replaces the kept one. -/
theorem test_aer_reframing :
    let s := after (.aerBeat true 1) (on (aerOn {}))
    let t := after (.aerBeat true 2) s
    s.dev.running 0x039 = true ∧ s.dev.frozen 0x039 = false ∧ s.dev.aer.beat0 = some 1 ∧ t.dev.aer.beat0 = some 2 ∧
      t.dev.reg 0x039 0x044 = 1 := by decide +kernel

/-- AER_REQ high 101 µs after ACK with TMO = 100: stuck until it falls, which loses an event. -/
theorem test_aer_stuck :
    let s := on (with_ 0x039 [(0x040, 0x6401)] (aerOn { now := 101, aer := { ackAt := some 0 } }))
    let t := after (.aerStuckTimeout false) s
    let u := after (.aerStuckTimeout true) t
    s.Powered ∧ s.dev.absentPage 0x039 = false ∧ s.dev.running 0x039 = true ∧
      0 + max 1 (s.dev.field 0x039 0x040 15 8) < s.dev.now ∧ s.dev.aer.stuck = false ∧ t.dev.aer.stuck = true ∧
      t.dev.flag 0x039 0x014 0 = true ∧ t.dev.Captures t.dev.aerChan ∧ (t.dev.chan t.dev.aerChan).words = [] ∧
      u.dev.aer.stuck = false ∧ u.dev.aer.ackAt = none ∧ u.dev.reg 0x029 0x05C = 1 := by decide +kernel

/-- At 100 µs it is not. -/
theorem test_aer_in_time :
    let s := on (with_ 0x039 [(0x040, 0x6401)] (aerOn { now := 100, aer := { ackAt := some 0 } }))
    s.dev.now ≤ 0 + max 1 (s.dev.field 0x039 0x040 15 8) ∧ after (.aerStuckTimeout false) s = s ∧
      after (.aerStuckTimeout false) (on (aerOn {})) = on (aerOn {}) := by decide +kernel

/-- The words wait for MAX_US. -/
theorem test_event_in_time :
    let s := on ((chanOn 8 (with_ 0x028 [(0x084, 0x640000)] { now := 99 })).setChan 8 { words := [5], opened := 0 })
    s.dev.now < (s.dev.chan 8).opened + s.dev.evtMaxUs 8 ∧ after (.evtBatchTimeout 0) s = s ∧
      after (.evtBatchTimeout 1) s = s := by decide +kernel

theorem test_tof_ibi :
    let s := on (chanOn 19 (with_ 0x033 [(0x080, 0x5500)] {}))
    let t := after (.tofIbi 0x55) s
    s.dev.Captures 19 ∧ (s.dev.chan 19).busy = false ∧ s.dev.flag 0x033 0x080 0 = false ∧ s.dev.field 0x033 0x080 14 8 = 0x55 ∧
      (t.dev.chan 19).busy = true ∧ (t.dev.chan 19).readTag = s.dev.chanTag 19 := by decide +kernel

theorem test_tof_period :
    let s := on (chanOn 19 (with_ 0x033 [(0x080, 1), (0x084, 100)] { now := 100 }))
    let t := after .tofPeriodExpiry s
    s.dev.Captures 19 ∧ s.dev.flag 0x033 0x080 0 = true ∧ s.dev.periodDue 19 (s.dev.reg 0x033 0x084).toNat = true ∧
      (t.dev.chan 19).busy = true ∧ (t.dev.chan 19).period = 100 := by decide +kernel

theorem test_tof_read :
    let s := on ((chanOn 19 (with_ 0x033 [(0x088, 4)] {})).setChan 19 { busy := true })
    let t := after (.tofReadDone (.data [1, 2, 3, 4, 5])) s
    (s.dev.chan 19).busy = true ∧ (s.dev.chan 19).edge = false ∧
      s.dev.TakesRecord 19 (min (max 1 (min 256 (s.dev.field 0x033 0x088 8 0))) 5) ∧ (t.dev.chan 19).busy = false ∧
      t.dev.reg 0x033 0x058 = 1 ∧ t.dev.bytes 0x10004001020 5 = [1, 2, 3, 4, 0] := by decide +kernel

/-- A request during a read is held, and the read's end starts the next; a read that fails is a loss. -/
theorem test_tof_held :
    let s := after (.tofIbi 0x55) (on (chanOn 19 (with_ 0x033 [(0x080, 0x5500), (0x088, 256)] {})))
    let t := after (.tofIbi 0x55) s
    let u := after (.tofReadDone .timeout) t
    s.dev.Captures 19 ∧ (s.dev.chan 19).busy = true ∧ (t.dev.chan 19).edge = true ∧ (t.dev.chan 19).words = [] ∧
      (u.dev.chan 19).busy = true ∧ (u.dev.chan 19).edge = false ∧ u.dev.reg 0x033 0x05C = 1 := by decide +kernel

theorem test_imu_fails :
    let s := on ((chanOn 18 {}).setChan 18 { busy := true })
    s.Powered ∧ (s.dev.chan 18).busy = true ∧ s.dev.Captures 18 ∧ (s.dev.chan 18).words = [] ∧
      [BusResult.nack, .timeout, .pecError [1]].all (fun r => decide (((after (.imuReadDone r) s).dev.chan 18).busy = false ∧
        (after (.imuReadDone r) s).dev.reg 0x032 0x05C = 1)) = true := by decide +kernel

theorem test_imu_edge :
    let s := on (chanOn 18 {})
    let t := after .imuIntEdge s
    let u := after .imuIntEdge t
    let v := after .imuIntEdge u
    s.dev.Captures 18 ∧ s.dev.flag 0x032 0x080 0 = false ∧ (t.dev.chan 18).busy = true ∧ (t.dev.chan 18).readTag = s.dev.chanTag 18 ∧
      t.dev.Captures 18 ∧ (u.dev.chan 18).edge = true ∧ u.dev.reg 0x032 0x088 = 0 ∧ v.dev.reg 0x032 0x088 = 1 := by decide +kernel

theorem test_imu_period :
    let s := on (chanOn 18 (with_ 0x032 [(0x080, 1), (0x084, 100)] { now := 100 }))
    let t := after .imuPeriodExpiry s
    s.dev.Captures 18 ∧ s.dev.flag 0x032 0x080 0 = true ∧ s.dev.periodDue 18 (s.dev.reg 0x032 0x084).toNat = true ∧
      (t.dev.chan 18).busy = true ∧ (t.dev.chan 18).period = 100 := by decide +kernel

theorem test_imu_read :
    let s := on ((chanOn 18 (with_ 0x032 [(0x080, 0x06000000)] {})).setChan 18 { busy := true })
    let t := after (.imuReadDone (.data [1, 2, 3, 4, 5, 6])) s
    s.dev.TakesRecord 18 (min (max 1 (min 64 (s.dev.field 0x032 0x080 30 24))) 6) ∧ (t.dev.chan 18).busy = false ∧
      t.dev.reg 0x032 0x058 = 1 := by decide +kernel

theorem test_enc_period :
    let s := on (chanOn 20 { now := 100 })
    let t := after .encPeriodExpiry s
    s.dev.TakesRecord 20 80 ∧ s.dev.flag 0x034 0x080 8 = false ∧ s.dev.periodDue 20 (max 100 (s.dev.field 0x034 0x080 31 16)) = true ∧
      (t.dev.chan 20).period = 100 ∧ t.dev.reg 0x034 0x058 = 1 := by decide +kernel

/-- A transfer starts at once, and waits while a channel transfer runs. -/
theorem test_i3c_transfer :
    let s := on (own 0x038 {})
    let t := after (.i3cTransfer .portA 0x80000180) s
    let u := after (.i3cTransfer .portA 0x80000180) (on ((own 0x038 {}).setChan 19 { busy := true }))
    s.Admits .portA 0x038 ∧ s.dev.i3c.cur = none ∧ t.dev.i3c.cur = some 0x80000180 ∧ t.dev.i3c.queue = none ∧
      t.dev.reg 0x038 0x0B0 = 0x80000180 ∧ u.dev.i3c.cur = none ∧ u.dev.i3c.queue = some 0x80000180 := by decide +kernel

theorem test_i3c_done :
    let s := on (with_ 0x038 [(0x0B0, 0x80000280)] { i3c := { cur := some 0x80000280 } })
    let t := after (.i3cTransferDone (.data [7, 8, 9])) s
    t.dev.i3c.cur = none ∧ t.dev.flag 0x038 0x0B0 31 = false ∧ t.dev.i3c.fifo = [7, 8] := by decide +kernel

/-- The held transfer starts when the one before it ends; a write takes its bytes from the FIFO; without START nothing starts. -/
theorem test_i3c_chain :
    let s := on (with_ 0x038 [(0x0B0, 0x80000200)] { i3c := { cur := some 0x80000200, queue := some 0x80000180, fifo := [1, 2, 3] } })
    let t := after (.i3cTransferDone (.data [])) s
    let u := on (own 0x038 {})
    t.dev.i3c.cur = some 0x80000180 ∧ t.dev.i3c.queue = none ∧ t.dev.flag 0x038 0x0B0 31 = true ∧ t.dev.i3c.fifo = [3] ∧
      (after (.i3cTransferDone .nack) s).dev.i3c.fifo = [1, 2, 3] ∧ u.Admits .portA 0x038 ∧
      (after (.i3cTransfer .portA 0x180) u).dev.i3c = u.dev.i3c := by decide +kernel

/-- A push of 4,096 bytes, the longest. -/
theorem test_gen_push :
    let s := after (.pairLoWrite .portA ⟨0x037, 0x20⟩ 0x04000000)
      (on (own 0x037 (chanOn 23 (with_ 0x037 [(0x088, 0x41000)] {}))))
    let t := after (.genPush .portA 1 0x100) s
    s.Admits .portA (chanPage 23) ∧ s.dev.Captures 23 ∧ (s.dev.chan 23).push = none ∧
      (t.dev.chan 23).push = some (0x10004000000, 4096, 4) := by decide +kernel

/-- A push is ignored while a copy runs. -/
theorem test_gen_push_busy :
    let s := on ((own 0x037 (chanOn 23 {})).setChan 23 { push := some (0, 1, 4) })
    s.Admits .portA (chanPage 23) ∧ (s.dev.chan 23).push.isSome = true ∧ after (.genPush .portA 1 0x100) s = s := by decide +kernel

theorem test_gen_done :
    let s := on ((chanOn 22 {}).setChan 22 { push := some (0x10004000000, 64, 4) })
    let t := after (.genPushDone 0) s
    (s.dev.chan 22).push = some (0x10004000000, 64, 4) ∧ s.dev.TakesRecord 22 64 ∧ s.dev.CanServe (fun d => d.genDone 0) ∧ (t.dev.chan 22).push = none ∧
      t.dev.reg 0x036 0x058 = 1 := by decide +kernel

theorem test_snapshot :
    let x : Escalation := { stream := 255, slot := 7, score := 9, seq := none, at_ := 0 }
    let s := on (with_ 0x038 [(0x0D0, 1), (0x0D4, 0x04008000), (0x0D8, 0x100)] { escs := [x] })
    let t := after (.lookbackSnapshot 255) s
    (s.dev.escs.find? fun x => x.stream == 255 && !x.snapped) = some x ∧ s.dev.CanServe (fun d => d.lookbackSnapshot 255) ∧ { x with snapped := true } ∈ t.dev.escs ∧
      s.dev.absentPage 0x038 = false ∧ s.dev.flag 0x038 0x0D0 0 = true ∧ (t.dev.snap 7).map (·.bufs) = some [] := by decide +kernel

/-! ## 05 The listening path -/

/-- The front end READY in a mode, its clock running. -/
def micIn (mode clk : Nat) (d : Dev) : Dev :=
  paged 0x03A 1 (with_ 0x03A [(0x044, BitVec.ofNat 32 mode)] { d with mic := { d.mic with clk := clk } })

/-- A grid period without a clock edge on the data pins. -/
def silence : GridSamples := { rise := List.replicate 4 [], fall := List.replicate 4 [] }

theorem test_mic_active :
    let s := on (own 0x03A (micIn 2 1 {}))
    let t := after (.micModeActive .portA) s
    s.Admits .portA 0x03A ∧ s.dev.micCur = 2 ∧ t.dev.micCur = 3 ∧ t.dev.flag 0x03A 0x040 0 = true ∧ t.dev.clk.pll1Req = true := by
  decide +kernel

theorem test_mic_listen :
    let s := on (own 0x03A (with_ 0x03A [(0x040, 1)] (micIn 5 2 {})))
    let t := after (.micModeListen .portA) s
    s.Admits .portA 0x03A ∧ s.dev.micCur = 5 ∧ t.dev.micCur = 6 ∧ t.dev.flag 0x03A 0x040 0 = false := by decide +kernel

/-- Back to what the clock was before TO_ACTIVE. -/
theorem test_mic_cancel :
    let s (clk : Nat) := on (own 0x03A (micIn 3 clk { clk := { pll1Req := true } }))
    let t (clk : Nat) := after (.micModeListen .portA) (s clk)
    (s 1).Admits .portA 0x03A ∧ (s 1).dev.micCur = 3 ∧ (t 1).dev.micCur = 2 ∧ (t 1).dev.clk.pll1Req = false ∧
      (s 0).Admits .portA 0x03A ∧ (s 0).dev.micCur = 3 ∧ (t 0).dev.micCur = 1 := by decide +kernel

/-- In a settle MODE is kept for later. -/
theorem test_mic_mode_held :
    let s := on (own 0x03A (micIn 1 1 {}))
    let t := after (.micModeActive .portA) s
    let u := after (.micModeListen .portA) t
    s.Admits .portA 0x03A ∧ s.dev.micCur ≠ 2 ∧ t.dev.micCur = 1 ∧ t.dev.flag 0x03A 0x040 0 = true ∧ t.Admits .portA 0x03A ∧
      u.dev.micCur = 1 ∧ u.dev.flag 0x03A 0x040 0 = false := by decide +kernel

theorem test_grid :
    let s := on (micIn 2 1 { mic := { periods := 2 ^ 32 - 1 } })
    let t := after (.gridBoundary silence) s
    s.dev.NoMarks ∧ s.dev.running 0x03A = true ∧ s.dev.frozen 0x03A = false ∧ s.dev.micCur = 2 ∧
      s.dev.mic.clk ≠ 0 ∧ s.dev.mic.len + 1 < s.dev.recSamples ∧ t.dev.mic.periods = 0 ∧ t.dev.mic.len = 1 ∧ t.dev.micCur = 2 := by
  decide +kernel

theorem test_grid_settled :
    let s := on (micIn 1 1 { mic := { settle := 1 } })
    let t := after (.gridBoundary silence) s
    s.dev.micCur = 1 ∧ s.dev.mic.settle ≤ 1 ∧ s.dev.flag 0x03A 0x040 0 = false ∧ t.dev.micCur = 2 := by decide +kernel

/-- The boundary after the lock switches to ACTIVE, and the one in TO_LISTEN back. -/
theorem test_grid_switches :
    let s := on (with_ 0x011 [(0x050, 2)] (with_ 0x03A [(0x040, 1)] (micIn 3 1 {})))
    let t := after (.gridBoundary silence) s
    let u := on (micIn 6 2 { clk := { pll1Req := true } })
    let v := after (.gridBoundary silence) u
    s.dev.NoMarks ∧ s.dev.running 0x03A = true ∧ s.dev.micCur = 3 ∧ s.dev.pllLocked 1 = true ∧ t.dev.micCur = 4 ∧ t.dev.mic.clk = 2 ∧
      u.dev.NoMarks ∧ u.dev.running 0x03A = true ∧ u.dev.micCur = 6 ∧ v.dev.micCur = 1 ∧ v.dev.mic.clk = 1 ∧
      v.dev.clk.pll1Req = false := by decide +kernel

theorem test_pll1_timeout :
    let s := on (with_ 0x03A [(0x040, 1)] (micIn 3 1 { now := 1000 }))
    let t := after .pll1LockTimeout s
    s.dev.micCur = 3 ∧ s.dev.pllLocked 1 = false ∧ s.dev.mic.toAt + 1000 ≤ s.dev.now ∧ t.dev.micCur = 2 ∧
      t.dev.flag 0x03A 0x014 0 = true ∧ t.dev.flag 0x03A 0x040 0 = false := by decide +kernel

theorem test_pll1_loss :
    let s := on (with_ 0x011 [(0x050, 2)] (micIn 5 2 {}))
    let t := after .pll1Loss s
    let u := on (with_ 0x011 [(0x050, 2)] (micIn 2 1 {}))
    s.dev.micCur = 5 ∧ s.dev.pllLocked 1 = true ∧ t.dev.micCur = 1 ∧ t.dev.mic.clk = 1 ∧ t.dev.pllLocked 1 = false ∧
      t.dev.flag 0x03A 0x014 1 = true ∧ u.dev.pllLocked 1 = true ∧ (after .pll1Loss u).dev.micCur = 2 := by decide +kernel

theorem test_mic_stuck :
    let s := on (with_ 0x03A [(0x048, 0x1FF)] (micIn 2 1 {}))
    let t := after (.micStuck 7) s
    let u := after (.micStuckClear 7) (after (.micStuck 0) t)
    s.dev.micClk 1 ≠ 0 ∧ t.dev.flag 0x03A 0x04C 7 = true ∧ t.dev.flag 0x03A 0x014 4 = true ∧ u.dev.flag 0x03A 0x04C 7 = false ∧
      u.dev.flag 0x03A 0x04C 0 = true := by decide +kernel
/-! ## 06 Cliff watch, halt unit, pack supervisor -/

/-- A device with a halt unit. -/
def haltIn (h : Halt) (d : Dev) : State := { State.reset with halt := h, dev := own 0x041 d }

theorem test_arm :
    let s := haltIn { cmd := 0x2A } { now := 8 }
    let t := after (.haltArm .portA 0xA5A5) s
    s.Admits .portA 0x041 ∧ s.halt.st = .safe ∧ s.armable = true ∧ t.halt.st = .armed ∧ t.halt.pins = 0x2A ∧ t.halt.hbAt = 8 ∧
      t.halt.hbFresh = true ∧ t.dev = s.dev := by decide +kernel

theorem test_arm_hold :
    let s := haltIn { st := .hold, cmd := 0x2A, pins := 5, fb := 5 } { now := 8 }
    let t := after (.haltArm .portA 0xA5A5) s
    s.armable = true ∧ t.halt.st = .armed ∧ t.halt.pins = 5 ∧ t.halt.hbAt = 8 := by decide +kernel

theorem test_arm_refused :
    let s := haltIn {} {}
    let u := haltIn {} { thermIn := true }
    (after (.haltArm .portA 0xA5A4) s).halt = s.halt ∧ (after (.haltArm .portA 0xA5A4) s).dev.flag 0x041 0x014 2 = true ∧
      u.armable = false ∧ (after (.haltArm .portA 0xA5A5) u).halt = u.halt ∧
      (after (.haltArm .portA 0xA5A5) u).dev.flag 0x041 0x014 2 = true := by decide +kernel

theorem test_arm_tripped :
    let s := haltIn { st := .tripped } {}
    s.Admits .portA 0x041 ∧ after (.haltArm .portA 0xA5A5) s = s := by decide +kernel

theorem test_out_cmd :
    let s := haltIn { st := .armed, pins := 1 } {}
    let u := haltIn { st := .hold, pins := 1 } {}
    (after (.haltOutCmd .portA 0xFF) s).halt.pins = 0x3F ∧ (after (.haltOutCmd .portA 0xFF) u).halt.pins = 1 ∧
      (after (.haltOutCmd .portA 0xFF) u).halt.cmd = 0x3F ∧ (after (.haltOutCmd .portA 0xFF) u).dev = u.dev := by decide +kernel

theorem test_halt_denied :
    let s := haltIn {} {}
    s.dev.claimedBy .portB 0x041 = false ∧
      ∀ c ∈ [Instr.haltArm .portB 0xA5A5, .haltOutCmd .portB 1, .heartbeatRefresh .portB 0x55, .tripAck .portB 1],
        (after c s).halt = s.halt ∧ (after c s).dev.flag 0x041 0x014 31 = true := by decide +kernel

theorem test_heartbeat :
    let s := haltIn { st := .armed } { now := 9 }
    let t := after (.heartbeatRefresh .portA 0x55) s
    t.halt = { s.halt with hb := 0x55, hbFresh := false, hbAt := 9 } ∧ t.dev = s.dev ∧
      (after (.heartbeatRefresh .portA 0x55) t).halt = t.halt ∧ (after (.heartbeatRefresh .portA 0x55) t).dev.flag 0x041 0x014 3 = true ∧
      (after (.heartbeatRefresh .portA 0xAA) t).halt.hb = 0xAA ∧ (after (.heartbeatRefresh .portA 0x56) s).dev.flag 0x041 0x014 3 = true := by
  decide +kernel

theorem test_heartbeat_expiry :
    let s := haltIn { st := .armed, pins := 3 } (({ now := 1000000 } : Dev).setCliff 2 { checked := true })
    let t := after .heartbeatExpiry s
    s.halt.hbAt + s.hbPeriod ≤ s.dev.now ∧ t.halt.st = .tripped ∧ t.halt.cause = 3 ∧ t.halt.pins = 0 ∧ t.dev.reg 0x041 0x068 = 1 ∧
      t.dev.flag 0x041 0x014 0 = true ∧ (∀ n : Fin 8, (t.dev.cliff n.val).checked = false) ∧
      after .heartbeatExpiry (haltIn { st := .armed } {}) = haltIn { st := .armed } {} ∧
      after .heartbeatExpiry (haltIn { st := .hold } { now := 1000000 }) = haltIn { st := .hold } { now := 1000000 } := by decide +kernel

theorem test_hold_expiry :
    let s := haltIn { st := .hold, pins := 3 } { now := 1000000 }
    let t := after .holdWindowExpiry s
    let u := haltIn { st := .hold, pins := 3, holdAt := 1 } { now := State.reset.holdWindow }
    s.halt.holdAt + s.holdWindow ≤ s.dev.now ∧ t.halt.st = .tripped ∧ t.halt.cause = 4 ∧ t.halt.pins = 0 ∧
      u.dev.now < u.halt.holdAt + u.holdWindow ∧ after .holdWindowExpiry u = u := by decide +kernel

theorem test_force :
    let s := haltIn { st := .hold, pins := 3, ch := 4 } {}
    let t := after (.haltForce .portB 1) s
    s.halt.st.driving = true ∧ t.halt.st = .tripped ∧ t.halt.cause = 5 ∧ t.halt.ch = 0 ∧ t.halt.pins = 0 ∧ t.dev.reg 0x041 0x068 = 1 ∧
      after (.haltForce .portB 1) (haltIn {} {}) = haltIn {} {} := by decide +kernel

theorem test_trip_ack :
    let s := haltIn { st := .tripped, cause := 3 } {}
    (after (.tripAck .portA 1) s).halt = { s.halt with st := .safe } ∧ (after (.tripAck .portA 1) s).dev = s.dev ∧
      after (.tripAck .portA 0) s = s ∧ after (.tripAck .portA 1) (haltIn { st := .hold } {}) = haltIn { st := .hold } {} := by decide +kernel

theorem test_fb_match :
    let s := haltIn { stuck := 0x20 } (with_ 0x041 [(0x05C, 0x3F)] {})
    let t := after (.drvFbChange 5 false) s
    (s.dev.fbEn 5 = false ∨ false = s.halt.pin 5) ∧ t.halt.fb.toNat.testBit 5 = false ∧ t.halt.stuck.toNat.testBit 5 = false ∧
      t.halt.st = .safe ∧ t.dev = s.dev := by decide +kernel

theorem test_fb_trip :
    let s := haltIn { st := .armed, pins := 1, fb := 1 } (with_ 0x041 [(0x05C, 0x3F)] { now := 1000 })
    let t := after (.drvFbChange 0 false) s
    s.dev.fbEn 0 = true ∧ false ≠ s.halt.pin 0 ∧ s.halt.st.driving = true ∧
      Sparse.get (fun _ => 0) s.halt.changed 0 + s.dev.fbTmo ≤ s.dev.now ∧ t.halt.st = .tripped ∧ t.halt.cause = 6 ∧ t.halt.pins = 0 := by
  decide +kernel

/-- Until FB_TMO a readback that differs does nothing; one that follows its output never does. -/
theorem test_fb_in_time :
    let s := haltIn { st := .armed, pins := 1, fb := 1, changed := [(0, 1)] } (with_ 0x041 [(0x05C, 0x3F)] {})
    let t := after (.drvFbChange 0 false) s
    s.dev.fbEn 0 = true ∧ false ≠ s.halt.pin 0 ∧ s.dev.now < Sparse.get (fun _ => 0) s.halt.changed 0 + s.dev.fbTmo ∧
      t.halt.fb.toNat.testBit 0 = false ∧ t = { s with halt := { s.halt with fb := t.halt.fb } } ∧ s.fbBad 0 = false ∧
      after (.fbTmoExpiry 0) s = s ∧ after (.fbTmoExpiry 0) t = t := by decide +kernel

theorem test_fb_expiry :
    let s := haltIn { st := .armed, pins := 1 } (with_ 0x041 [(0x05C, 0x3F)] { now := 1000 })
    let t := after (.fbTmoExpiry 0) s
    s.fbBad 0 = true ∧ s.halt.st.driving = true ∧ t.halt.st = .tripped ∧ t.halt.cause = 6 ∧ t.halt.pins = 0 := by decide +kernel

theorem test_fb_stuck :
    let s := haltIn { fb := 1 } (with_ 0x041 [(0x05C, 0x3F)] { now := 1000 })
    let t := after (.fbTmoExpiry 0) s
    s.fbBad 0 = true ∧ s.halt.st.driving = false ∧ s.halt.pin 0 = false ∧ s.halt.stuck.toNat.testBit 0 = false ∧
      t.halt.stuck.toNat.testBit 0 = true ∧ t.halt.st = .safe ∧ t.dev.flag 0x041 0x014 1 = true := by decide +kernel

theorem test_thermtrip :
    let s := haltIn {} {}
    let t := after (.thermtripInput true) s
    s.dev.absentPage 0x041 = false ∧ t.halt.st = .tripped ∧ t.halt.cause = 7 ∧ t.halt.pins = 0 ∧ t.dev.thermIn = true ∧
      t.dev.flag 0x042 0x048 2 = false ∧ t.dev.reg 0x041 0x068 = 1 ∧ (after (.thermtripInput false) t).dev.thermIn = false ∧
      (after (.thermtripInput false) t).halt = t.halt ∧ (after (.thermtripInput true) t).halt = t.halt := by decide +kernel

/-- Channel 7 of the cliff watch: EN, I_CMD 200, Reel channel 0 in TRACK; a threshold of 100 at I_CMD, ambient up to 4,000. -/
def cliff7 (act : Nat) (d : Dev) : Dev :=
  paged 0x040 1 (with_ 0x040 [(0x120, BitVec.ofNat 32 (1 + 2 * act + 200 * 256)), (0x124, 100), (0x148, 4000)]
    (with_ 0x019 [(0x040, 1), (0x054, 1)] d))

theorem test_cliff_check :
    let s := on (cliff7 0 {})
    let t := after (.cliffCheckWrite .portA 0xFF) s
    let u := on (paged 0x040 0 (cliff7 0 {}))
    s.Reaches 0x040 ∧ s.dev.running 0x040 = true ∧ (t.dev.cliff 7).pending = true ∧ (t.dev.cliff 0).pending = false ∧
      u.Reaches 0x040 ∧ u.dev.running 0x040 = false ∧ after (.cliffCheckWrite .portA 0xFF) u = u := by decide +kernel

theorem test_cliff_guard :
    let s := on (with_ 0x040 [(0x140, 0x80)] (cliff7 0 { now := 10000 }))
    let t := after (.cliffGuardExpiry 7) s
    s.dev.flag 0x040 0x140 7 = true ∧ s.dev.flag 0x040 (Dev.cliffBase 7) 0 = true ∧ s.dev.running 0x040 = true ∧
      s.dev.frozen 0x040 = false ∧ (s.dev.cliff 7).pending = false ∧ (s.dev.cliff 7).started + 10000 ≤ s.dev.now ∧
      (t.dev.cliff 7).pending = true ∧ (t.dev.cliff 7).guarded = true ∧ t.dev.reg 0x040 0x154 = 1 := by decide +kernel

/-- The slot takes the configuration as it stands; a second one waits for its decision. -/
theorem test_cliff_slot :
    let s := on ((with_ 0x040 [(0x144, 300)] (cliff7 1 { now := 6 })).setCliff 7 { pending := true, iUse := 150 })
    let t := after (.cliffSlotStart 4321) s
    s.Powered ∧ s.dev.cliffRun = none ∧ s.dev.cliffAhead.head? = some 7 ∧
      (t.dev.cliffRun.map fun r => (r.ch, r.iUse, r.cfg, r.thr, r.ambMax, r.headMin)) = some (7, 150, 0xC803, 100, 4000, 300) ∧
      (t.dev.cliff 7).pending = false ∧ (t.dev.cliff 7).started = 6 ∧ t.dev.reg 0x040 0x158 = 4321 ∧
      after (.cliffSlotStart 0) t = t ∧ (on (cliff7 1 {})).dev.cliffAhead = [] ∧
      after (.cliffSlotStart 0) (on (cliff7 1 {})) = on (cliff7 1 {}) := by decide +kernel

/-- A check of channel 7 in its slot at its full current, HEAD_MIN below its least value. -/
def slot7 (act iMin : Nat) : CliffRun :=
  { ch := 7, guarded := false, retry := false, iUse := 200, cfg := BitVec.ofNat 32 (1 + 2 * act + 200 * 256),
    thr := BitVec.ofNat 32 (100 + iMin * 2 ^ 16), ambMax := 4000, headMin := 0 }

def cliffSlot7 (act : Nat) (h : Halt) : State := haltIn h { cliff7 act {} with cliffRun := some (slot7 act 50) }

/-- A difference of 99 is below the threshold of 100: a cliff. The ambient light is at AMB_MAX, the headroom at its least. -/
theorem test_cliff_trip :
    let s := cliffSlot7 0 { st := .armed, pins := 1 }
    let t := after (.cliffDecision 3900 4100 4099 4000 3000 200 200 false) s
    let u := after (.cliffDecision 4000 4000 4094 4094 3000 200 200 false) s
    s.Powered ∧ s.dev.cliffRun = some (slot7 0 50) ∧ (slot7 0 50).minHead = 200 ∧ s.dev.reelStale (slot7 0 50).reelCh = false ∧
      rneHalf (4000 + 4000) ≤ (slot7 0 50).ambMax.toNat ∧ s.halt.st.driving = true ∧
      bits (slot7 0 50).thr 11 0 * 200 / (slot7 0 50).iCmd = 100 ∧ u.dev.cliffRun = none ∧ u.halt.st = .tripped ∧ u.halt.cause = 1 ∧
      u.halt.ch = 7 ∧ u.halt.pins = 0 ∧ t.halt.st = .tripped := by decide +kernel

/-- A difference of 100 is a floor. -/
theorem test_cliff_floor :
    let s := cliffSlot7 0 { st := .armed, pins := 1 }
    let t := after (.cliffDecision 100 100 200 200 3000 200 200 false) s
    t.dev.cliffRun = none ∧ t.halt = s.halt ∧ (t.dev.cliff 7).checked = true ∧ (t.dev.cliff 7).result = 0 := by decide +kernel

/-- Headroom one below its least cannot be trusted: FAULT trips, REPORT does not, REDUCE asks again with three quarters. -/
theorem test_cliff_untrusted :
    let s := cliffSlot7 0 { st := .hold, pins := 1 }
    let t := after (.cliffDecision 0 0 0 0 0 199 200 false) s
    let u := cliffSlot7 2 { st := .hold, pins := 1 }
    let v := after (.cliffDecision 0 0 0 0 0 199 200 false) u
    let w := cliffSlot7 1 { st := .hold, pins := 1 }
    let x := after (.cliffDecision 0 0 0 0 0 199 200 false) w
    (slot7 0 50).act = 0 ∧ t.halt.st = .tripped ∧ t.halt.cause = 2 ∧ t.halt.ch = 7 ∧ t.halt.pins = 0 ∧
      (slot7 2 50).act = 2 ∧ v.halt = u.halt ∧ (v.dev.cliff 7).checked = true ∧ (v.dev.cliff 7).result = 2 ∧
      (slot7 1 50).act = 1 ∧ (slot7 1 50).iMin < 200 ∧ w.dev.running 0x040 = true ∧ w.dev.flag 0x040 (Dev.cliffBase 7) 0 = true ∧
      x.dev.cliffRun = none ∧ x.halt = w.halt ∧ (x.dev.cliff 7).iUse = 150 ∧ (x.dev.cliff 7).pending = true := by decide +kernel

/-- Every cause that a check is not trusted for, each at its bound. -/
theorem test_cliff_causes :
    let r (a1 l1 l2 : BitVec 12) (o : Bool) : Nat :=
      ((after (.cliffDecision a1 a1 l1 l2 3000 200 200 o) (cliffSlot7 2 {})).dev.cliff 7).result
    r 4000 4094 4094 false = 1 ∧ r 4001 4094 4094 false = 2 ∧ r 0 4095 0 false = 2 ∧ r 0 0 4095 false = 2 ∧
      r 0 4094 4094 true = 2 ∧ r 0 4094 4094 false = 0 := by decide +kernel

theorem test_guard_set :
    let s := on (cliff7 2 {})
    let t := after (.guardSet .portB 0x81) s
    s.Reaches 0x040 ∧ t.dev.flag 0x040 0x140 7 = true ∧ t.dev.flag 0x040 0x140 0 = true ∧ t.dev.flag 0x040 0x140 3 = false ∧
      t.dev.field 0x040 (Dev.cliffBase 7) 2 1 = 0 ∧ t.dev.flag 0x040 (Dev.cliffBase 7) 0 = true := by decide +kernel

theorem test_pack_poll :
    let s := on (paged 0x042 1 { now := 1000000 })
    let t := after .packPoll s
    s.dev.pkg = .rm ∧ s.dev.running 0x042 = true ∧ s.dev.packSup.pollAt + s.dev.pollPeriod ≤ s.dev.now ∧
      t.dev.packSup.reading = some [] ∧ t.dev.packSup.pollAt = 1000000 ∧ t.dev.pageState 0x042 = 2 := by decide +kernel

/-- A poll with `ws` read. -/
def polling (ws : List Nat) (d : Dev) : State := on (paged 0x042 2 { d with packSup := { reading := some ws } })

theorem test_pack_word :
    let s := polling [1, 2, 3] {}
    (after (.packReadDone (.data [0x34, 0x12])) s).dev.packSup.reading = some [1, 2, 3, 0x1234] := by decide +kernel

theorem test_pack_complete :
    let s := polling [12000, 65535, 50, 2980] (with_ 0x042 [(0x048, 0x20)] {})
    let t := after (.packReadDone (.data [0, 0])) s
    t.dev.packSup.reading = none ∧ t.dev.flag 0x042 0x048 1 = true ∧ t.dev.field 0x042 0x048 7 4 = 0 ∧
      t.dev.packSup.volt = some 12000 ∧ t.dev.reg 0x042 0x050 = 0xFFFFFFFF := by decide +kernel

theorem test_pack_lost :
    let s := polling [1] (with_ 0x042 [(0x048, 0x27)] {})
    let t := after (.packReadDone .nack) s
    s.dev.field 0x042 0x048 7 4 = 2 ∧ t.dev.packSup.reading = none ∧ t.dev.flag 0x042 0x048 1 = false ∧
      t.dev.flag 0x042 0x048 3 = true ∧ t.dev.field 0x042 0x048 9 8 = 2 ∧ t.dev.flag 0x042 0x048 2 = false ∧
      t.dev.flag 0x042 0x014 1 = true := by decide +kernel

/-- A wrong PEC fails a poll with PEC_EN = 1 and not with 0. -/
theorem test_pack_pec :
    let s := polling [1] (with_ 0x042 [(0x040, 2)] {})
    let t := after (.packReadDone (.pecError [7, 0])) s
    let u := polling [1] {}
    s.dev.running 0x042 = true ∧ s.dev.flag 0x042 0x040 1 = true ∧ s.dev.field 0x042 0x048 7 4 ≠ 2 ∧ t.dev.packSup.reading = none ∧
      t.dev.flag 0x042 0x014 2 = true ∧ t.dev.field 0x042 0x048 7 4 = 1 ∧ t.dev.flag 0x042 0x048 3 = false ∧
      u.dev.flag 0x042 0x040 1 = false ∧ (after (.packReadDone (.pecError [7, 0])) u).dev.packSup.reading = some [1, 7] := by
  decide +kernel

theorem test_pack_idle :
    let s := on { now := 999999 }
    let u := on (paged 0x042 1 { now := 49999 })
    s.dev.running 0x042 = false ∧ after .packPoll s = s ∧ u.dev.now < u.dev.packSup.pollAt + u.dev.pollPeriod ∧
      after .packPoll u = u ∧ after .packPoll (polling [] { now := 1000000 }) = polling [] { now := 1000000 } := by decide +kernel

theorem test_pack_pin :
    let s := on { now := 3 }
    let t := after (.packPresChange true) s
    t.dev.packSup.pin = true ∧ t.dev.packSup.pinAt = 3 ∧ t.dev.regs = s.dev.regs := by decide +kernel

theorem test_pack_present :
    let s := on (with_ 0x042 [(0x040, 4)] { now := 100, packSup := { pin := true } })
    let t := after .packPresAccept s
    s.dev.packSup.pin = s.dev.flag 0x042 0x040 2 ∧ s.dev.flag 0x042 0x048 0 = false ∧ t.dev.flag 0x042 0x048 0 = true ∧
      t.dev.packSup.presAt = 100 := by decide +kernel

theorem test_pack_absent :
    let s := on (paged 0x042 1 (with_ 0x042 [(0x040, 5), (0x048, 5)] { now := 100 }))
    let t := after .packPresAccept s
    s.dev.packSup.pin ≠ s.dev.flag 0x042 0x040 2 ∧ s.dev.flag 0x042 0x048 0 = true ∧ s.dev.running 0x042 = true ∧
      t.dev.flag 0x042 0x048 0 = false ∧ t.dev.flag 0x042 0x048 3 = true ∧ t.dev.field 0x042 0x048 9 8 = 1 ∧
      t.dev.flag 0x042 0x048 2 = false := by decide +kernel

theorem test_pack_absent_off :
    let s := on (with_ 0x042 [(0x040, 4), (0x048, 5)] { now := 100 })
    let t := after .packPresAccept s
    s.dev.packSup.pin ≠ s.dev.flag 0x042 0x040 2 ∧ s.dev.flag 0x042 0x048 0 = true ∧ s.dev.running 0x042 = false ∧
      t.dev.flag 0x042 0x048 0 = false ∧ t.dev.flag 0x042 0x048 2 = false ∧ t.dev.flag 0x042 0x048 3 = false := by decide +kernel

theorem test_pack_unstable :
    let s := on (with_ 0x042 [(0x040, 4)] { now := 99, packSup := { pin := true } })
    let u := on (with_ 0x042 [(0x040, 4), (0x048, 1)] { now := 100, packSup := { pin := true } })
    s.dev.now < s.dev.packSup.pinAt + 100 ∧ after .packPresAccept s = s ∧ after .packPresAccept u = u := by decide +kernel
/-! ## 07 Whorl -/

/-- Whorl on, its core 127 running (the last one, of region 75). -/
def whorlOn (d : Dev) : Dev := with_ 0x055 [(0x800, 1), (0x810, 0x100)] (paged 0x050 1 d)

/-- An event of VALUE 3 for input 511 of core 127. -/
def packet127 : WPacket := { core := 127, input := 511, word := 3 }

theorem test_whorl_arrival :
    let s := on (whorlOn { mesh := [packet127] })
    let t := after (.whorlEventArrival 127) s
    (s.dev.mesh.find? fun p => p.core == 127) = some packet127 ∧ s.dev.wasleep 127 = false ∧ s.dev.wstate 127 = 1 ∧
      bits packet127.word 31 30 < 2 ∧ s.dev.wdepth 127 < 64 ∧ t.dev.mesh = [] ∧ (t.dev.wcore 127).inbox = [.event 511 3] := by
  decide +kernel

theorem test_whorl_arrival_off :
    let s := on (paged 0x050 1 { mesh := [packet127] })
    let t := after (.whorlEventArrival 127) s
    s.dev.wasleep 127 = false ∧ s.dev.wstate 127 = 0 ∧ s.dev.running 0x050 = true ∧ t.dev.mesh = [] ∧ t.dev.wcores = s.dev.wcores ∧
      t.dev.reg (whorlReg 127 0x1C).1 (whorlReg 127 0x1C).2 = 1 := by decide +kernel

theorem test_whorl_arrival_asleep :
    let s := on ((whorlOn { mesh := [packet127] }).setRegion 75 { st := .sleep })
    let t := after (.whorlEventArrival 127) s
    s.dev.wasleep 127 = true ∧ s.dev.running 0x050 = true ∧ t.dev.mesh = [] ∧ t.dev.wcores = s.dev.wcores ∧ t.dev.reg 0x057 0x040 = 1 := by
  decide +kernel

/-- Synapse (511, 255) is −2: V of neuron 255 goes from 0 to −6, within its threshold of 100. -/
theorem test_whorl_event :
    let s := on (((whorlOn {}).setBytes (whorlBase 127 + 511 * 256 + 255) [0xFE] |>.setBytes (whorlBase 127 + 0x20000 + 8 * 255) [100]).setWcore 127
      { inbox := [.event 511 3, .tick 1] })
    let t := after (.whorlInputEvent 127) s
    s.dev.wserves 127 = true ∧ s.dev.running 0x050 = true ∧ (s.dev.nstate 127 255).ref = 0 ∧ s.dev.syn 127 511 255 = -2 ∧
      (s.dev.nstate 127 255).th = 100 ∧ (t.dev.wcore 127).inbox = [.tick 1] ∧
      t.dev.reg (whorlReg 127 0x14).1 (whorlReg 127 0x14).2 = 1 ∧ (t.dev.nstate 127 255).v = -6 ∧ (t.dev.nstate 127 255).th = 100 := by
  decide +kernel

/-- A Reel marker enters as VALUE 127 on the marker input where the core takes markers, and is dropped where it does not. -/
theorem test_whorl_marker :
    let m : WPacket := { core := 127, input := 3, word := 0xC000007F }
    let s (c : Word) := on (with_ 0x055 [(0x800, c)] (whorlOn { mesh := [m] }))
    let t (c : Word) := after (.whorlEventArrival 127) (s c)
    (s 0x1FF81).dev.wfield 127 0 7 7 = 1 ∧ bits m.word 31 30 = 3 ∧ (s 0x1FF81).dev.wdepth 127 < 64 ∧ (t 0x1FF81).dev.mesh = [] ∧
      ((t 0x1FF81).dev.wcore 127).inbox = [.event 511 127] ∧ (s 1).dev.wfield 127 0 7 7 = 0 ∧
      (t 1).dev.wcores = (s 1).dev.wcores ∧ (t 1).dev.reg (whorlReg 127 0x1C).1 (whorlReg 127 0x1C).2 = 1 := by decide +kernel

/-- With 64 events in its queue, a running core holds the packet back and one in WINDOW drops it; with 63 both take it. -/
theorem test_whorl_full :
    let s (st : Word) (n : Nat) := on (with_ 0x055 [(0x810, st)] (whorlOn { mesh := [packet127] }) |>.setWcore 127
      { inbox := .tick 0 :: List.replicate n (.event 0 1) })
    let t (st : Word) (n : Nat) := after (.whorlEventArrival 127) (s st n)
    (s 0x100 64).dev.wstate 127 = 1 ∧ (s 0x100 64).dev.wdepth 127 = 64 ∧ t 0x100 64 = s 0x100 64 ∧ (t 0x100 63).dev.mesh = [] ∧
      (s 0x200 64).dev.wstate 127 = 2 ∧ (t 0x200 64).dev.mesh = [] ∧ (t 0x200 64).dev.wcores = (s 0x200 64).dev.wcores ∧
      (t 0x200 64).dev.reg (whorlReg 127 0x1C).1 (whorlReg 127 0x1C).2 = 1 ∧ ((t 0x200 63).dev.wcore 127).inbox.length = 65 ∧
      after (.whorlEventArrival 126) (s 0x100 64) = s 0x100 64 := by decide +kernel

theorem test_whorl_control :
    let s := on (whorlOn { mesh := [{ core := 127, input := 0, word := 0x80000001 }] })
    let t := after (.whorlEventArrival 127) s
    t.dev.mesh = [] ∧ t.dev.wcores = s.dev.wcores ∧ t.dev.reg (whorlReg 127 0x1C).1 (whorlReg 127 0x1C).2 = 1 := by decide +kernel

/-- Neuron 0 with threshold 100 and REFRACT 3, V at ±99 and a synapse of ±1: it fires, keeps the rest under SUBTRACT and clears V
without it; a refractory neuron stays as it is. `hi` is the byte of NCFG with SUBTRACT and NEG_EN. -/
theorem test_whorl_fires :
    let s (hi w : Byte) (v : Int) (ref : Byte) := on (((((whorlOn {}).setBytes (whorlBase 127) [w]).setBytes (whorlBase 127 + 0x20000)
      [100, 0, 0, hi, 3]).setBytes (whorlBase 127 + 0x20800) (bytesLE 3 (BitVec.ofInt 24 v).toNat ++ [ref])).setWcore 127
      { inbox := [.event 0 3] })
    let t (hi w : Byte) (v : Int) (ref : Byte) := (after (.whorlInputEvent 127) (s hi w v ref)).dev.nstate 127 0
    (s 0x08 1 99 0).dev.wserves 127 = true ∧ ((s 0x18 1 99 0).dev.ncfg 127 0).subtract = true ∧
      ((s 0x18 1 99 0).dev.ncfg 127 0).negEn = true ∧ (t 0x08 1 99 0) = { v := 2, ref := 3, th := 100 } ∧
      (t 0x00 1 99 0) = { v := 0, ref := 3, th := 100 } ∧ (t 0x18 0xFF (-99) 0) = { v := -2, ref := 3, th := 100 } ∧
      (t 0x10 0xFF (-99) 0) = { v := 0, ref := 3, th := 100 } ∧ (t 0x08 0xFF (-99) 0) = { v := -102, ref := 0, th := 100 } ∧
      (t 0x08 1 99 1) = { v := 99, ref := 1, th := 100 } ∧ (t 0x08 0 99 0) = { v := 99, ref := 0, th := 100 } := by decide +kernel

theorem test_whorl_idle :
    let s := on ((whorlOn {}).setWcore 127 { inbox := [.tick 1] })
    let u := on ((with_ 0x055 [(0x810, 0x200)] (whorlOn {})).setWcore 127 { inbox := [.event 0 1] })
    after (.whorlInputEvent 127) s = s ∧ u.dev.wserves 127 = false ∧ after (.whorlInputEvent 127) u = u ∧
      after (.whorlTick 127) u = u ∧ after (.whorlTick 0) s = s := by decide +kernel

theorem test_sw_tick :
    let s := on (whorlOn {})
    let t := after (.swTick .portA 0x80) s
    s.Reaches 0x056 ∧ s.dev.running 0x050 = true ∧ t.dev.reg 0x056 0x07C = 1 ∧ t.dev.reg 0x056 0x060 = 0 ∧
      s.dev.wenabled 127 = true ∧ s.dev.wasleep 127 = false ∧ s.dev.wstate 127 = 1 ∧ (t.dev.wcore 127).inbox = [.tick 7] ∧
      ((after (.swTick .portA 0x81) s).dev.wcore 127).inbox = [.tick 0, .tick 7] := by decide +kernel

/-- Neuron 0, alone in group 1: LEAK_SHIFT 1, V = 9, REF = 2. -/
theorem test_whorl_tick :
    let s := on ((((whorlOn {}).setBytes (whorlBase 127 + 0x20000) [100, 0, 0x10, 1]).setBytes (whorlBase 127 + 0x20800) [9, 0, 0, 2]).setWcore 127
      { inbox := [.tick 1] })
    let t := after (.whorlTick 127) s
    s.dev.wserves 127 = true ∧ (s.dev.ncfg 127 0).leakGroup = 1 ∧ 0 < (s.dev.ncfg 127 0).leakShift ∧ 2 ≤ (s.dev.nstate 127 0).ref ∧
      (s.dev.nstate 127 0).v = 9 ∧ (t.dev.wcore 127).inbox = [] ∧ (t.dev.nstate 127 0).ref = 1 ∧ (t.dev.nstate 127 0).v = 5 ∧
      (s.dev.ncfg 127 1).leakGroup = 0 ∧ t.dev.nstate 127 1 = s.dev.nstate 127 1 := by decide +kernel

theorem test_storm_quiet :
    let s := on ((with_ 0x058 [(0x43C, 0x80000000)] { now := 100000 }).setStorm 63 { passed := [0] })
    let t := after (.stormQuietExpiry 63) s
    s.dev.stormMasked 63 = true ∧ (s.dev.storm 63).last + 100000 ≤ s.dev.now ∧ t.dev.stormMasked 63 = false ∧
      (t.dev.storm 63).passed = [] ∧ after (.stormQuietExpiry 63) t = t ∧
      after (.stormQuietExpiry 63) (on { s.dev with now := 99999 }) = on { s.dev with now := 99999 } := by decide +kernel

theorem test_window :
    let s := on (own 0x055 (whorlOn { now := 4 }))
    let t := after (.winOpen .portA 127) s
    let u := after (.winClose .portA 127) t
    s.Admits .portA (whorlReg 127 0).1 ∧ s.dev.wstate 127 = 1 ∧ t.dev.wstate 127 = 2 ∧ (t.dev.wcore 127).opened = 4 ∧
      (t.dev.wcore 127).held = [] ∧ u.dev.wstate 127 = 1 ∧ after (.winOpen .portA 127) t = t ∧ after (.winClose .portA 127) s = s := by
  decide +kernel

theorem test_window_timeout :
    let s := on (with_ 0x055 [(0x810, 0x200)] (whorlOn { now := 70000000 }))
    let t := after (.winTimeout 127) s
    s.dev.wstate 127 = 2 ∧ (s.dev.wcore 127).opened + s.dev.winTmo ≤ s.dev.now ∧ t.dev.wstate 127 = 1 ∧
      t.dev.flag 0x050 0x014 2 = true ∧ after (.winTimeout 127) t = t ∧
      after (.winTimeout 127) (on { s.dev with now := s.dev.winTmo - 1 }) = on { s.dev with now := s.dev.winTmo - 1 } := by decide +kernel

theorem test_core_enable :
    let s := on (own 0x052 (paged 0x050 1 {}))
    let t := after (.coreEnable .portA 0) s
    let u := after (.coreDisable .portA 0) t
    s.Admits .portA (whorlReg 0 0).1 ∧ s.dev.wstate 0 = 0 ∧ s.dev.running 0x050 = true ∧ t.dev.wstate 0 = 1 ∧
      t.dev.wenabled 0 = true ∧ u.dev.wstate 0 = 0 ∧ u.dev.wenabled 0 = false ∧ (u.dev.wcore 0).inbox = [] := by decide +kernel

/-- The last bytes of the synapses of a core in WINDOW, and of a running core. -/
theorem test_store_write :
    let s := on (with_ 0x055 [(0x810, 0x200)] (whorlOn {}))
    let t := after (.whorlStoreWrite .producer 127 0x1FFFE [1, 2]) s
    let u := after (.whorlStoreWrite .producer 127 0x1FFFE [1, 2]) (on (whorlOn {}))
    s.dev.wstate 127 ≠ 1 ∧ t.dev.bytes (whorlBase 127 + 0x1FFFD) 4 = [0, 1, 2, 0] ∧ u.dev.mem = [] ∧ u.dev.flag 0x050 0x014 1 = true ∧
      u.dev.field 0x050 0x04C 6 0 = 127 := by decide +kernel

/-- NCFG keeps its 50 bits and gives TH its base; NSTATE keeps its fields, TH with ADAPT_EN alone. -/
theorem test_store_neuron :
    let s := on (with_ 0x055 [(0x810, 0x200)] (whorlOn {}))
    let t := after (.whorlStoreWrite .producer 127 0x207F8 (List.replicate 8 255)) s
    let u := after (.whorlStoreWrite .producer 127 0x20FF8 [0xFF, 0xFF, 0xFF, 0xFF, 9, 0, 9, 9]) t
    let v := after (.whorlStoreWrite .producer 127 0x20FF8 [1, 0, 0, 0xF0, 9, 0, 9, 9]) s
    t.dev.num (whorlBase 127 + 0x20000 + 8 * 255) 8 = 2 ^ 50 - 1 ∧ (t.dev.nstate 127 255).th = 65535 ∧
      t.dev.nstate 127 254 = s.dev.nstate 127 254 ∧ u.dev.nstate 127 255 = { v := -1, ref := 15, th := 9 } ∧
      u.dev.ncfg 127 255 = t.dev.ncfg 127 255 ∧ v.dev.nstate 127 255 = { v := 1, ref := 0, th := 1 } := by decide +kernel

/-- Above the store nothing is written and nothing refused. -/
theorem test_store_above :
    let s := on (whorlOn {})
    s.dev.wstate 127 = 1 ∧ after (.whorlStoreWrite .producer 127 0x22000 [1]) s = s ∧
      after (.whorlStoreWrite .producer 127 0x3FFFF [1]) (on {}) = on {} := by decide +kernel
/-! ## 08 Flyer -/

/-- Stream 255 in a state, its page awake and on. -/
def stream255 (st : Nat) (f : FStream) (d : Dev) : Dev := (runs 64 (paged 0x060 1 ((d.setSstate 255 st).setStream 255 f)))

/-- Sixteen steps processed and none scored: the chunk scores them, and takes no more with LOOKAHEAD = 0. -/
theorem test_chunk_start :
    let s := on (stream255 1 { taken := 16 } {})
    let t := after (.chunkStart 255) s
    (s.dev.stream 255).chunk = none ∧ s.dev.sstate 255 = 1 ∧ s.dev.frozen 0x060 = false ∧ s.dev.running 0x060 = true ∧
      s.dev.sflag 255 0 5 = false ∧ s.dev.sreg 255 0x3C = 0 ∧
      (s.dev.stream 255).taken - (s.dev.stream 255).scored ≤ s.dev.chunkLen 255 + s.dev.lookahead 255 ∧
      s.dev.stepsReady 255 0 = 0 ∧ s.dev.chunkLen 255 + s.dev.lookahead 255 = 16 ∧ (t.dev.stream 255).chunk = some (0, 16) ∧
      t.dev.sstate 255 = 1 := by decide +kernel

/-- Two buffered steps: an ending stream takes them. -/
theorem test_chunk_ending :
    let s := on (stream255 4 { fed := [(0x10004000000, 2)] } ({} : Dev) |> fun d => d.setSField 255 0x18 4 0 31)
    let t := after (.chunkStart 255) s
    s.dev.sstate 255 = 4 ∧ s.dev.running 0x060 = true ∧ (t.dev.stream 255).chunk = some (2, 2) ∧ t.dev.sstate 255 = 4 := by decide +kernel

/-- Two buffered steps of input 31, and the entry word 4 as given: L in bits 3–0, A in bits 24–16. -/
def fed255 (st : Nat) (w : Word) (f : FStream) : State :=
  on (stream255 st { f with fed := [(0x10004000000, 2)] } (({} : Dev) |> fun d => (d.setSField 255 0x18 4 0 31).setSField 255 4 31 0 w.toNat))

/-- MAX_STEPS reached: the stream is ending. One step and its lookahead are enough with GREEDY; without it 16 are not there, and a
pausing stream retires without a step while one in RUN waits. -/
theorem test_chunk_starts :
    let lim := on ((fed255 1 0 {}).dev.setReg (Dev.streamReg 255 0x3C).1 (Dev.streamReg 255 0x3C).2 2)
    let greedy (st : Nat) (a : Word) := on ((fed255 st a {}).dev.setSFlag 255 0 5 true)
    (lim.dev.sreg 255 0x3C).toNat = 2 ∧ lim.dev.stepsReady 255 2 = 2 ∧
      ((after (.chunkStart 255) lim).dev.stream 255).chunk = some (2, 2) ∧ (after (.chunkStart 255) lim).dev.sstate 255 = 4 ∧
      (greedy 1 0x10000).dev.lookahead 255 = 1 ∧ (greedy 1 0x10000).dev.sflag 255 0 5 = true ∧
      ((after (.chunkStart 255) (greedy 1 0x10000)).dev.stream 255).chunk = some (2, 1) ∧
      after (.chunkStart 255) (greedy 1 0x20000) = greedy 1 0x20000 ∧
      ((after (.chunkStart 255) (greedy 2 0x20000)).dev.stream 255).chunk = some (0, 0) ∧
      after (.chunkStart 255) (fed255 1 0 {}) = fed255 1 0 {} ∧
      ((after (.chunkStart 255) (fed255 2 0 {})).dev.stream 255).chunk = some (0, 0) ∧
      ((after (.chunkStart 255) (fed255 2 0 { taken := 14 })).dev.stream 255).chunk = some (2, 16) ∧
      after (.chunkStart 255) (fed255 3 0 {}) = fed255 3 0 {} ∧
      after (.chunkStart 255) (fed255 1 0 { chunk := some (1, 1) }) = fed255 1 0 { chunk := some (1, 1) } := by decide +kernel

theorem test_chunk_retire :
    let s := on (stream255 1 { chunk := some (0, 0), taken := 5, scored := 4, dim := 0 } {})
    let t := after (.chunkRetire 255) s
    s.dev.CanServe (fun d => d.chunkRetire 255) ∧ (s.dev.stream 255).due = none ∧
    (t.dev.stream 255).chunk = none ∧ t.dev.sstate 255 = 1 ∧ (t.dev.stream 255).taken = 5 ∧ (t.dev.stream 255).scored = 4 := by
  decide +kernel

theorem test_chunk_pause :
    let s := on (stream255 2 { chunk := some (0, 0), dim := 0, taken := 7, lanes := 1 } {})
    let t := after (.chunkRetire 255) s
    s.dev.CanServe (fun d => d.chunkRetire 255) ∧ (s.dev.stream 255).due = none ∧ s.dev.sstate 255 = 2 ∧ s.dev.sflag 255 0 7 = false ∧
      (s.dev.readState 255 (s.dev.stream 255)).2.1.poison = 0 ∧
      Dev.pageParts (s.dev.sptr 255 8) (Dev.stateBytes (s.dev.stream 255) + 4 * (s.dev.stream 255).dim * s.dev.lookahead 255) = [] ∧
      s.dev.unanswered (Dev.streamWho (s.dev.stream 255)) = false ∧ t.dev.sstate 255 = 3 ∧
      (t.dev.stream 255).lanes = 0 ∧ (t.dev.stream 255).taken = 7 := by decide +kernel

/-- A chunk whose writes another device has not answered waits with its scores, and ends once they are answered. -/
theorem test_chunk_due :
    let f : FStream := { chunk := some (0, 0), due := some [], task := some 3 }
    let r : Remote := { tag := 0, read := false, who := .engine 3, addr := 0, len := 1, sent := 0 }
    let s := on (stream255 1 f { remotes := [r] })
    let u := on (stream255 1 f {})
    let t := after (.chunkRetire 255) u
    s.dev.CanServe (fun d => d.chunkRetire 255) ∧ (s.dev.stream 255).due = some [] ∧
      s.dev.unanswered (Dev.streamWho (s.dev.stream 255)) = true ∧ after (.chunkRetire 255) s = s ∧
      u.dev.CanServe (fun d => d.chunkRetire 255) ∧ u.dev.unanswered (Dev.streamWho (u.dev.stream 255)) = false ∧
      (t.dev.stream 255).chunk = none ∧ (t.dev.stream 255).due = none := by decide +kernel

theorem test_pause_resume :
    let s := on (own (Dev.streamReg 255 0).1 (stream255 1 {} {}))
    let t := after (.streamPause .portA 255) s
    let u := after (.streamResume .portA 255) t
    s.Admits .portA (Dev.streamReg 255 0).1 ∧ t.dev.sstate 255 = 2 ∧ t.dev.sflag 255 0 2 = true ∧ u.dev.sstate 255 = 1 ∧
      u.dev.sflag 255 0 2 = false := by decide +kernel

theorem test_resume_paused :
    let s := on (own (Dev.streamReg 255 0).1 (stream255 3 {} {}))
    let t := after (.streamResume .portA 255) s
    s.dev.running 0x060 = true ∧ s.dev.laneGroup (s.dev.laneCount 255) = some 0 ∧ t.dev.sstate 255 = 1 ∧
      (t.dev.stream 255).lanes = s.dev.laneCount 255 := by decide +kernel

/-- Without a free lane it stays paused. -/
theorem test_resume_waits :
    let s := on (own (Dev.streamReg 255 0).1 (with_ 0x060 [(0x048, 0)] (stream255 3 {} {})))
    let t := after (.streamResume .portA 255) s
    s.dev.laneGroup (s.dev.laneCount 255) = none ∧ t.dev.sstate 255 = 3 ∧ t.dev.sflag 255 0 2 = false := by decide +kernel

theorem test_stream_end :
    let e (st : Nat) := after (.streamEnd .portA 255) (on (own (Dev.streamReg 255 0).1 (stream255 st {} {})))
    (e 1).dev.sstate 255 = 4 ∧ (e 2).dev.sstate 255 = 4 ∧ (e 3).dev.sstate 255 = 0 ∧ (e 5).dev.sstate 255 = 0 ∧
      ((e 6).dev.stream 255).stop = true ∧
      [0, 4, 7].all (fun st => decide (e st = on (own (Dev.streamReg 255 0).1 (stream255 st {} {})))) = true := by decide +kernel

/-- A paused stream may owe scores; END then computes them. -/
theorem test_end_paused :
    let s := on (own (Dev.streamReg 255 0).1 (stream255 3 { taken := 5, scored := 4 } {}))
    s.Admits .portA (Dev.streamReg 255 0).1 ∧ s.dev.sstate 255 = 3 ∧ (s.dev.stream 255).taken ≠ (s.dev.stream 255).scored := by decide +kernel

theorem test_in_timeout :
    let s := on (stream255 1 {} { now := 5000 } |> fun d => d.setSField 255 0x1C 15 0 5)
    let t := after (.streamInTimeout 255) s
    (s.dev.stream 255).chunk = none ∧ s.dev.sfield 255 0x1C 15 0 = 5 ∧ (s.dev.stream 255).seenAt + 5000 ≤ s.dev.now ∧
      (s.dev.chan (s.dev.srcCh 255)).wroteAt + 5000 ≤ s.dev.now ∧ t.dev.sstate 255 = 4 ∧ (t.dev.stream 255).status = 0x40 ∧
      t.dev.flag 0x060 0x014 4 = true ∧ after (.streamInTimeout 255) t = t ∧
      after (.streamInTimeout 255) (on { s.dev with now := 4999 }) = on { s.dev with now := 4999 } := by decide +kernel

/-! ## 09 Loom, 10 Attention -/

/-- A layer command with LAST = 1: OP, its three format bytes, GROUP, GEOM, OUT_SCALE; its operands stand in the AON SRAM. -/
def layerCmd (op fin fout group geom scale : Nat) : LCmd :=
  { raw := op + 256 + fin * 2 ^ 16 + fout * 2 ^ 24 + group * 2 ^ 32 + geom * 2 ^ 64 + 0x10004001000 * 2 ^ 192 + 0x10004002000 * 2 ^ 256 +
      0x10004003000 * 2 ^ 320 + 0x10004004000 * 2 ^ 384 + scale * 2 ^ 448 }

/-- The task whose list of one command stands at the AON SRAM's base. -/
def loomTask1 : Task := { ring := 0, seq := 0, words := [4, 0, 0, 0, 0x04000000, 0x100, 1], by_ := .hardware, st := .dispatched, order := 0 }

/-- Loom READY with the task in service, its command a list of one; group 1 is tile 0. KV_CFG has one layer of one head of FP16, its
structures in the AON SRAM: one span, one sequence, no nodes. -/
def loomOn (c : LCmd) (started : Bool) (d : Dev) : Dev :=
  let d := (d.setTask 9 (some loomTask1)).setBytes 0x10004000000 (bytesLE 64 c.raw)
  let d := with_ 0x0C0 [(0x040, 1)] (paged 0x0C0 1 (with_ 0x0C4 [(0x040, 0x100101), (0x048, 0x04010000), (0x04C, 0x100), (0x050, 1),
    (0x058, 0x04005000), (0x05C, 0x100), (0x060, 0x04005100), (0x064, 0x100), (0x068, 0x04005200), (0x06C, 0x100), (0x078, 0x04006000),
    (0x07C, 0x100)] d))
  { d with loom := { slot := some 9, started := started, tiles := 1 } }

/-- Sequence 0 is live with room for one span, its list at 0x100_0400_7000. -/
def seq0 (d : Dev) : Dev := d.setBytes 0x10004005100 [1, 0, 0, 0, 0, 0, 0, 0, 0, 0, 0, 0, 1, 0, 0, 0, 0, 0x70, 0, 4, 0, 1]

theorem test_loom_start :
    let c := layerCmd 0x04 0 0 1 (1 + 2 * 2 ^ 32) 0
    let s := on (runs 0 (loomOn c false {}))
    let t := after .loomTaskStart s
    s.Powered ∧ s.dev.loomTask = some loomTask1 ∧ s.dev.loom.started = false ∧ s.dev.tilesReady s.dev.loom.tiles = true ∧
      loomTask1.addr 0x10 % 64 = 0 ∧ bits (loomTask1.word 5) 31 16 = 0 ∧ Dev.cmdCount loomTask1 ≠ 0 ∧ loomTask1.abort = false ∧
      s.dev.loom.cmd = 0 ∧ spanOf (loomTask1.addr 0x10) = .aon ∧ s.dev.cmdBad s.dev.loom.fwd (s.dev.cmdOf loomTask1 0) = false ∧
      ((tilesOf (s.dev.cmdTiles (s.dev.cmdOf loomTask1 0))).all fun n => (s.dev.liveTile n).isSome) = true ∧
      t.dev.loom.started = true ∧ t.dev.loom.slot = some 9 ∧ t.dev.loom.layer = some 0 := by decide +kernel

/-- What a task in service ends with before its first command, LAST_FAULT = status × 65,536: a list of no command, a command of OP 0, a
poisoned list, and a group without a live tile in its quadrant. An aborted task retires without one. -/
theorem test_loom_start_ends :
    let c := layerCmd 0x04 0 0 1 1 0
    let s (t : Task) (c : LCmd) := on ((runs 0 (loomOn c false {})).setTask 9 (some t))
    let empty : Task := { loomTask1 with words := [4, 0, 0, 0, 0x04000000, 0x100, 0] }
    let aborted : Task := { loomTask1 with abort := true }
    let placed : Task := { loomTask1 with words := [4, 0, 0, 0, 0, 0, 1] }
    let p := on ({ (s placed c).dev with hbmReady := true }.setLinePoison 0 1)
    let dead := on (forEach (List.range 64) (fun r d => d.setRegion r { st := .retired }) (s loomTask1 c).dev)
    let fault (s : State) : Word := (after .loomTaskStart s).dev.reg 0x0C0 0x0E4
    (s empty c).dev.CanServe Dev.loomStart ∧ (s empty c).dev.tilesReady 1 = true ∧ Dev.cmdCount empty = 0 ∧ fault (s empty c) = 0x500000 ∧
      (s aborted c).dev.CanServe Dev.loomStart ∧ fault (s aborted c) = 0 ∧
      (after .loomTaskStart (s aborted c)).dev.loom.slot = none ∧
      (s loomTask1 (layerCmd 0 0 0 1 1 0)).dev.cmdBad none (layerCmd 0 0 0 1 1 0) = true ∧
      fault (s loomTask1 (layerCmd 0 0 0 1 1 0)) = 0x500000 ∧
      p.dev.CanServe Dev.loomStart ∧ Dev.readStatus (p.dev.read p.dev.loomWho 0 64).1 = some 0x30 ∧ fault p = 0x300000 ∧
      dead.dev.CanServe Dev.loomStart ∧ dead.dev.tilesReady 1 = true ∧ dead.dev.liveTile 0 = none ∧ fault dead = 0xF00000 := by
  decide +kernel

/-- A tile that is not in RUN keeps the task waiting. -/
theorem test_loom_start_waits :
    let s := on (loomOn (layerCmd 0x04 0 0 1 1 0) false {})
    let t := after .loomTaskStart s
    s.dev.CanServe Dev.loomStart ∧ s.dev.tilesReady s.dev.loom.tiles = false ∧ t.dev.loom = s.dev.loom ∧
      after .loomTaskStart (on {}) = on {} ∧
      after .loomTaskStart (on (loomOn (layerCmd 0x04 0 0 1 1 0) true {})) = on (loomOn (layerCmd 0x04 0 0 1 1 0) true {}) := by decide +kernel

/-- Command `c` of kind `k` meets the premises of the statement on layer commands. -/
abbrev Completes (k : LKind) (f : LRun → LRun) (c : LCmd) : Prop :=
  let s := on (seq0 (loomOn c true {}))
  s.Powered ∧ s.dev.Serves k c ∧ s.dev.unanswered s.dev.loomWho = false ∧ (f (s.dev.loomInput c)).EndsWell

/-- The state in which a command of the tests stands is sound, and the command has met nothing. -/
theorem loom_fine (c : LCmd) (h : (on (seq0 (loomOn c true {}))).dev.poison = [] ∧ (on (seq0 (loomOn c true {}))).dev.places = []) :
    LRun.Fine c ((on (seq0 (loomOn c true {}))).dev.loomInput c) := by
  refine ⟨rfl, rfl, rfl, rfl, rfl, rfl, h.1, fun p => ?_⟩
  unfold Dev.place
  show (Sparse.get Place.atReset (on (seq0 (loomOn c true {}))).dev.places p).trap = false ∧
    (Sparse.get Place.atReset (on (seq0 (loomOn c true {}))).dev.places p).lostAll = 0
  rw [h.2]
  show (Place.atReset p).trap = false ∧ (Place.atReset p).lostAll = 0
  unfold Place.atReset
  split
  · exact ⟨rfl, rfl⟩
  · split
    · exact ⟨rfl, rfl⟩
    · split <;> exact ⟨rfl, rfl⟩

/-- GEMM of 1 × 1 × 1, and convolutions of one pixel of one channel. -/
def gemm1 : LCmd := layerCmd 0x01 0 0 1 (1 + 2 ^ 32 + 2 ^ 64) 0
def conv1 (op fin : Nat) : LCmd := layerCmd op fin 0 1 (1 + 2 ^ 16 + 2 ^ 32 + 2 ^ 48 + 2 ^ 64 + 2 ^ 68) 0

theorem plain_gemm1 : LRun.Plain gemm1 := by constructor <;> decide +kernel

theorem plain_conv1 : ∀ e ∈ [(2, 0), (3, 0), (0x10, 0x11)], LRun.Plain (conv1 e.1 e.2) := by
  intro e he
  simp only [List.mem_cons, List.not_mem_nil, or_false] at he
  obtain rfl | rfl | rfl := he <;> constructor <;> decide +kernel

theorem test_gemm_runs : Completes .gemm .gemm gemm1 :=
  ⟨by decide +kernel, by decide +kernel, by decide +kernel, (loom_fine gemm1 (by decide +kernel)).gemm plain_gemm1 (by decide +kernel)⟩

theorem test_conv_runs : Completes .conv .conv (conv1 2 0) :=
  ⟨by decide +kernel, by decide +kernel, by decide +kernel, (loom_fine (conv1 2 0) (by decide +kernel)).conv (plain_conv1 (2, 0) (by simp))
    ((convGeo (conv1 2 0) 1 1).get (by decide +kernel)) (by decide +kernel) (by decide +kernel)⟩

theorem test_dwconv_runs : Completes .dwconv .conv (conv1 3 0) :=
  ⟨by decide +kernel, by decide +kernel, by decide +kernel, (loom_fine (conv1 3 0) (by decide +kernel)).conv (plain_conv1 (3, 0) (by simp))
    ((convGeo (conv1 3 0) 1 1).get (by decide +kernel)) (by decide +kernel) (by decide +kernel)⟩

theorem test_elem_add_runs : Completes .elemAdd (fun x => x.elem (some fadd))
    (layerCmd 0x04 0 0 1 2 0) := by decide +kernel

theorem test_elem_mul_runs : Completes .elemMul (fun x => x.elem (some fmul))
    (layerCmd 0x04 0 0 1 (2 + 2 ^ 32) 0) := by decide +kernel

theorem test_elem_act_runs : Completes .elemAct (fun x => x.elem none)
    (layerCmd 0x04 0 0 1 (2 + 2 ^ 33) 0) := by decide +kernel

theorem test_norm_rms_runs : Completes .normRms (fun x => x.norm 0)
    (layerCmd 0x05 0 0 1 (1 + 2 ^ 32) 0) := by decide +kernel

theorem test_norm_mean_runs : Completes .normMean (fun x => x.norm 1)
    (layerCmd 0x05 0 0 1 (1 + 2 ^ 32 + 2 ^ 64) 0) := by decide +kernel

theorem test_copy_runs : Completes .copy .copy
    (layerCmd 0x07 0 0 1 2 0x3F800000) := by decide +kernel

theorem test_copy_quant_runs : Completes .copyQuant .copyQuant
    (layerCmd 0x07 0 8 1 2 0) := by decide +kernel

theorem test_card_conv_runs : Completes .cardConv .cardConv (conv1 0x10 0x11) := by
  refine ⟨by decide +kernel, by decide +kernel, by decide +kernel, ?_⟩
  have h : (conv1 0x10 0x11).geom 97 96 = 0 := by decide +kernel
  unfold LRun.cardConv
  rw [if_pos h]
  exact (loom_fine (conv1 0x10 0x11) (by decide +kernel)).conv (plain_conv1 (0x10, 0x11) (by simp))
    ((convGeo (conv1 0x10 0x11) 1 1).get (by decide +kernel)) (by decide +kernel) (by decide +kernel)

theorem test_card_gemm_runs : Completes .cardGemm .gemm
    (layerCmd 0x11 0x88 0 1 (1 + 2 ^ 32 + 2 ^ 64) 0) := by decide +kernel

theorem test_topk_runs : Completes .topk .topk
    (layerCmd 0x12 0 0 1 (2 + 2 ^ 32) 0) := by decide +kernel

theorem test_attend_runs : Completes .attend .attend
    (layerCmd 0x06 0 0 1 (2 ^ 16 + 2 ^ 32) 0) := by decide +kernel

theorem test_lookup_runs : Completes .lookup .lookup
    (layerCmd 0x06 0 0 1 2 0) := by decide +kernel

theorem test_insert_runs : Completes .insert .insert
    (layerCmd 0x06 0 0 1 3 0) := by decide +kernel

theorem test_release_runs : Completes .release .release
    (layerCmd 0x06 0 0 1 4 0) := by decide +kernel

theorem test_prune_runs : Completes .prune .prune
    (layerCmd 0x06 0 0 1 5 0) := by decide +kernel

theorem test_append_runs : Completes .append .append
    (layerCmd 0x06 0 0 1 (1 + 2 ^ 16) 0) := by decide +kernel

/-- A command whose input is poisoned, and one whose input traps as unwritten, poison their outputs and end the task; another kind of
command does nothing. -/
theorem test_elem_spoiled :
    let c0 := layerCmd 0x04 0 0 1 (2 + 2 ^ 33) 0
    let c : LCmd := { raw := c0.raw - 0x10004001000 * 2 ^ 192 - 0x10004003000 * 2 ^ 320 + 0x10000 * 2 ^ 320 }
    let s := on ({ loomOn c true {} with hbmReady := true }.setLinePoison 0 1)
    let u := on ({ loomOn c true {} with hbmReady := true }.setPlace 0 { trap := true })
    let x := LRun.elem (s.dev.loomInput c) none
    let y := LRun.elem (u.dev.loomInput c) none
    s.dev.Serves .elemAct c ∧ s.dev.CanServe (Dev.loomServe .elemAct fun x => x.elem none) ∧
      Dev.readStatus { bytes := [], trap := x.trap, poison := x.poison } = some 0x30 ∧
      (after .elemAct s).dev.reg 0x0C0 0x0E4 = 0x300000 ∧ x.outs.map (·.1) = [0x10000] ∧
      (after .elemAct s).dev.linePoison 0x400 = 1 ∧ u.dev.Serves .elemAct c ∧
      u.dev.CanServe (Dev.loomServe .elemAct fun x => x.elem none) ∧
      Dev.readStatus { bytes := [], trap := y.trap, poison := y.poison } = some 0x20 ∧
      (after .elemAct u).dev.reg 0x0C0 0x0E4 = 0x200000 ∧ kindOf c ≠ some .gemm ∧ after .gemm s = s := by decide +kernel

/-- A CARD_CONV of a record that is no FRAME fails with FORMAT. -/
theorem test_card_conv_fails :
    let c := layerCmd 0x10 0x11 0 1 (1 + 2 ^ 16 + 2 ^ 32 + 2 ^ 48 + 2 ^ 64 + 2 ^ 68 + 2 ^ 96) 0
    let s := on (loomOn c true {})
    let x := LRun.cardConv (s.dev.loomInput c)
    s.dev.Serves .cardConv c ∧ s.dev.CanServe (Dev.loomServe .cardConv LRun.cardConv) ∧
      Dev.readStatus { bytes := [], trap := x.trap, poison := x.poison } = none ∧ x.fail = some 0x50 ∧
      (after .cardConv s).dev.reg 0x0C0 0x0E4 = 0x500000 ∧ (after .cardConv s).dev.reg 0x0C0 0x0E0 = 0 := by decide +kernel

/-- ELEM_ADD of 1 + 2 and 3 + (−3), and the command's count. -/
theorem test_elem_add :
    let c := layerCmd 0x04 0 0 1 2 0
    let s := on ((loomOn c true {}).setBytes 0x10004001000 [0, 0, 0x80, 0x3F, 0, 0, 0x40, 0x40] |>.setBytes 0x10004004000 [0, 0, 0, 0x40, 0, 0, 0x40, 0xC0])
    let t := after .elemAdd s
    s.dev.Serves .elemAdd c ∧ c.fmtIn = 0 ∧ c.fmtOut = 0 ∧ c.layOut = 0 ∧ c.stat = false ∧ c.argIn = false ∧ c.fwdIn = false ∧ c.fwdOut = false ∧
      spanOf c.inPtr = .aon ∧ spanOf c.auxPtr = .aon ∧ spanOf c.outPtr = .aon ∧ t.dev.num 0x10004003000 4 = 0x40400000 ∧
      t.dev.num 0x10004003004 4 = 0 ∧ t.dev.reg 0x0C0 0x0E0 = 1 := by decide +kernel

/-- ELEM_MUL: 3 × −3 = −9. -/
theorem test_elem_mul :
    let s := on ((loomOn (layerCmd 0x04 0 0 1 (1 + 2 ^ 32) 0) true {}).setBytes 0x10004001000 [0, 0, 0x40, 0x40] |>.setBytes 0x10004004000 [0, 0, 0x40, 0xC0])
    (after .elemMul s).dev.num 0x10004003000 4 = 0xC1100000 := by decide +kernel

/-- TOPK of −1 and 2 with K = 1: index 1, value 2. -/
theorem test_topk :
    let s := on ((loomOn (layerCmd 0x12 0 0 1 (2 + 2 ^ 32) 0) true {}).setBytes 0x10004001000 [0, 0, 0x80, 0xBF, 0, 0, 0, 0x40])
    (after .cardTopk s).dev.bytes 0x10004003000 8 = [1, 0, 0, 0, 0, 0, 0, 0x40] := by decide +kernel

/-- CARD_GEMM of INT8: (2, 3) · (4, −5) = −7 in FP32. -/
theorem test_card_gemm :
    let s := on ((loomOn (layerCmd 0x11 0x88 0 1 (1 + 2 ^ 32 + 2 ^ 65) 0x3F800000) true {}).setBytes 0x10004001000 [2, 3] |>.setBytes 0x10004002000 [4, 0xFB])
    (after .cardGemm s).dev.num 0x10004003000 4 = 0xC0E00000 := by decide +kernel

theorem test_kv_edit :
    let s := on (own 0x0C4 (runs 0 {}))
    let t := after (.kvEdit .portA) s
    let u := after (.kvEditEnd .portA) t
    s.Admits .portA 0x0C4 ∧ t.dev.flag 0x0C4 0x080 0 = true ∧ t.dev.flag 0x0C4 0x080 8 = true ∧ t.dev.mem = s.dev.mem ∧
      u.dev.flag 0x0C4 0x080 0 = false ∧ u.dev.flag 0x0C4 0x080 8 = false ∧ u.dev.kvScan = true ∧
      after (.kvEditEnd .portA) s = s := by decide +kernel

/-- Three spans, the second not FREE. -/
theorem test_kv_rescan :
    let s := on ((with_ 0x0C4 [(0x050, 3), (0x058, 0x04005000), (0x05C, 0x100)] { kvScan := true }).setByte 0x10004005020 1)
    let t := after .kvRescanDone s
    t.dev.kvScan = false ∧ t.dev.reg 0x0C4 0x084 = 2 ∧ after .kvRescanDone t = t := by decide +kernel

/-! ## 12 Skein -/

/-- HBM is ready and page 1 has frame 5 of tier 3. -/
def hbm (d : Dev) : Dev := ({ d with hbmReady := true } : Dev).setPlace 1 { tier := 3, frame := 5 }

theorem test_write_direct :
    let s := on {}
    let t := after (.skeinWrite (.port .a) 0x1000400003F [1, 2]) s
    s.Powered ∧ directSram 0x1000400003F ∧ t.dev.bus = .done ∧ t.dev.bytes 0x1000400003E 4 = [0, 1, 2, 0] ∧
      t.dev.lineWritten (0x10004000040 / 64) = true := by decide +kernel

theorem test_write_placed :
    let s := on ((hbm {}).setLinePoison (0x1FFC0 / 64) 1)
    let t := after (.skeinWrite .producer 0x1FFC0 (List.replicate 64 7)) s
    s.Powered ∧ spanOf 0x1FFC0 = .placed ∧ s.dev.placedOpen = true ∧ (s.dev.place 1).tier ≠ 7 ∧ s.dev.migrating 1 = false ∧
      s.dev.linePoison (0x1FFC0 / 64) = 1 ∧ t.dev.bus = .done ∧ t.dev.bytes 0x1FFBF 3 = [0, 7, 7] ∧ t.dev.byte 0x20000 = 0 ∧
      t.dev.linePoison (0x1FFC0 / 64) = 0 := by decide +kernel

/-- A page without a frame gets one; one pinned to the neighbours' tier without a neighbour does not, and the write is dropped. -/
theorem test_write_frames :
    let s := on { ({} : Dev) with hbmReady := true }
    let t := after (.skeinWrite .producer 0x1FFFE [1, 2]) s
    let u := on ((hbm {}).setPlace 1 { pin := true, fix := 4 })
    let v := after (.skeinWrite (.core 9) 0x10000 [1]) u
    s.dev.placedOpen = true ∧ 0x1FFFE % 65536 + 2 ≤ 65536 ∧ s.dev.migrating 1 = false ∧ (s.dev.place 1).tier = 7 ∧
      (s.dev.giveFrame 1).isSome = true ∧ t.dev.bus = .done ∧ t.dev.bytes 0x1FFFD 4 = [0, 1, 2, 0] ∧ (t.dev.place 1).tier = 0 ∧
      u.dev.placedOpen = true ∧ u.dev.migrating 1 = false ∧ (u.dev.place 1).tier = 7 ∧ (u.dev.giveFrame 1).isNone = true ∧
      v.dev.bus = .done ∧ v.dev.mem = [] ∧ v.dev.reg 0x0D0 0x060 = 1 ∧ v.dev.reg 0x0D0 0x064 = 0x93 ∧ v.dev.flag 0x0D0 0x014 1 = true := by
  decide +kernel

theorem test_write_migrating :
    let s := on { hbm {} with migs := [{ page := 1, dest := 2, prio := .adapt }] }
    let t := after (.skeinWrite .producer 0x10000 [1]) s
    s.dev.placedOpen = true ∧ s.dev.migrating 1 = true ∧ t.dev.bus = .done ∧ t.dev.mem = [] ∧
      t.dev.held = [{ who := .producer, addr := 0x10000, data := [1] }] := by decide +kernel

theorem test_write_waits :
    let s := on {}
    let t := after (.skeinWrite (.core 2) 0x10000 [1]) s
    s.Powered ∧ spanOf 0x10000 = .placed ∧ s.dev.placedOpen = false ∧ t.dev.bus = .waiting ∧ t.dev.mem = [] ∧
      t.dev.waits = [{ who := .core 2, addr := 0x10000, data := some [1], since := 0 }] := by decide +kernel

theorem test_unmapped :
    let s := on {}
    let t := after (.skeinRead (.port .a) 0x4000000000 3 .clean) s
    let u := after (.skeinWrite (.engine 0) 0x10002000000 [1]) s
    s.Powered ∧ spanOf 0x4000000000 = .unmapped ∧ spanOf 0x10002000000 = .unmapped ∧ spanOf 0x3FFFFFFFFF = .placed ∧
      t.dev.bus = .bytes [0, 0, 0] ∧ t.dev.reg 0x0D0 0x04C = 1 ∧ t.dev.flag 0x0D0 0x014 2 = true ∧ u.dev.mem = [] ∧
      u.dev.reg 0x0D0 0x04C = 1 := by decide +kernel

/-- The last byte of the placed range and the first after it: the access is unmapped in part. -/
theorem test_unmapped_part :
    let s := on (hbm {})
    let t := after (.skeinRead (.port .a) 0x3FFFFFFFFF 2 .clean) s
    let u := after (.skeinWrite .producer 0x3FFFFFFFFF [7, 8]) s
    s.dev.remoteAddr 0x3FFFFFFFFF = false ∧ (0x4000000000, 1) ∈ Dev.pageParts 0x3FFFFFFFFF 2 ∧ spanOf 0x3FFFFFFFFF = .placed ∧ s.dev.placedOpen = true ∧ t.dev.mem = [] ∧
      t.dev.reg 0x0D0 0x04C = 1 ∧ t.dev.flag 0x0D0 0x014 2 = true ∧ u.dev.reg 0x0D0 0x04C = 1 ∧ u.dev.byte 0x3FFFFFFFFF = 7 := by
  decide +kernel

/-- The placed range as a core sees it behind its own waiting write, and before HBM is ready. -/
theorem test_read_placed :
    let s := on { (hbm {}).setBytes 0x1FFFF [9] with migs := [{ page := 1, dest := 2, prio := .adapt }], held := [{ who := .core 0, addr := 0x1FFFE, data := [5] }] }
    let t := after (.skeinRead (.core 0) 0x1FFFE 2 .clean) s
    let u := after (.skeinRead .producer 0x1FFFE 2 .clean) s
    let w := after (.skeinRead .producer 0x1FFFE 2 .clean) (on {})
    s.dev.placedOpen = true ∧ 0x1FFFE % 65536 + 2 ≤ 65536 ∧ (Dev.linesOf 0x1FFFE 2).all (fun l => s.dev.linePoison l = 0 &&
      s.dev.lineWritten l) = true ∧ t.dev.bus = .bytes [5, 9] ∧ u.dev.bus = .bytes [0, 9] ∧ w.dev.bus = .waiting ∧
      w.dev.waits = [{ who := .producer, addr := 0x1FFFE, len := 2, found := .clean, since := 0 }] := by decide +kernel

/-- A task's engine that reads an unwritten line of a TRAP page completes its task with 0x20. -/
theorem test_read_engine :
    let y : Task := { ring := 0, seq := 0, words := [], by_ := .hardware, st := .dispatched, order := 0 }
    let s := on (({ ({} : Dev) with hbmReady := true }.setPlace 1 { trap := true }).setTask 7 (some y))
    let t := after (.skeinRead (.engine 7) 0x10000 1 .clean) s
    s.dev.TasksWf ∧ s.dev.placedOpen = true ∧ s.dev.task 7 = some y ∧
      Dev.readStatus (s.dev.read (.engine 7) 0x10000 1).1 = some 0x20 ∧ t.dev.bus = .poisoned ∧
      (t.dev.task 7).map (fun z => (z.st, z.status)) = some (.retired, 0x20) := by decide +kernel

theorem test_read_direct :
    let s := on (({} : Dev).setBytes 0x100083FFFFF [9])
    let t := after (.skeinRead (.core 0) 0x100083FFFFF 1 .clean) s
    s.Powered ∧ directSram 0x100083FFFFF ∧ t.dev.bus = .bytes [9] := by decide +kernel

theorem test_read_poisoned :
    let s := on ((hbm {}).setLinePoison (0x10040 / 64) 1)
    let t := after (.skeinRead (.port .b) 0x10078 8 .clean) s
    s.Powered ∧ s.dev.placedOpen = true ∧ s.dev.heldOf (.port .b) = [] ∧ 0x10078 % 65536 + 8 ≤ 65536 ∧ 0x10078 / 64 ∈ Dev.linesOf 0x10078 8 ∧ s.dev.linePoison (0x10078 / 64) ≠ 0 ∧
      t.dev.bus = .poisoned := by decide +kernel

theorem test_patrol_scrub :
    let s := on (with_ 0x0D5 [(0x050, 1)] (hbm {}))
    let t := after (.hbmPatrolScrub 0x10080 .corrected) s
    let u := after (.hbmPatrolScrub 0x10080 .uncorrectable) s
    s.Powered ∧ s.dev.reg 0x0D5 0x050 ≠ 0 ∧ s.dev.hbmReady = true ∧ (s.dev.place (pageOf 0x10080)).tier = 3 ∧
      t.dev.reg 0x0D5 0x040 = 1 ∧ u.dev.reg 0x0D5 0x044 = 1 ∧ u.dev.pair48 0x0D5 0x048 = 0x10080 ∧
      u.dev.linePoison (0x10080 / 64) = 1 ∧ after (.hbmPatrolScrub 0x10080 .clean) s = s ∧
      after (.hbmPatrolScrub 0x20080 .corrected) s = s ∧ after (.hbmPatrolScrub 0x10080 .corrected) (on {}) = on {} := by decide +kernel

/-- Page 1 in HBM with a migration queued. -/
def moving (m : Migration) (h : List HeldWrite) : State :=
  on { (hbm {}).setPlace 1 { tier := 3, best := 2, frame := 5 } with migs := [m], held := h }

theorem test_migration_switch :
    let m : Migration := { page := 1, dest := 2, prio := .adapt, demand := true }
    let s := moving m []
    let t := after .migrationSwitch s
    s.Powered ∧ Sparse.wf Place.atReset s.dev.places = true ∧ s.dev.held = [] ∧ s.dev.migHead = some m ∧ s.dev.migDest m = 2 ∧
      (s.dev.place 1).tier = 3 ∧ s.dev.moveFrame 2 (s.dev.migPlace m) = some 0 ∧
      (t.dev.place 1).tier = 2 ∧ (t.dev.place 1).frame = 0 ∧ t.dev.migs = [] := by decide +kernel

/-- The write that waited for the page is made after the switch, and reaches its last byte. -/
theorem test_migration_held :
    let m : Migration := { page := 1, dest := 2, prio := .adapt }
    let h : HeldWrite := { who := .producer, addr := 0x1FFFF, data := [6] }
    let s := moving m [h]
    let t := after .migrationSwitch s
    Sparse.wf Place.atReset s.dev.places = true ∧ s.dev.migHead = some m ∧ s.dev.moveFrame 2 (s.dev.migPlace m) = some 0 ∧
      spanOf h.addr = .placed ∧ pageOf h.addr = 1 ∧ s.dev.placedOpen = true ∧
      (s.dev.migs.filter fun m' => m'.page == 1) = [m] ∧ (t.dev.place 1).tier = 2 ∧ t.dev.held = [] ∧ t.dev.byte 0x1FFFF = 6 := by
  decide +kernel

/-- Tier 4 has no frame and none frees: the page stays; so does one that is where it goes. -/
theorem test_migration_stays :
    let m : Migration := { page := 1, dest := 4, prio := .adapt }
    let n : Migration := { page := 1, dest := 3, prio := .adapt }
    let s := moving m []
    let t := after .migrationSwitch s
    let u := moving n []
    let v := after .migrationSwitch u
    s.dev.migHead = some m ∧ (s.dev.roomIn 4 (s.dev.migPlace m)).moveFrame 4 (s.dev.migPlace m) = none ∧ (t.dev.place 1).tier = 3 ∧
      t.dev.flag 0x0D0 0x014 1 = true ∧ u.dev.migHead = some n ∧ (u.dev.place 1).tier = u.dev.migDest n ∧ (v.dev.place 1).tier = 3 ∧
      v.dev.flag 0x0D0 0x014 1 = false ∧ v.dev.migHead = none ∧ after .migrationSwitch v = v := by decide +kernel

/-- A schedule at the AON SRAM's base for slot 0: one layer, LAYER 8, of one run at 0x100_0400_0100. -/
def schedule (v : Byte) (d : Dev) : Dev :=
  (own 0x0D3 (with_ 0x0D3 [(0x040, 0x04000000), (0x044, 0x100), (0x048, 0x800)] d)).setBytes 0x10004000000
    [v, 0, 1, 0, 0, 0, 0, 0, 0, 0, 0, 0, 0, 0, 0, 0, 8, 0, 0, 0, 1, 0, 0, 0, 0, 1, 0, 4, 0, 1]

theorem test_pf_start :
    let s := on (schedule 1 {})
    let t := after (.pfStart .portA 0) s
    s.Admits .portA 0x0D3 ∧ s.dev.pfBase 0 = 0x10004000000 ∧ s.dev.num 0x10004000000 1 = 1 ∧
      s.dev.num 0x10004000001 1 = 0 ∧ s.dev.num 0x10004000004 12 = 0 ∧ s.dev.num 0x10004000002 2 = 1 ∧
      s.dev.pfEntry 0 0 = 0x10004000010 ∧ s.dev.num 0x10004000010 2 = 8 ∧ s.dev.num 0x10004000012 2 = 0 ∧
      s.dev.num 0x10004000014 4 = 1 ∧ s.dev.num 0x10004000018 8 = 0x10004000100 ∧ 0x10004000100 % 64 = 0 ∧ s.dev.loom.layer = none ∧
      s.dev.field 0x0D3 0x048 11 8 = 8 ∧ t.dev.pfSlot 0 = { run := true, head := true, next := 0, layers := 1 } := by decide +kernel

/-- A header in the placed range before HBM is ready: the slot waits to read it. -/
theorem test_pf_waits :
    let s := on (own 0x0D3 {})
    s.Admits .portA 0x0D3 ∧ s.dev.closedAt (s.dev.pfBase 15) = true ∧
      (after (.pfStart .portA 15) s).dev.pfSlot 15 = { run := true } := by decide +kernel

theorem test_pf_malformed :
    let s := on (schedule 2 {})
    let t := after (.pfStart .portA 0) s
    s.Admits .portA 0x0D3 ∧ s.dev.num (s.dev.pfBase 0) 1 ≠ 1 ∧ (t.dev.pfSlot 0).run = false ∧
      t.dev.flag 0x0D0 0x014 3 = true := by decide +kernel

theorem test_pf_stop :
    let s := on { (own 0x0D3 {}).setPf 15 { run := true, layers := 3 } with
      migs := [{ page := 1, dest := 2, prio := .prefetch, slot := some 15 }, { page := 2, dest := 2, prio := .adapt, demand := true }] }
    let t := after (.pfStop .portA 15) s
    s.Admits .portA 0x0D3 ∧ (s.dev.pfSlot 15).run = true ∧ s.dev.flag 0x0D3 0x13C 8 = true ∧
      (t.dev.pfSlot 15).run = false ∧ t.dev.flag 0x0D3 0x13C 8 = false ∧ t.dev.migs.map (·.page) = [2] ∧
      after (.pfStop .portA 14) s = s := by decide +kernel

/-- The placement command's registers for page 1: one page, VALUE, MASK. -/
def plc (v m : Word) (d : Dev) : Dev :=
  own 0x0D1 (with_ 0x0D1 [(0x040, 0x10000), (0x048, 1), (0x04C, v), (0x050, m)] d)

theorem test_plc_set :
    let s := on (plc (0 + 8 * 1 + 64 * 4 + 2 ^ 13) 5 (hbm {}))
    let t := after (.plcSet .portA) s
    s.Admits .portA 0x0D1 ∧ s.dev.flag 0x0D1 0x058 0 = false ∧ s.dev.pair48 0x0D1 0x040 = 0x10000 ∧ s.dev.reg 0x0D1 0x048 = 1 ∧
      t.dev.reg 0x0D1 0x058 = 1 ∧ (t.dev.place 1).best = 1 ∧ (t.dev.place 1).worst = 4 ∧ (t.dev.place 1).pin = false ∧
      (t.dev.place 1).trap = true ∧ (t.dev.place 1).tile = 0 := by decide +kernel

theorem test_plc_free :
    let s := on (plc 0 0 (((hbm {}).setBytes 0x10001 [5]).setLinePoison (0x10000 / 64) 1))
    let t := after (.plcFree .portA) s
    s.Admits .portA 0x0D1 ∧ s.dev.byte 0x10001 = 5 ∧ t.dev.reg 0x0D1 0x058 = 1 ∧ (t.dev.place 1).tier = 7 ∧
      t.dev.byte 0x10001 = 0 ∧ t.dev.linePoison (0x10000 / 64) = 0 := by decide +kernel

theorem test_plc_read :
    let s := on (plc 0 0 (hbm {}))
    let t := after (.plcRead .portA) s
    s.Admits .portA 0x0D1 ∧ t.dev.reg 0x0D1 0x058 = 1 ∧ t.dev.plc = some { result := 0, done := 1 } ∧
      t.dev.reg 0x0D1 0x05C = 3 + 3 * 8 + 4 * 64 := by decide +kernel

theorem test_plc_busy :
    let s := on (with_ 0x0D1 [(0x058, 1)] (plc 0 0 (hbm {})))
    s.Admits .portA 0x0D1 ∧ s.dev.flag 0x0D1 0x058 0 = true ∧ [Instr.plcSet .portA, .plcFree .portA, .plcRead .portA].all (fun c =>
      decide ((after c s).dev.field 0x0D1 0x058 7 4 = 3 ∧ (after c s).dev.places = s.dev.places)) = true := by decide +kernel

/-- The last page is in the range with a count of 1 and not with 2; the page after it is beyond. -/
theorem test_plc_range :
    let s (addr : Nat) (n : Word) := on (with_ 0x0D1 [(0x040, BitVec.ofNat 32 addr), (0x044, BitVec.ofNat 32 (addr / 2 ^ 32)), (0x048, n)]
      (plc 0 1 (hbm {})))
    let stat (c : Instr) (addr : Nat) (n : Word) : Word := (after c (s addr n)).dev.reg 0x0D1 0x058
    pageOf ((s 0x3FFFFF0000 1).dev.pair48 0x0D1 0x040) = 0x3FFFFF ∧ stat (.plcSet .portA) 0x3FFFFF0000 1 = 1 ∧
      stat (.plcSet .portA) 0x3FFFFF0000 2 = 0x20 ∧ stat (.plcFree .portA) 0x3FFFFF0000 2 = 0x20 ∧
      stat (.plcRead .portA) 0x3FFFFF0000 2 = 1 ∧ stat (.plcRead .portA) 0x4000000000 1 = 0x20 := by decide +kernel

theorem test_plc_done :
    let s := on { with_ 0x0D1 [(0x058, 1)] {} with plc := some { result := 1, done := 2 } }
    let t := after .plcDone s
    s.Powered ∧ t.dev.plc = none ∧ t.dev.reg 0x0D1 0x058 = 0x210 ∧ after .plcDone t = t := by decide +kernel

theorem test_tile_lend :
    let s := on (with_ 0x0D4 [(0x044, 0x80000000)] {})
    let t := after (.tileLend 63) s
    s.Powered ∧ s.dev.mayLend 63 = true ∧ s.dev.lent 63 = false ∧ t.dev.lent 63 = true ∧ t.dev.flag 0x0C0 0x0D4 31 = true ∧
      after (.tileLend 63) t = t ∧ t.dev.mayLend 0 = false ∧ after (.tileLend 0) t = t := by decide +kernel

/-- Neighbour entry 0 is on and holds page 1; its reclaim, if any, was asked for at 0 and the time is `now`. -/
def nbed (asked : Bool) (now : Nat) : Dev :=
  let d := own 0x0D4 (with_ 0x0D4 [(0x050, 0x8005), (0x090, 1)] {})
  let d := ({ d with now := now, nbAt := if asked then [(0, some 0)] else [] } : Dev).setPlace 1 { tier := 4, ndev := 5 }
  d

theorem test_nb_reclaim :
    let s := on (nbed false 7)
    let t := after (.nbReclaim .portA 0) s
    s.Admits .portA 0x0D4 ∧ s.dev.nbOn 0 = true ∧ s.dev.nbPages (s.dev.nbDev 0) = [1] ∧ t.dev.nbAsked 0 = some 7 ∧
      t.dev.migs.map (fun m => (m.page, m.dest)) = [(1, 3)] ∧ s.dev.nbOn 1 = false ∧ after (.nbReclaim .portA 1) s = s := by decide +kernel

theorem test_nb_reclaim_timeout :
    let s := on (nbed true 1000)
    let t := after (.nbReclaimTimeout 0) s
    s.Powered ∧ s.dev.nbAsked 0 = some 0 ∧ s.dev.reclaimTmo = 1000 ∧ s.dev.nbPages (s.dev.nbDev 0) = [1] ∧
      t.dev.flag 0x0D0 0x014 5 = true ∧ (t.dev.place 1).tier = 7 ∧ t.dev.linePoison 1024 = 2 ∧ t.dev.linePoison 2047 = 2 ∧
      t.dev.linePoison 2048 = 0 ∧ after (.nbReclaimTimeout 0) (on (nbed true 999)) = on (nbed true 999) ∧
      after (.nbReclaimTimeout 0) (on (nbed false 9999)) = on (nbed false 9999) := by decide +kernel

theorem test_nb_lender_release :
    let s := on (with_ 0x0D4 [(0x054, 18)] (nbed true 6000))
    let t := after (.nbLenderRelease 0) s
    s.Powered ∧ s.dev.nbAsked 0 = some 0 ∧ 0 + s.dev.reclaimTmo + 5000 ≤ s.dev.now ∧ t.dev.nbAsked 0 = none ∧
      s.dev.lentOut 0 = 18 ∧ t.dev.lentOut 0 = 0 ∧ after (.nbLenderRelease 0) (on (nbed true 5999)) = on (nbed true 5999) ∧
      after (.nbLenderRelease 0) (on (nbed false 9999)) = on (nbed false 9999) := by decide +kernel

theorem test_neighbour_loss :
    let s := on (nbed false 0)
    let t := after (.neighbourLoss 0) s
    s.Powered ∧ s.dev.nbOn 0 = true ∧ t.dev.nbOn 0 = false ∧ t.dev.flag 0x0D4 0x05C 31 = true ∧ (t.dev.place 1).tier = 7 ∧
      t.dev.linePoison 1024 = 2 ∧ after (.neighbourLoss 0) t = t := by decide +kernel

theorem test_hbm_init_done :
    let s := on { ({} : Dev) with waits := [{ who := .producer, addr := 0x10000, data := some [4] }] }
    let t := after .hbmInitDone s
    s.Powered ∧ t.dev.hbmReady = true ∧ t.dev.waits = [] ∧ t.dev.byte 0x10000 = 4 := by decide +kernel

/-! ## 13 Shuttle, 14 Error log -/

/-- Ring 0 in READY with CFG `cfg` and a quota of 2. -/
def ring0 (cfg : Word) (d : Dev) : Dev := with_ 0x100 [(0x040, cfg), (0x044, 2)] (paged 0x100 1 d)

/-- A task of ring 0 with SEQ 5. -/
def task (words : List Word) (st : TaskSt) : Task := { ring := 0, seq := 5, words := words, by_ := .hardware, st := st, order := 0 }

/-- Ring 0 with a task in slot `k`. -/
def ringTask (cfg : Word) (k : Nat) (t : Task) : Dev := (ring0 cfg (with_ 0x100 [(0x064, 6), (0x068, 5)] {})).setTask k (some t)

theorem test_submit_direct :
    let d := ((ring0 3 (with_ 0x100 [(0x064, 7)] {})).setAgentReg .portB 0x100 0x0C0 6).setAgentReg .portB 0x100 0x0C4 9
    let s := on d
    let t := after (.submitDirect .portB 0 8) s
    s.Reaches 0x100 ∧ s.dev.submitResult 0 = 0 ∧ s.dev.TasksWf ∧ t.dev.reg 0x100 0x064 = 8 ∧ t.dev.agentReg .portB 0x100 0x06C = 16 ∧
      t.dev.agentReg .portB 0x100 0x070 = 7 ∧
      (t.dev.task 0).map (fun y => (y.seq, y.word 0, y.word 1, y.word 15)) = some (7, 6, 9, 8) := by decide +kernel

theorem test_submit_refused :
    let s := on {}
    let t := after (.submitDirect .portA 63 8) s
    s.Reaches 0x13F ∧ s.dev.submitResult 63 = 2 ∧ t.dev.tasks = [] ∧ t.dev.reg 0x13F 0x098 = 1 ∧
      t.dev.agentReg .portA 0x13F 0x06C = 2 := by decide +kernel

theorem test_submit_batch :
    let s := on (with_ 0x100 [(0x074, 0x047F), (0x078, 0x100)] {})
    s.Reaches 0x100 ∧ (after (.submitBatch .portA 0 256) s).dev.batches = [{ agent := .portA, ring := 0, addr := 0x10000000440, count := 256 }] ∧
      (after (.submitBatch .portA 0 257) s).dev.batches = [] ∧ (after (.submitBatch .portA 0 0) s).dev.batches = [] := by
  decide +kernel

theorem test_batch_fetch_done :
    let b : Batch := { agent := .portA, ring := 0, addr := 0x10004000000, count := 1 }
    let s := on { ring0 3 {} with batches := [b] }
    let t := after (.batchFetchDone .portA 0) s
    s.Powered ∧ s.dev.CanServe (fun d => d.batchDone .portA 0) ∧
      s.dev.batches.find? (fun b => b.agent == .portA && b.ring == 0) = some b ∧
      s.dev.submitResult 0 = 0 ∧ t.dev.batches = [] ∧ t.dev.reg 0x100 0x064 = 1 ∧ t.dev.agentReg .portA 0x100 0x06C = 16 ∧
      t.dev.agentReg .portA 0x100 0x070 = 0 ∧ after (.batchFetchDone .portA 0) t = t := by decide +kernel

/-- A quota of 2 takes two of three descriptors, and a ring that is off none. -/
theorem test_batch_part :
    let b : Batch := { agent := .portA, ring := 0, addr := 0x10004000000, count := 3 }
    let t := after (.batchFetchDone .portA 0) (on { ring0 3 {} with batches := [b] })
    let u := on ({ batches := [b] } : Dev)
    let v := after (.batchFetchDone .portA 0) u
    t.dev.reg 0x100 0x064 = 2 ∧ t.dev.agentReg .portA 0x100 0x070 = 1 ∧ t.dev.agentReg .portA 0x100 0x06C = 33 ∧
      u.dev.CanServe (fun d => d.batchDone .portA 0) ∧ u.dev.submitResult 0 = 2 ∧ v.dev.batches = [] ∧ v.dev.tasks = [] ∧
      v.dev.agentReg .portA 0x100 0x06C = 2 := by decide +kernel

/-- Core 0 waits for a task. -/
def twaits (d : Dev) : Dev := d.setCore 0 { d.core 0 with st := .twait }

theorem test_dispatch_spindle_premises :
    let x := task [1, 77, 0, 0, 0x400, 1, 2, 3, 4, 5, 6, 7, 8, 9, 10, 11] .ready
    let s := on (runs 68 (twaits (ringTask 0x10000 3 x)))
    s.Powered ∧ (s.dev.candidates 0).findSome? (fun e => (s.dev.idleCore [] e.2).map fun n => (e, n)) = some ((3, x), 0) ∧
      s.dev.regionsRun [coreRegion 0] = true := by decide +kernel

theorem test_dispatch_votes :
    let x := task [1, 77, 0, 0, 0x400] .ready
    let s := on ((twaits (ringTask 0x10000 3 x)).setRegion (coreRegion 0) { st := .sleep })
    let t := after (.dispatch .spindle) s
    s.Powered ∧ (s.dev.candidates 0).findSome? (fun e => (s.dev.idleCore [] e.2).map fun n => (e, n)) = some ((3, x), 0) ∧
      s.dev.regionsRun [coreRegion 0] = false ∧ (t.dev.task 3).map (fun y => (y.st, y.voted)) = some (.ready, [coreRegion 0]) ∧
      (t.dev.core 0).task = none := by decide +kernel

/-- A mover's region in RUN and asleep; a move of no bytes. -/
theorem test_dispatch_mover :
    let x := task [6, 0, 0, 0, 0x04000000, 0x100, 1, 0, 8] .ready
    let z := task [6, 0, 0, 0, 0x04000000, 0x100, 1, 0, 0] .ready
    let s := on (ringTask 3 3 x)
    let u := on (ringTask 3 3 z)
    let v := on ((ringTask 3 3 x).setRegion 80 { st := .sleep })
    s.Powered ∧ s.dev.TasksWf ∧ s.dev.candidates 3 = [(3, x)] ∧ x.word 8 ≠ 0 ∧ s.dev.idleMover [] x = some 0 ∧
      s.dev.regionsRun [80] = true ∧ u.dev.candidates 3 = [(3, z)] ∧ z.word 8 = 0 ∧ u.dev.regionsRun [80] = true ∧
      ((after (.dispatch .mover) u).dev.task 3).map (fun y => (y.st, y.status)) = some (.retired, 0x50) ∧
      v.dev.idleMover [] x = some 0 ∧ v.dev.regionsRun [80] = false ∧
      ((after (.dispatch .mover) v).dev.task 3).map (fun y => (y.st, y.voted)) = some (.ready, [80]) := by decide +kernel

/-- Loom's page runs and does not; its tile sleeps; its list is in the placed range before HBM is ready. -/
theorem test_dispatch_loom :
    let x := task [4, 0, 0, 0, 0x04000000, 0x100, 1] .ready
    let z := task [4, 0, 0, 0, 0, 0, 1] .ready
    let base (x : Task) (st : Nat) : Dev := with_ 0x0C0 [(0x040, 1)] (paged 0x0C0 st ((ringTask 2 3 x).setBytes 0x10004000000 [0x04, 1, 0, 0, 1]))
    let s := on (runs 0 (base x 1))
    let u := on (runs 0 (base x 0))
    let v := on (base x 1)
    let w := on (base z 1)
    s.Powered ∧ s.dev.TasksWf ∧ s.dev.candidates 2 = [(3, x)] ∧ s.dev.loom.slot = none ∧ s.dev.frozen 0x0C0 = false ∧
      s.dev.running 0x0C0 = true ∧ s.dev.closedAt (x.addr 0x10) = false ∧ s.dev.liveTiles (s.dev.namedTiles x) = [0] ∧
      s.dev.lent 0 = false ∧ s.dev.regionsRun [0] = true ∧ u.dev.running 0x0C0 = false ∧
      ((after (.dispatch .loom) u).dev.task 3).map (fun y => (y.st, y.status)) = some (.retired, 0xF0) ∧
      v.dev.regionsRun [0] = false ∧ ((after (.dispatch .loom) v).dev.task 3).map (fun y => (y.st, y.voted)) = some (.ready, [0]) ∧
      (after (.dispatch .loom) v).dev.loom.slot = none ∧ w.dev.closedAt (z.addr 0x10) = true ∧
      (after (.dispatch .loom) w).dev.task 3 = w.dev.task 3 := by decide +kernel

theorem test_dispatch_flyer_premises :
    let x := task [2, 0, 0, 0, 7] .ready
    let y := task [3, 0, 0, 0, 7, 0, 0, 0, 1] .ready
    let s := on (ringTask 1 3 x)
    let u := on (ringTask 1 3 y)
    s.Powered ∧ s.dev.frozen 0x060 = false ∧ s.dev.resumeAll.TasksWf ∧ s.dev.resumeAll.candidates 1 = [(3, x)] ∧ x.kind ≠ 3 ∧
      s.dev.resumeAll.startStatus 7 = some 0xF0 ∧ u.dev.resumeAll.candidates 1 = [(3, y)] ∧ y.kind = 3 := by
  decide +kernel

/-- A stream that may start, with a free lane whose region runs and without one. -/
theorem test_dispatch_stream :
    let x := task [2, 0, 0, 0, 7] .ready
    let d : Dev := ((runs 64 (paged 0x060 1 (ringTask 1 3 x))).setSFlag 7 0 0 true).setSField 7 0x10 31 0 0x04000000 |>.setSField 7 0x14 15 0 0x100
    let s := on d
    let u := on (with_ 0x060 [(0x048, 0)] d)
    s.dev.frozen 0x060 = false ∧ s.dev.resumeAll.TasksWf ∧ s.dev.resumeAll.candidates 1 = [(3, x)] ∧
      s.dev.resumeAll.startStatus 7 = none ∧ s.dev.resumeAll.laneGroup (s.dev.resumeAll.laneCount 7) = some 0 ∧
      s.dev.resumeAll.regionsRun (Dev.laneRegions 0 (s.dev.resumeAll.laneCount 7)) = true ∧
      s.dev.resumeAll.CanServe (fun d => (((d.dispatched 3 x 0).takeLanes 7 0 (s.dev.resumeAll.laneCount 7)).streamBegin 7 3 x)) ∧
      u.dev.resumeAll.startStatus 7 = none ∧ u.dev.resumeAll.laneGroup (u.dev.resumeAll.laneCount 7) = none ∧
      (after (.dispatch .flyer) u).dev = u.dev.resumeAll := by decide +kernel

/-- The stream's lanes are free, and their region sleeps. -/
theorem test_dispatch_stream_votes :
    let x := task [2, 0, 0, 0, 7] .ready
    let d : Dev := ((paged 0x060 1 (ringTask 1 3 x)).setRegion 64 { st := .sleep }).setSFlag 7 0 0 true |>.setSField 7 0x10 31 0 0x04000000 |>.setSField 7 0x14 15 0 0x100
    let s := on d
    s.dev.resumeAll.candidates 1 = [(3, x)] ∧ s.dev.resumeAll.startStatus 7 = none ∧
      s.dev.resumeAll.laneGroup (s.dev.resumeAll.laneCount 7) = some 0 ∧
      s.dev.resumeAll.regionsRun (Dev.laneRegions 0 (s.dev.resumeAll.laneCount 7)) = false ∧
      s.dev.resumeAll.CanServe (fun d => d.voteFor 3 x (Dev.laneRegions 0 (s.dev.resumeAll.laneCount 7))) ∧
      ((after (.dispatch .flyer) s).dev.task 3).map (fun y => (y.st, y.voted)) = some (.ready, [64]) := by decide +kernel

theorem test_dispatch_none :
    let s := on {}
    let f := on (with_ 0x060 [(0x00C, 0x4)] {})
    let l := on { ring0 2 {} with loom := { slot := some 1 } }
    s.dev.candidates 0 = [] ∧ s.dev.candidates 3 = [] ∧ s.dev.candidates 2 = [] ∧ s.dev.resumeAll.candidates 1 = [] ∧
      f.dev.frozen 0x060 = true ∧ l.dev.loom.slot.isSome = true := by decide +kernel

theorem test_dispatch_none_left :
    let f := on (with_ 0x060 [(0x00C, 0x4)] {})
    let l := on { ring0 2 {} with loom := { slot := some 1 } }
    [EngineClass.spindle, .mover, .loom].all (fun c => (after (.dispatch c) (on {})).dev.regs == (on {}).dev.regs) = true ∧
      (after (.dispatch .flyer) (on {})).dev.regs = (on {}).dev.regs ∧ (after (.dispatch .flyer) f).dev.regs = f.dev.regs ∧
      (after (.dispatch .loom) l).dev.regs = l.dev.regs ∧ (after (.dispatch .loom) l).dev.loom.slot = some 1 := by decide +kernel

/-- A fill of 9 bytes at an odd address, a copy of 3, and an aborted fill. -/
theorem test_mover_retire :
    let x : Task := { task [6, 0, 0, 0, 0x04000001, 0x100, 0x04030201, 0x08070605, 9] .dispatched with unit := 3 }
    let c : Task := { task [5, 0, 0, 0, 0x04000002, 0x100, 0x04000005, 0x100, 3] .dispatched with unit := 3 }
    let s (x : Task) := on (with_ 0x0E7 [(0x040, 1)] ((ringTask 3 4095 x).setBytes 0x10004000002 [7, 8, 9]))
    let t := after (.moverRetire 3) (s x)
    let u := after (.moverRetire 3) (s c)
    (s x).dev.TasksWf ∧ (s x).dev.CanServe (fun d => d.moverRetire 3) ∧ (s x).dev.moverTask 3 = some (4095, x) ∧ x.moved = none ∧
      (s x).dev.unanswered (.engine 4095) = false ∧ (x.word 8).toNat = 9 ∧ Dev.moverDst x = 0x10004000001 ∧
      spanOf 0x10004000001 = .aon ∧ spanOf 0x10004000009 = .aon ∧
      (t.dev.task 4095).map (fun y => (y.st, y.status)) = some (.retired, 0) ∧ t.dev.reg 0x0E7 0x040 = 0 ∧
      t.dev.bytes 0x10004000000 11 = [0, 1, 2, 3, 4, 5, 6, 7, 8, 1, 0] ∧ (s c).dev.CanServe (fun d => d.moverRetire 3) ∧
      c.addr 0x10 + 3 ≤ Dev.moverDst c ∧ spanOf (c.addr 0x10) = .aon ∧ u.dev.bytes 0x10004000001 8 = [0, 7, 8, 9, 7, 8, 9, 0] ∧
      after (.moverRetire 2) (s x) = s x := by decide +kernel

theorem test_completion_post :
    let x : Task := { task [6, 0xABCD] .retired with status := 0x20, cflags := 16, progress := 3 }
    let s := on (with_ 0x100 [(0x048, 0x04000000), (0x04C, 0x100), (0x050, 4), (0x054, 15), (0x058, 2)] (ringTask 3 7 x))
    let t := after (.completionPost 0) s
    let a := 0x100040000F0
    s.Powered ∧ s.dev.running 0x100 = true ∧
      s.dev.taskList.find? (fun e => e.2.ring == 0 && e.2.seq == s.dev.reg 0x100 0x068 && e.2.st == .retired) = some (7, x) ∧
      spanOf a = .aon ∧ spanOf 0x10004000000 = .aon ∧ s.dev.cqSize 0 = 16 ∧ t.dev.task 7 = none ∧ t.dev.reg 0x100 0x068 = 6 ∧
      t.dev.reg 0x100 0x054 = 0 ∧ t.dev.num a 4 = 5 ∧ t.dev.num (a + 4) 4 = 0xABCD ∧ t.dev.num (a + 8) 1 = 0x20 ∧
      t.dev.num (a + 9) 1 = 16 + (s.dev.ringPhase 0).toNat * 128 ∧ t.dev.num (a + 12) 4 = 3 := by decide +kernel

/-- A ring without a queue frees the slot, a full queue and a ring without a retired head post nothing. -/
theorem test_completion_none :
    let x : Task := task [6] .retired
    let s := on (ringTask 3 7 x)
    let t := after (.completionPost 63) s
    let u := after (.completionPost 0) s
    let f := on (with_ 0x100 [(0x048, 0x04000000), (0x04C, 0x100), (0x050, 4), (0x054, 15), (0x058, 0)] (ringTask 3 7 x))
    s.dev.pair48 0x100 0x048 = 0 ∧ s.dev.CanServe (fun d => d.completionPost 0) ∧ u.dev.task 7 = none ∧ u.dev.mem = [] ∧
      u.dev.reg 0x100 0x068 = 6 ∧ u.dev.reg 0x100 0x054 = 0 ∧ (15 + 1) % f.dev.cqSize 0 = 0 ∧ after (.completionPost 0) f = f ∧
      t = s := by decide +kernel

theorem test_task_timeout :
    let x : Task := { task [1] .dispatched with limit := 10, start := 5, unit := 2 }
    let s := on { ringTask 0x10000 4095 x with now := 15 }
    let t := after (.taskTimeout 4095) s
    s.Powered ∧ s.dev.task 4095 = some x ∧ x.st = .dispatched ∧ x.limit ≠ 0 ∧ x.start + x.limit ≤ s.dev.now ∧ x.abort = false ∧
      s.dev.ringClass x.ring = 0 ∧ t.dev.task 4095 = some { x with abort := true, tmo := true } ∧ (t.dev.core 2).abort = true ∧
      after (.taskTimeout 4095) t = t ∧ after (.taskTimeout 4095) (on { s.dev with now := 14 }) = on { s.dev with now := 14 } := by
  decide +kernel

theorem test_abort_while_busy :
    let s := on (with_ 0x100 [(0x084, 0x100)] (ringTask 3 7 (task [6] .ready)))
    let t := after (.taskAbort .portA 0 5) s
    s.Reaches 0x100 ∧ s.dev.flag 0x100 0x084 8 = true ∧ t.dev.tasks = s.dev.tasks ∧ t.dev.flag 0x100 0x014 4 = true ∧
      ((6 : Word) - (ringTask 3 7 (task [6] .ready)).reg 0x100 0x064).toNat < 2 ^ 31 ∧
      (after (.taskAbort .portA 0 6) (on (ringTask 3 7 (task [6] .ready)))).dev.flag 0x100 0x014 4 = true := by decide +kernel

theorem test_abort :
    let f st := on (ringTask 3 7 (task [6] st))
    let r st q := after (.taskAbort .portA 0 q) (f st)
    (f .ready).Reaches 0x100 ∧ (f .ready).dev.TasksWf ∧ (f .ready).dev.flag 0x100 0x084 8 = false ∧
      2 ^ 31 ≤ ((4 : Word) - (f .ready).dev.reg 0x100 0x064).toNat ∧ 2 ^ 31 ≤ ((5 : Word) - (f .ready).dev.reg 0x100 0x064).toNat ∧
      (f .ready).dev.taskList.find? (fun e => e.2.ring == 0 && e.2.seq == 4) = none ∧ (r .ready 4).dev.reg 0x100 0x084 = 2 ∧
      (f .ready).dev.taskList.find? (fun e => e.2.ring == 0 && e.2.seq == 5) = some (7, task [6] .ready) ∧
      (r .retired 5).dev.reg 0x100 0x084 = 2 ∧ (r .dispatched 5).dev.reg 0x100 0x084 = 0x100 ∧
      ((r .dispatched 5).dev.task 7).map (·.abort) = some true ∧ (f .ready).dev.taskList.all (fun e => !e.2.asked) = true ∧
      ((r .ready 5).dev.task 7).map (fun y => (y.st, y.status)) = some (.retired, 0x10) ∧ (r .ready 5).dev.reg 0x100 0x084 = 1 ∧
      (r .ready 5).dev.reg 0x100 0x09C = 1 := by decide +kernel

theorem test_ring_flush :
    let s := on (ringTask 3 7 (task [6] .ready))
    let t := after (.ringFlush .portB 0) s
    s.Reaches 0x100 ∧ s.dev.TasksWf ∧ (t.dev.task 7).map (fun y => (y.st, y.status)) = some (.retired, 0x10) := by decide +kernel

theorem test_dl_flush :
    let s := on (own 0x0E2 (with_ 0x0E2 [(0x0A0, 1)] (with_ 0x01B [(0x3E0, 1)] (ringTask 3 7 (task [0x206, 0, 0, 0x30000] .delayed)))))
    let t := after (.dlFlush .portA 3) s
    s.Admits .portA 0x0E2 ∧ s.dev.dlOn 3 = true ∧ s.dev.TasksWf ∧ (task [0x206, 0, 0, 0x30000] .delayed).list = 3 ∧
      t.dev.dlOn 3 = false ∧ t.dev.flag 0x01B 0x420 0 = false ∧
      (t.dev.task 7).map (fun y => (y.st, y.status)) = some (.retired, 0x10) ∧ after (.dlFlush .portA 3) t = t ∧
      after (.dlEnable .portA 3) s = s := by decide +kernel

theorem test_dl_enable :
    let s := on (own 0x0E2 (with_ 0x0E2 [(0x040, 0x50)] {}))
    let t := after (.dlEnable .portA 0) s
    s.Admits .portA 0x0E2 ∧ s.dev.dlOn 0 = false ∧ t.dev.dlOn 0 = true ∧ t.dev.field 0x01B (0x040 + 0x20 * 28) 10 8 = 7 ∧
      t.dev.field 0x01B (0x040 + 0x20 * 28) 3 1 = 5 := by decide +kernel

theorem test_trace_clock_premises :
    let s := on { with_ 0x160 [(0x040, 0x80000001), (0x044, 8191)] {} with now := 7 }
    s.Powered ∧ s.dev.flag 0x160 0x040 0 = true ∧ s.dev.flag 0x160 0x040 31 = true ∧ s.dev.traceOff = false ∧
      after .traceClockExpiry (on {}) = on {} := by decide +kernel

/-- An open record in entry 2 that holds ring 0. -/
def openRecord (d : Dev) : Dev :=
  { d.setLogEntry 2 { eseq := 9, sev := .contained, st := .opened, dom := .ring 0 } with holds := [{ ring := true, idx := 0, eseq := 9 }] }

theorem test_log_close :
    let s := on (openRecord {})
    let t := after (.logClose .portA 9) s
    let u := after (.logClose .portA 8) s
    s.Reaches 0x0F0 ∧ s.dev.TasksWf ∧ s.dev.logWhere (fun e => e.st == .opened && e.eseq == 9) = [2] ∧
      (t.dev.logEntry 2).st = .closed ∧ t.dev.reg 0x0F0 0x04C = 1 ∧ t.dev.holds = [] ∧
      s.dev.logWhere (fun e => e.st == .opened && e.eseq == 8) = [] ∧ u.dev.holds.length = 1 ∧ u.dev.reg 0x0F0 0x04C = 2 ∧
      u.dev.flag 0x0F0 0x014 5 = true := by decide +kernel

theorem test_clr_ovf :
    let s := on (with_ 0x0F0 [(0x040, 0x200)] {})
    s.Reaches 0x0F0 ∧ s.dev.overflowed = true ∧ s.dev.openCount = 0 ∧ (after (.clrOvf .portA 1) s).dev.overflowed = false ∧
      (after (.clrOvf .portA 0) s).dev.overflowed = true := by decide +kernel

theorem test_record_write_timeout :
    let x : Task := { task [6] .retired with status := 0x12 }
    let s := on (openRecord (ringTask 3 7 x))
    let t := after (.recordWriteTimeout 0) s
    s.Powered ∧ s.dev.taskList.find? (fun e => e.2.ring == 0 && e.2.seq == s.dev.reg 0x100 0x068 && e.2.st == .retired) = some (7, x) ∧
      s.dev.recoveryRecord x = some 2 ∧ (s.dev.logEntry 2).sev = .contained ∧ (t.dev.logEntry 2).sev = .device ∧
      (t.dev.logEntry 2).escalated = true ∧ (t.dev.logEntry 2).origSev = .contained ∧ after (.recordWriteTimeout 1) s = s ∧
      after (.recordWriteTimeout 0) (on (openRecord (ringTask 3 7 (task [6] .retired)))) = on (openRecord (ringTask 3 7 (task [6] .retired))) := by
  decide +kernel

/-! ## 16 Spindle instructions -/

/-- Core 0 in RUN at 0x100 of its SRAM in machine mode, with some of its other state set. -/
def cpuD (f : Core → Core) (d : Dev) : State := on (d.setCore 0 (f { st := .run, pc := 0x100, mode := 1 }))
def cpu (f : Core → Core) : State := cpuD f {}

/-- Core 0 after an instruction. -/
def cpuAfter (i : Instr) (s : State) : Core := (after i s).dev.core 0

/-- g1 holds −2³¹ + 3 and g2 holds 5. -/
def ints (c : Core) : Core := (c.setReg 1 0x80000003).setReg 2 5

theorem test_integer_results :
    let s := cpu ints
    s.Powered ∧ s.dev.Issues 0 ∧
    ∀ e ∈ ([(.and 0 3 1 2, 1), (.or 0 3 1 2, 0x80000007), (.xor 0 3 1 2, 0x80000006), (.nor 0 3 1 2, 0x7FFFFFF8),
      (.andn 0 3 1 2, 0x80000002), (.cmplt 0 3 1 2, 1), (.cmpltu 0 3 1 2, 0), (.shr 0 3 1 2, 0x04000000), (.shra 0 3 1 2, 0xFC000000),
      (.mulhs 0 3 1 2, 0xFFFFFFFD), (.mulhu 0 3 1 2, 2), (.divu 0 3 1 2, 0x1999999A), (.rem 0 3 1 2, 0), (.remu 0 3 1 2, 1),
      (.min 0 3 1 2, 0x80000003), (.max 0 3 1 2, 5), (.clz 0 3 2, 29), (.shri 0 3 1 31, 1), (.shrai 0 3 1 31, 0xFFFFFFFF),
      (.andi 0 3 1 7, 3), (.ori 0 3 1 0x7FFF, 0x80007FFF), (.xori 0 3 1 1, 0x80000002), (.cmplti 0 3 1 0x7FFF, 1),
      (.cmpltiu 0 3 1 0x7FFF, 1), (.ldhi 0 3 0xABCDE, 0xABCDE000)] : List (Instr × Word)),
      (cpuAfter e.1 s).reg 3 = e.2 ∧ (cpuAfter e.1 s).reg 1 = 0x80000003 ∧ (cpuAfter e.1 s).pc = 0x104 ∧
        (cpuAfter e.1 s).mode = 1 := by decide +kernel

theorem test_saturating_results :
    let s := cpu ints
    let t := cpu fun c => { ints c with mode := 3 }
    s.Powered ∧ s.dev.Issues 0 ∧ t.Powered ∧ t.dev.Issues 0 ∧ (t.dev.core 0).shadow = none ∧
    ∀ e ∈ ([(.add 0 3 1 1, 6, 0x80000000, true), (.sub 0 3 1 2, 0x7FFFFFFE, 0x80000000, true), (.mul 0 3 1 2, 0x8000000F, 0x80000000, true),
      (.shl 0 3 1 2, 0x60, 0x80000000, true), (.shli 0 3 2 29, 0xA0000000, 0x7FFFFFFF, true), (.abs 0 3 1, 0x7FFFFFFD, 0x7FFFFFFD, false),
      (.addi 0 3 1 0x7FFC, 0x7FFFFFFF, 0x80000000, true), (.div 0 3 1 2, 0xE6666667, 0xE6666667, false),
      (.div 0 3 1 0, 0xFFFFFFFF, 0xFFFFFFFF, false)] : List (Instr × Word × Word × Bool)),
      (cpuAfter e.1 s).reg 3 = e.2.1 ∧ (cpuAfter e.1 s).mode = 1 ∧ (cpuAfter e.1 t).reg 3 = e.2.2.1 ∧
        (cpuAfter e.1 t).mode = (if e.2.2.2 then 11 else 3) := by decide +kernel

theorem test_g0_discards :
    let s := cpu ints
    s.dev.Issues 0 ∧ (cpuAfter (.add 0 0 1 2) s).reg 0 = 0 ∧ (cpuAfter (.add 0 0 1 2) s).pc = 0x104 := by decide +kernel

theorem test_delay_slot :
    let s := cpu fun c => { c with slot := some { branch := 0xFC, target := 0x200 } }
    let c := cpuAfter (.fence 0) s
    s.Powered ∧ s.dev.Issues 0 ∧ s.dev.storesVisible 0 = true ∧ s.dev.frozen (Dev.corePage 0) = false ∧ c.pc = 0x200 ∧ c.slot = none ∧
      (after (.fence 0) s).dev.reg (Dev.corePage 0) 0x060 = 1 := by decide +kernel

theorem test_loop_ends :
    let s l1 l0 := cpu fun c => { c with ls1 := 0xF0, le1 := 0x100, lc1 := l1, ls0 := 0xE0, le0 := 0x100, lc0 := l0 }
    let c l1 l0 := cpuAfter (.fence 0) (s l1 l0)
    (s 2 2).dev.Issues 0 ∧ (s 2 2).dev.storesVisible 0 = true ∧
      ((c 0 0).pc = 0x104 ∧ (c 0 0).lc0 = 0 ∧ (c 0 0).lc1 = 0) ∧ ((c 2 2).pc = 0xF0 ∧ (c 2 2).lc1 = 1 ∧ (c 2 2).lc0 = 2) ∧
      ((c 1 2).pc = 0xE0 ∧ (c 1 2).lc1 = 0 ∧ (c 1 2).lc0 = 1) ∧ ((c 1 1).pc = 0x104 ∧ (c 1 1).lc1 = 0 ∧ (c 1 1).lc0 = 0) := by decide +kernel

theorem test_shadow :
    let s k := cpu fun c => { c with shadow := some { mset := 0xFC, mode := 5, left := k } }
    let c k := cpuAfter (.fence 0) (s k)
    (s 2).dev.Issues 0 ∧ (s 2).dev.storesVisible 0 = true ∧ (c 2).mode = 1 ∧ (c 2).shadow = some { mset := 0xFC, mode := 5, left := 1 } ∧
      (c 1).mode = 5 ∧ (c 1).shadow = none := by decide +kernel

theorem test_branches :
    let s := cpu ints
    s.Powered ∧ s.dev.Issues 0 ∧ (s.dev.core 0).inSlot = false ∧
    (∀ e ∈ [(Instr.beq 0 1 2, false), (.bne 0 1 2, true), (.blt 0 1 2, true), (.bge 0 1 2, false), (.bltu 0 1 2, false),
        (.bgeu 0 1 2, true)],
      ((cpuAfter (e.1 true 0x3FFF) s).pc, (cpuAfter (e.1 true 0x3FFF) s).slot) =
        (if e.2 then (0x104, some { branch := 0x100, target := 0xFC }) else (0x108, none)) ∧
      ((cpuAfter (e.1 false 2) s).pc, (cpuAfter (e.1 false 2) s).slot) =
        (0x104, some { branch := 0x100, target := 0x108 })) := by decide +kernel

theorem test_jumps :
    let s := cpu fun c => c.setReg 1 0x203
    s.dev.Issues 0 ∧ (s.dev.core 0).inSlot = false ∧
    ∀ e ∈ ([(.jmpr 0 1, 0x200, 0), (.jmp 0 0x1FFFFFF, 0xFC, 0), (.call 0 4, 0x110, 0x108), (.callr 0 1, 0x200, 0x108)] : List (Instr × Word × Word)),
      (cpuAfter e.1 s).pc = 0x104 ∧ (cpuAfter e.1 s).slot = some { branch := 0x100, target := e.2.1 } ∧
        (cpuAfter e.1 s).reg 31 = e.2.2 := by decide +kernel

theorem test_loop :
    let s k := cpu fun c => c.setReg 1 k
    (s 3).dev.Issues 0 ∧ ((s 3).dev.core 0).inSlot = false ∧ (0 : Int) < (4 : BitVec 14).toInt ∧
      (s 3).dev.loopEndBad 0 ((s 3).dev.core 0) 0 0x104 0x110 = false ∧ (s 3).dev.loopEndBad 0 ((s 3).dev.core 0) 1 0x104 0x110 = false ∧
      (let c := cpuAfter (.loop 0 0 1 4) (s 3); c.ls0 = 0x104 ∧ c.le0 = 0x110 ∧ c.lc0 = 3 ∧ c.pc = 0x104) ∧
      (let c := cpuAfter (.loop 0 1 1 4) (s 0); c.ls1 = 0x104 ∧ c.le1 = 0x110 ∧ c.lc1 = 0 ∧ c.pc = 0x114) := by decide +kernel

/-- Local SRAM of core 0 holds 80 FF 7F 81 at its last word, which g1 points 4 below. -/
def sram : State := cpuD (fun c => (c.setReg 1 0x3FFF8).setReg 2 0xA1B2C3D4) (({} : Dev).setBytes 0x1000803FFFC [0x80, 0xFF, 0x7F, 0x81])

theorem test_loads :
    sram.Powered ∧ sram.dev.Issues 0 ∧ sram.dev.watched 0 0x3FFFC false = false ∧
    ∀ e ∈ ([(.lb 0 3 1 4, 0xFFFFFF80), (.lbu 0 3 1 7, 0x81), (.lh 0 3 1 4, 0xFFFFFF80), (.lhu 0 3 1 6, 0x817F),
      (.lw 0 3 1 4, 0x817FFF80)] : List (Instr × Word)),
      (cpuAfter e.1 sram).reg 3 = e.2 ∧ (cpuAfter e.1 sram).pc = 0x104 := by decide +kernel

theorem test_stores :
    sram.dev.watched 0 0x3FFFC true = false ∧
    ∀ e ∈ ([(.sb 0 2 1 5, [0x80, 0xD4, 0x7F, 0x81]), (.sh 0 2 1 6, [0x80, 0xFF, 0xD4, 0xC3]), (.sw 0 2 1 4, [0xD4, 0xC3, 0xB2, 0xA1])] : List (Instr × List Byte)),
      (after e.1 sram).dev.bytes 0x1000803FFFB 6 = 0 :: e.2 ++ [0] ∧ (cpuAfter e.1 sram).pc = 0x104 := by decide +kernel

/-- Core 0 with window 0 at the AON SRAM and window 3 at the base of the placed range; g1 holds `a`, g2 a value. -/
def windowed (a : Word) (d : Dev) : State :=
  cpuD (fun c => { (c.setReg 1 a).setReg 2 0xA1B2C3D4 with evec := 0x800, win := [(0, 0x1000), (3, 0)] }) d

theorem test_window_accesses :
    let s := windowed 0x44000010 (({} : Dev).setBytes 0x10004000010 [1, 2, 3, 0x84])
    let x := windowAddr (s.dev.core 0) 0x44000010
    s.dev.Issues 0 ∧ x = 0x10004000010 ∧ directSram x ∧ s.dev.closedAt x = false ∧ (s.dev.read (.core 0) x 4).1.poison = 0 ∧
      (s.dev.read (.core 0) x 4).1.trap = false ∧ (cpuAfter (.lw 0 3 1 0) s).reg 3 = 0x84030201 ∧
      (cpuAfter (.lb 0 3 1 3) s).reg 3 = 0xFFFFFF84 ∧ (after (.sh 0 2 1 2) s).dev.bytes 0x10004000010 4 = [1, 2, 0xD4, 0xC3] := by
  decide +kernel

/-- The placed range before HBM is ready, and poisoned, lost and TRAP lines of it. -/
theorem test_window_placed :
    let p (d : Dev) : Dev := { d with hbmReady := true }
    let s := windowed 0x70000000 {}
    let u (n : Nat) := windowed 0x70000000 (p (({} : Dev).setLinePoison 0 n))
    let v := windowed 0x70000000 (p (({} : Dev).setPlace 0 { Place.atReset 0 with trap := true }))
    s.dev.closedAt (windowAddr (s.dev.core 0) 0x70000000) = true ∧ (after (.lw 0 3 1 0) s).dev.bus = .waiting ∧
      (cpuAfter (.lw 0 3 1 0) s).pc = 0x100 ∧ (after (.sw 0 2 1 0) s).dev.bus = .waiting ∧ (u 1).dev.closedAt 0 = false ∧
      ((u 1).dev.core 0).eflags.testBit 3 = false ∧ (cpuAfter (.lw 0 3 1 0) (u 1)).ecause = 8 ∧
      (cpuAfter (.lw 0 3 1 0) (u 2)).ecause = 9 ∧ (cpuAfter (.lw 0 3 1 0) v).ecause = 7 ∧ (cpuAfter (.lw 0 3 1 0) v).ebad = 0x70000000 := by
  decide +kernel

/-- A register of page 0x001 and one of a page that a task may not reach; a load of the boot ROM. -/
theorem test_register_loads :
    let s := windowed 0x10000000 (with_ 0x0F8 [(0x018, 9)] {})
    let r := windowed 0x0800FFFF {}
    s.dev.watched 0 0x10001000 false = false ∧ (s.dev.core 0).mode.testBit 0 = true ∧
      (cpuAfter (.lw 0 3 1 0) s).reg 3 = (s.busRead (.spindle 0) 0 0).1 ∧ r.dev.Issues 0 ∧ localOf 0x0800FFFF = .rom := by decide +kernel

theorem test_mset :
    let s := cpu fun c => { c with mode := 9 }
    let c := cpuAfter (.mset 0 0xF06) s
    s.dev.Issues 0 ∧ (s.dev.core 0).inSlot = false ∧ (0xF06 : BitVec 15).toNat < 4096 ∧ 0xF06 / 16 % 16 = 0 ∧
      (s.dev.core 0).mode.testBit 0 = true ∧ c.mode = 9 ∧ c.pc = 0x104 ∧
      c.shadow.map (fun x => (x.mset, x.mode, x.left)) = some (0x100, 6, 2) := by decide +kernel

/-- Core 0 with its control registers set. -/
def controls : State := cpu fun c => { c.setReg 2 0x77 with
  eflags := 0x50, epc := 1, ecause := 11, ebad := 2, evec := 0x300, escr := 4, ls0 := 5, le0 := 6, lc0 := 7, ls1 := 8, le1 := 9, lc1 := 10,
  intEn := 0x11, intPend := 0x77, tcmp := 12 }

theorem test_crd :
    let r cr := (cpuAfter (.crd 0 3 cr) controls).reg 3
    controls.dev.Issues 0 ∧ (controls.dev.core 0).mode.testBit 0 = true ∧
      r 0 = 1 ∧ r 1 = 0x50 ∧ r 2 = 1 ∧ r 3 = 11 ∧ r 4 = 2 ∧ r 5 = 0x300 ∧ r 6 = 4 ∧ r 7 = 0 ∧ r 8 = 5 ∧ r 9 = 6 ∧ r 10 = 7 ∧
      r 11 = 8 ∧ r 12 = 9 ∧ r 13 = 10 ∧ r 14 = 0x11 ∧ r 15 = 0x77 ∧ r 22 = 12 ∧ r 24 = 0 ∧ r 31 = 0 := by
  decide +kernel

theorem test_cwr :
    let c cr := cpuAfter (.cwr 0 cr 2) controls
    ((c 2).epc = 0x77 ∧ (c 4).ebad = 0x77 ∧ (c 6).escr = 0x77 ∧ (c 8).ls0 = 0x77 ∧ (c 9).le0 = 0x77 ∧ (c 10).lc0 = 0x77 ∧
      (c 11).ls1 = 0x77 ∧ (c 12).le1 = 0x77 ∧ (c 13).lc1 = 0x77 ∧ (c 22).tcmp = 0x77 ∧ (c 5).evec = 0 ∧ (c 15).intPend = 0) ∧
      (c 2).pc = 0x104 := by decide +kernel

/-- Core 0 runs the task in slot 3. -/
def working (f : Core → Core) : State :=
  cpuD (fun c => f { (c.setReg 1 0x10B).setReg 2 9 with task := some 3 }) (ringTask 0x10000 3 { task [1] .dispatched with unit := 0 })

theorem test_other_controls :
    let r cr := (cpuAfter (.crd 0 3 cr) controls).reg 3
    let c cr := cpuAfter (.cwr 0 cr 2) controls
    let w := working fun c => { c with win := [(0, 7), (3, 9)] }
    r 17 = controls.dev.coreTaskWord 0 ∧ r 23 = controls.dev.coreSeq 0 ∧ r 25 = 0 ∧ (c 1).eflags = 0x73 ∧ (c 3).ecause = 0x77 ∧
      (c 14).intEn = 0x77 ∧ Sparse.get (fun _ => 0) (c 18).win 0 = 0x77 ∧ Sparse.get (fun _ => 0) (c 21).win 3 = 0x77 ∧
      (c 24).pc = 0x104 ∧ (cpuAfter (.crd 0 3 21) w).reg 3 = 9 := by decide +kernel

theorem test_xret :
    let s := cpu fun c => { c with epc := 0x20B, eflags := 0x78, mode := 9 }
    let c := cpuAfter (.xret 0) s
    s.dev.Issues 0 ∧ (s.dev.core 0).inSlot = false ∧ c.pc = 0x208 ∧ c.eflags = 0x70 ∧ c.mode = 15 := by decide +kernel

/-- Core 0 with its vector base at 0x800, and MODE 6 in a delay slot, or none. -/
def raising (f : Core → Core) : State := cpu fun c => f { c.setReg 1 0x1001 with evec := 0x800 }

/-- Instruction `i` raises exception `code` at core 0 from its PC. -/
abbrev Raises (i : Instr) (s : State) (code : Nat) (bad : Option Word) : Prop :=
  s.Powered ∧ s.dev.Issues 0 ∧ (s.dev.core 0).eflags.testBit 3 = false ∧ (cpuAfter i s).ecause = code ∧
    (bad = none ∨ bad = some (cpuAfter i s).ebad) ∧ (cpuAfter i s).pc = 0x800 ∧ (cpuAfter i s).mode.testBit 0 = true ∧
    (cpuAfter i s).eflags.testBit 3 = true ∧ (after i s).dev.field (Dev.corePage 0) 0x04C 7 0 = code

theorem test_exceptions_in_slot :
    let s := raising fun c => { c with slot := some { branch := 0xFC, target := 0x200 } }
    (s.dev.core 0).inSlot = true ∧
    ∀ i ∈ ([.beq 0 1 2 true 1, .bne 0 1 2 true 1, .blt 0 1 2 true 1, .bge 0 1 2 true 1, .bltu 0 1 2 true 1, .bgeu 0 1 2 true 1, .jmpr 0 1,
        .callr 0 1, .jmp 0 1, .call 0 1, .loop 0 0 1 4, .mset 0 0, .xret 0, .trap 0 1] : List Instr),
      Raises i s 1 (some 0x100) ∧ (cpuAfter i s).epc = 0xFC ∧ (cpuAfter i s).eflags = 0x4A := by decide +kernel

theorem test_exceptions :
    let s := raising id
    ∀ e ∈ ([(.trap 0 31, 0x0A, some 31), (.break 0, 0x0B, none), (.callr 0 31, 1, some 0x100), (.loop 0 2 1 4, 1, some 0x100),
      (.loop 0 1 1 0, 3, none), (.loop 0 1 1 0x3FFF, 3, none), (.cwr 0 7 1, 1, some 0x100), (.lh 0 3 1 0, 4, some 0x1001),
      (.lhu 0 3 1 0, 4, some 0x1001), (.lw 0 3 1 1, 4, some 0x1002), (.sh 0 3 1 0, 4, some 0x1001), (.sw 0 3 1 2, 4, some 0x1003)] :
      List (Instr × Nat × Option Word)),
      Raises e.1 s e.2.1 e.2.2 ∧ (cpuAfter e.1 s).epc = 0x100 ∧ (cpuAfter e.1 s).eflags = 0x48 := by decide +kernel

/-- Where no memory is, where only words or machine mode may go, and a word that is no aligned register. -/
theorem test_access_exceptions :
    let s := raising fun c => (c.setReg 1 0x10000002).setReg 4 0x20000000
    let u := raising fun c => { c.setReg 1 0x10002000 with mode := 0 }
    ∀ e ∈ ([(.lw 0 3 4 0, s, 6, 0x20000000), (.sb 0 3 4 0, s, 6, 0x20000000), (.lhu 0 3 1 0, s, 6, 0x10000002),
      (.lw 0 3 1 0, s, 4, 0x10000002), (.sw 0 3 1 0, u, 2, 0x10002000), (.lb 0 3 1 1, u, 2, 0x10002001),
      (.sb 0 3 1 0, raising fun c => c.setReg 1 0x08000000, 6, 0x08000000)] : List (Instr × State × Nat × Word)),
      Raises e.1 e.2.1 e.2.2.1 (some e.2.2.2) := by decide +kernel

theorem test_mode_exceptions :
    let u := raising fun c => { c with mode := 0 }
    (u.dev.core 0).msetDenied 0xF07 = true ∧ (u.dev.core 0).msetDenied 0x0202 = false ∧
    ∀ e ∈ ([(.mset 0 0xF07, 2, none), (.mset 0 0x1000, 1, some 0x100), (.mset 0 0x10, 1, some 0x100), (.cwr 0 15 1, 2, none),
      (.cwr 0 21 1, 2, none), (.cwr 0 0 1, 1, some 0x100), (.cwr 0 23 1, 1, some 0x100), (.crd 0 3 22, 2, none)] :
      List (Instr × Nat × Option Word)), Raises e.1 u e.2.1 e.2.2 := by decide +kernel

theorem test_privilege :
    let u := raising fun c => { c with mode := 0 }
    (∀ i ∈ ([.xret 0, .wfi 0, .tdone 0 1 1, .twait 0, .crd 0 3 5] : List Instr), Raises i u 2 none) ∧
      Raises (.twait 0) (raising fun c => { c with task := some 1 }) 1 (some 0x100) := by decide +kernel

theorem test_double_fault :
    let s := raising fun c => { c with eflags := 8 }
    let t := after (.trap 0 0) s
    s.dev.Issues 0 ∧ (s.dev.core 0).eflags.testBit 3 = true ∧ (t.dev.core 0).st = .stopped ∧ t.dev.pageState (Dev.corePage 0) = 5 := by
  decide +kernel

theorem test_waits :
    let s := cpu id
    let p := cpu fun c => { c with intEn := 0x40, intPend := 0x40 }
    s.Powered ∧ s.dev.Issues 0 ∧ p.dev.Issues 0 ∧ (s.dev.core 0).pendingSource = none ∧ (p.dev.core 0).pendingSource = some 6 ∧
      (cpuAfter (.wfi 0) s).st = .wfi ∧ (cpuAfter (.wfi 0) s).pc = 0x100 ∧ (cpuAfter (.wfi 0) p).st = .run ∧
      (cpuAfter (.wfi 0) p).pc = 0x104 ∧ (s.dev.core 0).task = none ∧ (cpuAfter (.twait 0) s).st = .twait ∧
      (after (.tdone 0 1 1) s).dev.flag (Dev.corePage 0) 0x014 1 = true := by decide +kernel

/-- A store that a migration holds back: FENCE, STAKE, SGIVE and TDONE wait for it. -/
theorem test_stores_not_visible :
    let s := cpuD id { ({} : Dev) with held := [{ who := .core 0, addr := 0, data := [1] }] }
    let u := cpu fun c => { c with st := .wfi }
    s.dev.Issues 0 ∧ s.dev.storesVisible 0 = false ∧
      [Instr.fence 0, .stake 0 3 1, .sgive 0 3 1].all (fun i => (cpuAfter i s).pc == 0x100 && (cpuAfter i s).reg 3 == 0) = true ∧
      (u.dev.core 0).pendingSource = none ∧ after (.wfiWake 0) u = u ∧ after (.tdoneRetire 0) s = s := by decide +kernel

theorem test_wfi_wake :
    let s := cpu fun c => { c with st := .wfi, intEn := 1, intPend := 1 }
    s.Powered ∧ (s.dev.core 0).pendingSource ≠ none ∧ s.dev.coreAwake 0 = true ∧ (s.dev.core 0).hit = false ∧ (s.dev.core 0).step = false ∧
      (cpuAfter (.wfiWake 0) s).st = .run ∧ (cpuAfter (.wfiWake 0) s).pc = 0x104 := by decide +kernel

theorem test_tdone :
    let s := working id
    s.dev.Issues 0 ∧ (s.dev.core 0).task ≠ none ∧ (cpuAfter (.tdone 0 1 2) s).done = some { status := 0x0B, progress := 9 } := by
  decide +kernel

theorem test_tdone_retire :
    let s := working fun c => { c with done := some { status := 0, progress := 9 } }
    let t := after (.tdoneRetire 0) s
    s.dev.TasksWf ∧ (s.dev.core 0).st = .run ∧ s.dev.coreAwake 0 = true ∧ s.dev.storesVisible 0 = true ∧ (s.dev.core 0).abort = false ∧
      (s.dev.task 3).map (·.st) = some .dispatched ∧ (t.dev.task 3).map (fun y => (y.st, y.status, y.progress)) = some (.retired, 0, 9) ∧
      (t.dev.core 0).task = none ∧ (t.dev.core 0).done = none := by decide +kernel

theorem test_break_halts :
    let s := cpuD id (with_ (Dev.corePage 0) [(0x080, 0x100)] {})
    s.dev.Issues 0 ∧ s.dev.flag (Dev.corePage 0) 0x080 8 = true ∧ (cpuAfter (.break 0) s).st = .dbgHalt ∧
      (cpuAfter (.break 0) s).reason = 3 := by decide +kernel

theorem test_semaphores_at_core :
    let s := cpu fun c => c.setReg 1 63
    let h := after (.stake 0 3 1) s
    let g := cpuAfter (.sgive 0 4 1) h
    s.dev.Issues 0 ∧ s.dev.storesVisible 0 = true ∧ s.dev.semHeld 63 = false ∧ h.dev.Issues 0 ∧ h.dev.semHeldBy (.spindle 0) 63 = true ∧
      bit ((h.dev.core 0).reg 3) 0 = true ∧ bit ((h.dev.core 0).reg 3) 8 = true ∧
      bit ((cpuAfter (.stake 0 4 1) h).reg 4) 0 = false ∧ bit ((cpuAfter (.stake 0 4 1) h).reg 4) 8 = true ∧
      g.reg 4 = 1 ∧ g.pc = 0x108 ∧ (after (.sgive 0 4 1) h).dev.semHeld 63 = false ∧
      s.dev.semHeldBy (.spindle 0) 63 = false ∧ (cpuAfter (.sgive 0 4 1) s).reg 4 = 0 ∧
      (after (.sgive 0 4 1) s).dev.flag 0x001 0x014 0 = true := by decide +kernel

/-- Words of instructions written out from the tables of R362 to R372, and words that are none. -/
theorem test_encodings :
    [0, 0x00501041, 0x20008003, 0x2C001003, 0x40000021, 0x48008023, 0x80000C22, 0x90000020, 0x98000C20, 0xA1FFFFFF,
      0x02048003, 0x02200000, 0x02300000, 0x02905020, 0x2E3C3C00].all encodesInstr = true ∧
    [0xFE000000, 0x01700000, 0x00008000, 0x02700000, 0x02200001, 0x90000021, 0x98000C22, 0x99000C20, 0x2E004000, 0x04000000].any
      encodesInstr = false := by decide +kernel

/-- Core 0 with a word in its local SRAM at its PC. -/
def atWord (l : List Byte) : State := let s := raising id; on (s.dev.setBytes 0x10008000100 l)

theorem test_undefined_word :
    let s := atWord [0, 0, 0, 0xFE]
    let f := raising fun c => { c with pc := 0x10000000 }
    encodesInstr (BitVec.ofNat 32 (s.dev.num 0x10008000100 4)) = false ∧ s.dev.coreAwake 0 = true ∧ (s.dev.core 0).interruptible = false ∧
      s.dev.breakpoint 0 0x100 = false ∧ (s.dev.core 0).pc = 0x100 ∧ (cpuAfter (.fence 0) s).ecause = 1 ∧ (cpuAfter (.fence 0) s).ebad = 0x100 ∧
      (cpuAfter (.fence 0) s).pc = 0x800 ∧ fetchable (f.dev.core 0).pc = false ∧ (cpuAfter (.lw 0 3 1 0) f).ecause = 5 ∧
      (cpuAfter (.fence 0) (atWord [0, 0, 0x50, 0x02])).pc = 0x104 := by decide +kernel
/-! ## 15 Spindle events and debug -/

theorem test_interrupt_entry :
    let s := cpu fun c => { c with st := .twait, mode := 5, evec := 0x800, intEn := 0x60, intPend := 0x60 }
    let c := cpuAfter (.interruptEntry 0) s
    s.Powered ∧ (s.dev.core 0).done = none ∧ s.dev.coreAwake 0 = true ∧ (s.dev.core 0).hit = false ∧ (s.dev.core 0).step = false ∧
      (s.dev.core 0).mode.testBit 2 = true ∧ (s.dev.core 0).eflags.testBit 3 = false ∧ (s.dev.core 0).pendingSource = some 5 ∧
      c.ecause = 0x85 ∧ c.epc = 0x100 ∧ c.pc = 0x880 ∧ c.mode = 1 ∧ c.eflags = 0x58 ∧ c.st = .run := by decide +kernel

/-- A core that waits issues none; an interrupt, and a breakpoint, come before an instruction. -/
theorem test_before_issue :
    let s := cpu fun c => { c with st := .wfi }
    let i := cpu fun c => { c with mode := 5, evec := 0x800, intEn := 1, intPend := 1 }
    let b := cpuD id (with_ (Dev.corePage 0) [(0x080, 0x8000), (0x0AC, 0x100)] {})
    (after (.fence 0) s) = s ∧ (i.dev.core 0).pendingSource = some 0 ∧ (cpuAfter (.add 0 1 1 1) i).ecause = 0x80 ∧
      (cpuAfter (.add 0 1 1 1) i).epc = 0x100 ∧ b.dev.breakpoint 0 0x100 = true ∧ (b.dev.core 0).interruptible = false ∧
      (cpuAfter (.fence 0) b).st = .dbgHalt ∧ (cpuAfter (.fence 0) b).reason = 4 ∧ (cpuAfter (.fence 0) b).pc = 0x100 := by decide +kernel

theorem test_timer_interrupt :
    let s := on { ({} : Dev).setCore 15 { tcmp := 7, tcmpOn := true } with now := 7 }
    let c := (after (.timerInterrupt 15) s).dev.core 15
    s.Powered ∧ (s.dev.core 15).tcmpOn = true ∧ (BitVec.ofNat 32 s.dev.now - (s.dev.core 15).tcmp).toNat < 2 ^ 31 ∧ c.intPend = 16 ∧
      c.tcmpOn = false := by decide +kernel

theorem test_ipi_write :
    let s := on {}
    let t := after (.ipiWrite .portB 0x8001) s
    s.Reaches 0x0F8 ∧ (t.dev.core 0).intPend = 64 ∧ (t.dev.core 15).intPend = 64 ∧ (t.dev.core 1).intPend = 0 := by decide +kernel

/-- Port A holds core 0's page, and the debug scope is `v`. -/
def debugged (v : Word) (f : Core → Core) : State :=
  cpuD f (own (Dev.corePage 0) (with_ 0x005 [(0x044, v)] (with_ (Dev.corePage 0) [(0x08C, 31)] {})))

theorem test_debug_locked :
    let s := debugged 2 id
    s.Admits .portA (Dev.corePage 0) ∧ s.dev.scope 0 = false ∧
      ∀ i ∈ [Instr.debugHaltReq .portA 0, .debugResume .portA 0, .debugStep .portA 0],
        (cpuAfter i s).st = .run ∧ (after i s).dev.flag (Dev.corePage 0) 0x014 2 = true := by decide +kernel

theorem test_debug_halt :
    let s := debugged 1 id
    let c := cpuAfter (.debugHaltReq .portA 0) s
    s.Admits .portA (Dev.corePage 0) ∧ s.dev.scope 0 = true ∧ c.st = .dbgHalt ∧ c.reason = 1 ∧ c.dpc = 0x100 := by decide +kernel

theorem test_debug_resume_and_data :
    let s := debugged 1 fun c => { c.setReg 31 9 with st := .dbgHalt }
    s.Admits .portA (Dev.corePage 0) ∧ s.dev.scope 0 = true ∧ s.dev.reg (Dev.corePage 0) 0x08C = 31 ∧
      (cpuAfter (.debugResume .portA 0) s).st = .run ∧ (cpuAfter (.debugResume .portA 0) s).passBp = true ∧
      (cpuAfter (.debugStep .portA 0) s).step = true ∧ (after (.dbgDataAccess .portA 0 none) s).dev.bus = .data [9] ∧
      (cpuAfter (.dbgDataAccess .portA 0 (some 5)) s).reg 31 = 5 := by decide +kernel

theorem test_core_kill :
    let s := { on (runs 79 (paged 0x14F 5 {})) with halt := { st := .armed } }
    let t := after (.coreKill .portB 15) s
    s.Reaches 0x14F ∧ s.dev.pageState 0x14F = 5 ∧ t.dev.pageState 0x14F = 4 ∧ (t.dev.core 15).st = .stopped ∧
      (t.dev.core 15).task = none ∧ t.halt.st = .hold := by decide +kernel

/-! ## 17 Power -/

/-- Region 0 enters DEEP from IDLE in phase 1. -/
def entering (d : Dev) : Dev := d.setRegion 0 { st := .entering, entry := some { target := .deep, former := .idle } }

theorem test_quiesce_answer :
    let s := on (entering {})
    let t := (after (.quiesceAnswer 0 0x080 (.refuse 3)) s).dev.region 0
    let b := on { entering {} with loom := { slot := some 5, tiles := 1 } }
    let u := after (.quiesceAnswer 0 0x080 .ack) b
    s.Powered ∧ (regionBlocks 0).contains 0x080 = true ∧ t.entry.map (fun e => (e.phase2, e.acked, e.target)) = some (true, [0x080], .deep) ∧
      (u.dev.region 0).st = .idle ∧ (u.dev.region 0).entry = none ∧ u.dev.reg 0x008 0x048 = 0x10080 ∧ u.dev.reg 0x008 0x04C = 1 ∧
      b.dev.field 0x008 0x040 19 16 = 8 ∧ (u.dev.region 0).holdoff = some (max 1 (b.dev.field 0x008 0x044 15 0)) := by decide +kernel

/-- Region `r` enters SLEEP from RUN, its first block acknowledged where `a` names it. -/
def sleeping (r : Nat) (a : List Nat) (d : Dev) : State :=
  on (d.setRegion r { st := .entering, entry := some { target := .sleep, former := .run, acked := a } })

/-- The chapter's worked example: stream 9 ends on lanes 4 to 7. -/
theorem test_quiesce_lanes :
    let s := sleeping 65 [0x060] ((({} : Dev).setSField 9 0x28 2 0 4).takeLanes 9 4 4)
    s.dev.flag 0x060 0x048 4 = false ∧ s.dev.sstate (s.dev.field 0x061 0x050 7 0) = 4 ∧
      (after (.quiesceAnswer 65 0x061 .ack) s).dev.reg 0x008 0x048 = 0x41010061 := by decide +kernel

theorem test_quiesce_busy :
    let w := sleeping 68 [] (({} : Dev).setWcore 1 { inbox := [.event 0 1] })
    let k := sleeping 80 [] { ({} : Dev) with migs := [{ page := 0, dest := 3, prio := .adapt }] }
    w.dev.wdepth 1 = 1 ∧ (after (.quiesceAnswer 68 0x050 .ack) w).dev.reg 0x008 0x048 = 0x44010050 ∧
      (after (.quiesceAnswer 80 0x0D0 .ack) k).dev.reg 0x008 0x048 = 0x500100D0 := by decide +kernel

/-- Core 0 runs and refuses; ticks alone do not keep a Whorl region awake; a region from 88 up gives its own answer. -/
theorem test_quiesce_others :
    let c := sleeping 76 [] (paged (Dev.corePage 0) 1 (({} : Dev).setCore 0 { st := .run }))
    let w := sleeping 68 [] (({} : Dev).setWcore 1 { inbox := [.tick 0] })
    let l := sleeping 95 [0x15A] {}
    c.dev.running (Dev.corePage 0) = true ∧ (after (.quiesceAnswer 76 0x0F8 .ack) c).dev.reg 0x008 0x048 = 0x4C0100F8 ∧
      (after (.quiesceAnswer 68 0x050 .ack) w).dev.reg 0x008 0x048 = 0 ∧
      ((after (.quiesceAnswer 95 0x15B .ack) l).dev.region 95).entry.map (·.phase2) = some true ∧
      (after (.quiesceAnswer 95 0x15B (.refuse 7)) l).dev.reg 0x008 0x048 = 0x5F07015B := by decide +kernel

/-- An OFF request ends where a block refuses; answers that no entry waits for change nothing. -/
theorem test_quiesce_off :
    let e : Entry := { target := .off, former := .idle, offReq := true, acked := [0x15A] }
    let s := on { (({} : Dev).setRegion 95 { st := .entering, entry := some e }) with offReq := true }
    let t := after (.quiesceAnswer 95 0x15B (.refuse 7)) s
    s.Powered ∧ (regionBlocks 95).contains 0x15B = true ∧ t.dev.offReq = false ∧ t.dev.reg 0x008 0x080 = 5 ∧
      t.dev.flag 0x008 0x014 2 = true ∧ after (.quiesceAnswer 95 0x15A .ack) s = s ∧ after (.quiesceAnswer 95 0x080 .ack) s = s ∧
      after (.quiesceAnswer 0 0x080 .ack) s = s := by decide +kernel

theorem test_entry_fails :
    let s := on (({} : Dev).setRegion 95 { st := .entering, retries := 8, entry := some { target := .deep, former := .idle, acked := [0x15A] } })
    let u := after (.quiesceAnswer 95 0x15B (.refuse 7)) s
    s.Powered ∧ (regionBlocks 95).contains 0x15B = true ∧ (u.dev.region 95).failed = true ∧ (u.dev.region 95).st = .idle := by
  decide +kernel

theorem test_quiesce_timeout :
    let s := on { entering {} with now := 1000 }
    let u := after (.quiesceTimeout 0) s
    let v := on (entering {})
    s.Powered ∧ 0 + s.dev.quiesceWindow ≤ s.dev.now ∧ (regionBlocks 0).find? (fun p => !([] : List Nat).contains p) = some 0x080 ∧
      (u.dev.region 0).st = .idle ∧ u.dev.reg 0x008 0x048 = 0x20080 ∧ v.dev.now < 0 + v.dev.quiesceWindow ∧
      after (.quiesceTimeout 0) v = v ∧ after (.quiesceTimeout 1) v = v ∧ after (.phase2Done 0) v = v := by decide +kernel

theorem test_retry_holdoff :
    let s := on { ({} : Dev).setRegion 0 { st := .deep, holdoff := some 7 } with now := 7 }
    let t := after (.retryHoldoffExpiry 0) s
    let u := on { s.dev with now := 6 }
    s.Powered ∧ (s.dev.region 0).holdoff = some 7 ∧ (t.dev.region 0).holdoff = none ∧ after (.retryHoldoffExpiry 0) u = u := by
  decide +kernel

theorem test_entry_retry :
    let s := on (({} : Dev).setRegion 64 { st := .deep, failed := true })
    let t := after (.entryRetryWrite .portA 2 1) s
    s.Powered ∧ (s.dev.region 64).failed = true ∧ (t.dev.region 64).failed = false := by decide +kernel

theorem test_ungate_timeout :
    let s := on { ({} : Dev).setRegion 63 { st := .run, ungating := [0x0BF] } with now := 10 }
    let t := after (.ungateTimeout 63 0x0BF) s
    let u := on { s.dev with now := 9 }
    s.Powered ∧ (s.dev.region 63).ungating.contains 0x0BF = true ∧ (s.dev.region 63).ungateAt + 10 ≤ s.dev.now ∧
      (t.dev.region 63).st = .run ∧ t.dev.pageState 0x0BF = 5 ∧ t.dev.flag 0x008 0x014 1 = true ∧ after (.ungateTimeout 63 0x0BF) u = u ∧
      after (.ungateTimeout 63 0x080) s = s := by decide +kernel

/-- A region in phase 2 of its entry to `v`, which its PCTL asks for. -/
def phase2 (r : Nat) (v : RegSt) (ctl : Word) (d : Dev) : State :=
  on ((with_ (0x200 + r) [(0x040, ctl)] d).setRegion r { st := .entering, entry := some { target := v, former := .run, phase2 := true } })

/-- Two pages in frames of tile 0, of which page 0 has its shadow in HBM, and a byte of page 1 and of the cores' SRAM. -/
def twoPages : Dev :=
  ((({} : Dev).setPlace 0 { Place.atReset 0 with tier := 0, frame := 0, clean := true }).setPlace 1
    { Place.atReset 1 with tier := 0, frame := 31, allWritten := true }).setBytes 0x10000 [1] |>.setBytes 0x100083FFFFF [7]

theorem test_phase2_done :
    let s := phase2 79 .deep 4 twoPages
    let t := after (.phase2Done 79) s
    s.Powered ∧ s.dev.MicsOffPll ∧ s.dev.offReq = false ∧ s.dev.target 79 = RegSt.code .deep ∧ s.dev.flag 0x24F 0x040 8 = false ∧
      (t.dev.region 79).entry = none ∧ t.dev.byte 0x100083FFFFF = 7 ∧ (t.dev.place 1).tier = 0 := by decide +kernel

theorem test_phase2_frames :
    let s := phase2 0 .deep 4 twoPages
    let t := after (.phase2Done 0) s
    s.Powered ∧ s.dev.MicsOffPll ∧ s.dev.target 0 = RegSt.code .deep ∧ Sparse.wf Place.atReset s.dev.places = true ∧
      Dev.frameRegion (s.dev.place 0) = some 0 ∧ Dev.frameRegion (s.dev.place 1) = some 0 ∧ s.dev.regionPages 0 = [0, 1] ∧
      s.dev.lineWritten 1024 = true ∧ (t.dev.region 0).st = .deep ∧ (t.dev.place 0).tier = 3 ∧ (t.dev.place 0).clean = false ∧
      t.dev.lineWritten 1024 = false ∧ t.dev.byte 0x100083FFFFF = 7 := by decide +kernel

theorem test_phase2_retained :
    let s := phase2 0 .deep 0x104 twoPages
    let u := phase2 0 .sleep 3 twoPages
    s.dev.target 0 = RegSt.code .deep ∧ s.dev.flag 0x200 0x040 8 = true ∧ ((after (.phase2Done 0) s).dev.region 0).st = .deep ∧
      (after (.phase2Done 0) s).dev.mem = s.dev.mem ∧ (after (.phase2Done 0) s).dev.places = s.dev.places ∧
      u.dev.target 0 = RegSt.code .sleep ∧ ((after (.phase2Done 0) u).dev.region 0).st = .sleep ∧
      (after (.phase2Done 0) u).dev.places = u.dev.places := by decide +kernel

theorem test_power_down :
    let d := forEach (List.range 96) (fun r d => d.setRegion r { st := .off }) { ({} : Dev) with offReq := true }
    let s := on (d.setRegion 5 { st := .entering, entry := some { target := .off, former := .run, phase2 := true, offReq := true } })
    let t := after (.phase2Done 5) s
    s.Powered ∧ s.dev.offReq = true ∧ (∀ q : Fin 96, q ≠ 5 → (s.dev.region q.val).st = .off) ∧ t.dev.power = .off ∧ t.halt.pins = 0 := by
  decide +kernel

/-- Region 0 wakes from DEEP, at step `k` of its wake, with TABLE mode or without. -/
def waking (k : Nat) (table : Bool) (n : Nat) : State :=
  on { (with_ 0x200 [(0x040, if table then 0x204 else 4)] {}).setRegion 0 { st := .waking, timeouts := n, wake := some { step := k, former := .deep } } with
    now := 100000 }

theorem test_wake_step_ready :
    (waking 2 false 1).Powered ∧ (waking 2 false 1).dev.tableMode 0 = false ∧
      ((after (.wakeStepReady 0) (waking 2 false 1)).dev.region 0).wake.map (fun w => (w.step, w.stepAt)) = some (3, 100000) ∧
      (let x := (after (.wakeStepReady 0) (waking 3 false 1)).dev.region 0; x.wake = none ∧ x.timeouts = 0 ∧ x.st ≠ .waking) := by
  decide +kernel

theorem test_wake_table_step :
    (waking 2 true 0).dev.tableMode 0 = true ∧ (waking 2 true 0).dev.stepTime .deep 2 ≤ 100000 ∧
      (waking 3 true 0).dev.stepTime .deep 3 ≤ 100000 ∧
      ((after (.wakeTableStep 0 false) (waking 2 true 0)).dev.region 0).wake.map (·.step) = some 3 ∧
      ((after (.wakeTableStep 0 false) (waking 3 true 0)).dev.region 0).wake.map (·.early) = some true ∧
      (after (.wakeTableStep 0 false) (waking 3 true 0)).dev.flag 0x008 0x014 4 = true := by decide +kernel

theorem test_wake_table_ready :
    let e (r : Bool) : State := on { (waking 3 true 1).dev.setRegion 0 { (waking 3 true 1).dev.region 0 with
      wake := some { step := 3, former := .deep, early := r } } with now := if r then 0 else 100000 }
    (e true).dev.tableMode 0 = true ∧ [true, false].all (fun r => let x := (after (.wakeTableStep 0 true) (e r)).dev.region 0;
      x.wake == none && x.timeouts == 0 && x.st != .waking) = true := by decide +kernel

theorem test_wake_timeout :
    let u := on { (waking 0 false 0).dev with now := 0 }
    0 + max 1 ((waking 0 false 0).dev.field 0x00B 0x064 15 0) ≤ 100000 ∧
      (let x := (after (.wakeTimeout 0) (waking 0 false 0)).dev.region 0;
        x.st = .entering ∧ x.entry.map (fun e => (e.target, e.phase2)) = some (.deep, true) ∧ x.timeouts = 1) ∧
      ((after (.wakeTimeout 0) (waking 0 false 1)).dev.region 0).st = .retired ∧ u.dev.now < 0 + max 1 (u.dev.field 0x00B 0x064 15 0) ∧
      after (.wakeTimeout 0) u = u ∧ after (.wakeTimeout 1) (on {}) = on {} := by decide +kernel

theorem test_off_request :
    let a := { (on {}) with halt := { st := .hold, pins := 5 } }
    let s := on {}
    let t := after (.offRequest .portA 0xFF5) a
    let u := after (.offRequest .portA 0xFF5) s
    a.Powered ∧ a.dev.offReq = false ∧ a.halt.st.driving = true ∧ t.dev.reg 0x008 0x080 = 3 ∧ t.halt = a.halt ∧
      s.halt.st.driving = false ∧ u.dev.offReq = true ∧ (u.dev.region 95).st = .entering ∧ (u.dev.region 0).st = .entering ∧
      (u.dev.region 95).entry.map (fun e => (e.target, e.former)) = some (.off, (s.dev.region 95).st) ∧
      after (.offRequest .portA 0xFF4) s = s ∧ after (.offRequest .portA 0xFF5) u = u := by decide +kernel

theorem test_wake_n :
    let s := on { with_ 0x00C [(0x044, 2)] {} with power := .off }
    let t := after .wakeNAccept s
    let u := after .wakeNAccept (on (with_ 0x00C [(0x040, 0xF000), (0x044, 2)] {}))
    s.dev.flag 0x00C 0x044 1 = true ∧ s.dev.flag 0x00C 0x044 2 = false ∧ s.dev.wakeN.passed = [] ∧ t.dev.power = .waking ∧
      t.dev.reg 0x00C 0x048 = 1 ∧ t.dev.flag 0x00C 0x044 1 = false ∧ (u.dev.core 15).intPend = 32 ∧
      (after .wakeNArm (on {})).dev.reg 0x00C 0x044 = 3 ∧ (after .wakeNStuck (on (with_ 0x00C [(0x044, 3)] {}))).dev.reg 0x00C 0x044 = 10 := by
  decide +kernel

/-- WAKE_N after eight wakes within 1 s is masked; without its arming nothing happens. -/
theorem test_wake_n_masked :
    let s := on { with_ 0x00C [(0x044, 2)] {} with wakeN := { passed := List.replicate 8 0 }, sio := 999999, power := .off }
    let t := after .wakeNAccept s
    (s.dev.wakeN.passed.filter fun t => decide (s.dev.sio < t + 1000000)).length = 8 ∧ t.dev.flag 0x00C 0x044 2 = true ∧
      t.dev.reg 0x00C 0x048 = 0 ∧ t.dev.reg 0x00C 0x04C = 1 ∧ t.dev.power = .off ∧ after .wakeNAccept (on {}) = on {} := by decide +kernel

/-- An armed halt unit that drives two outputs. -/
def armed (d : Dev) : State := { on d with halt := { st := .armed, pins := 3 } }

theorem test_brownout_and_por :
    (after (.brownout .vstby) (armed {})).dev.power = .brownedOut ∧ (after (.brownout .vstby) (armed {})).halt.st = .safe ∧
      (after (.brownout .vstby) (armed {})).halt.pins = 0 ∧ (armed {}).Powered ∧ (after (.brownout .vcoreIn) (armed {})).halt.pins = 0 ∧
      (after (.brownout .vaon) (armed {})).halt.st = .safe := by decide +kernel

theorem test_por :
    let w := { armed {} with dev := { ({} : Dev) with power := .waking } }
    (after (.por .vstbyRise) (armed {})).halt.st = .safe ∧ (after (.por .vstbyRise) (armed {})).halt.pins = 0 ∧
      w.dev.power = .waking := by decide +kernel

theorem test_avs_fix :
    let s := on (with_ 0x203 [(0x04C, 0x80000000 + 755)] (({} : Dev).setRegion 3 { st := .idle }))
    s.Powered ∧ s.dev.avsFix 3 = some 755 ∧ (s.dev.region 3).mv = 750 ∧
      ((after (.avsStep 3 true) s).dev.region 3).mv = 755 := by decide +kernel

theorem test_avs_fix_down :
    let s := on (with_ 0x203 [(0x04C, 0x80000000)] (({} : Dev).setRegion 3 { st := .run, mv := 555 }))
    s.Powered ∧ s.dev.MicsOffPll ∧ s.dev.avsFix 3 = some 550 ∧ (s.dev.region 3).mv = 555 := by decide +kernel

theorem test_avs_premises :
    let s := on (with_ 0x203 [(0x048, 550 + 900 * 2 ^ 16)] (({} : Dev).setRegion 3 { st := .idle, mv := 895 }))
    let u := on (with_ 0x203 [(0x048, 900 + 900 * 2 ^ 16)] (({} : Dev).setRegion 3 { st := .run, mv := 895 }))
    let d := on (({} : Dev).setRegion 3 { st := .sleep })
    s.Powered ∧ s.dev.MicsOffPll ∧ s.dev.avsFix 3 = none ∧ s.dev.fWant = none ∧ s.dev.avsMin 3 ≤ 895 ∧ 895 + 5 ≤ s.dev.avsMax 3 ∧
      u.dev.avsFix 3 = none ∧ 895 < u.dev.avsMin 3 ∧ ((after (.avsStep 3 true) u).dev.region 3).mv = 900 ∧ after (.avsStep 3 true) d = d := by
  decide +kernel

/-- Every region in SLEEP, or one in RUN, the root on PLL0, F at `f`, with the registers of page 0x009 given. -/
def scaling (f : Word) (l : List (Nat × Word)) (run : Bool) : State :=
  on (with_ 0x009 ([(0x040, f), (0x044, 800 + 3200 * 2 ^ 16)] ++ l) (with_ 0x012 [(0x044, 2)] (with_ 0x011 [(0x048, 1)]
    (with_ 0x010 [(0x048, 0x7F), (0x050, 1), (0x040, 7)]
    (forEach (List.range 96) (fun r d => d.setRegion r { st := if run && r == 3 then .run else .sleep }) {})))))

theorem test_dvfs_holds :
    let s := on { (scaling 3100 [] false).dev with clk := { (scaling 3100 [] false).dev.clk with target := some 1 } }
    (on {}).dev.rootCur = 0 ∧ after (.dvfsInterval true false) (on {}) = on {} ∧ s.dev.rootCur = 2 ∧ s.dev.clk.target ≠ none ∧
      (after (.dvfsInterval true false) s).dev.reg 0x009 0x040 = 3100 := by decide +kernel

theorem test_dvfs_adapts :
    let s := scaling 3100 [] false
    let u := scaling 900 [] false
    s.Powered ∧ s.dev.rootCur = 2 ∧ s.dev.clk.target = none ∧ s.dev.avsPulls 3100 = false ∧ s.dev.dvfsGoal 3100 = none ∧
      (s.dev.reg 0x008 0x078).toNat < 9 * s.dev.powerLimit ∧ s.dev.avsPulls 3200 = false ∧ 3100 + 100 ≤ min 3200 s.dev.dvfsMax ∧
      s.dev.voltsFor 3200 = true ∧ (after (.dvfsInterval true false) s).dev.reg 0x009 0x040 = 3200 ∧
      (after (.dvfsInterval false false) s).dev.reg 0x009 0x040 = 3100 ∧ u.dev.dvfsGoal 900 = none ∧ u.dev.avsPulls 900 = false ∧
      u.dev.dvfsMin + 100 ≤ 900 ∧ (after (.dvfsInterval false true) u).dev.reg 0x009 0x040 = 800 := by decide +kernel

/-- FIX at 1,200 MHz, below F and above it, on no grid step and out of range; bounds with no step within. -/
theorem test_dvfs_slews :
    let s (f : Word) (fix : Word) := scaling f [(0x048, 0x80000000 ||| fix)] false
    let b (f : Word) := scaling f [(0x044, 810 + 850 * 2 ^ 16)] false
    (s 3200 1200).dev.dvfsGoal 3200 = some 1200 ∧ (after (.dvfsInterval true true) (s 3200 1200)).dev.reg 0x009 0x040 = 2700 ∧
      (s 1000 1200).dev.dvfsGoal 1000 = some 1200 ∧ (after (.dvfsInterval true true) (s 1000 1200)).dev.reg 0x009 0x040 = 1200 ∧
      (s 1000 1249).dev.dvfsGoal 1000 = some 1200 ∧ (s 1000 4000).dev.dvfsGoal 1000 = some 3200 ∧
      (b 1000).dev.dvfsGoal 1000 = some 900 ∧ (b 800).dev.dvfsGoal 800 = some 800 := by decide +kernel

theorem test_dvfs_voltage_premises :
    let s := scaling 3100 [] true
    s.dev.rootCur = 2 ∧ (s.dev.region 3).st = .run ∧ s.dev.avsTop 3 ≤ 900 ∧ s.dev.clk.target = none := by decide +kernel

theorem test_thermal_premises :
    let s := on (with_ 0x014 [(0x07C, 460)] {})
    let hot := (List.replicate 15 0 ++ [459] : List Int)
    let trip := (List.replicate 15 0 ++ [460] : List Int)
    s.Powered ∧ hot.length = 16 ∧ trip.length = 16 ∧ s.dev.throtT ≤ 440 ∧ (∀ j : Fin 16, hot.getD j.val 0 < 460) ∧ 460 ≤ s.dev.temp 15 ∧
      460 ≤ trip.getD 15 0 ∧ s.dev.flag 0x014 0x084 0 = false ∧ s.dev.absentPage 0x041 = false := by decide +kernel

theorem test_thermal_cools :
    let s := on { with_ 0x009 [(0x04C, 3100)] {} with throttle := true, now := 1000 }
    let cold := List.replicate 16 (0 : Int)
    s.Powered ∧ (∀ j : Fin 16, cold.getD j.val 0 < s.dev.throtT - 20) ∧ (s.dev.reg 0x009 0x04C).toNat < 3200 ∧
      s.dev.capAt + 1000 ≤ s.dev.now := by decide +kernel

theorem test_droop :
    let s := on {}
    let t := after (.droopEngage 95 .overshoot) s
    s.Powered ∧ t.dev.flag 0x25F 0x014 4 = true ∧ t.dev.reg 0x25F 0x060 = 1 := by decide +kernel

theorem test_phase_loss :
    let s := on {}
    let u := on (({} : Dev).setRegion 0 { st := .deep, phases := 0xFE })
    s.Powered ∧ (s.dev.region 0).phases = 0xFF ∧ ((after (.phaseLoss 0 7) s).dev.region 0).phases = 0x7F ∧
      (after (.phaseLoss 0 7) s).dev.flag 0x200 0x014 1 = true ∧ ((after (.phaseLoss 0 7) u).dev.region 0).st = .retired ∧
      after (.phaseLoss 0 0) u = u := by
  decide +kernel

theorem test_drop_monitor_premises :
    let s := on (with_ 0x260 [(0x140, 0x118)] {})
    s.Powered ∧ 40 * s.dev.field 0x260 0x140 7 0 < 16 * 61 ∧ ¬ 40 * s.dev.field 0x260 0x140 7 0 < 16 * 60 ∧
      s.dev.flag 0x267 0x13C 31 = false ∧ max 1 (s.dev.field 0x260 0x140 15 8) ≤ Sparse.get (fun _ => 0) s.dev.drops 511 + 1 := by decide +kernel

theorem test_crack_preset :
    let s := on {}
    s.Powered ∧ ((after (.crackPreset .portB 95) s).dev.region 95).crack = true := by decide +kernel

/-! ## 18 Clocks -/

/-- XTA is on and ready beside FIO and SIO; Port A holds the clock pages. -/
def clocked (d : Dev) : Dev := own 0x012 (own 0x013 (with_ 0x010 [(0x050, 1), (0x040, 7)] d))

theorem test_root_switch :
    let s := on (clocked {})
    let t := after (.rootSwitch .portA 1) s
    s.Admits .portA 0x012 ∧ s.dev.clk.target = none ∧ s.dev.flag 0x010 0x050 0 = true ∧ s.dev.srcRdy 2 = true ∧
      s.dev.srcRdy (Dev.rootSrc 1) = true ∧ s.dev.rootCur = 0 ∧ t.dev.clk.target = some 1 ∧ t.dev.flag 0x012 0x044 4 = true ∧
      t.dev.rootCur = 0 ∧ t.dev.field 0x012 0x040 1 0 = 1 := by decide +kernel

theorem test_root_switch_done :
    let s := on { with_ 0x012 [(0x040, 1), (0x044, 16 + 96 * 2 ^ 16)] (clocked {}) with clk := { target := some 1 } }
    let t := after .rootSwitchDone s
    s.Powered ∧ s.dev.flag 0x012 0x040 4 = false ∧ s.dev.srcRdy 2 = true ∧ t.dev.rootCur = 1 ∧ t.dev.clk.target = none ∧
      t.dev.flag 0x012 0x044 4 = false ∧ t.dev.field 0x012 0x044 27 16 = 38 ∧ t.dev.reg 0x012 0x04C = 1 := by decide +kernel

theorem test_mux_switch :
    let s := on (with_ 0x010 [(0x054, 1)] (clocked {}))
    s.Admits .portA 0x013 ∧ s.dev.muxBusy .aon = false ∧ s.dev.muxSel .aon = false ∧ s.dev.flag 0x010 0x054 0 = true ∧
      (after (.muxSwitch .portA .aon 1) s).dev.muxBusy .aon = true ∧ (after (.muxSwitch .portA .aon 1) s).dev.muxSel .aon = false ∧
      (after (.muxSwitch .portA .rcv 1) s).dev.muxBusy .rcv = true := by decide +kernel

/-- RCV_MUX is switching to its input 1, since the time 0. -/
def muxing (now : Nat) : State := on { with_ 0x013 [(0x044, 0x101)] (clocked {}) with now := now }

theorem test_mux_ends :
    (muxing 0).Powered ∧ (muxing 0).dev.muxBusy .rcv = true ∧ (muxing 0).Admits .portA 0x013 ∧
      (∀ c ∈ [Instr.muxSwitchDone .rcv, .muxForce .portA .rcv],
        (after c (muxing 0)).dev.muxBusy .rcv = false ∧ (after c (muxing 0)).dev.muxSel .rcv = true) ∧
      (muxing 1000).dev.muxAt .rcv + (muxing 1000).dev.switchTmo ≤ 1000 ∧
      (after (.muxSwitchTimeout .rcv) (muxing 1000)).dev.muxSel .rcv = true ∧
      (after (.muxSwitchTimeout .rcv) (muxing 1000)).dev.flag 0x013 0x044 9 = true := by decide +kernel

theorem test_source_lost :
    let s := on (with_ 0x010 [(0x048, 0xFF)] {})
    let t := after (.sourceLost .sio) s
    let u := after (.sourceLost .fio) { s with halt := { st := .armed, pins := 3 } }
    s.Powered ∧ s.dev.monitored .sio = true ∧ s.dev.monitored .fio = true ∧ t.dev.srcRdy 1 = false ∧ t.dev.flag 0x010 0x044 1 = true ∧
      u.halt.st = .safe ∧ u.halt.pins = 0 := by decide +kernel

theorem test_source_good :
    let s := on (with_ 0x010 [(0x040, 0)] {})
    s.Powered ∧ s.dev.srcRdy 0 = false ∧ (after (.sourceGood .sio) s).dev.srcRdy 1 = true ∧
      (after (.sourceGood .fio) s).dev.srcRdy 0 = true := by decide +kernel

theorem test_pll_lock :
    let s := on { with_ 0x011 [(0x048, 1), (0x050, 16)] (with_ 0x010 [(0x040, 0x83)] {}) with clk := { rcvSel := true, holdAt := some 0 } }
    let t := after (.pllLock 2) s
    s.Powered ∧ s.dev.pllLocked 2 = false ∧ s.dev.flag 0x011 0x048 0 = true ∧ s.dev.srcRdy 7 = true ∧ t.dev.pllLocked 2 = true ∧
      t.dev.srcRdy 6 = true ∧ t.dev.clk.holdAt = none := by decide +kernel

theorem test_holdover_timeout :
    let s := on { with_ 0x013 [(0x044, 1)] (with_ 0x011 [(0x048, 0x2D01), (0x050, 20)] (clocked {})) with
      now := 45, clk := { rcvSel := true, holdAt := some 0 } }
    let t := after .holdoverTimeout s
    s.Powered ∧ 0 + s.dev.holdUs ≤ s.dev.now ∧ t.dev.clk.holdAt = none ∧ t.dev.clk.rcvSel = false ∧
      t.dev.flag 0x013 0x044 0 = false := by decide +kernel

theorem test_rcv_auto_return :
    let s := on { with_ 0x011 [(0x048, 5)] (clocked {}) with now := 100000, clk := { rcvGood := some 0 } }
    let t := after .rcvAutoReturn s
    s.Powered ∧ s.dev.flag 0x011 0x048 2 = true ∧ s.dev.pllOn 2 = true ∧ s.dev.muxBusy .rcv = false ∧ t.dev.muxBusy .rcv = true ∧
      t.dev.flag 0x013 0x044 0 = true := by decide +kernel

/-- A switch that the rule refuses: while one is under way, to the value 3, to a source that is not ready; and AUTO. -/
theorem test_root_switch_refused :
    let s := on (clocked {})
    let b := on { clocked {} with clk := { target := some 0 } }
    s.dev.srcRdy (Dev.rootSrc 2) = false ∧
      ([(2, s), (3, s), (1, b)] : List (Word × State)).all (fun e => (after (.rootSwitch .portA e.1) e.2).dev.flag 0x012 0x014 0 &&
        (after (.rootSwitch .portA e.1) e.2).dev.field 0x012 0x040 1 0 == 0) = true ∧
      (after (.rootSwitch .portA 0x12) s).dev.flag 0x012 0x040 4 = true ∧ after .rootSwitchDone s = s := by decide +kernel

/-- PLL0 is locked on XTA: the switch to it ends. -/
theorem test_root_on_pll0 :
    let s := on { with_ 0x012 [(0x040, 2), (0x044, 16)] (with_ 0x011 [(0x040, 1), (0x050, 1)] (clocked {})) with clk := { target := some 2 } }
    s.Powered ∧ s.dev.flag 0x012 0x040 4 = false ∧ s.dev.srcRdy 2 = true ∧ s.dev.flag 0x011 0x040 0 = true ∧
      s.dev.flag 0x011 0x04C 8 = false ∧ s.dev.pllLocked 0 = true ∧ s.dev.clk.target = some 2 := by decide +kernel

theorem test_mux_idle :
    let s := on (clocked {})
    let t := after (.muxSwitch .portA .aon 1) s
    s.dev.flag 0x010 0x054 0 = false ∧ t.dev.muxBusy .aon = false ∧ t.dev.muxSel .aon = false ∧
      after (.muxSwitchTimeout .aon) s = s ∧ (muxing 0).dev.now < (muxing 0).dev.muxAt .rcv + (muxing 0).dev.switchTmo ∧
      after (.muxSwitchTimeout .rcv) (muxing 0) = muxing 0 := by decide +kernel

/-- XTA and XTB lost, with AON_MUX on XTB; a source that is not monitored or does not run. -/
theorem test_crystals_lost :
    let s := on { with_ 0x013 [(0x040, 1)] (with_ 0x010 [(0x048, 0xFF), (0x050, 1), (0x054, 1), (0x040, 15)] {}) with clk := { aonSel := true } }
    let u := on (with_ 0x010 [(0x048, 0)] {})
    s.dev.monitored .xta = true ∧ s.dev.monitored .xtb = true ∧ (after (.sourceLost .xta) s).dev.srcRdy 2 = false ∧
      (after (.sourceLost .xta) s).dev.flag 0x010 0x044 2 = true ∧ (after (.sourceLost .xtb) s).dev.srcRdy 3 = false ∧
      (after (.sourceLost .xtb) s).dev.muxSel .aon = false ∧ u.dev.monitored .sio = false ∧ after (.sourceLost .sio) u = u ∧
      u.dev.sourceRuns .pll2 = false ∧ after (.sourceGood .pll2) u = u := by decide +kernel

theorem test_crystals_good :
    let s := on (with_ 0x010 [(0x050, 1), (0x054, 1), (0x040, 3)] {})
    s.dev.srcRdy 2 = false ∧ (after (.sourceGood .xta) s).dev.srcRdy 2 = true ∧ (after (.sourceGood .xtb) s).dev.srcRdy 3 = true := by
  decide +kernel

/-- PLL1 locks on FIO; PLL0 could lock on XTA; a PLL that is off does not. -/
theorem test_plls_lock :
    let s := on (with_ 0x011 [(0x044, 0x201), (0x040, 1)] (clocked {}))
    s.dev.pllLocked 1 = false ∧ s.dev.flag 0x011 0x044 0 = true ∧ s.dev.flag 0x011 0x044 9 = true ∧ s.dev.srcRdy 0 = true ∧
      (after (.pllLock 1) s).dev.pllLocked 1 = true ∧ (after (.pllLock 1) s).dev.srcRdy 5 = true ∧ s.dev.pllLocked 0 = false ∧
      s.dev.flag 0x011 0x040 0 = true ∧ s.dev.flag 0x011 0x04C 8 = false ∧ s.dev.srcRdy 2 = true ∧
      s.dev.pllOn 2 = false ∧ after (.pllLock 2) s = s := by decide +kernel

theorem test_clocks_not_due :
    let s := on { with_ 0x011 [(0x048, 5)] (clocked {}) with now := 99999, clk := { rcvGood := some 0 } }
    let u := on { with_ 0x011 [(0x048, 0x2D01), (0x050, 20)] (clocked {}) with now := 44, clk := { rcvSel := true, holdAt := some 0 } }
    after .rcvAutoReturn s = s ∧ u.dev.holdUs = 45 ∧ after .holdoverTimeout u = u := by decide +kernel
/-! ## 19 Host ports and Kakan links -/

theorem test_port_link_down :
    let s := on { with_ 0x151 [(0x040, 0x47)] {} with unmasked := [(128 + 5, true), (1001, true)], now := 9 }
    let t := after (.portLinkDown .b .perst) s
    s.Powered ∧ t.dev.portUp .b = false ∧ t.dev.released = [(.b, 9)] ∧ t.dev.flag 0x151 0x014 0 = true ∧ t.dev.reg 0x151 0x044 = 1 ∧
      t.dev.unmasked = [] := by decide +kernel

theorem test_port_link_up :
    let s := on {}
    let t := after (.portLinkUp .a 5 16) s
    s.Powered ∧ t.dev.portUp .a = true ∧ t.dev.reg 0x150 0x040 = 1 + 10 + 256 := by decide +kernel

theorem test_flr_done :
    let s := on (with_ 0x150 [(0x040, 10 + 256)] {})
    s.Powered ∧ s.dev.field 0x150 0x040 3 1 ≠ 0 ∧ (after (.flrDone .a) s).dev.portUp .a = true := by decide +kernel

/-- Port A is up. -/
def ported (hbm : Bool) : State := on { (with_ 0x150 [(0x040, 0x10B)] {}).setBytes 0x10004000000 [5, 6] with hbmReady := hbm }

theorem test_bar2 :
    let a : BitVec 41 := 0x10004000000
    (ported true).Powered ∧ (ported true).dev.portUp .a = true ∧ (ported true).dev.flag 0x150 0x040 12 = false ∧ directSram a.toNat ∧
      (after (.bar2Request .a a (.read 1) true) (ported true)).dev.reg 0x150 0x118 = 1 ∧
      (after (.bar2Request .a a (.read 1) false) (ported false)).dev.bus = .unsupported ∧
      (after (.bar2Request .a a (.read 3) false) (ported true)).dev.bus = .bytes [5, 6, 0] ∧
      (let t := after (.bar2Request .a a (.write [9] [true]) false) (ported true);
        t.dev.bus = .done ∧ t.dev.bytes 0x10004000000 2 = [9, 6]) := by decide +kernel

theorem test_bar2_read_timeout :
    let x : WaitAccess := { who := .port .a, addr := 0x10000, len := 4 }
    let s := on { (ported false).dev with now := 1000, waits := [x] }
    let t := after (.bar2ReadTimeout .a) s
    s.Powered ∧ x.data = none ∧ x.who = .port .a ∧ x.since + 1000 ≤ s.dev.now ∧ t.dev.bus = .completerAbort ∧ t.dev.waits = [] ∧
      t.dev.reg 0x150 0x114 = 1 := by decide +kernel

theorem test_msix_unmask :
    let s := on { ({} : Dev) with pba := [(255, true)], unmasked := [(1001, true)] }
    let t := after (.msixUnmask .b (some 127)) s
    s.Powered ∧ Sparse.get (fun _ => false) s.dev.pba (Port.b.index * 128 + 127) = true ∧
      Sparse.get (fun _ => false) s.dev.unmasked (1000 + Port.b.index) = true ∧ t.dev.sent = some (.b, 127) ∧ t.dev.pba = [] ∧
      t.dev.reg 0x151 0x110 = 1 := by decide +kernel

theorem test_ports_idle :
    let s := on {}
    s.dev.field 0x151 0x040 3 1 = 0 ∧ after (.flrDone .b) s = s ∧ s.dev.portUp .b = false ∧
      after (.bar2Request .b 0x10004000000 (.read 4) false) s = s ∧ s.dev.waits.any (Dev.lateAccess .b s.dev) = false ∧
      s.dev.remotes.any (Dev.lateRemote .b s.dev) = false ∧ after (.bar2ReadTimeout .b) s = s := by decide +kernel

/-- A read longer than 4 KiB, and one of the placed range while system SRAM sleeps. -/
theorem test_bar2_waits :
    let s := ported true
    let u := on (s.dev.setRegion 80 { st := .sleep })
    let t := after (.bar2Request .a 0x10000 (.read 4096) false) u
    (after (.bar2Request .a 0x10004000000 (.read 4097) false) s).dev.bus = .unsupported ∧ u.dev.hbmReady = true ∧
      spanOf 0x10000 = .placed ∧ u.dev.placedOpen = false ∧ t.dev.bus = .waiting ∧
      t.dev.waits = [{ who := .port .a, addr := 0x10000, len := 4096, since := 0 }] := by decide +kernel

theorem test_msix_unmask_function :
    let s := on { ({} : Dev) with pba := [(3, true), (4, true)], unmasked := [(3, true)] }
    let t := after (.msixUnmask .a none) s
    s.Powered ∧ Sparse.get (fun _ => false) s.dev.unmasked (Port.a.index * 128 + 3) = true ∧
      Sparse.get (fun _ => false) t.dev.unmasked 1000 = true ∧ t.dev.pba = [(4, true)] := by decide +kernel

/-- Link 1 in a state; the device is (0, 1) of a 2 × 2 torus, its time 2,000 µs. -/
def linked (st : Nat) : State :=
  on { (with_ 0x158 [(0x200, 0x40), (0x204, 0x202)] {}).setLstate 1 st with now := 2000 }

theorem test_link_not_due :
    let late := on { (linked 6).dev with now := 2001 }
    after (.linkDetectPoll 1 false) (linked 1) = linked 1 ∧ after (.linkDetectPoll 1 true) (linked 2) = linked 2 ∧
      after (.linkEqDone 1 0) (linked 1) = linked 1 ∧ after (.linkAlignDone 1) (linked 1) = linked 1 ∧
      after (.linkConfig 1 0x41 0 2 2) (linked 3) = linked 3 ∧ after (.linkLockLost 1) (linked 4) = linked 4 ∧
      after (.eqStep 1 5) (linked 4) = linked 4 ∧ after (.epochFlit 1 5) (linked 4) = linked 4 ∧
      after (.linkRetrainDone 1) (linked 5) = linked 5 ∧ after (.linkRetrainTimeout 1) (linked 5) = linked 5 ∧
      (late.dev.link 1).since + 2000 < late.dev.now ∧ late.dev.now < (late.dev.link 1).since + 10000 ∧
      after (.linkRetrainTimeout 1) late = late ∧ after .epochSend (linked 1) = linked 1 := by decide +kernel

theorem test_link_states :
    (linked 1).Powered ∧ (linked 1).dev.absentPage (Dev.kpage 1) = false ∧
      (after (.linkDetectPoll 1 true) (linked 1)).dev.lstate 1 = 2 ∧ (after (.linkEqDone 1 63) (linked 2)).dev.lstate 1 = 3 ∧
      (after (.linkEqDone 1 63) (linked 2)).dev.field (Dev.kpage 1) 0x048 5 0 = (linked 2).dev.eqClamp 1 63 ∧
      (after (.linkAlignDone 1) (linked 3)).dev.lstate 1 = 4 ∧ (linked 4).dev.peerMatches 1 0x41 0 2 2 = true ∧
      (linked 4).dev.peerMatches 1 0x41 2 2 2 = false ∧ (after (.linkConfig 1 0x41 0 2 2) (linked 4)).dev.lstate 1 = 5 ∧
      (after (.linkConfig 1 0x41 2 2 2) (linked 4)).dev.lstate 1 = 4 ∧
      (after (.linkConfig 1 0x41 2 2 2) (linked 4)).dev.flag (Dev.kpage 1) 0x014 2 = true := by decide +kernel

theorem test_kakan_link_up :
    (linked 5).dev.lstate 1 = 5 ∧ (after (.linkLockLost 1) (linked 5)).dev.lstate 1 = 6 ∧
      ((after (.linkLockLost 1) (linked 5)).dev.link 1).since = 2000 ∧
      (after (.eqStep 1 63) (linked 5)).dev.field (Dev.kpage 1) 0x048 5 0 = 1 ∧
      (linked 5).dev.flag 0x158 0x2C0 0 = false ∧ ((after (.epochFlit 1 7) (linked 5)).dev.link 1).epoch = some 7 ∧
      (after (.epochFlit 1 7) (linked 5)).dev.field 0x158 0x2C4 15 0 = 7 := by decide +kernel

/-- An epoch that arrives on K1 leaves on K0, once (R451). -/
theorem test_epoch_forward :
    let s := on ((linked 5).dev.setLstate 0 5)
    let t := after (.epochFlit 1 7) s
    s.dev.lstate 0 = 5 ∧ s.dev.lstate 1 = 5 ∧ (∀ j : Fin 4, (s.dev.link j.val).epoch ≠ some 7) ∧
      (t.dev.link 0).epochTx = some 7 ∧ (t.dev.link 1).epochTx = none ∧
      ((after (.epochFlit 0 7) t).dev.link 1).epochTx = none := by decide +kernel

theorem test_link_retrain :
    let late := on { ((linked 6).dev.setLink 1 { unacked := [(0, { op := .ack, vc := 1, src := 0, dst := 0, offset := 0, tag := 0, len := 0, payload := [] })] }) with now := 10000 }
    (linked 6).dev.now ≤ ((linked 6).dev.link 1).since + 2000 ∧ (after (.linkRetrainDone 1) (linked 6)).dev.lstate 1 = 5 ∧
      (late.dev.link 1).since + 10000 ≤ late.dev.now ∧ (after (.linkRetrainTimeout 1) late).dev.lstate 1 = 1 ∧
      ((after (.linkRetrainTimeout 1) late).dev.link 1).unacked = [] ∧
      (after (.linkRetrainTimeout 1) late).dev.flag (Dev.kpage 1) 0x014 1 = true := by decide +kernel

theorem test_epoch_send :
    let s := on ((with_ 0x158 [(0x2C0, 1), (0x2C4, 0xFFFF)] {}).setLstate 1 5)
    s.Powered ∧ s.dev.flag 0x158 0x2C0 0 = true ∧ s.dev.lstate 1 = 5 ∧ (after .epochSend s).dev.field 0x158 0x2C4 15 0 = 0 ∧
      ((after .epochSend s).dev.link 1).epochTx = some 0 := by decide +kernel

/-- A packet from the device at (1, 1) to this one. -/
def packet (op : KOp) (offset : BitVec 48) (payload : List Byte) : KPacket :=
  { op := op, vc := 0, src := 0x41, dst := 0x40, offset := offset, tag := 3, len := payload.length, payload := payload }

theorem test_flit_receive :
    let p := packet .write 0 [1]
    let s := on ((linked 5).dev.setLink 1 { rxSeq := 4095 })
    s.dev.lstate 1 = 5 ∧ after (.flitReceive 1 4095 (.data p) .failed) s = s ∧ after (.flitReceive 1 0 (.data p) .good) s = s ∧
      ((after (.flitReceive 1 4095 (.data p) .good) s).dev.link 1).rxSeq = 0 := by decide +kernel

theorem test_flit_nak :
    let s := on (with_ 0x159 [(0x04C, 8)] ((linked 5).dev.setLink 1 { unacked := [(9, packet .write 0 [1])] }))
    let t := after (.flitNak 1 9) s
    s.dev.lstate 1 = 5 ∧ (s.dev.link 1).failed = none ∧ 1 < s.dev.field (Dev.kpage 1) 0x04C 3 0 ∧ s.dev.frozen (Dev.kpage 1) = false ∧
      (t.dev.link 1).failed = some (9, 1) ∧ t.dev.reg (Dev.kpage 1) 0x054 = 1 := by decide +kernel

theorem test_credit_receive :
    let s := on ((linked 5).dev.setLink 1 { credits := [0, 255, 256] })
    s.dev.lstate 1 = 5 ∧ (s.dev.link 1).queue = [] ∧ (s.dev.link 1).credits.length = 3 ∧
      ((after (.creditReceive 1 0 256) s).dev.link 1).credits = [256, 255, 256] ∧
      ((after (.creditReceive 1 1 2) s).dev.link 1).credits = [0, 256, 256] := by decide +kernel

/-- The export window is one page of the AON SRAM, which begins with 1.0. -/
def exported : State :=
  on ((with_ 0x158 [(0x208, 0x04000000), (0x20C, 0x100), (0x210, 1)] (linked 1).dev).setBytes 0x10004000000 [0, 0, 0x80, 0x3F])

theorem test_kakan_write :
    let p := packet .write 0xFFFF [7]
    let t := after (.kakanWrite p) exported
    exported.Powered ∧ exported.dev.exportBase + Dev.kOffset p = 0x1000400FFFF ∧ Dev.kOffset p + p.payload.length ≤ exported.dev.exportSize ∧
      spanOf 0x1000400FFFF = .aon ∧ t.dev.bytes 0x1000400FFFF 2 = [7, 0] := by decide +kernel

theorem test_kakan_reduction :
    let p := packet .write 0x400000000 [0, 0, 0, 0x40]
    let t := after (.kakanRedWrite p) exported
    Dev.kOffset p = 0 ∧ Dev.kRed p = true ∧ Dev.kOffset p + 4 ≤ exported.dev.exportSize ∧ exported.dev.field 0x158 0x214 3 0 = 0 ∧
      t.dev.bytes 0x10004000000 4 = [0, 0, 0x40, 0x40] := by decide +kernel

theorem test_kakan_read :
    let p := { packet .read 3 [] with len := 2 }
    let t := after (.kakanRead p) exported
    Dev.kOffset p + p.len ≤ exported.dev.exportSize ∧ exported.dev.route p.src.toNat = some 0 ∧ exported.dev.lstate 0 ≠ 5 ∧
      (t.dev.link 0).queue.map (fun q => (q.op, q.dst.toNat, q.tag, q.payload)) = [(.readData, 0x41, 3, [0x3F, 0])] := by decide +kernel

theorem test_kakan_sig :
    let p := packet .sig 0x7FFFF003C [5, 0, 0, 0]
    let s := on (with_ 0x158 [(0x27C, 4), (0x2BC, 9)] (linked 1).dev)
    let t := after (.kakanSig p) s
    Dev.kRed p = true ∧ Dev.kOffset p = 0x3FFFF0000 + 4 * 15 ∧ p.payload = bytesLE 4 5 ∧ t.dev.reg 0x158 0x27C = 9 ∧
      t.dev.flag 0x158 0x014 27 = true := by decide +kernel

theorem test_kakan_answers :
    let f read := on { (linked 1).dev with remotes := [{ tag := 3, read := read, who := .port .a, addr := 0, len := 1, sent := 0 }] }
    let p := packet .readData 0 [8]
    ((f true).dev.remoteOf 3).isSome = true ∧ (after (.kakanReadData p) (f true)).dev.bus = .bytes [8] ∧
      (after (.kakanReadData p) (f true)).dev.remotes = [] ∧ (after (.kakanAck (packet .ack 0 [])) (f false)).dev.remotes = [] ∧
      after (.kakanNakRoute (packet .nakRoute 0 [])) (f true) = f true := by decide +kernel

/-- A read of the device at (1, 1) sends its packet and waits. -/
theorem test_remote_read :
    let a : BitVec 48 := 0x820800000000 + 16
    let t := after (.skeinRead (.port .a) a 8 .clean) (linked 1)
    (linked 1).dev.remoteAddr a.toNat = true ∧ t.dev.bus = .waiting ∧
      t.dev.remotes = [{ tag := (linked 1).dev.nextTag, read := true, who := .port .a, addr := a.toNat, len := 8, sent := 2000 }] := by
  decide +kernel

theorem test_remote_timeout :
    let s := on { (linked 1).dev with now := 100000000, remotes := [{ tag := 3, read := true, who := .port .a, addr := 0, len := 1, sent := 0 }] }
    let t := after (.remoteTimeout 3) s
    0 + s.dev.nbLossTmo ≤ s.dev.now ∧ t.dev.bus = .poisoned ∧ t.dev.remotes = [] ∧ t.dev.reg 0x158 0x2C8 = 1 := by decide +kernel

/-- A NAK at REPLAY_MAX; an acknowledgement across the wrap of the numbers; nothing on a link that is not UP. -/
theorem test_flit_replay_max :
    let w := packet .write 0 [1]
    let s := on (with_ 0x159 [(0x04C, 1)] ((linked 5).dev.setLink 1 { unacked := [(4095, w), (0, w), (1, w)] }))
    let t := after (.flitNak 1 4095) s
    let u := after (.flitReceive 1 7 (.ack 0) .good) s
    (s.dev.link 1).unacked.any (fun e => e.1 == 4095) = true ∧ s.dev.field (Dev.kpage 1) 0x04C 3 0 ≤ 1 ∧ t.dev.lstate 1 = 6 ∧
      (t.dev.link 1).failed = none ∧ t.dev.flag (Dev.kpage 1) 0x014 0 = true ∧ (u.dev.link 1).unacked.map (·.1) = [1] ∧
      after (.flitReceive 1 0 (.data w) .good) (linked 6) = linked 6 ∧ after (.flitNak 1 9) (linked 6) = linked 6 := by decide +kernel

/-- A read past the export window gives zeros; a reduction of one byte is dropped; SIG outside its registers stores nothing. -/
theorem test_kakan_outside :
    let p := { packet .read 0x10000 [] with len := 2 }
    let t := after (.kakanRead p) exported
    let r := packet .write 0x400000000 [9]
    let u := after (.kakanRedWrite r) exported
    let g := packet .sig 0x7FFFF0042 [5, 0, 0, 0]
    exported.dev.exportSize ≤ Dev.kOffset p ∧ t.dev.reg 0x0D0 0x04C = 1 ∧ (t.dev.link 0).queue.map (·.payload) = [[0, 0]] ∧
      exported.dev.redFmt.2 = 4 ∧ Dev.sigReg r = none ∧ u.dev.reg 0x158 0x2CC = 1 ∧ u.dev.mem = exported.dev.mem ∧
      Dev.sigReg g = none ∧ (after (.kakanSig g) exported).dev.mem = exported.dev.mem ∧
      (after (.kakanSig g) exported).dev.reg 0x0D0 0x04C = 1 := by decide +kernel

/-- A mover's last answer retires its task, and its request without one retires it with 0x31; answers of the wrong kind, of no request
and before the time-out change nothing. -/
theorem test_remote_task :
    let y : Task := { task [6, 0, 0, 0, 0, 0, 0, 0, 8] .dispatched with moved := some (0, 0) }
    let r (read : Bool) (who : MemAgent) : Remote := { tag := 3, read := read, who := who, addr := 0, len := 1, sent := 0 }
    let s := on { ringTask 3 7 y with remotes := [r false (.engine 7)], now := 100000000 }
    let u := on { ringTask 3 7 y with remotes := [r true (.port .a)] }
    (s.dev.dropRemote 3).unanswered (.engine 7) = false ∧ s.dev.TasksWf ∧ s.dev.ringClass 0 = 3 ∧
      ((after (.kakanAck (packet .ack 0 [])) s).dev.task 7).map (fun x => (x.st, x.status)) = some (.retired, 0) ∧
      0 + s.dev.nbLossTmo ≤ s.dev.now ∧
      ((after (.remoteTimeout 3) s).dev.task 7).map (fun x => (x.st, x.status)) = some (.retired, 0x31) ∧
      after (.kakanReadData (packet .readData 0 [8])) s = s ∧ after (.kakanAck (packet .ack 0 [])) u = u ∧
      u.dev.now < 0 + u.dev.nbLossTmo ∧ after (.remoteTimeout 3) u = u ∧ after (.remoteTimeout 4) u = u := by decide +kernel
/-! ## 20 Resets, boot, fuses, flash, debug port -/

theorem test_chip_resets :
    (armed {}).Powered ∧ (∀ c ∈ [Instr.chipReset, .resetNPin 1], (after c (armed {})).halt.st = .safe ∧ (after c (armed {})).halt.pins = 0 ∧
      (after c (armed {})).fuses = (armed {}).fuses) ∧ after (.resetNPin 0) (armed {}) = armed {} := by decide +kernel

theorem test_warm_reset :
    let s := { armed (({} : Dev).setBytes 0x10004000000 [5]) with fuses := { crcOk := false } }
    let t := after (.warmReset 0x5A5A) s
    s.Powered ∧ s.fuses.crcOk = false ∧ after (.warmReset 0x5A5B) s = s ∧ t.dev.flag 0x002 0x040 5 = true ∧ t.halt.st = .hold ∧
      t.halt.pins = 3 ∧ t.dev.byte 0x10004000000 = 5 := by decide +kernel

theorem test_watchdog :
    let s := { armed { with_ 0x002 [(0x060, 2)] {} with now := 2000 } with fuses := { crcOk := false } }
    let t := after .watchdogExpiry s
    s.Powered ∧ s.dev.field 0x002 0x060 19 0 = 2 ∧ s.dev.wdtAt + 1000 * 2 ≤ s.dev.now ∧ t.dev.flag 0x002 0x040 6 = true ∧
      t.halt.pins = 3 ∧ (after (.wdtKick 0xC35A) s).dev.wdtAt = 2000 ∧ after (.wdtKick 0) s = s := by decide +kernel

theorem test_host_go_refused :
    let s := on (own 0x002 (with_ 0x002 [(0x04C, 2), (0x058, 4096)] {}))
    let t := after (.hostGo .portA 1) s
    s.Powered ∧ s.dev.claimedBy .portA 0x002 = true ∧ s.dev.field 0x002 0x04C 3 0 = 2 ∧ s.hostPort .portA = true ∧
      (s.dev.loadImage s.fuses (fun k => s.dev.byte (0x10000000 + k)) 4096).2 = 1 ∧ t.dev.field 0x002 0x04C 3 0 = 2 ∧
      t.dev.field 0x002 0x04C 15 12 = 1 := by decide +kernel

/-- HOST_GO while the ROM does not wait for it, without GO, and the watchdog before its time and off. -/
theorem test_reset_not_due :
    let h := on (own 0x002 {})
    let w := on { with_ 0x002 [(0x060, 2)] {} with now := 1999 }
    h.dev.claimedBy .portA 0x002 = true ∧ h.dev.field 0x002 0x04C 3 0 ≠ 2 ∧ after (.hostGo .portA 1) h = h ∧
      after (.hostGo .portA 0) h = h ∧ after .watchdogExpiry w = w ∧ after .watchdogExpiry (on {}) = on {} := by decide +kernel

theorem test_fuse_prog :
    let s := on (own 0x000 {})
    s.Powered ∧ s.dev.claimedBy .portA 0x000 = true ∧ (after (.fuseProgSvn .portA 0xF05A0001) s).dev.fuseOp = some (1, 0) ∧
      (after (.fuseProgRevoke .portA 0xF05A0302) s).dev.fuseOp = some (2, 3) ∧
      (after (.fuseProgSvn .portA 0xF05B0001) s).dev.flag 0x000 0x014 0 = true := by decide +kernel

theorem test_fuse_prog_done :
    let s op := { on { ({} : Dev) with fuseOp := some (op, 3) } with fuses := { svn := 3 } }
    (s 1).Powered ∧ (s 1).fuses.Thermometer ∧ (after .fuseProgDone (s 1)).fuses.svn = 7 ∧
      (after .fuseProgDone (s 2)).fuses.revoked 3 = true ∧ (after .fuseProgDone (s 2)).fuses.svn = 3 := by decide +kernel

theorem test_journal_commit :
    let s m := on (own 0x003 (with_ 0x003 [(0x100, m)] {}))
    let ok := s 0x314A4B42
    ok.Admits .portA 0x003 ∧ ok.dev.commit = none ∧ commitResult ok.dev.winner (ok.dev.regBytes 0x003 0x100 256) = 0 ∧
      (after (.journalCommit .portA 1) ok).dev.commit.isSome = true ∧ (after (.journalCommit .portA 1) ok).dev.reg 0x003 0x04C = 1 ∧
      commitResult (s 0).dev.winner ((s 0).dev.regBytes 0x003 0x100 256) = 2 ∧
      (after (.journalCommit .portA 1) (s 0)).dev.reg 0x003 0x04C = 4 := by decide +kernel

theorem test_journal_commit_done :
    let r : JRec := List.replicate 256 0xA5
    let s := on { ({} : Dev) with commit := some r, flash := [(0x10000, 0), (0x12000, 1)] }
    s.Powered ∧ r.length = 256 ∧ s.dev.journalWin = none ∧
      (after (.journalCommitDone false) s).dev.flag 0x003 0x014 1 = true := by decide +kernel

/-- The flash controller with an address, a length and a buffer at the AON SRAM's base. -/
def flashing (a n : Word) : State := on (own 0x004 (with_ 0x004 [(0x044, a), (0x048, n), (0x04C, 0x04000000), (0x050, 0x100)] {}))

theorem test_flash_commands :
    (flashing 0x1000123 2).Admits .portA 0x004 ∧ 0x1000123 + 2 ≤ (flashing 0x1000123 2).dev.board.flashSize ∧
      (flashing 0 0).dev.flashProtected 0x1000123 2 = false ∧ (flashing 0 0).dev.flashProtected 0x1000000 0x10000 = false ∧
      (∀ e ∈ [(Instr.flashRead .portA, 1, 0x1000123, 2), (.flashProgram .portA, 2, 0x1000123, 2), (.flashErase4k .portA, 3, 0x1000000, 0x1000),
          (.flashErase64k .portA, 4, 0x1000000, 0x10000)],
        (after e.1 (flashing 0x1000123 2)).dev.flashOp = some { op := e.2.1, addr := e.2.2.1, len := e.2.2.2, buf := 0x10004000000 } ∧
        (after e.1 (flashing 0x1000123 2)).dev.reg 0x004 0x054 = 1) ∧
      (flashing 0x11FFF 1).dev.flashProtected 0x11FFF 1 = true ∧ (flashing 0x12000 1).dev.flashProtected 0x12000 1 = false ∧
      (after (.flashProgram .portA) (flashing 0x11FFF 1)).dev.flashOp = none ∧
      (after (.flashProgram .portA) (flashing 0x11FFF 1)).dev.reg 0x004 0x054 = 2 := by decide +kernel

theorem test_flash_op_done :
    let s op := on { ({} : Dev).setBytes 0x10004000000 [0xF0, 0x0F] with
      flash := [(0x2000, 0x3C), (0x2001, 0x3C), (0x3000, 1)], flashOp := some { op := op, addr := 0x2000, len := 2, buf := 0x10004000000 } }
    (s 1).Powered ∧ spanOf 0x10004000000 = .aon ∧ (after (.flashOpDone true) (s 1)).dev.bytes 0x10004000000 2 = [0x3C, 0x3C] ∧
      (after (.flashOpDone true) (s 2)).dev.flashBytes 0x2000 2 = [0x30, 0x0C] ∧
      (after (.flashOpDone true) (s 3)).dev.flash = [(0x3000, 1)] ∧ (after (.flashOpDone false) (s 2)).dev.reg 0x004 0x054 = 4 ∧
      (after (.flashOpDone false) (s 2)).dev.flag 0x004 0x014 1 = true := by decide +kernel

/-- A command that comes while one is in progress, an end of none, and a range past the flash. -/
theorem test_busy_controllers :
    let f := on { own 0x000 {} with fuseOp := some (1, 0) }
    let j := on { own 0x003 {} with commit := some [] }
    let b := on { (flashing 0 1).dev with flashOp := some { op := 1, addr := 0, len := 1, buf := 0 } }
    let u := on { own 0x005 {} with unlockAt := some 0, now := 99999 }
    (after (.fuseProgSvn .portA 0xF05A0001) f).dev.fuseOp = some (1, 0) ∧ (after (.fuseProgSvn .portA 0xF05A0001) f).dev.flag 0x000 0x014 0 = true ∧
      after (.journalCommit .portA 1) j = j ∧ after (.journalCommit .portA 0) (on (own 0x003 {})) = on (own 0x003 {}) ∧ after (.flashRead .portA) b = b ∧
      after (.debugUnlock .portA 1) u = u ∧ after .fuseProgDone (on {}) = on {} ∧ after (.journalCommitDone true) (on {}) = on {} ∧
      after (.flashOpDone true) (on {}) = on {} ∧ after .debugUnlockDone (on {}) = on {} ∧
      (on {}).dev.board.flashSize < 0xFFFFFFFF + 2 ∧ (after (.flashRead .portA) (flashing 0xFFFFFFFF 2)).dev.reg 0x004 0x054 = 6 := by
  decide +kernel

theorem test_debug_unlock :
    let s := on { own 0x005 (with_ 0x005 [(0x104, 4)] {}) with now := 100000, unlockAt := some 0 }
    let t := after (.debugUnlock .portA 1) s
    s.Admits .portA 0x005 ∧ s.dev.unlock = none ∧ t.dev.unlock.isSome = true ∧ t.dev.reg 0x005 0x06C = 1 ∧
      t.dev.tokenOk t.fuses (s.dev.regBytes 0x005 0x100 256) = false ∧ (after .debugUnlockDone t).dev.unlock = none := by decide +kernel

theorem test_jtag :
    let s := on (with_ 0x005 [(0x044, 0x28000)] {})
    s.Powered ∧ s.dev.scope 17 = true ∧ s.dev.scope 16 = false ∧ s.dev.scope 15 = true ∧
      (after .jtagBypass s).dev.jtag = .bypass ∧ (after .jtagIdcode s).dev.jtag = .idcode ∧ (after .jtagSamplePreload s).dev.jtag = .sample ∧
      (after (.jtagExtest 3) s).dev.jtag = .extest 3 ∧ (after (.jtagCoreDbg 15) s).dev.jtag = .coreDbg 15 ∧
      (after (.jtagCoreDbg 14) s).dev.jtag = .bypass ∧ (after (.jtagRegAccess ⟨0, 0⟩ none) s).dev.jtag = .bypass := by decide +kernel

/-! ## The whole device -/

theorem test_step_keeps_outputs :
    let s := { armed {} with pending := [.warmReset 0x5A5A], fuses := { svn := 1 } }
    s.OutputsSafe ∧ step s = .next (after (.warmReset 0x5A5A) { s with pending := [] }) := by
  exact ⟨by decide, rfl⟩

theorem test_tripped_holds :
    let s := { on {} with halt := { st := .tripped } }
    s.halt.st = .tripped ∧ (Instr.warmReset 0x5A5A).mayEndTrip = false ∧ (after (.warmReset 0x5A5A) s).halt.st = .tripped := by decide +kernel

theorem test_reset_outputs_safe : State.reset.OutputsSafe := by decide

end Sys2Proof.Tests
end

section
/-!
SUPPORT. Facts that the statements about commands share: a command that changes the device alone, a store that forgets, what an entry
of the error log and the votes of Skein move, and reads and writes of direct SRAM.
-/
namespace Sys2Proof.Machine

/-! ## Commands that change the device alone -/

theorem onDev_of_powered {s : State} (h : s.Powered) (f : Dev → Dev) : onDev f s = .next { s with dev := f s.dev } := by
  simp [onDev, onState, h]

theorem onDev_of_fixed {s : State} {f : Dev → Dev} (h : f s.dev = s.dev) : onDev f s = .next s := by
  simp [onDev, onState, h]

/-- An index that a store forgets reads as an unlisted one. -/
theorem Sparse.get_forget_of_picked {α : Type} (dflt : Nat → α) (m : Sparse α) (p : Nat → Bool) (k : Nat) (h : p k = true) :
    Sparse.get dflt (Sparse.forget m p) k = dflt k := by
  unfold Sparse.forget
  induction m with
  | nil => rfl
  | cons e r ih =>
    rw [List.filter_cons]
    split
    · rename_i hp
      have hk : k ≠ e.1 := by rintro rfl; simp [h] at hp
      simp [Sparse.get, hk, ih]
    · exact ih

namespace Dev

theorem Signals.waits {d d' : Dev} (h : d.Signals d') : d'.waits = d.waits := by rw [h]
theorem Signals.released {d d' : Dev} (h : d.Signals d') : d'.released = d.released := by rw [h]
theorem Signals.unmasked {d d' : Dev} (h : d.Signals d') : d'.unmasked = d.unmasked := by rw [h]

/-! ## The error log (R318–R327) -/

/-- The registers that an entry of the error log moves: those of page 0x0F0's errors, LSTAT, NEXT_ESEQ and the count of lost records. -/
def logRegs : List (Nat × Nat) := errRegs 0x0F0 ++ [(0x0F0, 0x040), (0x0F0, 0x044), (0x0F0, 0x054)]

/-- From `d` to `d'` only the entries of the log, the registers `logRegs` names, and the rest of what `Signals` names have moved. -/
def Logs (d d' : Dev) : Prop := Signals { d with log := d'.log } d' ∧ OnlyRegs logRegs d d'

theorem Logs.of_signals {d d' : Dev} (h : d.Signals d') (hr : OnlyRegs logRegs d d') : d.Logs d' := by
  refine ⟨?_, hr⟩
  rw [h.log]
  exact h

theorem Logs.refl (d : Dev) : d.Logs d := .of_signals (Signals.refl d) (OnlyRegs.refl _ d)

theorem Logs.trans {a b c : Dev} (h : a.Logs b) (k : b.Logs c) : a.Logs c := by
  obtain ⟨hs, hr⟩ := h
  obtain ⟨ks, kr⟩ := k
  refine ⟨?_, hr.trans kr⟩
  unfold Signals at *
  rw [ks, hs]

theorem Logs.onlyRegs {d d' : Dev} (h : d.Logs d') : OnlyRegs logRegs d d' := h.2
theorem Logs.now {d d' : Dev} (h : d.Logs d') : d'.now = d.now := by rw [h.1]
theorem Logs.released {d d' : Dev} (h : d.Logs d') : d'.released = d.released := by rw [h.1]
theorem Logs.unmasked {d d' : Dev} (h : d.Logs d') : d'.unmasked = d.unmasked := by rw [h.1]

theorem errlogErr_logs (d : Dev) (b : Nat) : d.Logs (d.errlogErr b) :=
  .of_signals (errlogErr_signals d b) ((errlogErr_onlyRegs d b).mono fun _ => List.mem_append_left _)

theorem deviceBegan_logs (old new : Dev) : new.Logs (deviceBegan old new) := by
  unfold deviceBegan
  split
  · exact errlogErr_logs new 3
  · exact Logs.refl new

theorem logEnter_logs (d : Dev) (i : Nat) (e : LogEntry) : d.Logs (d.logEnter i e) :=
  ⟨rfl, setReg_onlyRegs _ 0x0F0 0x044 _ logRegs (by omega) (by simp [logRegs])⟩

/-- A record that is entered OPEN, or lost, moves the log and signals it. -/
theorem logOpen_logs (d : Dev) (e : LogEntry) : d.Logs (d.logOpen e) := by
  unfold logOpen
  simp only
  split
  · have hc : OnlyRegs logRegs d ((d.count 0x0F0 0x054).setFlag 0x0F0 0x040 9 true) :=
      (setReg_onlyRegs d 0x0F0 0x054 _ _ (by omega) (by simp [logRegs])).trans
        (setReg_onlyRegs _ 0x0F0 0x040 _ _ (by omega) (by simp [logRegs]))
    have hl := Logs.of_signals ((count_signals d _ _ _).trans (setFlag_signals _ _ _ _ _)) hc
    have he := Logs.of_signals (err_signals ((d.count 0x0F0 0x054).setFlag 0x0F0 0x040 9 true) 0x0F0 2)
      ((err_onlyRegs _ _ _).mono fun _ => List.mem_append_left _)
    exact (hl.trans he).trans (deviceBegan_logs _ _)
  · rename_i i _
    have hi := (logEnter_logs d i { e with st := .opened }).trans (errlogErr_logs _ 0)
    split
    · exact (hi.trans (errlogErr_logs _ 4)).trans (deviceBegan_logs _ _)
    · exact hi.trans (deviceBegan_logs _ _)

/-- A CONTAINED error nests or is entered (R323), and moves the log and its signals alone. -/
theorem logContained_logs (d : Dev) (e : LogEntry) : d.Logs (d.logContained e) := by
  unfold logContained
  simp only
  split
  · exact ⟨rfl, fun _ _ _ _ => rfl⟩
  · exact logOpen_logs d _

/-! ## The votes of Skein (R394) -/

theorem skeinVotes_signals (d : Dev) : d.Signals d.skeinVotes := forEach_signals (fun r _ d => settle_signals d r) d

theorem skeinVotes_onlyRegs (d : Dev) : OnlyRegs [(0x008, 0x050)] d d.skeinVotes :=
  forEach_rel (OnlyRegs.refl _) (fun _ _ _ => OnlyRegs.trans) (fun r _ d => settle_onlyRegs d r) d


/-! ## The parts of an access -/

/-- The parts cover the `n` addresses from `a` on, one after another. -/
def Tiles : Nat → Nat → List (Nat × Nat) → Prop
  | _, n, [] => n = 0
  | a, n, q :: r => q.1 = a ∧ q.2 ≤ n ∧ Tiles (a + q.2) (n - q.2) r

/-- Where page `a / 65536 + i` holds a part of an access, the parts from that page on cover the rest of it. -/
theorem tiles_pages (a e : Nat) (k i : Nat) (hlast : (e - 1) / 65536 = a / 65536 + i + k) (lo : Nat)
    (hlo : lo = max a ((a / 65536 + i) * 65536)) (hn : lo < e) :
    Tiles lo (e - lo) ((List.range' i (k + 1)).map fun i =>
      (max a ((a / 65536 + i) * 65536),
        min e ((a / 65536 + i + 1) * 65536) - max a ((a / 65536 + i) * 65536))) := by
  induction k generalizing i lo with
  | zero =>
    rw [List.range'_succ, List.map_cons]
    refine ⟨hlo.symm, by omega, ?_⟩
    show _ - _ = 0
    omega
  | succ k ih =>
    rw [List.range'_succ, List.map_cons]
    refine ⟨hlo.symm, by omega, ?_⟩
    have hnext := ih (i + 1) (by omega) (max a ((a / 65536 + (i + 1)) * 65536)) rfl (by omega)
    convert hnext using 1 <;> omega

theorem pageParts_tiles (a n : Nat) : Tiles a n (pageParts a n) := by
  unfold pageParts
  split
  · simpa [Tiles] using ‹n = 0›
  · have h := tiles_pages a (a + n) ((a + n - 1) / 65536 - a / 65536) 0 (by omega) a (by omega) (by omega)
    rw [List.range_eq_range']
    simpa [Nat.add_sub_cancel_left] using h

/-- Every address of an access lies in the page of one of its parts. -/
theorem exists_pagePart (a n i : Nat) (h : i < n) : ∃ q ∈ pageParts a n, q.1 / 65536 = (a + i) / 65536 := by
  unfold pageParts
  rw [if_neg (by omega)]
  simp only [List.mem_map, List.mem_range, exists_exists_and_eq_and]
  exact ⟨(a + i) / 65536 - a / 65536, by omega, by omega⟩

/-! ## Direct SRAM (R265) -/

theorem directSram_iff (a : Nat) : directSram a ↔
    0x10004000000 ≤ a ∧ a < 0x10004100000 ∨ 0x10008000000 ≤ a ∧ a < 0x10008400000 := by
  unfold directSram spanOf
  simp only [Bool.and_eq_true, decide_eq_true_eq]
  split_ifs <;> simp <;> omega

/-- A page lies in direct SRAM as a whole or not at all. -/
theorem directSram_of_page_eq {a b : Nat} (h : directSram a) (hp : b / 65536 = a / 65536) : directSram b := by
  rw [directSram_iff] at *
  omega

/-- Where every part of an access begins in direct SRAM, all of its addresses lie there. -/
theorem directSram_of_pageParts {a n : Nat} (h : ∀ q ∈ pageParts a n, directSram q.1) (i : Nat) (hi : i < n) : directSram (a + i) := by
  obtain ⟨q, hq, hp⟩ := exists_pagePart a n i hi
  exact directSram_of_page_eq (h q hq) hp.symm

theorem directSram_not_placed {a : Nat} (h : directSram a) : spanOf a ≠ .placed := by rcases h with h | h <;> simp [h]

theorem directSram_not_remote {a : Nat} (h : directSram a) (d : Dev) : d.remoteAddr a = false := by
  rcases h with h | h <;> simp [remoteAddr, h]

/-! ## Reads of direct SRAM -/

theorem bytes_of_mem {d e : Dev} (h : d.mem = e.mem) (a n : Nat) : d.bytes a n = e.bytes a n := by simp [bytes, byte, h]

theorem bytes_add (d : Dev) (a m n : Nat) : d.bytes a (m + n) = d.bytes a m ++ d.bytes (a + m) n := by
  simp [bytes, List.range_add, Nat.add_assoc]

theorem readLine_signals (who : MemAgent) (x : Dev × Bool × Nat) (l : Nat) : x.1.Signals (readLine who x l).1 := by
  obtain ⟨d, tr, po⟩ := x
  unfold readLine
  simp only
  split <;> rfl

theorem readLines_signals (who : MemAgent) (ls : List Nat) (x : Dev × Bool × Nat) :
    x.1.Signals (ls.foldl (readLine who) x).1 := by
  induction ls generalizing x with
  | nil => exact Signals.refl _
  | cons l r ih => exact (readLine_signals who x l).trans (ih _)

/-- A part in direct SRAM gives the bytes it covers and meets no poison. -/
theorem readPart_direct (who : MemAgent) (r : ReadOut) (d : Dev) (un : Bool) (q : Nat × Nat) (h : directSram q.1) :
    ∃ d', readPart who (r, d, un) q = ({ r with bytes := r.bytes ++ d.bytes q.1 q.2 }, d', un) ∧ d.Signals d' := by
  refine ⟨((linesOf q.1 q.2).foldl (readLine who) (d, false, 0)).1, ?_, readLines_signals who _ (d, false, 0)⟩
  unfold readPart
  rcases h with h | h <;> simp [h]

/-- Parts in direct SRAM give the bytes they cover together. -/
theorem readParts_direct (who : MemAgent) (ps : List (Nat × Nat)) : ∀ (a n : Nat) (r : ReadOut) (d : Dev) (un : Bool),
    Tiles a n ps → (∀ q ∈ ps, directSram q.1) →
    ∃ d', ps.foldl (readPart who) (r, d, un) = ({ r with bytes := r.bytes ++ d.bytes a n }, d', un) ∧ d.Signals d' := by
  induction ps with
  | nil =>
    rintro a n r d un rfl -
    exact ⟨d, by simp [bytes], Signals.refl d⟩
  | cons q ps ih =>
    rintro _ n r d un ⟨rfl, hle, ht⟩ h
    obtain ⟨d1, h1, s1⟩ := readPart_direct who r d un q (h q (by simp))
    obtain ⟨d2, h2, s2⟩ := ih _ _ { r with bytes := r.bytes ++ d.bytes q.1 q.2 } d1 un ht fun p hp => h p (by simp [hp])
    refine ⟨d2, ?_, s1.trans s2⟩
    obtain ⟨m, rfl⟩ := Nat.exists_eq_add_of_le hle
    rw [List.foldl_cons, h1, h2, bytes_of_mem s1.mem, bytes_add, Nat.add_sub_cancel_left, List.append_assoc]

/-- A read of direct SRAM gives its bytes and moves nothing but what `Signals` names. -/
theorem read_direct (d : Dev) (who : MemAgent) (a n : Nat) (h : ∀ q ∈ pageParts a n, directSram q.1) :
    ∃ d', d.read who a n = ({ bytes := d.bytes a n }, d') ∧ d.Signals d' := by
  obtain ⟨d', hr, hs⟩ := readParts_direct who _ a n {} d false (pageParts_tiles a n) h
  exact ⟨d', by simp [read, hr], hs⟩

/-! ## Writes of direct SRAM -/

/-- `d'` is `d` with bytes stored from `a` on: only the memory and the written bits of lines (R283) have moved. -/
def Stored (d d' : Dev) (a : Nat) (data : List Byte) : Prop := d' = { d.setBytes a data with written := d'.written }

theorem Stored.mem {d d' : Dev} {a : Nat} {data : List Byte} (h : d.Stored d' a data) : d'.mem = (d.setBytes a data).mem := by rw [h]

theorem Stored.byte {d d' : Dev} {a : Nat} {data : List Byte} (h : d.Stored d' a data) (x : Nat) :
    d'.byte x = if a ≤ x ∧ x < a + data.length then data.getD (x - a) 0 else d.byte x := by
  rw [← byte_setBytes]
  simp [Dev.byte, h.mem]

theorem setBytes_append (d : Dev) (a : Nat) (l m : List Byte) :
    d.setBytes a (l ++ m) = (d.setBytes a l).setBytes (a + l.length) m := by
  induction l generalizing d a with
  | nil => rfl
  | cons b r ih => rw [List.cons_append, setBytes_cons, setBytes_cons, ih, List.length_cons, Nat.add_assoc, Nat.add_comm 1]

theorem setBytes_written (d : Dev) (w : Sparse Bool) (a : Nat) (l : List Byte) :
    ({ d with written := w } : Dev).setBytes a l = { d.setBytes a l with written := w } := by
  induction l generalizing d a with
  | nil => rfl
  | cons b r ih => exact ih (d.setByte a b) (a + 1)

theorem Stored.nil (d : Dev) (a : Nat) : d.Stored d a [] := rfl

theorem Stored.append {d e f : Dev} {a : Nat} {l m : List Byte} (h : d.Stored e a l) (k : e.Stored f (a + l.length) m) :
    d.Stored f a (l ++ m) := by
  unfold Stored at *
  rw [k, h, setBytes_written, setBytes_append]

theorem writeLine_direct (d : Dev) (ok : Bool) (l : Nat × List Byte) (h : directSram l.1) :
    ∃ d', writeLine (d, ok) l = (d', ok) ∧ d.Stored d' l.1 l.2 := by
  unfold writeLine
  rcases h with h | h <;> simp only [h] <;> exact ⟨_, rfl, rfl⟩

/-- The lines of data that starts at `a` are stored one after another; `k` lines are enough for it. -/
theorem writeLines_direct (k : Nat) : ∀ (a : Nat) (data : List Byte) (d : Dev) (ok : Bool), a % 64 + data.length ≤ 64 * k →
    (∀ i < data.length, directSram (a + i)) →
    ∃ d', (splitLines k a data).foldl writeLine (d, ok) = (d', ok) ∧ d.Stored d' a data := by
  induction k with
  | zero =>
    intro a data d ok hk _
    obtain rfl := List.length_eq_zero_iff.1 (show data.length = 0 by omega)
    exact ⟨d, rfl, .nil d a⟩
  | succ k ih =>
    intro a data d ok hk h
    by_cases hne : data = []
    · subst hne
      exact ⟨d, rfl, .nil d a⟩
    · have hpos := List.length_pos_of_ne_nil hne
      obtain ⟨d1, h1, s1⟩ := writeLine_direct d ok (a, data.take (64 - a % 64)) (h 0 hpos)
      obtain ⟨d2, h2, s2⟩ := ih (a + (64 - a % 64)) (data.drop (64 - a % 64)) d1 ok (by rw [List.length_drop]; omega) fun i hi => by
        rw [List.length_drop] at hi
        rw [Nat.add_assoc]
        exact h _ (by omega)
      refine ⟨d2, by simp [splitLines, hne, h1, h2], ?_⟩
      rcases Nat.le_total (64 - a % 64) data.length with hle | hle
      · rw [← List.take_append_drop (64 - a % 64) data]
        exact s1.append (by rwa [List.length_take, Nat.min_eq_left hle])
      · rw [List.take_of_length_le hle] at s1
        rw [List.drop_eq_nil_of_le hle] at s2
        simpa using s1.append (m := []) s2

/-- Bytes stored in direct SRAM always find a frame. -/
theorem storeLines_direct (d : Dev) (a : Nat) (data : List Byte) (h : ∀ i < data.length, directSram (a + i)) :
    ∃ d', d.storeLines a data = (d', true) ∧ d.Stored d' a data :=
  writeLines_direct _ a data d true (by omega) h

/-- Over parts in direct SRAM a write stores its data, and leaves what follows the parts. -/
theorem writeParts_direct (who : MemAgent) (ps : List (Nat × Nat)) : ∀ (a : Nat) (data : List Byte) (d : Dev) (un : Bool),
    Tiles a data.length ps → (∀ i < data.length, directSram (a + i)) → (∀ q ∈ ps, directSram q.1) →
    ∃ d', ps.foldl (writePart who) (d, data, un, true) = (d', [], un, true) ∧ d.Stored d' a data := by
  induction ps with
  | nil =>
    intro a data d un ht _ _
    obtain rfl := List.length_eq_zero_iff.1 ht
    exact ⟨d, rfl, .nil d a⟩
  | cons q ps ih =>
    rintro _ data d un ⟨rfl, hle, ht⟩ h hq
    have hlen : (data.take q.2).length = q.2 := by rw [List.length_take, Nat.min_eq_left hle]
    obtain ⟨d1, h1, s1⟩ := storeLines_direct d q.1 (data.take q.2) fun i hi => h i (by omega)
    have hpart : writePart who (d, data, un, true) q = (d1, data.drop q.2, un, true) := by
      unfold writePart
      rcases hq q (by simp) with hs | hs <;> simp [hs, h1]
    rw [← List.length_drop] at ht
    obtain ⟨d2, h2, s2⟩ := ih (q.1 + q.2) (data.drop q.2) d1 un ht (fun i hi => by
      rw [List.length_drop] at hi
      rw [Nat.add_assoc]
      exact h _ (by omega)) fun p hp => hq p (by simp [hp])
    refine ⟨d2, by rw [List.foldl_cons, hpart, h2], ?_⟩
    rw [← List.take_append_drop q.2 data]
    exact s1.append (by rwa [hlen])

/-- A write of direct SRAM stores its data and is never dropped. -/
theorem write_direct (d : Dev) (who : MemAgent) (a : Nat) (data : List Byte) (h : ∀ q ∈ pageParts a data.length, directSram q.1) :
    ∃ d', d.write who a data = (d', true) ∧ d.Stored d' a data := by
  obtain ⟨d', hw, hs⟩ := writeParts_direct who _ a data d false (pageParts_tiles a _) (directSram_of_pageParts h) h
  exact ⟨d', by simp [write, hw], hs⟩

/-- SKEIN_WRITE of direct SRAM (R283): the bytes are stored and the write is done. -/
theorem skeinWrite_direct (d : Dev) (who : MemAgent) (a : Nat) (data : List Byte) (ha : directSram a)
    (h : ∀ q ∈ pageParts a data.length, directSram q.1) :
    (d.skeinWrite who a data).bus = .done ∧ (d.skeinWrite who a data).mem = (d.setBytes a data).mem := by
  obtain ⟨d', hw, hs⟩ := write_direct d who a data h
  have he : d.skeinWrite who a data = (d'.answer .done).skeinVotes := by
    unfold skeinWrite
    cases who <;> simp [directSram_not_placed ha, hw, onlyIf]
  have hv := skeinVotes_signals (d'.answer .done)
  exact ⟨by rw [he, hv.bus]; rfl, by rw [he, hv.mem, ← hs.mem]; rfl⟩

end Dev
end Sys2Proof.Machine
end

section
/-!
The host ports (19): link-down and training (R434, R435), requests to BAR2 (R267, R430) and MSI-X (R431).
-/
namespace Sys2Proof.Machine

namespace Dev

/-! ## Links (R55, R434, R435) -/

/-- LINK as a link-down leaves it: an FLR takes UP alone, any other cause the trained link too (R434). -/
def linkLowered (p : Port) (c : LinkDownCause) (d : Dev) : Dev :=
  if c = .flr then d.setFlag p.page 0x040 0 false else d.setReg p.page 0x040 0

theorem linkLowered_now (p : Port) (c : LinkDownCause) (d : Dev) : (linkLowered p c d).now = d.now := by
  unfold linkLowered
  split
  · exact setFlag_now _ _ _ _ _
  · exact setReg_now _ _ _ _

theorem linkLowered_portUp (p : Port) (c : LinkDownCause) (d : Dev) : (linkLowered p c d).portUp p = false := by
  unfold linkLowered
  split
  · exact flag_setFlag_same _ _ _ _ _ (by omega)
  · simp [portUp, flag, bit]

theorem linkLowered_reg (p : Port) (c : LinkDownCause) (d : Dev) (o : Nat) (ho : o < 4096) (hn : o ≠ 0x040) :
    (linkLowered p c d).reg p.page o = d.reg p.page o := by
  unfold linkLowered
  split <;> exact reg_setReg_other _ _ _ _ _ _ (.inr hn) ho (by omega)

/-- A port whose link has just fallen (R434): its page and its vectors, before the error and the record. -/
def portFallen (p : Port) (c : LinkDownCause) (d : Dev) : Dev := ((linkLowered p c d).msixReset p).count p.page 0x044

theorem portFallen_now (p : Port) (c : LinkDownCause) (d : Dev) : (portFallen p c d).now = d.now := linkLowered_now p c d

theorem portFallen_portUp (p : Port) (c : LinkDownCause) (d : Dev) : (portFallen p c d).portUp p = false := by
  unfold portFallen portUp count
  rw [flag_setReg, if_neg (by omega)]
  exact linkLowered_portUp p c d

/-- A link-down is counted. -/
theorem portFallen_count (p : Port) (c : LinkDownCause) (d : Dev) :
    (portFallen p c d).reg p.page 0x044 = satAdd (d.reg p.page 0x044) 1 := by
  rw [← linkLowered_reg p c d 0x044 (by omega) (by omega)]
  exact reg_count_same _ _ _ _

theorem portFallen_masked (p : Port) (c : LinkDownCause) (d : Dev) (k : Nat) (h : portKey p k = true) :
    Sparse.get (fun _ => false) (portFallen p c d).unmasked k = false :=
  Sparse.get_forget_of_picked _ _ _ _ h

theorem portKey_vector (p : Port) (v : Nat) (h : v < 128) : portKey p (p.index * 128 + v) = true := by
  have : (p.index * 128 + v) / 128 = p.index := by omega
  simp [portKey, this]

theorem portKey_function (p : Port) : portKey p (1000 + p.index) = true := by simp [portKey]

/-- A port's page is neither the power page nor the error log's. -/
theorem page_ne (p : Port) : p.page ≠ 0x008 ∧ p.page ≠ 0x0F0 := by cases p <;> decide

/-- After the error and its record `e`, a link-down makes its release due and settles its region. -/
theorem portDown_of_logged (p : Port) (c : LinkDownCause) (d : Dev) : ∃ e, ((portFallen p c d).err p.page 0).Logs e ∧
    (portDown p c d).released = e.released ++ [(p, e.now)] ∧ (portDown p c d).unmasked = e.unmasked ∧
    OnlyRegs [(0x008, 0x050)] e (portDown p c d) := by
  let e := ((portFallen p c d).err p.page 0).logContained { dom := .port p.index, srcPage := p.page, srcBit := 0 }
  let due : Dev := { e with released := e.released ++ [(p, e.now)] }
  have hs : due.Signals (portDown p c d) := settle_signals due _
  exact ⟨e, logContained_logs _ _, hs.released, hs.unmasked, settle_onlyRegs due (92 + p.index)⟩

/-- A link-down (R55, R434). -/
theorem portDown_spec (p : Port) (c : LinkDownCause) (d : Dev) :
    (portDown p c d).portUp p = false ∧ (p, d.now) ∈ (portDown p c d).released ∧ (portDown p c d).flag p.page 0x014 0 = true ∧
      (portDown p c d).reg p.page 0x044 = satAdd (d.reg p.page 0x044) 1 ∧
      ∀ k, portKey p k = true → Sparse.get (fun _ => false) (portDown p c d).unmasked k = false := by
  obtain ⟨e, hl, hr, hu, hs⟩ := portDown_of_logged p c d
  have herr := err_signals (portFallen p c d) p.page 0
  have hlog : ∀ o, o < 4096 → o ≠ 0x110 → (portDown p c d).reg p.page o = ((portFallen p c d).err p.page 0).reg p.page o := by
    intro o ho hn
    rw [hs p.page o ho (by simp [page_ne]), hl.onlyRegs p.page o ho (by simp [logRegs, errRegs, eventRegs, hn, page_ne])]
  have hfall : ∀ o, o < 4096 → o ∉ [0x014, 0x01C, 0x020, 0x110] → (portDown p c d).reg p.page o = (portFallen p c d).reg p.page o := by
    intro o ho hn
    simp only [List.mem_cons, List.not_mem_nil, not_or, or_false] at hn
    rw [hlog o ho hn.2.2.2, err_onlyRegs _ _ _ p.page o ho (by simp [errRegs, eventRegs, hn, page_ne])]
  refine ⟨?_, ?_, ?_, ?_, fun k hk => ?_⟩
  · unfold portUp flag
    rw [hfall 0x040 (by omega) (by decide)]
    exact portFallen_portUp p c d
  · simp [hr, hl.now, herr.now, portFallen_now]
  · unfold flag
    rw [hlog 0x014 (by omega) (by omega)]
    exact flag_err _ _ _ (by omega)
  · rw [hfall 0x044 (by omega) (by decide), portFallen_count]
  · rw [hu, hl.unmasked, herr.unmasked]
    exact portFallen_masked p c d k hk

/-- A port that trains is up at its speed and width (R435). -/
theorem portTrain_spec (p : Port) (speed : Fin 8) (width : Fin 64) (d : Dev) :
    (portTrain p speed.val width.val d).portUp p = true ∧ (portTrain p speed.val width.val d).field p.page 0x040 3 1 = speed.val ∧
      (portTrain p speed.val width.val d).field p.page 0x040 9 4 = width.val := by
  have hr : (portTrain p speed.val width.val d).reg p.page 0x040 = BitVec.ofNat 32 (1 + speed.val * 2 + width.val * 16) := by
    unfold portTrain
    rw [settle_onlyRegs _ _ p.page 0x040 (by omega) (by simp [page_ne]), reg_setReg_same]
  have hs := speed.isLt
  have hw := width.isLt
  unfold portUp flag field bit bits
  rw [hr, BitVec.toNat_ofNat, Nat.mod_eq_of_lt (by omega)]
  refine ⟨?_, ?_, ?_⟩
  · rw [Nat.testBit_zero]
    simp
    omega
  · rw [Nat.shiftRight_eq_div_pow]
    omega
  · rw [Nat.shiftRight_eq_div_pow]
    omega

/-- A trained port is up when its FLR is over (R434). -/
theorem flrOver_portUp (p : Port) (d : Dev) (h : d.field p.page 0x040 3 1 ≠ 0) : (flrOver p d).portUp p = true := by
  unfold flrOver portUp
  rw [if_neg h]
  unfold flag
  rw [settle_onlyRegs _ _ p.page 0x040 (by omega) (by simp [page_ne])]
  exact flag_setFlag_same d p.page 0x040 0 true (by omega)

/-! ## BAR2 (R267, R430) -/

/-- A poisoned request is counted in RX_POISON and changes no memory. -/
theorem rxPoison_spec (p : Port) (d : Dev) :
    (rxPoison p d).mem = d.mem ∧ (rxPoison p d).reg p.page 0x118 = satAdd (d.reg p.page 0x118) 1 := by
  unfold rxPoison
  rw [(err_signals _ _ _).mem, err_onlyRegs _ _ _ p.page 0x118 (by omega) (by simp [errRegs, eventRegs])]
  exact ⟨rfl, reg_count_same _ _ _ _⟩

theorem bar2_poisoned (p : Port) (a : Nat) (r : Request) (d : Dev) (hup : d.portUp p = true) : bar2 p a r true d = rxPoison p d := by
  simp [bar2, hup]

theorem bar2_not_ready (p : Port) (a : Nat) (r : Request) (d : Dev) (hup : d.portUp p = true) (hr : d.hbmReady = false) :
    bar2 p a r false d = d.answer .unsupported := by
  simp [bar2, hup, hr]

/-- A port that is up, with no FLR in progress and HBM ready, hands a request that is not poisoned on to Skein (R430). -/
theorem bar2_read (p : Port) (a n : Nat) (d : Dev) (hup : d.portUp p = true) (hflr : d.flag p.page 0x040 12 = false)
    (hr : d.hbmReady = true) :
    bar2 p a (.read n) false d = if 4096 < n then d.answer .unsupported else d.skeinRead (.port p) a n .clean := by
  simp [bar2, hup, hflr, hr]

theorem bar2_write (p : Port) (a : Nat) (data : List Byte) (es : List Bool) (d : Dev) (hup : d.portUp p = true)
    (hflr : d.flag p.page 0x040 12 = false) (hr : d.hbmReady = true) (hn : data.length ≤ 4096) (hes : es.length = data.length) :
    bar2 p a (.write data es) false d =
      if es.all id then d.skeinWrite (.port p) a data else (writeEnabled p a data es d).answer .done := by
  simp [bar2, hup, hflr, hr, hes, Nat.not_lt.2 hn]

/-- A port's read of direct SRAM is answered with its bytes. -/
theorem skeinRead_direct (d : Dev) (p : Port) (a n : Nat) (ha : directSram a) (h : ∀ q ∈ pageParts a n, directSram q.1) :
    (d.skeinRead (.port p) a n .clean).bus = .bytes (d.bytes a n) ∧ (d.skeinRead (.port p) a n .clean).mem = d.mem := by
  obtain ⟨d', hr, hs⟩ := read_direct d (.port p) a n h
  have he : d.skeinRead (.port p) a n .clean = (d'.answer (.bytes (d.bytes a n))).skeinVotes := by
    unfold skeinRead
    simp [directSram_not_placed ha, directSram_not_remote ha, hr, readAnswer, onlyIf]
  have hv := skeinVotes_signals (d'.answer (.bytes (d.bytes a n)))
  exact ⟨by rw [he, hv.bus]; rfl, by rw [he, hv.mem, ← hs.mem]; rfl⟩

/-- An access of the placed range that cannot be reached joins those that wait (R267, R394). -/
theorem accessWait_spec (x : WaitAccess) (d : Dev) :
    (d.accessWait x).bus = .waiting ∧ (d.accessWait x).mem = d.mem ∧ (d.accessWait x).waits = d.waits ++ [{ x with since := d.now }] := by
  have hv := skeinVotes_signals (({ d with waits := d.waits ++ [{ x with since := d.now }] } : Dev).answer .waiting)
  exact ⟨hv.bus, hv.mem, hv.waits⟩

theorem skeinRead_waits (d : Dev) (who : MemAgent) (a n : Nat) (f : EccFind) (ha : spanOf a = .placed) (h : d.placedOpen = false) :
    d.skeinRead who a n f = d.accessWait { who := who, addr := a, len := n, found := f } := by
  simp [skeinRead, ha, h]

/-- A write of one byte of direct SRAM stores it. -/
theorem byte_skeinWrite_single (d : Dev) (who : MemAgent) (a : Nat) (b : Byte) (ha : directSram a) (x : Nat) :
    (d.skeinWrite who a [b]).byte x = if x = a then b else d.byte x := by
  have hm := (skeinWrite_direct d who a [b] ha (fun q hq => by
    obtain rfl : q = _ := by simpa [pageParts] using hq
    exact directSram_of_page_eq ha (by dsimp only; omega))).2
  rw [← byte_setByte]
  simp [byte, hm, setBytes_cons]

/-- Of data for direct SRAM, the bytes that their enables pick are stored and no other. -/
theorem byte_writeEnabled (p : Port) (data : List Byte) : ∀ (a : Nat) (es : List Bool) (d : Dev), es.length = data.length →
    (∀ i < data.length, directSram (a + i)) → ∀ x, (writeEnabled p a data es d).byte x =
      if a ≤ x ∧ x < a + data.length ∧ es.getD (x - a) false = true then data.getD (x - a) 0 else d.byte x := by
  induction data with
  | nil =>
    intro a es d _ _ x
    rw [if_neg (by simp only [List.length_nil]; omega)]
    simp [writeEnabled]
  | cons b bs ih =>
    intro a es d hes h x
    obtain ⟨e, es, rfl⟩ := List.exists_cons_of_length_eq_add_one hes
    have hfirst : (if e then d.skeinWrite (.port p) a [b] else d).byte x = if x = a ∧ e = true then b else d.byte x := by
      cases e
      · simp
      · simpa using byte_skeinWrite_single d (.port p) a b (h 0 (by simp)) x
    rw [writeEnabled, ih _ _ _ (by simpa using hes) (fun i hi => by
      rw [Nat.add_assoc]
      exact h _ (by rw [List.length_cons]; omega)), hfirst, List.length_cons]
    rcases Nat.lt_trichotomy x a with hx | rfl | hx
    · rw [if_neg (by omega), if_neg (by omega), if_neg (by omega)]
    · rw [if_neg (by omega), Nat.sub_self]
      simp
    · obtain ⟨i, rfl⟩ := Nat.exists_eq_add_of_lt hx
      have hi : a + i + 1 - a = i + 1 := by omega
      have hi' : a + i + 1 - (a + 1) = i := by omega
      rw [hi, hi', List.getD_cons_succ, List.getD_cons_succ, if_neg (by omega : ¬(a + i + 1 = a ∧ e = true))]
      congr 1
      apply propext
      constructor <;> rintro ⟨-, h2, h3⟩ <;> exact ⟨by omega, by omega, h3⟩

/-- A write of BAR2 to direct SRAM stores the bytes that its byte enables pick, and is done (R430). -/
theorem bar2_write_direct (p : Port) (a : Nat) (data : List Byte) (es : List Bool) (d : Dev) (hup : d.portUp p = true)
    (hflr : d.flag p.page 0x040 12 = false) (hr : d.hbmReady = true) (hn : data.length ≤ 4096) (hes : es.length = data.length)
    (hne : data ≠ []) (h : ∀ q ∈ pageParts a data.length, directSram q.1) :
    (bar2 p a (.write data es) false d).bus = .done ∧ ∀ x, (bar2 p a (.write data es) false d).byte x =
      if a ≤ x ∧ x < a + data.length ∧ es.getD (x - a) false = true then data.getD (x - a) 0 else d.byte x := by
  have hall := directSram_of_pageParts h
  rw [bar2_write p a data es d hup hflr hr hn hes]
  split
  · rename_i hes1
    obtain ⟨hbus, hmem⟩ := skeinWrite_direct d (.port p) a data (hall 0 (List.length_pos_of_ne_nil hne)) h
    refine ⟨hbus, fun x => ?_⟩
    have hb : (d.skeinWrite (.port p) a data).byte x = (d.setBytes a data).byte x := by simp [byte, hmem]
    have hon : x < a + data.length → a ≤ x → es.getD (x - a) false = true := fun h1 h2 => by
      have hlt : x - a < es.length := by omega
      rw [List.getD_eq_getElem es false hlt]
      exact List.all_eq_true.1 hes1 _ (List.getElem_mem hlt)
    rw [hb, byte_setBytes]
    congr 1
    apply propext
    exact ⟨fun ⟨h1, h2⟩ => ⟨h1, h2, hon h2 h1⟩, fun ⟨h1, h2, _⟩ => ⟨h1, h2⟩⟩
  · exact ⟨rfl, byte_writeEnabled p data a es d hes hall⟩

/-- A read that waited for 1 ms ends with Completer Abort, is counted, and changes no memory (R430). -/
theorem bar2Timeout_of_late (p : Port) (d : Dev) (x : WaitAccess) (hx : x ∈ d.waits) (hl : lateAccess p d x = true) :
    (bar2Timeout p d).bus = .completerAbort ∧ x ∉ (bar2Timeout p d).waits ∧ (bar2Timeout p d).mem = d.mem ∧
      (bar2Timeout p d).reg p.page 0x114 = satAdd (d.reg p.page 0x114) 1 := by
  let left : Dev := { d with
    remotes := d.remotes.filter fun r => !lateRemote p d r, waits := d.waits.filter fun x => !lateAccess p d x }
  have he : bar2Timeout p d = ((left.skeinVotes.count p.page 0x114).err p.page 1).answer .completerAbort := by
    unfold bar2Timeout
    rw [if_pos (by simp only [Bool.or_eq_true, List.any_eq_true]; exact .inl ⟨x, hx, hl⟩)]
  have hs : left.Signals ((left.skeinVotes.count p.page 0x114).err p.page 1) :=
    ((skeinVotes_signals left).trans (count_signals _ _ _ _)).trans (err_signals _ _ _)
  rw [he]
  refine ⟨rfl, ?_, hs.mem, ?_⟩
  · show x ∉ ((left.skeinVotes.count p.page 0x114).err p.page 1).waits
    rw [hs.waits]
    simp [left, hl]
  · rw [reg_answer, err_onlyRegs _ _ _ p.page 0x114 (by omega) (by simp [errRegs, eventRegs]), reg_count_same,
      skeinVotes_onlyRegs left p.page 0x114 (by omega) (by simp [page_ne])]
    rfl

theorem bar2Timeout_of_none (p : Port) (d : Dev) (hw : d.waits.any (lateAccess p d) = false)
    (hr : d.remotes.any (lateRemote p d) = false) : bar2Timeout p d = d := by
  simp [bar2Timeout, hw, hr]

/-! ## MSI-X (R431) -/

theorem msixSend_unmasked (p : Port) (v : Nat) (d : Dev) : (msixSend p v d).unmasked = d.unmasked := by
  unfold msixSend
  simp only
  split <;> rfl

/-- A vector that waits for nothing goes on waiting for nothing. -/
theorem msixSend_pba_false (p : Port) (v k : Nat) (d : Dev) (h : Sparse.get (fun _ => false) d.pba k = false) :
    Sparse.get (fun _ => false) (msixSend p v d).pba k = false := by
  unfold msixSend
  simp only
  split
  · rw [Sparse.get_put]
    split
    · rfl
    · exact h
  · exact h

/-- The message that waits on an unmasked vector of an unmasked function is sent and counted. -/
theorem msixSend_spec (p : Port) (v : Nat) (d : Dev) (hp : Sparse.get (fun _ => false) d.pba (p.index * 128 + v) = true)
    (hv : Sparse.get (fun _ => false) d.unmasked (p.index * 128 + v) = true)
    (hf : Sparse.get (fun _ => false) d.unmasked (1000 + p.index) = true) :
    (msixSend p v d).sent = some (p, v) ∧ Sparse.get (fun _ => false) (msixSend p v d).pba (p.index * 128 + v) = false ∧
      (msixSend p v d).reg p.page 0x110 = satAdd (d.reg p.page 0x110) 1 := by
  have he : msixSend p v d =
      { d.count p.page 0x110 with sent := some (p, v), pba := Sparse.put (fun _ => false) d.pba (p.index * 128 + v) false } := by
    simp [msixSend, hp, hv, hf]
  rw [he]
  exact ⟨rfl, by simp, reg_count_same d p.page 0x110 1⟩

theorem msixSend_pba_same (p : Port) (v : Nat) (d : Dev) (hv : Sparse.get (fun _ => false) d.unmasked (p.index * 128 + v) = true)
    (hf : Sparse.get (fun _ => false) d.unmasked (1000 + p.index) = true) :
    Sparse.get (fun _ => false) (msixSend p v d).pba (p.index * 128 + v) = false := by
  cases hp : Sparse.get (fun _ => false) d.pba (p.index * 128 + v) with
  | false => exact msixSend_pba_false p v _ d hp
  | true => exact (msixSend_spec p v d hp hv hf).2.1

/-- Once the function is unmasked, no unmasked vector of a list waits after each was sent. -/
theorem forEach_msixSend_pba (p : Port) (v : Nat) (l : List Nat) (d : Dev) (hm : v ∈ l)
    (hv : Sparse.get (fun _ => false) d.unmasked (p.index * 128 + v) = true)
    (hf : Sparse.get (fun _ => false) d.unmasked (1000 + p.index) = true) :
    Sparse.get (fun _ => false) (forEach l (msixSend p) d).pba (p.index * 128 + v) = false := by
  induction l generalizing d with
  | nil => simp at hm
  | cons w l ih =>
    rcases List.mem_cons.1 hm with rfl | hm
    · exact forEach_keeps (P := fun d => Sparse.get (fun _ => false) d.pba (p.index * 128 + v) = false)
        (fun w _ d h => msixSend_pba_false p w _ d h) (msixSend p v d) (msixSend_pba_same p v d hv hf)
    · exact ih (msixSend p w d) hm (by rwa [msixSend_unmasked]) (by rwa [msixSend_unmasked])

/-- Unmasking the function sends what its unmasked vectors wait for. -/
theorem msixUnmask_function (p : Port) (d : Dev) :
    Sparse.get (fun _ => false) (msixUnmask p none d).unmasked (1000 + p.index) = true ∧
      ∀ v < 128, Sparse.get (fun _ => false) d.unmasked (p.index * 128 + v) = true →
        Sparse.get (fun _ => false) (msixUnmask p none d).pba (p.index * 128 + v) = false := by
  let u : Dev := { d with unmasked := Sparse.put (fun _ => false) d.unmasked (1000 + p.index) true }
  have hu : Sparse.get (fun _ => false) u.unmasked (1000 + p.index) = true := by simp [u]
  refine ⟨forEach_keeps (P := fun d => Sparse.get (fun _ => false) d.unmasked (1000 + p.index) = true)
    (fun w _ d h => by rwa [msixSend_unmasked]) u hu, fun v hv h => ?_⟩
  refine forEach_msixSend_pba p v _ u (List.mem_range.2 hv) ?_ hu
  simp [u, Sparse.get_put, h]

/-- Unmasking a vector of an unmasked function sends the message that waits on it. -/
theorem msixUnmask_vector (p : Port) (v : Fin 128) (d : Dev) (hp : Sparse.get (fun _ => false) d.pba (p.index * 128 + v.val) = true)
    (hf : Sparse.get (fun _ => false) d.unmasked (1000 + p.index) = true) :
    (msixUnmask p (some v) d).sent = some (p, v.val) ∧
      Sparse.get (fun _ => false) (msixUnmask p (some v) d).pba (p.index * 128 + v.val) = false ∧
      (msixUnmask p (some v) d).reg p.page 0x110 = satAdd (d.reg p.page 0x110) 1 :=
  msixSend_spec p v.val { d with unmasked := Sparse.put (fun _ => false) d.unmasked (p.index * 128 + v.val) true } hp
    (by simp) (by simp [Sparse.get_put, hf])

end Dev

/-- Settles O54: what each event of a host port does is a lemma about the device (link-down, training, BAR2, MSI-X), and every command
of a port runs one of them on the device of a powered state. -/
theorem hostPorts : Obligations.HostPorts := by
  unfold Obligations.HostPorts
  refine ⟨?linkDown, fun s p speed width hs => ⟨_, onDev_of_powered hs _, Dev.portTrain_spec p speed width s.dev⟩,
    fun s p hs ht => ⟨_, onDev_of_powered hs _, Dev.flrOver_portUp p s.dev ht⟩, fun s p ht => onDev_of_fixed (if_pos ht),
    fun s p a r b hd => onDev_of_fixed (if_pos (by simp [hd])), ?bar2, ?readTimeout,
    fun s p hw hr => onDev_of_fixed (Dev.bar2Timeout_of_none p s.dev hw hr), ?unmaskFunction,
    fun s p v hs hp hf => ⟨_, onDev_of_powered hs _, Dev.msixUnmask_vector p v s.dev hp hf⟩⟩
  case linkDown =>
    intro s p c hs
    obtain ⟨hup, hrel, hflag, hcount, hmask⟩ := Dev.portDown_spec p c s.dev
    exact ⟨_, onDev_of_powered hs _, hup, hrel, hflag, hcount, fun v hv => hmask _ (Dev.portKey_vector p v hv),
      hmask _ (Dev.portKey_function p)⟩
  case bar2 =>
    intro s p a hs hup hflr
    refine ⟨fun r => ⟨_, onDev_of_powered hs _, ?_⟩, fun hh r => ⟨_, onDev_of_powered hs _, ?_⟩, fun hh => ⟨fun n =>
      ⟨fun hn => ⟨_, onDev_of_powered hs _, ?_⟩, fun hn hq ha => ⟨_, onDev_of_powered hs _, ?_⟩,
        fun hn ha hc => ⟨_, onDev_of_powered hs _, ?_⟩⟩, fun data es hn hes hne hq => ⟨_, onDev_of_powered hs _, ?_⟩⟩⟩
    all_goals dsimp only
    · rw [Dev.bar2_poisoned p _ r s.dev hup]
      exact Dev.rxPoison_spec p s.dev
    · rw [Dev.bar2_not_ready p _ r s.dev hup hh]
      exact ⟨rfl, rfl⟩
    · rw [Dev.bar2_read p _ n s.dev hup hflr hh, if_pos hn]
      exact ⟨rfl, rfl⟩
    · rw [Dev.bar2_read p _ n s.dev hup hflr hh, if_neg (Nat.not_lt.2 hn)]
      exact Dev.skeinRead_direct s.dev p a.toNat n ha hq
    · rw [Dev.bar2_read p _ n s.dev hup hflr hh, if_neg (Nat.not_lt.2 hn), Dev.skeinRead_waits _ _ _ _ _ ha hc]
      exact Dev.accessWait_spec _ _
    · obtain ⟨hbus, hbyte⟩ := Dev.bar2_write_direct p a.toNat data es s.dev hup hflr hh hn hes hne hq
      refine ⟨hbus, fun i hi => ?_, fun x hx => ?_⟩
      · rw [hbyte, Nat.add_sub_cancel_left]
        simp [hi]
      · rw [hbyte, if_neg (by omega)]
  case readTimeout =>
    intro s p x hs hx hdata hwho hlate
    exact ⟨_, onDev_of_powered hs _, Dev.bar2Timeout_of_late p s.dev x hx (by simp [Dev.lateAccess, hdata, hwho, hlate])⟩
  case unmaskFunction =>
    intro s p hs
    obtain ⟨hf, hv⟩ := Dev.msixUnmask_function p s.dev
    exact ⟨_, onDev_of_powered hs _, hf, fun v => hv v.val v.isLt⟩

end Sys2Proof.Machine
end

section
/-!
The cascade's episodes (01): the handoff record of the last HELD episode, written while page 0x067 drains (R29, R197, R295).
-/
namespace Sys2Proof.Machine

/-- An escalation of stream 7 whose snapshot is written, in handoff slot 0. -/
def lastEscalation : Escalation := { stream := 7, slot := 0, score := 200, seq := some 0x11, at_ := 0, snapped := true }

/-- Page 0x067 drains (R29): EN = 0 was written to it while the episode of `lastEscalation` was HELD, and no other episode is open. Its
stream runs, the handoff ring at 0x100_0400_0200 is empty, and RING0, which LOOM_RING names, is OFF as at reset. -/
def drainingCascade : State :=
  let paged := (({ escs := [lastEscalation] } : Dev).setPageState 0x067 3).setPair48 0x067 0x050 0x10004000200
  { State.reset with dev := (paged.setEpisode 7 { st := .held, voted := true }).setSstate 7 1 }

/-- The record goes to the always-on domain: nothing of the command waits. -/
theorem drainingCascade_canServe : drainingCascade.dev.CanServe fun d => d.handoffWrite 7 := by decide +kernel

/-- With its Loom task dropped the last episode leaves HELD as if the task had retired (R295), so that page 0x067 enters DISABLED, and
HO_PTR goes back to 0 (R29, R38). -/
theorem drainingCascade_disabled :
    let d := Dev.whenServed (fun d => d.handoffWrite 7) drainingCascade.dev
    (d.episode 7).st = .verify ∧ d.pageState 0x067 = 4 ∧ d.hoWr = 0 := by decide +kernel

/-- Refutes O8: the clause of HANDOFF_WRITE has WR advance in every state of page 0x067. In DRAINING the record may be the last work of
the page; where its Loom task is dropped, the page enters DISABLED in the same command, and WR is 0 and not 1. -/
theorem not_cascadeEpisodes : ¬ Obligations.CascadeEpisodes := by
  unfold Obligations.CascadeEpisodes
  rintro ⟨-, hwrite, -⟩
  obtain ⟨t, hrun, -, hwr, -⟩ := hwrite drainingCascade 7 lastEscalation [] rfl rfl rfl rfl drainingCascade_canServe
  obtain ⟨-, -, hzero⟩ := drainingCascade_disabled
  have hexec : exec (.handoffWrite 7) drainingCascade = .next { drainingCascade with
      dev := Dev.whenServed (fun d => d.handoffWrite 7) drainingCascade.dev } := onDev_of_powered rfl _
  obtain rfl : _ = t := Host.Outcome.next.inj (hexec.symm.trans hrun)
  have hbefore : drainingCascade.dev.hoWr = 0 := by decide +kernel
  simp only [hzero, hbefore] at hwr
  omega

end Sys2Proof.Machine
end

section
/-!
The state after reset, and the claims and votes of a page (R47, R51).
-/
namespace Sys2Proof.Machine

/-- Direct SRAM that no store has reached is not written (R283). -/
theorem reset_lineWritten (l : Nat) (h : spanOf (64 * l) = .aon ∨ spanOf (64 * l) = .local_) : State.reset.dev.lineWritten l = false := by
  unfold Dev.lineWritten
  rw [Nat.mul_comm l 64]
  obtain h | h := h <;> rw [h] <;> rfl

/-- Settles O60. -/
theorem resetState : Obligations.ResetState := by
  unfold Obligations.ResetState
  have hcores : ∀ n : Fin 16, n.val ≠ 0 → (State.reset.dev.core n.val).st = .stopped := by decide
  have hsems : ∀ n : Fin 64, State.reset.dev.semHeld n.val = false := by decide
  have hregions : ∀ r : Fin 96, (State.reset.dev.region r.val).st = .run ∨ (State.reset.dev.region r.val).st = .deep := by decide
  exact ⟨rfl, fun _ => rfl, rfl, rfl, by decide, by decide, by decide, by decide, by decide, hcores, hsems, by decide, by decide,
    hregions, reset_lineWritten, by decide, by decide, reset_memoryWf⟩

theorem Agent.core_lt (a : Agent) : a.core < 16 := by
  cases a with
  | spindle n => exact n.isLt
  | portA => decide
  | portB => decide

theorem Agent.code_bounds (a : Agent) : 1 ≤ a.code ∧ a.code ≤ 3 := by
  cases a with
  | spindle n => exact ⟨Nat.le_add_left 1 2, Nat.le_refl 3⟩
  | portA => decide
  | portB => decide

namespace Dev

/-- A claim that is taken makes its agent the holder and advances GEN. -/
theorem claim_of_free {d : Dev} {p : Nat} (a : Agent) (hc : (pageKind p).claimable = true) (ha : d.absentPage p = false)
    (hf : d.field p 0x024 9 8 = 0) :
    (d.claim a p).claimedBy a p = true ∧ (d.claim a p).field p 0x024 23 16 = (d.field p 0x024 23 16 + 1) % 256 := by
  obtain ⟨-, hcode⟩ := Agent.code_bounds a
  have hcore := Agent.core_lt a
  have hclaim : d.claim a p = d.setReg p 0x024 (a.put (putBits (d.reg p 0x024) 23 16 (bits (d.reg p 0x024) 23 16 + 1)) 8) := by
    simp [claim, hc, ha, hf]
  simp only [hclaim, claimedBy, field_setReg, if_true, Agent.put]
  refine ⟨?_, ?_⟩
  · rw [bits_putBits_other _ 15 12 _ 9 8 (by omega) (by omega), bits_putBits_same _ 9 8 _ (by omega), bits_putBits_same _ 15 12 _ (by omega)]
    have h1 : a.code % 2 ^ (9 + 1 - 8) = a.code := Nat.mod_eq_of_lt (Nat.lt_succ_of_le hcode)
    have h2 : a.core % 2 ^ (15 + 1 - 12) = a.core := Nat.mod_eq_of_lt hcore
    simp only [h1, h2, beq_self_eq_true, Bool.and_self]
  · rw [bits_putBits_other _ 15 12 _ 23 16 (by omega) (by omega), bits_putBits_other _ 9 8 _ 23 16 (by omega) (by omega),
      bits_putBits_same _ 23 16 _ (by omega)]
    rfl

/-- A page that is unclaimed has no holder and keeps GEN. -/
theorem field_unclaim (d : Dev) (p : Nat) :
    (d.unclaim p).field p 0x024 9 8 = 0 ∧ (d.unclaim p).field p 0x024 23 16 = d.field p 0x024 23 16 := by
  unfold unclaim setField
  simp only [field_setReg, if_true, reg_setReg_same]
  refine ⟨?_, ?_⟩
  · rw [bits_putBits_other _ 15 12 _ 9 8 (by omega) (by omega), bits_putBits_same _ 9 8 _ (by omega), Nat.zero_mod]
  · rw [bits_putBits_other _ 15 12 _ 23 16 (by omega) (by omega), bits_putBits_other _ 9 8 _ 23 16 (by omega) (by omega)]
    rfl

/-- Settling regions moves no vote of a page. -/
theorem forEach_settle_onlyRegs (l : List Nat) (d : Dev) :
    OnlyRegs [(0x008, 0x050)] d (forEach l (fun r d => d.settle r) d) :=
  forEach_rel (OnlyRegs.refl _) (fun _ _ _ => OnlyRegs.trans) (fun r _ x => settle_onlyRegs x r) d

/-- A vote goes into the field of its writer's class and leaves the others. -/
theorem field_vote {d : Dev} {p : Nat} (a : Agent) (v : Word) (hv : (pageKind p).hasVote = true) (ha : d.absentPage p = false)
    (c : Nat) (hc : c < 3) :
    (d.vote a p v).field p 0x028 (4 * c + 3) (4 * c) =
      if c = a.code - 1 then voteCode (bits v (4 * c + 3) (4 * c)) else d.field p 0x028 (4 * c + 3) (4 * c) := by
  obtain ⟨hpos, hle⟩ := Agent.code_bounds a
  have hvote : (d.vote a p v).reg p 0x028 = putBits (d.reg p 0x028) (4 * (a.code - 1) + 3) (4 * (a.code - 1))
      (voteCode (bits v (4 * (a.code - 1) + 3) (4 * (a.code - 1)))) := by
    simp only [vote, ha, hv, Bool.not_true, Bool.or_false, Bool.false_eq_true, if_false]
    rw [forEach_settle_onlyRegs _ _ p 0x028 (by omega) (by simp)]
    exact reg_setReg_same _ _ _ _
  unfold field
  rw [hvote]
  split
  · next h =>
    subst h
    rw [bits_putBits_same _ _ _ _ (by omega), show 4 * (a.code - 1) + 3 + 1 - 4 * (a.code - 1) = 4 by omega]
    refine Nat.mod_eq_of_lt ?_
    unfold voteCode
    split <;> omega
  · exact bits_putBits_other _ _ _ _ _ _ (by omega) (by omega)

end Dev

theorem exec_claim (s : State) (ag : Agent) (p : Fin 8192) : exec (.claim ag p) s = onDev (fun d => d.claim ag p.val) s := rfl

theorem exec_release (s : State) (ag : Agent) (p : Fin 8192) : exec (.release ag p) s = onDev (fun d => d.release ag p.val) s := rfl

theorem exec_voteWrite (s : State) (ag : Agent) (p : Fin 8192) (v : Word) :
    exec (.voteWrite ag p v) s = onDev (fun d => d.vote ag p.val v) s := rfl

/-- Settles O6. -/
theorem claimsAndVotes : Obligations.ClaimsAndVotes := by
  unfold Obligations.ClaimsAndVotes
  refine ⟨fun s ag p hp hc ha hf => ?_, fun s ag p _ hf => ?_, fun s ag p hp hb => ?_, fun s ag p v hp hv ha => ?_⟩
  · rw [exec_claim, onDev_of_powered hp]
    exact ⟨_, rfl, Dev.claim_of_free ag hc ha hf⟩
  · rw [exec_claim]
    exact onDev_of_fixed (by simp [Dev.claim, hf])
  · rw [exec_release, onDev_of_powered hp]
    refine ⟨_, rfl, ?_⟩
    simp only [Dev.release, hb, if_true]
    exact Dev.field_unclaim s.dev p.val
  · rw [exec_voteWrite, onDev_of_powered hp]
    exact ⟨_, rfl, fun c hc => Dev.field_vote ag v hv ha c hc⟩

end Sys2Proof.Machine
end

section
/-!
The pages' CTRL and states under the work of the blocks (R37, R41): what the shared operations on registers, memory, tasks and records
leave of every page's CTRL.EN, CTRL.FRZ and STATUS.STATE.
-/
namespace Sys2Proof.Machine

/-- How work that comes and goes moves STATUS.STATE (R37): between READY and ACTIVE, and from DRAINING to DISABLED. -/
def WorkMove (v w : Nat) : Prop := w = v ∨ ((v = 1 ∨ v = 2) ∧ (w = 1 ∨ w = 2)) ∨ (v = 3 ∧ w = 4)

theorem WorkMove.refl (v : Nat) : WorkMove v v := .inl rfl

theorem WorkMove.trans {u v w : Nat} (h : WorkMove u v) (k : WorkMove v w) : WorkMove u w := by
  unfold WorkMove at *
  omega

/-- An index that a store does not forget reads as before. -/
theorem Sparse.get_forget_of_not_picked {α : Type} (dflt : Nat → α) (m : Sparse α) (p : Nat → Bool) (k : Nat) (h : p k = false) :
    Sparse.get dflt (Sparse.forget m p) k = Sparse.get dflt m k := by
  unfold Sparse.forget
  induction m with
  | nil => rfl
  | cons e r ih =>
    rw [List.filter_cons]
    by_cases hk : k = e.1
    · simp [Sparse.get, ← hk, h]
    · split <;> simp only [Sparse.get, if_neg hk, ih]

namespace Dev

/-- From `d` to `d'` CTRL of every page stands, and no page's state has moved but as its block's work moves it. -/
def Works (d d' : Dev) : Prop := ∀ p, d'.reg p 0x00C = d.reg p 0x00C ∧ WorkMove (d.pageState p) (d'.pageState p)

/-- So, and no state of a core's page has moved at all. -/
def Follows (d d' : Dev) : Prop := d.Works d' ∧ ∀ n < 16, d'.pageState (0x140 + n) = d.pageState (0x140 + n)

theorem Works.refl (d : Dev) : d.Works d := fun _ => ⟨rfl, .refl _⟩

theorem Works.trans {a b c : Dev} (h : a.Works b) (k : b.Works c) : a.Works c := fun p =>
  ⟨(k p).1.trans (h p).1, (h p).2.trans (k p).2⟩

theorem Works.flag_ctrl {d d' : Dev} (h : d.Works d') (p i : Nat) : d'.flag p 0x00C i = d.flag p 0x00C i := by
  unfold flag
  rw [(h p).1]

theorem Follows.refl (d : Dev) : d.Follows d := ⟨.refl d, fun _ _ => rfl⟩

theorem Follows.trans {a b c : Dev} (h : a.Follows b) (k : b.Follows c) : a.Follows c :=
  ⟨h.1.trans k.1, fun n hn => (k.2 n hn).trans (h.2 n hn)⟩

/-- What keeps CTRL and STATUS of every page. -/
theorem Follows.of_headers {d d' : Dev} (h : ∀ p, d'.reg p 0x00C = d.reg p 0x00C ∧ d'.reg p 0x010 = d.reg p 0x010) :
    d.Follows d' := by
  have hs : ∀ p, d'.pageState p = d.pageState p := fun p => by
    unfold pageState field
    rw [(h p).2]
  exact ⟨fun p => ⟨(h p).1, .inl (hs p)⟩, fun n _ => hs _⟩

/-- What moves no register. -/
theorem Follows.of_regs {d d' : Dev} (hr : d'.regs = d.regs) (hp : d'.pkg = d.pkg) : d.Follows d' :=
  .of_headers fun _ => by
    unfold reg
    rw [hr, hp]
    exact ⟨rfl, rfl⟩

/-- What moves only registers that are neither CTRL nor STATUS. -/
theorem Follows.of_onlyRegs {l : List (Nat × Nat)} {d d' : Dev} (h : OnlyRegs l d d') (hl : ∀ x ∈ l, x.2 ≠ 0x00C ∧ x.2 ≠ 0x010) :
    d.Follows d' :=
  .of_headers fun p => ⟨h p _ (by omega) fun hm => (hl _ hm).1 rfl, h p _ (by omega) fun hm => (hl _ hm).2 rfl⟩

/-! ## Chains of updates -/

variable {d e : Dev}

/-- An update of fields other than the registers. -/
theorem Follows.fields (h : d.Follows e) {e' : Dev} (hr : (e'.regs, e'.pkg) = (e.regs, e.pkg)) : d.Follows e' :=
  h.trans (.of_regs (congrArg Prod.fst hr) (congrArg Prod.snd hr))

theorem Follows.setChan (h : d.Follows e) (n : Nat) (c : Chan) : d.Follows (e.setChan n c) := h.fields (by rfl)
theorem Follows.setEpisode (h : d.Follows e) (n : Nat) (x : Episode) : d.Follows (e.setEpisode n x) := h.fields (by rfl)
theorem Follows.setCliff (h : d.Follows e) (n : Nat) (c : CliffCh) : d.Follows (e.setCliff n c) := h.fields (by rfl)
theorem Follows.setReel (h : d.Follows e) (n : Nat) (x : ReelCh) : d.Follows (e.setReel n x) := h.fields (by rfl)
theorem Follows.setArmed (h : d.Follows e) (n t : Nat) : d.Follows (e.setArmed n t) := h.fields (by rfl)
theorem Follows.setTask (h : d.Follows e) (n : Nat) (t : Option Task) : d.Follows (e.setTask n t) := h.fields (by rfl)
theorem Follows.setCore (h : d.Follows e) (n : Nat) (c : Core) : d.Follows (e.setCore n c) := h.fields (by rfl)
theorem Follows.setLink (h : d.Follows e) (k : Nat) (l : KLink) : d.Follows (e.setLink k l) := h.fields (by rfl)
theorem Follows.setPlace (h : d.Follows e) (p : Nat) (x : Place) : d.Follows (e.setPlace p x) := h.fields (by rfl)

theorem Follows.setReg (h : d.Follows e) (p off : Nat) (v : Word) (hf : 0x010 < off ∧ off < 4096) : d.Follows (e.setReg p off v) :=
  h.trans (.of_headers fun q => ⟨reg_setReg_other _ _ _ _ _ _ (.inr (by omega)) (by omega) hf.2,
    reg_setReg_other _ _ _ _ _ _ (.inr (by omega)) (by omega) hf.2⟩)

theorem Follows.setField (h : d.Follows e) (p off hi lo v : Nat) (hf : 0x010 < off ∧ off < 4096) : d.Follows (e.setField p off hi lo v) :=
  h.setReg _ _ _ hf

theorem Follows.setFlag (h : d.Follows e) (p off i : Nat) (v : Bool) (hf : 0x010 < off ∧ off < 4096) : d.Follows (e.setFlag p off i v) :=
  h.setReg _ _ _ hf

theorem Follows.count (h : d.Follows e) (p off n : Nat) (hf : 0x010 < off ∧ off < 4096) : d.Follows (e.count p off n) := h.setReg _ _ _ hf

theorem Follows.countFrz (h : d.Follows e) (p off n : Nat) (hf : 0x010 < off ∧ off < 4096) : d.Follows (e.countFrz p off n) := by
  unfold Dev.countFrz
  split
  · exact h
  · exact h.count _ _ _ hf

theorem Follows.setPair48 (h : d.Follows e) (p off v : Nat) (hf : 0x010 < off ∧ off + 4 < 4096 ) : d.Follows (e.setPair48 p off v) :=
  (h.setReg _ _ _ (by omega)).setReg _ _ _ (by omega)

theorem Follows.settle (h : d.Follows e) (r : Nat) : d.Follows (e.settle r) :=
  h.trans (.of_onlyRegs (settle_onlyRegs e r) (by simp))

theorem eventRegs_offset : ∀ x ∈ eventRegs, x.2 ≠ 0x00C ∧ x.2 ≠ 0x010 := by decide

theorem errRegs_offset (p : Nat) : ∀ x ∈ errRegs p, x.2 ≠ 0x00C ∧ x.2 ≠ 0x010 := by simp [errRegs, eventRegs]

theorem Follows.err (h : d.Follows e) (p b : Nat) : d.Follows (e.err p b) := h.trans (.of_onlyRegs (err_onlyRegs e p b) (errRegs_offset p))

theorem Follows.errBit (h : d.Follows e) (p b : Nat) : d.Follows (e.errBit p b) :=
  h.trans (.of_onlyRegs (errBit_onlyRegs e p b) (errRegs_offset p))

theorem Follows.deny (h : d.Follows e) (a : Agent) (p : Nat) : d.Follows (e.deny a p) := (h.setField _ _ _ _ _ (by omega)).err _ _

theorem Follows.safetyEvent (h : d.Follows e) : d.Follows e.safetyEvent :=
  h.trans (.of_onlyRegs (safetyEvent_onlyRegs e) eventRegs_offset)

theorem Follows.logs (h : d.Follows e) {e' : Dev} (hl : e.Logs e') : d.Follows e' :=
  h.trans (.of_onlyRegs hl.onlyRegs (by simp [logRegs, errRegs, eventRegs]))

theorem Follows.forEach (h : d.Follows e) (l : List Nat) {f : Nat → Dev → Dev} (hf : ∀ n ∈ l, ∀ x : Dev, x.Follows (f n x)) :
    d.Follows (forEach l f e) :=
  h.trans (forEach_rel Follows.refl (fun _ _ _ => Follows.trans) hf e)

theorem Follows.foldl {α : Type} (h : d.Follows e) (l : List α) {f : Dev → α → Dev} (hf : ∀ a x, Follows x (f x a)) :
    d.Follows (l.foldl f e) := by
  induction l generalizing e with
  | nil => exact h
  | cons a l ih => exact ih (h.trans (hf a e))

theorem Follows.ite (c : Prop) [Decidable c] {a b : Dev} (ha : d.Follows a) (hb : d.Follows b) : d.Follows (if c then a else b) := by
  split
  · exact ha
  · exact hb

/-- An update made in one case only. -/
theorem Follows.when (h : d.Follows e) (c : Prop) [Decidable c] {x : Dev} (hx : e.Follows x) : d.Follows (if c then x else e) :=
  .ite c (h.trans hx) h

theorem Follows.settleEach (h : d.Follows e) (l : List Nat) : d.Follows (Machine.forEach l (fun r d => d.settle r) e) :=
  h.forEach l fun r _ x => (Follows.refl x).settle r

/-! ## A page and its block's work (R37, R38) -/

theorem resetRegs_reg (d : Dev) (p q o : Nat) (kept : PageKind → Nat → Bool) (ho : o < 0x040) : (d.resetRegs p kept).reg q o = d.reg q o := by
  refine Sparse.get_forget_of_not_picked (regDefault d.pkg) d.regs (fun k =>
    k / 4096 == p && decide (0x040 ≤ k % 4096) && readOnly p (k % 4096) && !kept (pageKind p) (k % 4096)) _ ?_
  have hm : o % 4096 = o := by omega
  simp only [Nat.mul_add_mod_self_right, hm, decide_eq_false (show ¬ 0x040 ≤ o by omega), Bool.and_false, Bool.false_and]

theorem Follows.resetRegs (h : d.Follows e) (p : Nat) (kept : PageKind → Nat → Bool) : d.Follows (e.resetRegs p kept) :=
  h.trans (.of_headers fun q => ⟨resetRegs_reg _ _ _ _ _ (by omega), resetRegs_reg _ _ _ _ _ (by omega)⟩)

theorem Follows.resetCounters (h : d.Follows e) (p : Nat) : d.Follows (e.resetCounters p) := h.resetRegs _ _

/-- A page reads the state it was set to; every other page keeps its own. -/
theorem pageState_setPageState (d : Dev) (p v q : Nat) (hv : v < 16) :
    (d.setPageState p v).pageState q = if q = p then v else d.pageState q := by
  unfold pageState setPageState setField
  rw [field_setReg]
  by_cases hq : q = p
  · subst hq
    rw [if_pos rfl, if_pos rfl, bits_putBits_same _ _ _ _ (by omega)]
    omega
  · rw [if_neg (by omega), if_neg hq]

theorem reg_setPageState (d : Dev) (p v q o : Nat) (ho : o < 4096) (hn : o ≠ 0x010) : (d.setPageState p v).reg q o = d.reg q o :=
  reg_setReg_other _ _ _ _ _ _ (.inr hn) ho (by omega)

/-- A page that is moved as work moves it. -/
theorem works_setPageState (d : Dev) (p v : Nat) (hv : v < 16) (h : WorkMove (d.pageState p) v) : d.Works (d.setPageState p v) := fun q =>
  ⟨reg_setPageState d p v q _ (by omega) (by omega), by
    rw [pageState_setPageState d p v q hv]
    split
    · subst q
      exact h
    · exact .refl _⟩

/-- A draining page stays in DRAINING or comes to DISABLED. -/
theorem Works.drains {d d' : Dev} (h : d.Works d') {p : Nat} (hp : d.pageState p = 3) : d'.pageState p = 3 ∨ d'.pageState p = 4 := by
  have hw := (h p).2
  unfold WorkMove at hw
  omega

theorem works_disabled (d : Dev) (p : Nat) (h : d.pageState p = 3 ∨ d.pageState p = 4) : d.Works (d.disabled p) := by
  have hc := (Follows.refl d).resetCounters p
  have hs : (d.resetCounters p).pageState p = d.pageState p := by
    unfold pageState field
    rw [resetCounters, resetRegs_reg _ _ _ _ _ (by omega)]
  refine hc.1.trans (works_setPageState _ p 4 (by omega) ?_)
  rw [hs]
  unfold WorkMove
  omega

/-- A page that follows its block's work moves as work moves it. -/
theorem works_work (d : Dev) (p : Nat) (busy : Dev → Bool) {ended : Dev → Dev} (he : ∀ x : Dev, x.Follows (ended x)) :
    d.Works (work p busy ended d) := by
  unfold work
  split
  · split
    · exact works_setPageState d p 2 (by omega) (.inr (.inl ⟨.inl ‹_›, .inr rfl⟩))
    · exact .refl d
  · split
    · split
      · exact .refl d
      · exact works_setPageState d p 1 (by omega) (.inr (.inl ⟨.inr ‹_›, .inl rfl⟩))
    · split
      · split
        · exact .refl d
        · exact (works_disabled d p (.inl ‹_›)).trans (he _).1
      · exact .refl d

/-- Another page's state is not touched. -/
theorem pageState_work_other (d : Dev) (p q : Nat) (busy : Dev → Bool) {ended : Dev → Dev} (he : ∀ x : Dev, x.Follows (ended x))
    (hq : ∃ n < 16, q = 0x140 + n) (hp : q ≠ p) : (work p busy ended d).pageState q = d.pageState q := by
  obtain ⟨n, hn, rfl⟩ := hq
  have hd : (d.disabled p).pageState (0x140 + n) = d.pageState (0x140 + n) := by
    unfold disabled
    rw [pageState_setPageState _ _ _ _ (by omega), if_neg hp, ((Follows.refl d).resetCounters p).2 n hn]
  unfold work
  split_ifs
  all_goals first
    | rfl
    | exact (pageState_setPageState _ _ _ _ (by omega)).trans (if_neg hp)
    | exact ((he _).2 n hn).trans hd

/-- A page that is no core's, following its block's work. -/
theorem Follows.work (h : d.Follows e) (p : Nat) (busy : Dev → Bool) {ended : Dev → Dev} (he : ∀ x : Dev, x.Follows (ended x))
    (hp : p < 0x140 ∨ 0x150 ≤ p) : d.Follows (work p busy ended e) :=
  h.trans ⟨works_work e p busy he, fun n hn => pageState_work_other e p _ busy he ⟨n, hn, rfl⟩ (by omega)⟩

end Dev
end Sys2Proof.Machine
end

section
/-!
Reads and writes of Skein leave CTRL and STATUS of every page (R265–R273), and so do the packets of the cluster.
-/
namespace Sys2Proof.Machine.Dev

variable {d e : Dev}

theorem Follows.setBytes (h : d.Follows e) (a : Nat) (l : List Byte) : d.Follows (e.setBytes a l) := by
  rw [setBytes_frame]
  exact h.fields (by rfl)

theorem Follows.switchPage (h : d.Follows e) (p t f : Nat) : d.Follows (e.switchPage p t f) :=
  .when (.when (.when (.count (h.fields (by rfl)) _ _ _ (by omega)) _ (.count (.refl _) _ _ _ (by omega))) _
    (.count (.refl _) _ _ _ (by omega))) _ (.count (.refl _) _ _ _ (by omega))

theorem follows_makeRoom (k : Nat) : ∀ (x : Place) (t : Nat) (d d' : Dev), makeRoom x k t d = some d' → d.Follows d' := by
  induction k with
  | zero =>
    intro x t d d' h
    simp [makeRoom] at h
  | succ k ih =>
    intro x t d d' h
    unfold makeRoom at h
    obtain ⟨e, -, he⟩ := List.exists_of_findSome?_eq_some h
    split at he
    · obtain rfl := Option.some.inj he
      exact (Follows.refl d).switchPage _ _ _
    · simp only [Option.bind_eq_some_iff, Option.map_eq_some_iff] at he
      obtain ⟨d1, h1, f, -, rfl⟩ := he
      exact (ih _ _ _ _ h1).switchPage _ _ _

theorem Follows.giveFrame (h : d.Follows e) (p : Nat) {e' : Dev} (hg : e.giveFrame p = some e') : d.Follows e' := by
  unfold Dev.giveFrame at hg
  simp only at hg
  split at hg
  · obtain rfl := Option.some.inj hg
    exact h.fields (by rfl)
  · simp only [Option.bind_eq_some_iff, Option.map_eq_some_iff] at hg
    obtain ⟨e1, he, tf, -, rfl⟩ := hg
    obtain ⟨t, -, ht⟩ := List.exists_of_findSome?_eq_some he
    exact (h.trans (follows_makeRoom _ _ _ _ _ ht)).fields (by rfl)

theorem Follows.queueMig (h : d.Follows e) (m : Migration) : d.Follows (e.queueMig m) := .ite _ h (h.fields (by rfl))

theorem Follows.touch (h : d.Follows e) (p : Nat) : d.Follows (e.touch p) := by
  unfold Dev.touch
  exact .when (h.fields (by rfl)) _ (.queueMig (.refl _) _)

theorem Follows.lowWater (h : d.Follows e) : d.Follows e.lowWater := by
  refine h.forEach _ fun t _ x => ?_
  split
  · split
    · exact (Follows.refl x).queueMig _
    · exact .refl x
  · exact .refl x

theorem follows_writeLine (x : Dev × Bool) (l : Nat × List Byte) : x.1.Follows (writeLine x l).1 := by
  unfold writeLine
  simp only
  split
  · split
    · exact .refl _
    · rename_i e he
      have hf : x.1.Follows e := by
        split at he
        · exact (Follows.refl _).giveFrame _ he
        · exact Option.some.inj he ▸ .refl _
      have hs := Follows.setBytes (e := e.setPlace (pageOf l.1) { e.place (pageOf l.1) with clean := false }) (hf.fields (by rfl)) l.1 l.2
      exact .ite _ (hs.fields (by rfl)) (hs.fields (by rfl))
  · exact ((Follows.refl x.1).setBytes l.1 l.2).fields (by rfl)

theorem Follows.storeLines (h : d.Follows e) (a : Nat) (data : List Byte) : d.Follows (e.storeLines a data).1 := by
  have hl : ∀ (l : List (Nat × List Byte)) (x : Dev × Bool), x.1.Follows (l.foldl writeLine x).1 := by
    intro l
    induction l with
    | nil => exact fun _ => .refl _
    | cons y r ih => exact fun x => (follows_writeLine x y).trans (ih _)
  exact h.trans (hl _ _)

theorem Follows.dropWrite (h : d.Follows e) (who : MemAgent) : d.Follows (e.dropWrite who) :=
  ((h.count _ _ _ (by omega)).setReg _ _ _ (by omega)).err _ _

theorem Follows.store (h : d.Follows e) (who : MemAgent) (a : Nat) (data : List Byte) : d.Follows (e.store who a data).1 := by
  have hs := h.storeLines a data
  unfold Dev.store
  simp only
  split
  · exact hs
  · exact hs.dropWrite who

theorem Follows.syncTh (h : d.Follows e) (c n : Nat) (cfg : Bool) : d.Follows (e.syncTh c n cfg) := .ite _ (h.setBytes _ _) h

theorem Follows.whorlPart (h : d.Follows e) (l : Nat × List Byte) : d.Follows (e.whorlPart l) := by
  unfold Dev.whorlPart
  simp only
  split_ifs
  · exact h
  · exact ((h.setBytes _ _).forEach _ fun n _ x => (Follows.refl x).syncTh _ n _).forEach _ fun n _ x => (Follows.refl x).syncTh _ n _
  · exact (h.setField _ _ _ _ _ (by omega)).err _ _

theorem Follows.whorlStore (h : d.Follows e) (a : Nat) (data : List Byte) : d.Follows (e.whorlStore a data) :=
  h.foldl _ fun l x => (Follows.refl x).whorlPart l

theorem Follows.remoteRequest (h : d.Follows e) (who : MemAgent) (rd : Bool) (a len : Nat) (l : List Byte) :
    d.Follows (e.remoteRequest who rd a len l) := by
  unfold Dev.remoteRequest
  simp only
  rw [sendPacket_links]
  exact h.fields (by rfl)

theorem follows_writePart (who : MemAgent) (x : Dev × List Byte × Bool × Bool) (p : Nat × Nat) : x.1.Follows (writePart who x p).1 := by
  obtain ⟨d, data, un, ok⟩ := x
  obtain ⟨a, n⟩ := p
  have hs := fun a => (Follows.refl d).storeLines a (data.take n)
  unfold writePart
  simp only
  split
  · exact .refl d
  · exact (Follows.refl d).whorlStore _ _
  · exact hs _
  · exact hs _
  · split
    · exact Follows.touch ((Follows.refl d).fields (by rfl)) _
    · refine Follows.touch ?_ _
      split
      · exact (hs a).lowWater
      · exact hs a
  · split
    · exact .refl d
    · split
      · split
        · exact hs _
        · exact .refl d
      · exact (Follows.refl d).remoteRequest _ _ _ _ _

theorem Follows.write (h : d.Follows e) (who : MemAgent) (a : Nat) (data : List Byte) : d.Follows (e.write who a data).1 := by
  have hl : ∀ (l : List (Nat × Nat)) (x : Dev × List Byte × Bool × Bool), x.1.Follows (l.foldl (writePart who) x).1 := by
    intro l
    induction l with
    | nil => exact fun _ => .refl _
    | cons y r ih => exact fun x => (follows_writePart who x y).trans (ih _)
  have hw := h.trans (hl (pageParts a data.length) (e, data, false, true))
  unfold Dev.write
  simp only
  split_ifs
  · exact (hw.count _ _ _ (by omega)).err _ _
  · exact hw
  · exact ((hw.count _ _ _ (by omega)).err _ _).dropWrite who
  · exact hw.dropWrite who

theorem Follows.put (h : d.Follows e) (who : MemAgent) (a : Nat) (data : List Byte) : d.Follows (e.put who a data) := h.write who a data

end Sys2Proof.Machine.Dev
end

section
/-!
The life of a task leaves CTRL of every page, and moves a page's state as its block's work moves it (R293–R309).
-/
namespace Sys2Proof.Machine

/-- A descriptor names one of four delay lists. -/
theorem Task.list_lt (t : Task) : t.list < 4 := Nat.mod_lt _ (by decide)

namespace Dev

variable {d e : Dev}

theorem Follows.traceEv (h : d.Follows e) (evt slot : Nat) (t : Task) (w : Nat) : d.Follows (e.traceEv evt slot t w) :=
  .ite _ (Follows.setField (h.fields (by rfl)) _ _ _ _ _ (by omega)) h

theorem Follows.makeReady (h : d.Follows e) (s : Nat) (t : Task) : d.Follows (e.makeReady s t) := Follows.traceEv (h.fields (by rfl)) _ _ _ _

theorem Follows.makeEligible (h : d.Follows e) (s : Nat) (t : Task) : d.Follows (e.makeEligible s t) := .ite _ (h.fields (by rfl)) (h.makeReady s t)

theorem Follows.dlArm (h : d.Follows e) (l : Nat) (hl : l < 4) : d.Follows (e.dlArm l) := by
  unfold Dev.dlArm
  extract_lets m c es d1 d2
  have h1 : d.Follows d1 := h.setReg _ _ _ (by omega)
  have h2 : d.Follows d2 := h1.setReg _ _ _ (by omega)
  clear_value d2 d1 es
  cases es with
  | nil => exact (h1.setFlag _ _ _ _ (by omega)).setPair48 _ _ _ (by omega)
  | cons x r =>
    dsimp -zeta only
    extract_lets same d3 d4
    have h4 : d.Follows d4 := ((h2.setPair48 _ _ _ (by omega)).setPair48 _ _ _ (by omega)).setReg _ _ _ (by omega)
    exact .ite _ h4 (h4.setArmed _ _)

theorem Follows.dlRelease (h : d.Follows e) (s : Nat) (t : Task) (cf : Nat) : d.Follows (e.dlRelease s t cf) := (h.traceEv _ _ _ _).makeEligible _ _

theorem Follows.escWork (h : d.Follows e) : d.Follows e.escWork :=
  h.work _ _ (fun _ => Follows.setReg ((Follows.refl _).fields (by rfl)) _ _ _ (by omega)) (by omega)

theorem Follows.leaveHeld (h : d.Follows e) (stream : Nat) (ended : Bool) : d.Follows (e.leaveHeld stream ended) := by
  unfold Dev.leaveHeld
  exact .ite _ (Follows.escWork (.settleEach (h.fields (by rfl)) _)) h

/-- What the episode of a task's stream makes of its retirement (R15). -/
theorem Follows.leaveHeldOf (h : d.Follows e) (esc : Option Nat) :
    d.Follows (match esc with
      | some stream => e.leaveHeld stream (e.sstate stream == 0)
      | none => e) := by
  cases esc with
  | none => exact h
  | some stream => exact h.leaveHeld _ _

theorem Follows.cancelTask (h : d.Follows e) (s status cf : Nat) : d.Follows (e.cancelTask s status cf) := by
  unfold Dev.cancelTask
  cases e.task s with
  | none => exact h
  | some t =>
    dsimp -zeta only
    extract_lets d1 d2 d3
    have h1 : d.Follows d1 := Follows.traceEv (h.fields (by rfl)) _ _ _ _
    have h3 : d.Follows d3 := (h1.settleEach t.voted).leaveHeldOf t.esc
    exact .ite _ (h3.dlArm _ t.list_lt) h3

theorem Follows.fenceCancel (h : d.Follows e) (n : Nat) (seq : Word) : d.Follows (e.fenceCancel n seq) :=
  h.foldl _ fun _ x => .ite _ ((Follows.refl x).cancelTask _ _ _) (.refl x)

theorem Follows.taskFailed (h : d.Follows e) (t : Task) (status : Nat) : d.Follows (e.taskFailed t status) := by
  have hl := h.logs (logContained_logs e (taskRecord t status))
  unfold Dev.taskFailed
  extract_lets r es d1 d2 d3
  have h2 : d.Follows d2 := .ite _ (hl.fields (by rfl)) hl
  have h3 : d.Follows d3 := h2.fields (by rfl)
  exact .ite _ (h3.fenceCancel _ _) h3

theorem Follows.abortAnswer (h : d.Follows e) (t : Task) (status : Nat) : d.Follows (e.abortAnswer t status) := by
  have hr := h.setReg (ringPage t.ring) 0x084 (if status = 0x10 then 1 else 2) (by omega)
  exact .ite _ (.ite _ (hr.count _ _ _ (by omega)) hr) h

theorem Follows.retireTask (h : d.Follows e) (s status progress cf : Nat) : d.Follows (e.retireTask s status progress cf) := by
  unfold Dev.retireTask
  cases e.task s with
  | none => exact h
  | some t =>
    refine .ite _ h ?_
    extract_lets late d1 d2 d3 d4
    have h1 : d.Follows d1 := Follows.traceEv (h.fields (by rfl)) _ _ _ _
    have h3 : d.Follows d3 := (h1.abortAnswer t status).settleEach _
    have h4 : d.Follows d4 := .ite _ (h3.taskFailed t status) h3
    exact h4.leaveHeldOf t.esc

theorem Follows.promote (n : Nat) (h : d.Follows e) : d.Follows (promote n e) := by
  induction n generalizing e with
  | zero => exact h
  | succ n ih =>
    unfold Dev.promote
    split
    · exact ih (h.retireTask _ _ _ _)
    · split
      · exact ih (h.makeReady _ _)
      · exact h

theorem Follows.advance (h : d.Follows e) : d.Follows e.advance := h.promote _

theorem Follows.dlInsert (h : d.Follows e) (s : Nat) (t : Task) : d.Follows (e.dlInsert s t) := by
  have hl := t.list_lt
  refine .ite _ ((h.count _ _ _ (by omega)).dlRelease _ _ _) (.ite _ ((Follows.retireTask (h.fields (by rfl)) _ _ _ _).err _ _) ?_)
  exact (Follows.traceEv (h.fields (by rfl)) _ _ _ _).dlArm _ hl

/-- A page that is no core's, moved as work moves it. -/
theorem Follows.setPageState (h : d.Follows e) (p v : Nat) (hv : v < 16) (hw : WorkMove (e.pageState p) v) (hp : p < 0x140 ∨ 0x150 ≤ p) :
    d.Follows (e.setPageState p v) :=
  h.trans ⟨works_setPageState e p v hv hw, fun n hn => (pageState_setPageState e p v _ hv).trans (if_neg (by omega))⟩

theorem Follows.accept (h : d.Follows e) (n : Nat) (hn : n < 64) (by_ : Submitter) (words : List Word) (esc : Option Nat) :
    d.Follows (e.accept n by_ words esc) := by
  have hr : ringPage n < 0x140 := by unfold ringPage; omega
  unfold Dev.accept
  extract_lets p s seq t bad t' d1 d2 d3 d4 d5
  have h1 : d.Follows d1 := (h.setReg _ _ _ (by omega)).count _ _ _ (by omega)
  have h2 : d.Follows d2 := by
    unfold d2
    split
    · exact h1.setPageState _ _ (by omega) (.inr (.inl ⟨.inl ‹_›, .inr rfl⟩)) (.inl hr)
    · exact h1
  clear_value d2
  have h3 : d.Follows d3 := Follows.traceEv (h2.fields (by rfl)) _ _ _ _
  have h4 : d.Follows d4 := .ite _ (h3.err _ _) h3
  have h5 : d.Follows d5 := .ite _ (h4.cancelTask _ _ _) (.ite _ (h4.dlInsert _ _) (h4.makeEligible _ _))
  exact h5.advance

theorem Follows.submitHw (h : d.Follows e) (n : Nat) (hn : n < 64) (words : List Word) (esc : Option Nat) :
    d.Follows (e.submitHw n words esc).1 := by
  unfold Dev.submitHw
  simp only
  split
  · exact h.accept _ hn _ _ _
  · exact ((h.count _ _ _ (by omega)).traceEv _ _ _ _).err _ _

end Dev
end Sys2Proof.Machine
end

section
/-!
The records of the stream channels, the work of each block's page, and what starts and ends with a page (R37, R85–R92).
-/
namespace Sys2Proof.Machine.Dev

variable {d e : Dev}

/-! ## Notifications and held writes (R92, R273) -/

theorem field_lt (d : Dev) (p off hi lo : Nat) : d.field p off hi lo < 2 ^ (hi + 1 - lo) := Nat.mod_lt _ (by positivity)

theorem Follows.notifyTask (h : d.Follows e) (n : Nat) (seq : Word) (off : Nat) : d.Follows (e.notifyTask n seq off) :=
  h.submitHw _ (field_lt _ _ _ 5 0) _ _

theorem Follows.postOwedOf (h : d.Follows e) (n : Nat) : d.Follows (postOwedOf n e) :=
  .ite _ h (.foldl (h.fields (by rfl)) _ fun a x => (Follows.refl x).notifyTask _ _ _)

theorem Follows.postOwed (h : d.Follows e) : d.Follows e.postOwed := h.forEach _ fun n _ x => (Follows.refl x).postOwedOf n

theorem Follows.notify (h : d.Follows e) (n : Nat) (seq : Word) (off : Nat) : d.Follows (e.notify n seq off) :=
  Follows.postOwedOf (h.fields (by rfl)) n

theorem Follows.releaseHeld (h : d.Follows e) : d.Follows e.releaseHeld :=
  .ite _ h (.ite _ (h.fields (by rfl)) (Follows.lowWater (.foldl (h.fields (by rfl)) _ fun a x => (Follows.refl x).store _ _ _)).postOwed)

theorem Follows.cancelMigs (h : d.Follows e) (p : Migration → Bool) : d.Follows (e.cancelMigs p) := Follows.releaseHeld (h.fields (by rfl))

theorem Follows.pfStop (h : d.Follows e) (j : Nat) (hj : j < 16) : d.Follows (e.pfStop j) :=
  Follows.setFlag (Follows.fields (h.cancelMigs _) (by rfl)) _ _ _ _ (by omega)

theorem Follows.pfCancel (h : d.Follows e) (stream : Nat) : d.Follows (e.pfCancel stream) :=
  h.forEach _ fun j hj x => .ite _ ((Follows.refl x).pfStop j (List.mem_range.1 hj)) (.refl x)

/-- Writing EN = 0 to page 0x067 cancels what stands in PRE (R29). -/
theorem Follows.escDisable (h : d.Follows e) : d.Follows e.escDisable :=
  h.forEach _ fun _ _ x => .ite _ (Follows.escWork (.pfCancel (.settleEach ((Follows.refl x).fields (by rfl)) _) _)) (.refl x)

/-! ## Records (R85–R91) -/

theorem Follows.rewind (h : d.Follows e) (n : Nat) : d.Follows (rewind n e) := h.forEach _ fun _ _ x => (Follows.refl x).fields (by rfl)

theorem works_streamWork (n : Nat) (d : Dev) : d.Works (streamWork n d) :=
  works_work d _ _ fun x => Follows.rewind ((Follows.refl x).fields (by rfl)) n

theorem Follows.streamWork (h : d.Follows e) (n : Nat) (hn : n < 24) : d.Follows (streamWork n e) :=
  h.work _ _ (fun x => Follows.rewind ((Follows.refl x).fields (by rfl)) n) (.inl (by unfold chanPage; omega))

theorem Follows.writeRecord (h : d.Follows e) (n : Nat) (r : Rec) : d.Follows (e.writeRecord n r) := by
  unfold Dev.writeRecord
  extract_lets p sz total wrap pad d1 off seq body d2 d3 d4
  have h1 : d.Follows d1 := .ite _ (h.put _ _ _) h
  have h3 : d.Follows d3 := ((h1.put _ _ _).setReg _ _ _ (by omega)).setReg _ _ _ (by omega)
  have h4 : d.Follows d4 := .ite _ (h3.countFrz _ _ _ (by omega)) h3
  exact .ite _ ((h4.setChan _ _).notify _ _ _) (h4.setChan _ _)

theorem Follows.flushGaps (n : Nat) (svc : Bool) (next k : Nat) (h : d.Follows e) : d.Follows (flushGaps n svc next k e) := by
  induction k generalizing e with
  | zero => exact h
  | succ k ih =>
    unfold Dev.flushGaps
    split
    · exact h
    · exact .ite _ h (.ite _ (ih ((h.setChan _ _).writeRecord _ _)) h)

theorem Follows.addLoss (h : d.Follows e) (n cause cnt : Nat) : d.Follows (e.addLoss n cause cnt) := by
  unfold Dev.addLoss
  refine .ite _ h ?_
  extract_lets c gaps d1 d2
  have h1 : d.Follows d1 := (h.setChan _ _).countFrz _ _ _ (by omega)
  have h2 : d.Follows d2 := .ite _ (h1.err _ _) (.ite _ (h1.err _ _) h1)
  exact h2.flushGaps _ _ _ _

theorem Follows.captureOk (h : d.Follows e) (n : Nat) (svc : Bool) (r : Rec) (lost : Nat) : d.Follows (e.captureOk n svc r lost).1 := by
  have hg := h.flushGaps n svc r.payload.length 8
  unfold Dev.captureOk
  split
  · exact h
  · split
    · exact h.addLoss _ _ _
    · simp only
      split
      · exact hg.writeRecord _ _
      · exact hg.addLoss _ _ _

theorem Follows.closeEvents (h : d.Follows e) (n : Nat) (hn : n < 24) : d.Follows (e.closeEvents n) :=
  .ite _ h (Follows.streamWork ((h.setChan _ _).captureOk _ _ _ _) n hn)

theorem Follows.lose (h : d.Follows e) (n cause cnt : Nat) (hn : n < 24) : d.Follows (e.lose n cause cnt) := (h.closeEvents n hn).addLoss _ _ _

/-- A push on a general channel (R108). -/
theorem Follows.genPush (h : d.Follows e) (k : Nat) (hk : k < 2) (lo hi : Word) : d.Follows (e.genPush k lo hi) := by
  have hp := h.setPair48 (chanPage (22 + k)) 0x080 (lo.toNat + bits hi 15 0 * 2 ^ 32) (by omega)
  exact .ite _ h (.ite _ (hp.lose _ _ _ (by omega)) ((hp.setChan _ _).streamWork _ (by omega)))

/-! ## The microphones (R112–R130) -/

theorem Follows.judge (h : d.Follows e) (k : Nat) : d.Follows (judge k e) := by
  unfold Dev.judge
  extract_lets lost tooFast rc d1 d2 d3
  have h1 : d.Follows d1 := .ite _ (h.setReel _ _) h
  have h2 : d.Follows d2 := (h1.setField _ _ _ _ _ (by unfold reelReg; simp only; omega)).countFrz _ _ _ (by unfold reelReg; simp only; omega)
  have h3 : d.Follows d3 := .ite _ (h2.err _ _) h2
  exact .ite _ (.ite _ (h3.err _ _) h3) h1

theorem Follows.judgeAll (h : d.Follows e) : d.Follows e.judgeAll := h.forEach _ fun k _ x => (Follows.refl x).judge k

theorem Follows.setCur (h : d.Follows e) (v : Nat) : d.Follows (e.setCur v) := h.setField _ _ _ _ _ (by omega)

theorem Follows.pllStop (h : d.Follows e) (n : Nat) (hn : n < 3) : d.Follows (if e.pllOn n then e else (e.setLock n false).setRdy (4 + n) false) := by
  have hl : d.Follows (e.setLock n false) := .ite _ ((h.setFlag _ _ _ _ (by omega)).setFlag _ _ _ _ (by omega)) (h.setFlag _ _ _ _ (by omega))
  exact .ite _ h (hl.setFlag _ _ _ _ (by omega))

theorem Follows.clkStops (h : d.Follows e) : d.Follows e.clkStops := by
  have hx : d.Follows (if e.xtaOn then e else e.setRdy 2 false) := .ite _ h (h.setFlag _ _ _ _ (by omega))
  exact ((hx.pllStop 2 (by omega)).pllStop 1 (by omega)).pllStop 0 (by omega)

theorem Follows.askPll1 (h : d.Follows e) (v : Bool) : d.Follows (e.askPll1 v) := by
  have hp : d.Follows (if v && !e.pllOn 1 then e.setFlag 0x011 0x044 9 (!e.srcRdy 2) else e) := .ite _ (h.setFlag _ _ _ _ (by omega)) h
  exact Follows.clkStops (hp.fields (by rfl))

theorem Follows.micToActive (h : d.Follows e) : d.Follows e.micToActive :=
  Follows.askPll1 (Follows.fields ((h.setFlag 0x03A 0x040 0 true (by omega)).setCur 3) (by rfl)) _

theorem Follows.micListenStart (h : d.Follows e) (extra : Nat) : d.Follows (e.micListenStart extra) := Follows.setCur (h.fields (by rfl)) 1

theorem Follows.micStart (h : d.Follows e) : d.Follows e.micStart :=
  .ite _ (.ite _ (Follows.micToActive (h.fields (by rfl))) (Follows.micListenStart (h.fields (by rfl)) 0)) h

theorem Follows.closeMic (h : d.Follows e) (m : Nat) (r : MicRec) : d.Follows (e.closeMic m r) := by
  have hc := h.captureOk (micChan m) true { type := 2, tag := r.tag, count := r.samples.length, payload := e.micPayload r } r.samples.length
  exact .ite _ (hc.fields (by rfl)) hc

theorem Follows.micWork (h : d.Follows e) : d.Follows e.micWork := h.work _ _ (fun x => (Follows.refl x).fields (by rfl)) (by omega)

theorem Follows.closeAudio (h : d.Follows e) : d.Follows e.closeAudio := by
  have hm : d.Follows (e.mic.recs.foldl (fun d x => d.closeMic x.1 x.2) e) := h.foldl _ fun a x => (Follows.refl x).closeMic _ _
  exact .ite _ h (Follows.micWork (Follows.fields (Follows.setField (hm.fields (by rfl)) 0x03A 0x064 7 0 _ (by omega)) (by rfl)))

theorem Follows.micStop (h : d.Follows e) : d.Follows e.micStop := Follows.judgeAll (Follows.fields ((h.closeAudio.setCur 0).askPll1 false) (by rfl))

end Sys2Proof.Machine.Dev
end

section
/-!
What each block does as its page starts and drains leaves CTRL of every page, and moves a page's state as its work moves it (R37, R38).
-/
namespace Sys2Proof.Machine.Dev

variable {d e : Dev}

theorem Follows.packChg (h : d.Follows e) : d.Follows e.packChg := h.setFlag _ _ _ _ (by omega)

theorem whorlReg_offset (c o : Nat) (ho : o < 0x40) : 0x010 < (whorlReg c o).2 ∧ (whorlReg c o).2 < 4096 := by
  unfold whorlReg
  simp only
  omega

theorem Follows.coreOn (h : d.Follows e) (c : Nat) : d.Follows (e.coreOn c) :=
  .ite _ (h.setField _ _ _ _ _ (whorlReg_offset c _ (by omega))) h

theorem Follows.whorlStart (h : d.Follows e) : d.Follows e.whorlStart := h.forEach _ fun c _ x => (Follows.refl x).coreOn c

theorem Follows.whorlEnded (h : d.Follows e) : d.Follows e.whorlEnded :=
  Follows.forEach (h.fields (by rfl)) _ fun p _ x => (Follows.refl x).resetCounters p

theorem Follows.klinkTo (h : d.Follows e) (k st : Nat) : d.Follows (e.klinkTo k st) :=
  Follows.setLink (h.setField (0x158 + k) 0x040 2 0 st (by omega)) _ _

theorem Follows.klinkEnable (h : d.Follows e) (k : Nat) : d.Follows (e.klinkEnable k) := .ite _ (h.klinkTo _ _) h

theorem Follows.klinkDisable (h : d.Follows e) (k : Nat) : d.Follows (e.klinkDisable k) := by
  have hk := (h.klinkTo k 0).setLink k { since := (e.klinkTo k 0).now }
  exact .ite _ hk.judgeAll hk

/-- What a block does as its page becomes READY (R37). -/
theorem follows_blockStart (d : Dev) (p : Nat) : d.Follows (d.blockStart p) := by
  have h := Follows.refl d
  unfold blockStart
  split
  · exact h.micStart.judgeAll
  · exact h.packChg
  · exact h.whorlStart
  · exact h.setFlag _ _ _ _ (by omega)
  · exact h.setCore _ _
  · exact h.klinkEnable _
  · exact h

theorem Follows.aerWork (h : d.Follows e) : d.Follows e.aerWork := h.work _ _ (fun x => (Follows.refl x).fields (by rfl)) (by omega)

theorem Follows.cliffWork (h : d.Follows e) : d.Follows e.cliffWork :=
  h.work _ _ (fun x => by
    extract_lets d1
    have h1 : x.Follows d1 := (Follows.refl x).forEach _ fun n _ y => (Follows.refl y).setCliff _ _
    clear_value d1
    exact (h1.fields (by rfl))) (by omega)

theorem Follows.packWork (h : d.Follows e) : d.Follows e.packWork :=
  h.work _ _ (fun x => (Follows.setField ((Follows.refl x).fields (by rfl)) 0x042 0x048 7 4 0 (by omega)).packChg) (by omega)

theorem Follows.whorlWork (h : d.Follows e) : d.Follows e.whorlWork := h.work _ _ (fun x => (Follows.refl x).whorlEnded) (by omega)

theorem Follows.loomWork (h : d.Follows e) : d.Follows e.loomWork := h.work _ _ Follows.refl (by omega)

theorem streamReg_offset (e o : Nat) (ho : o < 0x40) : 0x010 < (streamReg e o).2 ∧ (streamReg e o).2 < 4096 := by
  unfold streamReg
  simp only
  omega

theorem Follows.setSstate (h : d.Follows e) (n v : Nat) : d.Follows (e.setSstate n v) := h.setField _ _ _ _ _ (streamReg_offset n _ (by omega))

/-- A stream that runs, pauses or waits for a slot ends (R194). -/
theorem Follows.streamEnd (h : d.Follows e) (n : Nat) (hs : [1, 2, 6].contains (e.sstate n) = true) : d.Follows (e.streamEnd n) := by
  unfold Dev.streamEnd
  split
  · exact h.setSstate _ _
  · exact h.setSstate _ _
  · next h3 => simp [h3] at hs
  · next h5 => simp [h5] at hs
  · exact h.fields (by rfl)
  · exact h

theorem Follows.flyerDisable (h : d.Follows e) : d.Follows e.flyerDisable :=
  h.forEach _ fun n _ x => by
    split
    · exact (Follows.refl x).streamEnd n ‹_›
    · exact .refl x

theorem Follows.flyerWork (h : d.Follows e) : d.Follows e.flyerWork := h.work _ _ (fun x => (Follows.refl x).resetCounters _) (by omega)

theorem works_ringDrained (d : Dev) (n : Nat) : d.Works (d.ringDrained n) := by
  unfold ringDrained
  extract_lets p
  split_ifs with hs h3 h2
  · exact (works_disabled d p (.inl h3)).trans (Follows.fields ((Follows.refl _).setReg p 0x058 0 (by omega)) (by rfl)).1
  · exact works_setPageState d p 1 (by omega) (.inr (.inl ⟨.inr h2, .inl rfl⟩))
  · exact .refl d
  · exact .refl d

/-- An agent that goes away gives up its semaphores and claims (R55, R56). -/
theorem Follows.releaseAgent (h : d.Follows e) (a : Agent) : d.Follows (e.releaseAgent a) := by
  have hs : d.Follows (Machine.forEach ((List.range 64).filter fun n => e.semHeldBy a n) (fun n d => d.semFree n) e) :=
    h.forEach _ fun n hn x => by
      have hn : n < 64 := List.mem_range.1 (List.mem_filter.1 hn).1
      have hb : 0x010 < semOff n ∧ semOff n < 4096 := by unfold semOff; omega
      exact ((Follows.refl x).setReg 0x001 (semOff n) _ hb).setFlag _ _ _ _ (by omega)
  exact hs.forEach _ fun p _ x => ((Follows.refl x).setField p 0x024 9 8 0 (by omega)).setField p 0x024 15 12 0 (by omega)

theorem Follows.coreEnterReset (h : d.Follows e) (n : Fin 16) : d.Follows (e.coreEnterReset n) := (h.releaseAgent _).setCore _ _

theorem works_coreWork (d : Dev) (n : Fin 16) : d.Works (d.coreWork n) := works_work d _ _ fun x => (Follows.refl x).coreEnterReset n

/-- What a block does as its page drains (R37, R38). -/
theorem works_blockDrain (d : Dev) (p : Nat) (hp : d.pageState p = 3) : d.Works (d.blockDrain p) := by
  have h := Follows.refl d
  unfold blockDrain
  split
  · exact works_streamWork _ d
  · exact h.aerWork.1
  · exact h.micStop.micWork.1
  · exact h.cliffWork.1
  · exact h.packChg.packWork.1
  · exact h.whorlWork.1
  · exact h.flyerDisable.flyerWork.1
  · exact h.escDisable.escWork.1
  · exact h.loomWork.1
  · exact works_ringDrained d _
  · exact works_coreWork d _
  · next n _ =>
    have hk := ((Follows.refl d).klinkDisable n).1
    exact hk.trans (works_disabled _ p (hk.drains hp))
  · exact .refl d

end Sys2Proof.Machine.Dev
end

section
/-!
The state machine of a page (R37–R41): where EN, SRST and FRZ take it, and what the halt unit adds.
-/
namespace Sys2Proof.Machine

namespace Dev

/-! ## CTRL and STATUS through one another -/

/-- What two devices with the same registers show of a page. -/
theorem pageState_of_reg {d d' : Dev} {p : Nat} (h : d'.reg p 0x010 = d.reg p 0x010) : d'.pageState p = d.pageState p := by
  unfold pageState field
  rw [h]

theorem flag_of_reg {d d' : Dev} {p off : Nat} (h : d'.reg p off = d.reg p off) (i : Nat) : d'.flag p off i = d.flag p off i := by
  unfold flag
  rw [h]

/-- A bit of STATUS beside STATE. -/
theorem pageState_setFlag_status (d : Dev) (p i : Nat) (v : Bool) (hi : 3 < i) : (d.setFlag p 0x010 i v).pageState p = d.pageState p := by
  unfold pageState setFlag
  rw [field_setReg, if_pos rfl, bits_putBit_other _ _ _ _ _ (.inr hi) (by omega)]
  rfl

theorem pageState_setFlag_ctrl (d : Dev) (p i : Nat) (v : Bool) : (d.setFlag p 0x00C i v).pageState p = d.pageState p :=
  pageState_of_reg (reg_setReg_other _ _ _ _ _ _ (.inr (by omega)) (by omega) (by omega))

theorem flag_ctrl_setFlag_status (d : Dev) (p i j : Nat) (v : Bool) : (d.setFlag p 0x010 j v).flag p 0x00C i = d.flag p 0x00C i :=
  flag_of_reg (reg_setReg_other _ _ _ _ _ _ (.inr (by omega)) (by omega) (by omega)) i

theorem idlePage_iff (d : Dev) (p : Nat) : d.idlePage p = true ↔ d.pageState p = 0 ∨ d.pageState p = 4 := by simp [idlePage]

theorem running_iff (d : Dev) (p : Nat) : d.running p = true ↔ d.pageState p = 1 ∨ d.pageState p = 2 := by simp [running]

/-! ## The start of a page (R37) -/

theorem pageStart_running (d : Dev) (p : Nat) : (d.pageStart p).running p = true := by
  have hw : WorkMove (((d.setFlag p 0x010 4 false).setPageState p 1).pageState p) ((d.pageStart p).pageState p) :=
    ((follows_blockStart _ p).1 p).2
  rw [pageState_setPageState _ _ _ _ (by omega), if_pos rfl] at hw
  rw [running_iff]
  unfold WorkMove at hw
  omega

theorem reg_ctrl_pageStart (d : Dev) (p : Nat) : (d.pageStart p).reg p 0x00C = d.reg p 0x00C := by
  have hc := ((follows_blockStart ((d.setFlag p 0x010 4 false).setPageState p 1) p).1 p).1
  refine hc.trans ?_
  rw [reg_setPageState _ _ _ _ _ (by omega) (by omega)]
  exact reg_setReg_other _ _ _ _ _ _ (.inr (by omega)) (by omega) (by omega)

/-- CTRL.EN = 1 acts on the state that it meets (R37): the device that it acts on has EN set, and ORPHANED cleared on a ring page. -/
theorem enable_cases (d : Dev) (p : Nat) (hk : (pageKind p).hasEn = true) :
    ∃ e, OnlyRegs [(p, 0x088)] (d.setFlag p 0x00C 0 true) e ∧
      (d.idlePage p = true → d.enable p = e.pageStart p) ∧ (d.running p = true → d.enable p = e) ∧
      (d.pageState p = 3 → (∀ n, pageKind p = .stream n → 8 ≤ n) → d.enable p = e.setFlag p 0x010 4 true) ∧
      (d.pageState p = 5 → d.enable p = d.err p 29) := by
  unfold enable
  rw [hk]
  extract_lets st d1 d2 d3
  have he : OnlyRegs [(p, 0x088)] d1 d2 := by
    unfold d2
    split
    · exact setReg_onlyRegs _ _ _ _ _ (by omega) (by simp)
    · exact .refl _ _
  refine ⟨d2, he, fun hi => ?_, fun hr => ?_, fun h3 hs => ?_, fun h5 => ?_⟩
  · rw [idlePage_iff] at hi
    have h5 : st ≠ 5 := by unfold st; omega
    have h04 : st = 0 ∨ st = 4 := hi
    simp [h5, h04]
  · rw [running_iff] at hr
    have h5 : st ≠ 5 := by unfold st; omega
    have h04 : ¬ (st = 0 ∨ st = 4) := by unfold st; omega
    have h3 : st ≠ 3 := by unfold st; omega
    simp [h5, h04, h3]
  · have hst : st = 3 := h3
    simp only [hst, Nat.reduceEqDiff, decide_false, Bool.or_self, Bool.not_true, Bool.false_eq_true, if_false, if_true]
    split
    · next n hn => rw [if_neg (by have := hs n hn; omega)]
    · rfl
  · have hst : st = 5 := h5
    simp [hst]

/-- CTRL.EN = 0 acts on the state that it meets (R37), where the cliff watch does not refuse it (R139). -/
theorem disable_cases (d : Dev) (p : Nat) (hk : (pageKind p).hasEn = true) (hc : p = 0x040 → d.cliffDisableRefused = false) :
    (d.running p = true ∨ d.pageState p = 5 → d.disable p = ((d.setFlag p 0x00C 0 false).setPageState p 3).blockDrain p) ∧
      (d.pageState p = 3 ∨ d.pageState p = 4 → d.disable p = (d.setFlag p 0x00C 0 false).setFlag p 0x010 4 false) := by
  have hr : ¬ (p = 0x040 ∧ d.cliffDisableRefused = true) := fun h => by simp [hc h.1] at h
  unfold disable
  rw [hk]
  refine ⟨fun h => ?_, fun h => ?_⟩
  · rw [running_iff] at h
    have h125 : (d.pageState p = 1 ∨ d.pageState p = 2) ∨ d.pageState p = 5 := h
    simp [hr, h125]
  · have h125 : ¬ ((d.pageState p = 1 ∨ d.pageState p = 2) ∨ d.pageState p = 5) := by omega
    simp [hr, h125, h]

/-- A page that drains is in DRAINING, or in DISABLED where it has nothing to finish. -/
theorem pageState_drained (d : Dev) (p : Nat) :
    ((d.setPageState p 3).blockDrain p).pageState p = 3 ∨ ((d.setPageState p 3).blockDrain p).pageState p = 4 := by
  have h3 : (d.setPageState p 3).pageState p = 3 := by rw [pageState_setPageState _ _ _ _ (by omega), if_pos rfl]
  exact (works_blockDrain _ p h3).drains h3

theorem flag_ctrl_drained (d : Dev) (p i : Nat) : ((d.setPageState p 3).blockDrain p).flag p 0x00C i = d.flag p 0x00C i := by
  have h3 : (d.setPageState p 3).pageState p = 3 := by rw [pageState_setPageState _ _ _ _ (by omega), if_pos rfl]
  rw [(works_blockDrain _ p h3).flag_ctrl]
  exact flag_of_reg (reg_setPageState _ _ _ _ _ (by omega) (by omega)) i

/-- A page that is reset is in OFF, with no enable pending (R39). -/
theorem softReset_of_idle (d : Dev) (p : Nat) (h : d.idlePage p = true) :
    (d.softReset p).pageState p = 0 ∧ (d.softReset p).flag p 0x010 4 = false := by
  unfold softReset
  rw [if_pos h]
  refine ⟨?_, ?_⟩
  · rw [pageState_setPageState _ _ _ _ (by omega), if_pos rfl]
  · unfold setPageState setField
    rw [flag_setReg, if_pos rfl, bit_putBits_other _ _ _ _ _ (.inr (by omega))]
    exact flag_setFlag_same _ _ _ _ _ (by omega)

/-- FRZ is held as it was written, and the page's state stands (R41). -/
theorem setFrz_frozen (d : Dev) (p : Nat) (v : Bool) :
    (d.setFrz p v).frozen p = v ∧ (d.setFrz p v).pageState p = d.pageState p := by
  unfold setFrz
  extract_lets e
  have he : e.pageState p = d.pageState p := by
    unfold e
    split
    · rfl
    · rfl
  refine ⟨flag_setFlag_same _ _ _ _ _ (by omega), ?_⟩
  exact (pageState_setFlag_ctrl _ _ _ _).trans he

/-- A write of CTRL that its page admits (R49) acts. -/
theorem ctrlWrite_of_admitted {d : Dev} {a : Agent} {p : Nat} (f : Dev → Dev) (hk : pageKind p ≠ .unassigned)
    (ha : d.absentPage p = false) (hc : (pageKind p).claimable = false ∨ d.claimedBy a p = true) : ctrlWrite a p f d = f d := by
  unfold ctrlWrite
  obtain h | h := hc <;> simp [hk, ha, h]

/-- The work of blocks puts no Spindle core in reset. -/
theorem Follows.spindleReset {d e : Dev} (h : d.Follows e) : Dev.spindleReset d e = false := by
  unfold Dev.spindleReset
  rw [List.any_eq_false]
  intro n hn
  unfold idlePage
  rw [h.2 n (List.mem_range.1 hn)]
  simp

end Dev

theorem PageKind.ne_unassigned_of_hasEn {k : PageKind} (h : k.hasEn = true) : k ≠ .unassigned := by
  rintro rfl
  exact absurd h (by decide)

/-! ## The commands of CTRL -/

/-- The halt unit's HOLD moves no register. -/
theorem reg_haltHold (s : State) (p off : Nat) : s.haltHold.dev.reg p off = s.dev.reg p off := by
  unfold State.haltHold
  split
  · rfl
  · rfl

/-- A command that may put a core in reset (R144): the registers are those that its meaning leaves. -/
theorem onCores_of_powered {s : State} (h : s.Powered) (f : Dev → Dev) :
    ∃ t, onCores f s = .next t ∧ ∀ p off, t.dev.reg p off = (f s.dev).reg p off := by
  unfold onCores onState
  rw [if_pos h]
  refine ⟨_, rfl, fun p off => ?_⟩
  dsimp only
  split
  · exact reg_haltHold _ p off
  · rfl

/-- One that puts none in reset changes the device alone. -/
theorem onCores_of_follows {s : State} (h : s.Powered) {f : Dev → Dev} (hf : s.dev.Follows (f s.dev)) :
    onCores f s = .next { s with dev := f s.dev } := by
  simp [onCores, onState, h, hf.spindleReset]

theorem exec_pageEnable (s : State) (ag : Agent) (p : Fin 8192) :
    exec (.pageEnable ag p) s = onCores (Dev.ctrlWrite ag p.val fun d => d.enable p.val) s := rfl

theorem exec_pageDisable (s : State) (ag : Agent) (p : Fin 8192) :
    exec (.pageDisable ag p) s = onCores (Dev.ctrlWrite ag p.val fun d => d.disable p.val) s := rfl

theorem exec_softReset (s : State) (ag : Agent) (p : Fin 8192) :
    exec (.softReset ag p) s = onCores (Dev.ctrlWrite ag p.val fun d => d.softReset p.val) s := rfl

theorem exec_freeze (s : State) (ag : Agent) (p : Fin 8192) (v : Bool) :
    exec (.freeze ag p v) s = onCores (Dev.ctrlWrite ag p.val fun d => d.setFrz p.val v) s := rfl

theorem exec_pendingEnable (s : State) (p : Fin 8192) : exec (.pendingEnable p) s = onDev (fun d => d.pendingStart p.val) s := rfl

/-- What a write of CTRL that its page admits leaves of every register. -/
theorem ctrl_step {s : State} {a : Agent} {p : Nat} {f : Dev → Dev} (hp : s.Powered) (hk : pageKind p ≠ .unassigned)
    (ha : s.dev.absentPage p = false) (hc : (pageKind p).claimable = false ∨ s.dev.claimedBy a p = true) :
    ∃ t, onCores (Dev.ctrlWrite a p f) s = .next t ∧ (∀ q, t.dev.pageState q = (f s.dev).pageState q) ∧
      ∀ q off i, t.dev.flag q off i = (f s.dev).flag q off i := by
  obtain ⟨t, ht, hr⟩ := onCores_of_powered hp (Dev.ctrlWrite a p f)
  rw [Dev.ctrlWrite_of_admitted f hk ha hc] at hr
  exact ⟨t, ht, fun q => Dev.pageState_of_reg (hr q _), fun q off i => Dev.flag_of_reg (hr q off) i⟩

/-- Settles O5. -/
theorem pageStateMachine : Obligations.PageStateMachine := by
  unfold Obligations.PageStateMachine
  have hu : ∀ {p : Nat}, (pageKind p).hasEn = true → pageKind p ≠ .unassigned := PageKind.ne_unassigned_of_hasEn
  refine ⟨fun s ag p hp hk ha hc hi => ?_, fun s ag p hp hk ha hc hr => ?_, fun s ag p hp hk ha hc h3 hs => ?_,
    fun s ag p hp hk ha hc h5 => ?_, fun s ag p hp hk ha hc hr hg => ?_, fun s ag p hp hk ha hc h34 hg => ?_,
    fun s ag p hp hk ha hc hi => ?_, fun s ag p hp hk ha hc hi => ?_, fun s ag p v hp hk ha hc => ?_, fun s p hp hk ha h4 hf => ?_⟩
  · obtain ⟨t, ht, hst, hfl⟩ := ctrl_step (f := fun d => d.enable p.val) hp (hu hk) ha (.inr hc)
    obtain ⟨e, he, hstart, -⟩ := s.dev.enable_cases p.val hk
    refine ⟨t, ht, ?_, ?_⟩
    · rw [Dev.running_iff, hst, hstart hi, ← Dev.running_iff]
      exact e.pageStart_running p.val
    · rw [hfl, hstart hi, Dev.flag_of_reg (e.reg_ctrl_pageStart p.val), Dev.flag_of_reg (he _ _ (by omega) (by simp))]
      exact Dev.flag_setFlag_same _ _ _ _ _ (by omega)
  · obtain ⟨t, ht, hst, hfl⟩ := ctrl_step (f := fun d => d.enable p.val) hp (hu hk) ha (.inr hc)
    obtain ⟨e, he, -, hrun, -⟩ := s.dev.enable_cases p.val hk
    refine ⟨t, ht, ?_, ?_⟩
    · rw [hst, hrun hr, Dev.pageState_of_reg (he _ _ (by omega) (by simp))]
      exact Dev.pageState_setFlag_ctrl _ _ _ _
    · rw [hfl, hrun hr, Dev.flag_of_reg (he _ _ (by omega) (by simp))]
      exact Dev.flag_setFlag_same _ _ _ _ _ (by omega)
  · obtain ⟨t, ht, hst, hfl⟩ := ctrl_step (f := fun d => d.enable p.val) hp (hu hk) ha (.inr hc)
    obtain ⟨e, he, -, -, hdrain, -⟩ := s.dev.enable_cases p.val hk
    refine ⟨t, ht, ?_, ?_, ?_⟩
    · rw [hst, hdrain h3 hs, Dev.pageState_setFlag_status _ _ _ _ (by omega), Dev.pageState_of_reg (he _ _ (by omega) (by simp)), ← h3]
      exact Dev.pageState_setFlag_ctrl _ _ _ _
    · rw [hfl, hdrain h3 hs]
      exact Dev.flag_setFlag_same _ _ _ _ _ (by omega)
    · rw [hfl, hdrain h3 hs, Dev.flag_ctrl_setFlag_status,
        Dev.flag_of_reg (he _ _ (by omega) (by simp))]
      exact Dev.flag_setFlag_same _ _ _ _ _ (by omega)
  · obtain ⟨t, ht, hst, hfl⟩ := ctrl_step (f := fun d => d.enable p.val) hp (hu hk) ha (.inr hc)
    obtain ⟨e, -, -, -, -, hfault⟩ := s.dev.enable_cases p.val hk
    refine ⟨t, ht, ?_, ?_⟩
    · rw [hst, hfault h5, ← h5]
      exact Dev.pageState_of_reg (Dev.err_onlyRegs _ _ _ _ _ (by omega) (by simp [Dev.errRegs, Dev.eventRegs]))
    · rw [hfl, hfault h5]
      exact Dev.flag_err _ _ _ (by omega)
  · obtain ⟨t, ht, hst, hfl⟩ := ctrl_step (f := fun d => d.disable p.val) hp (hu hk) ha (.inr hc)
    obtain ⟨hleave, -⟩ := s.dev.disable_cases p.val hk hg
    refine ⟨t, ht, ?_, ?_⟩
    · rw [hst, hleave hr]
      exact Dev.pageState_drained _ _
    · rw [hfl, hleave hr, Dev.flag_ctrl_drained]
      exact Dev.flag_setFlag_same _ _ _ _ _ (by omega)
  · obtain ⟨t, ht, hst, hfl⟩ := ctrl_step (f := fun d => d.disable p.val) hp (hu hk) ha (.inr hc)
    obtain ⟨-, hcancel⟩ := s.dev.disable_cases p.val hk hg
    refine ⟨t, ht, ?_, ?_, ?_⟩
    · rw [hst, hcancel h34, Dev.pageState_setFlag_status _ _ _ _ (by omega)]
      exact Dev.pageState_setFlag_ctrl _ _ _ _
    · rw [hfl, hcancel h34]
      exact Dev.flag_setFlag_same _ _ _ _ _ (by omega)
    · rw [hfl, hcancel h34, Dev.flag_ctrl_setFlag_status]
      exact Dev.flag_setFlag_same _ _ _ _ _ (by omega)
  · obtain ⟨t, ht, hst, hfl⟩ := ctrl_step (f := fun d => d.softReset p.val) hp (hu hk) ha (.inr hc)
    obtain ⟨hoff, hpend⟩ := s.dev.softReset_of_idle p.val hi
    exact ⟨t, ht, (hst _).trans hoff, (hfl _ _ _).trans hpend⟩
  · have hr : Dev.ctrlWrite ag p.val (fun d => d.softReset p.val) s.dev = s.dev.err p.val 29 := by
      rw [Dev.ctrlWrite_of_admitted _ hk ha (.inr hc)]
      simp [Dev.softReset, hi]
    rw [exec_softReset, onCores_of_follows hp (hr ▸ (Dev.Follows.refl _).err _ _), hr]
  · obtain ⟨t, ht, hst, hfl⟩ := ctrl_step (f := fun d => d.setFrz p.val v) hp hk ha hc
    obtain ⟨hfrz, hkeep⟩ := s.dev.setFrz_frozen p.val v
    exact ⟨t, ht, (hfl _ _ _).trans hfrz, (hst _).trans hkeep⟩
  · rw [exec_pendingEnable, onDev_of_powered hp]
    refine ⟨_, rfl, ?_⟩
    simp only [Dev.pendingStart, h4, hf, decide_true, Bool.and_self, if_true]
    exact s.dev.pageStart_running p.val

end Sys2Proof.Machine
end

section
/-!
The register bus (R33–R36, R48, R50): what a write that its page admits does, case by case.
-/
namespace Sys2Proof.Machine

/-! ## The words of a write -/

theorem byteMask_zero : byteMask 0 = 0#32 := by decide

theorem byteMask_all : byteMask 15 = BitVec.allOnes 32 := by decide

/-- A row of a register table (R5): no register has both fields of R48 and plain ones, W1C bits stand alone, and a LO half stores all
of its bits or none. -/
def RegRow.regular (r : RegRow) : Bool :=
  (r.rwl == 0 || r.rw == 0) && (r.w1c == 0 || (r.rw == 0 && r.rwl == 0)) &&
    (r.hi == 0 || (r.rw == 0 && r.rwl == 0) || r.rw ||| r.rwl == full)

theorem rows_regular (k : PageKind) : (rowsOf k).all RegRow.regular = true := by
  cases k with
  | stream n =>
    simp only [rowsOf, streamRows]
    split_ifs <;> rfl
  | kakan n =>
    simp only [rowsOf, kakanRows]
    split_ifs <;> rfl
  | drops n =>
    simp only [rowsOf, dropRows]
    split_ifs <;> rfl
  | _ => rfl

theorem rowOf_regular (k : PageKind) (off : Nat) : (rowOf k off).regular = true := by
  unfold rowOf regRow
  cases h : (rowsOf k).find? fun r => r.holds off with
  | none => rfl
  | some r => exact List.all_eq_true.1 (rows_regular k) r (List.mem_of_find?_eq_some h)

/-- The rows of a table that are LO halves which their HI halves commit (R34). -/
def loRows (k : PageKind) : List RegRow := (rowsOf k).filter fun r => r.hi != 0 && (r.rw != 0 || r.rwl != 0)

/-- No register right behind a LO half is a LO half itself. -/
def pairsApart (k : PageKind) : Bool :=
  (loRows k).all fun r => (List.range r.count).all fun i => (loRows k).all fun x => !x.holds (r.off + r.stride * i + 4)

theorem rows_pairsApart (k : PageKind) : pairsApart k = true := by
  cases k with
  | stream n =>
    simp only [pairsApart, loRows, rowsOf, streamRows]
    split_ifs <;> rfl
  | kakan n =>
    simp only [pairsApart, loRows, rowsOf, kakanRows]
    split_ifs <;> rfl
  | drops n =>
    simp only [pairsApart, loRows, rowsOf, dropRows]
    split_ifs <;> rfl
  | region n => rfl
  | ring n => rfl
  | _ => decide +kernel

theorem mem_loRows {k : PageKind} {off : Nat} (h : pairLo k off = true) : ∃ r ∈ loRows k, r.holds off = true := by
  unfold pairLo rowOf regRow at h
  cases hf : (rowsOf k).find? fun r => r.holds off with
  | none => simp [hf, ro] at h
  | some r =>
    rw [hf] at h
    exact ⟨r, List.mem_filter.2 ⟨List.mem_of_find?_eq_some hf, h⟩, by simpa using List.find?_some hf⟩

theorem RegRow.holds_iff (r : RegRow) (off : Nat) : r.holds off = true → ∃ i < r.count, off = r.off + r.stride * i := by
  unfold RegRow.holds
  simp only [Bool.and_eq_true, decide_eq_true_eq, beq_iff_eq, and_imp]
  intro h1 h2 h3
  refine ⟨_, h3, ?_⟩
  have := Nat.div_add_mod (off - r.off) r.stride
  omega

theorem pairLo_of_pairHi {k : PageKind} {off : Nat} (h : pairHi k off = true) : pairLo k off = false := by
  unfold pairHi at h
  simp only [Bool.and_eq_true, decide_eq_true_eq] at h
  obtain ⟨hoff, hlo⟩ := h
  obtain ⟨r, hr, hh⟩ := mem_loRows hlo
  obtain ⟨i, hi, ho⟩ := r.holds_iff _ hh
  by_contra hp
  obtain ⟨x, hx, hxh⟩ := mem_loRows (by simpa using hp : pairLo k off = true)
  have ha := List.all_eq_true.1 (List.all_eq_true.1 (List.all_eq_true.1 (rows_pairsApart k) r hr) i (List.mem_range.2 hi)) x hx
  rw [← ho, Nat.sub_add_cancel hoff, hxh] at ha
  exact absurd ha (by decide)

/-! ## A write that its page admits -/

/-- The conditions of `State.Takes`, by name. -/
theorem State.Takes.elim {s : State} {a : Agent} {p off : Nat} (h : s.Takes a p off) :
    s.Powered ∧ s.dev.absentPage p = false ∧ s.dev.asleep p = false ∧ pageKind p ≠ .unassigned ∧ 0x040 ≤ off ∧
      implemented p off = true ∧ s.dev.writeRefused p off = none ∧
      (rwlBits (pageKind p) off = 0 ∨ s.dev.claimedBy a p = true) := by
  obtain ⟨⟨hp, ha, hz⟩, hk, ho, hi, hr, hc⟩ := h
  exact ⟨hp, ha, hz, hk, ho, hi, hr, hc⟩

theorem exec_registerWrite (s : State) (ag : Agent) (r : RegAddr) (v : Word) (be : BitVec 4) :
    exec (.registerWrite ag r v be) s = onState (State.writeReg ag r.page.val (4 * r.word.val) v be) s := rfl

theorem exec_pairLoWrite (s : State) (ag : Agent) (r : RegAddr) (v : Word) :
    exec (.pairLoWrite ag r v) s = onState (State.writeReg ag r.page.val (4 * r.word.val) v 15) s := rfl

theorem exec_pairHiWrite (s : State) (ag : Agent) (r : RegAddr) (v : Word) :
    exec (.pairHiWrite ag r v) s = onState (State.writeReg ag r.page.val (4 * r.word.val) v 15) s := rfl

theorem onState_of_powered {s : State} (h : s.Powered) (f : State → State) : onState f s = .next (f s) := by
  simp only [onState, if_pos h]

/-- A write that the bus delivers to nothing. -/
theorem busWrite_of_nobody (s : State) (a : Agent) (p off : Nat) (v : Word) (be : BitVec 4)
    (h : pageKind p = .unassigned ∨ s.dev.absentPage p = true ∨ be = 0) : s.busWrite a p off v be = s := by
  unfold State.busWrite
  obtain h | h | h := h <;> simp [h]

/-- A write that the bus delivers and that puts no core in reset: to the header, to a page that sleeps (R36), or to the block. -/
theorem busWrite_of_follows {s : State} {a : Agent} {p off : Nat} {v : Word} {be : BitVec 4} {t : State} (hk : pageKind p ≠ .unassigned)
    (ha : s.dev.absentPage p = false) (hb : be ≠ 0)
    (ht : (if off < 0x040 then { s with dev := Dev.headerWrite a p off v be s.dev }
      else if s.dev.asleep p then { s with dev := s.dev.err p 30 } else s.blockWrite a p off v be) = t)
    (hf : s.dev.Follows t.dev) : s.busWrite a p off v be = t := by
  have hn : (pageKind p = .unassigned || s.dev.absentPage p || be = 0) = false := by simp only [hk, ha, hb, decide_false, Bool.or_self]
  unfold State.busWrite
  simp only [hn, Bool.false_eq_true, if_false, ht, hf.spindleReset]

theorem busWrite_header {s : State} {a : Agent} {p off : Nat} {v : Word} {be : BitVec 4} (hk : pageKind p ≠ .unassigned)
    (ha : s.dev.absentPage p = false) (hb : be ≠ 0) (ho : off < 0x040) (hf : s.dev.Follows (Dev.headerWrite a p off v be s.dev)) :
    s.busWrite a p off v be = { s with dev := Dev.headerWrite a p off v be s.dev } :=
  busWrite_of_follows hk ha hb (if_pos ho) hf

theorem busWrite_block {s : State} {a : Agent} {p off : Nat} {v : Word} {be : BitVec 4} {t : State} (hr : s.Reaches p)
    (hk : pageKind p ≠ .unassigned) (hb : be ≠ 0) (ho : 0x040 ≤ off) (hw : s.blockWrite a p off v be = t)
    (hf : s.dev.Follows t.dev) : s.busWrite a p off v be = t := by
  obtain ⟨-, ha, hz⟩ := hr
  exact busWrite_of_follows hk ha hb (by rw [if_neg (by omega), hz, if_neg (by decide), hw]) hf

/-- A write of a whole word touches the RWL fields that the register has. -/
theorem touched_word (l : Word) : (l = 0 || l &&& byteMask 15 ≠ 0) = true := by
  rw [byteMask_all, BitVec.and_allOnes]
  by_cases h : l = 0 <;> simp [h]

theorem merged_word (d : Dev) (p off : Nat) (v : Word) : d.merged p off v 15 = v := by
  simp only [Dev.merged, byteMask_all, BitVec.and_allOnes, BitVec.not_allOnes, BitVec.and_zero, BitVec.zero_and, BitVec.or_zero]

/-! ## What a block makes of a write -/

/-- A write to an offset that holds no register (R35). -/
theorem blockWrite_unimplemented {s : State} {a : Agent} {p off : Nat} {v : Word} {be : BitVec 4} (h : implemented p off = false) :
    s.blockWrite a p off v be = s := by simp [State.blockWrite, h]

/-- A write of RWL fields by an agent without the claim (R48). -/
theorem blockWrite_denied {s : State} {a : Agent} {p off : Nat} {v : Word} {be : BitVec 4} (hi : implemented p off = true)
    (hl : BitVec.ofNat 32 (rwlBits (pageKind p) off) &&& byteMask be ≠ 0) (hc : s.dev.claimedBy a p = false) :
    s.blockWrite a p off v be = { s with dev := s.dev.deny a p } := by
  unfold State.blockWrite
  simp only [hi, hc, hl, ne_eq, not_false_eq_true, decide_true, Bool.not_true, Bool.not_false, Bool.and_self, Bool.false_eq_true,
    if_false, if_true]

section
variable {s : State} {a : Agent} {p off : Nat} {v : Word} (h : s.Takes a p off)
include h

/-- The guard of R48 lets a write through that the register takes. -/
theorem State.Takes.not_denied (be : BitVec 4) :
    (BitVec.ofNat 32 (rwlBits (pageKind p) off) &&& byteMask be ≠ 0 && !s.dev.claimedBy a p) = false := by
  obtain ⟨-, -, -, -, -, -, -, hc⟩ := h.elim
  obtain hc | hc := hc <;> simp [hc]

/-- A write of the whole LO half is staged for its agent (R34). -/
theorem blockWrite_pairLo (hl : pairLo (pageKind p) off = true) :
    s.blockWrite a p off v 15 = { s with dev := s.dev.setAgentReg a p off v } := by
  obtain ⟨-, -, -, -, -, hi, hr, -⟩ := h.elim
  unfold State.blockWrite
  simp only [hi, hr, hl, h.not_denied, touched_word, Bool.not_true, Bool.false_and, Bool.false_eq_true, if_false, if_true]
  simp only [byteMask_all, BitVec.and_allOnes, BitVec.not_allOnes, BitVec.and_zero, BitVec.or_zero]

/-- A write of the whole HI half commits the pair (R34). -/
theorem blockWrite_pairHi (hh : pairHi (pageKind p) off = true) :
    s.blockWrite a p off v 15 = { s with dev := Dev.pairWrite a p off v s.dev } := by
  obtain ⟨-, -, -, -, -, hi, hr, -⟩ := h.elim
  unfold State.blockWrite
  simp only [hi, hr, hh, pairLo_of_pairHi hh, h.not_denied, touched_word, merged_word, Bool.not_true, Bool.false_and, Bool.false_eq_true,
    if_false, if_true]
  simp only [byteMask_all, BitVec.and_allOnes, BitVec.not_allOnes, BitVec.and_zero, BitVec.or_zero, ite_self]

/-- A write of the whole of another register: its effect beyond the device where it has one, else its block's. -/
theorem blockWrite_word (hl : pairLo (pageKind p) off = false) (hh : pairHi (pageKind p) off = false) :
    (∀ t, s.effectWrite a p off v = some t → s.blockWrite a p off v 15 = t) ∧
      (s.effectWrite a p off v = none →
        s.blockWrite a p off v 15 = { s with dev := Dev.blockWrite a p off v (BitVec.allOnes 32) s.dev }) := by
  obtain ⟨-, -, -, -, -, hi, hr, -⟩ := h.elim
  unfold State.blockWrite
  simp only [hi, hr, hh, hl, h.not_denied, touched_word, merged_word, Bool.not_true, Bool.false_and, Bool.false_eq_true,
    if_false]
  simp only [byteMask_all, BitVec.and_allOnes, BitVec.not_allOnes, BitVec.and_zero, BitVec.or_zero, ite_self]
  refine ⟨fun t ht => ?_, fun hn => ?_⟩
  · rw [ht]
  · rw [hn]

end
end Sys2Proof.Machine
end

section
/-!
Registers whose write sets their fields and does nothing else (R5).
-/
namespace Sys2Proof.Machine

theorem pageKind_of_ge {p : Nat} (h : 0x268 ≤ p) : pageKind p = .unassigned := by
  unfold pageKind pageRow
  repeat rw [if_neg (by omega)]

/-- Whether a page is the one that its block's number names (R42), for the blocks whose writes name their page. -/
def pageNamed (p : Nat) : Bool :=
  match pageKind p with
  | .csi => p == 0x038
  | .mic => p == 0x03A
  | .cliff => p == 0x040
  | .esc => p == 0x067
  | .ring n => p == ringPage n
  | .core => p == Dev.corePage (p - 0x140)
  | _ => true

theorem page_named (p : Nat) : pageNamed p = true := by
  by_cases h : p < 0x268
  · have hall : ∀ q : Fin 0x268, pageNamed q.val = true := by decide +kernel
    exact hall ⟨p, h⟩
  · unfold pageNamed
    rw [pageKind_of_ge (by omega)]

section
variable {p off : Nat} (h : storesOnly p off = true)
include h

theorem storesOnly_ge : 0x040 ≤ off := by
  unfold storesOnly at h
  simp only [Bool.and_eq_true, decide_eq_true_eq] at h
  exact h.1.1.1

theorem storesOnly_pairs : pairLo (pageKind p) off = false ∧ pairHi (pageKind p) off = false := by
  unfold storesOnly at h
  simp only [Bool.and_eq_true, Bool.not_eq_true'] at h
  exact ⟨h.1.1.2, h.1.2⟩

/-- Its RWL fields stand in its table (R48). -/
theorem storesOnly_woRwl : woRwl (pageKind p) off = 0 := by
  unfold woRwl
  split
  all_goals
    rename_i hk
    simp [storesOnly, hk] at h ⊢
  all_goals grind

theorem storesOnly_keptBits : keptBits (pageKind p) off = 0 := by
  unfold keptBits
  split
  all_goals
    rename_i hk
    simp [storesOnly, hk] at h ⊢
  all_goals omega

theorem storesOnly_effectWrite (a : Agent) (w : Word) (s : State) : s.effectWrite a p off w = none := by
  unfold State.effectWrite
  split
  all_goals
    rename_i hk
    simp [storesOnly, hk] at h ⊢
  all_goals grind

theorem storesOnly_blockWrite (a : Agent) (w m : Word) (d : Dev) : Dev.blockWrite a p off w m d = d.storeReg p off w := by
  unfold Dev.blockWrite
  split
  all_goals
    rename_i hk
    simp [storesOnly, hk] at h
  case h_8 | h_9 | h_10 | h_11 =>
    unfold Dev.writeClock
    simp only [hk]
    grind
  case h_16 =>
    have hp : p = 0x038 := by simpa [pageNamed, hk] using page_named p
    unfold Dev.writeCsi
    grind
  case h_18 =>
    have hp : p = 0x03A := by simpa [pageNamed, hk] using page_named p
    unfold Dev.writeMic
    grind
  case h_19 =>
    have hp : p = 0x040 := by simpa [pageNamed, hk] using page_named p
    unfold Dev.writeCliff
    grind
  case h_22 =>
    unfold Dev.writeWhorlCore
    grind
  case h_26 =>
    have hp : p = 0x067 := by simpa [pageNamed, hk] using page_named p
    unfold Dev.writeEsc
    grind
  case h_28 | h_29 =>
    unfold Dev.writeSkein
    simp only [hk]
    grind
  case h_31 n =>
    have hp : p = ringPage n := by simpa [pageNamed, hk] using page_named p
    unfold Dev.writeRing
    grind
  case h_35 =>
    have hp : p = Dev.corePage (p - 0x140) := by simpa [pageNamed, hk] using page_named p
    unfold Dev.writeCore
    grind
  all_goals grind
end

/-! ## What the register then holds -/

/-- A stored field takes the merged word where a W1C field takes the written one. -/
theorem stored_merged (old v m f c : Word) (h : f &&& c = 0) :
    ((old &&& ~~~ f) ||| (((v &&& m) ||| (old &&& ~~~ m &&& f)) &&& f)) &&& ~~~ (((v &&& m) ||| (old &&& ~~~ m &&& f)) &&& c) =
      ((old &&& ~~~ (f &&& m)) ||| (v &&& (f &&& m))) &&& ~~~ (v &&& m &&& c) := by
  apply BitVec.eq_of_getLsbD_eq
  intro i hi
  have hfc : (f.getLsbD i && c.getLsbD i) = false := by simpa using congrArg (BitVec.getLsbD · i) h
  simp only [BitVec.getLsbD_and, BitVec.getLsbD_or, BitVec.getLsbD_not, hi, decide_true, Bool.true_and]
  generalize old.getLsbD i = o, v.getLsbD i = x, m.getLsbD i = y, f.getLsbD i = z, c.getLsbD i = u at hfc ⊢
  revert o x y z u
  decide

/-- No W1C bit is a stored one. -/
theorem storedBits_and_w1c (k : PageKind) (off : Nat) : storedBits k off &&& BitVec.ofNat 32 (rowOf k off).w1c = 0 := by
  have hr := rowOf_regular k off
  simp only [RegRow.regular, Bool.and_eq_true, Bool.or_eq_true, beq_iff_eq] at hr
  obtain ⟨⟨-, hc | ⟨hw, hl⟩⟩, -⟩ := hr
  · simp [hc]
  · simp [storedBits, hw, hl]

theorem reg_storeReg_merged (d : Dev) (p off : Nat) (v : Word) (be : BitVec 4) (hk : keptBits (pageKind p) off = 0) :
    (Dev.storeReg p off (d.merged p off v be) d).reg p off = fieldsWritten (pageKind p) off (d.reg p off) v be := by
  unfold Dev.storeReg Dev.merged fieldsWritten
  simp only [Dev.reg_setReg_same, hk, BitVec.or_zero]
  exact stored_merged _ _ _ _ _ (storedBits_and_w1c _ _)

/-- A write of none of the RWL fields that a register has leaves what it holds (R48). -/
theorem fieldsWritten_untouched {k : PageKind} {off : Nat} (be : BitVec 4) (old v : Word) (hw : woRwl k off = 0)
    (hl : BitVec.ofNat 32 (rwlBits k off) ≠ 0) (hm : BitVec.ofNat 32 (rwlBits k off) &&& byteMask be = 0) :
    fieldsWritten k off old v be = old := by
  have hr := rowOf_regular k off
  simp only [RegRow.regular, Bool.and_eq_true, Bool.or_eq_true, beq_iff_eq] at hr
  obtain ⟨⟨hrw, hc⟩, -⟩ := hr
  have hb : rwlBits k off = (rowOf k off).rwl := by simp [rwlBits, hw]
  rw [hb] at hl hm
  have h0 : (rowOf k off).rwl ≠ 0 := fun h => hl (by rw [h]; rfl)
  have hs : storedBits k off = BitVec.ofNat 32 (rowOf k off).rwl := by simp [storedBits, hrw.resolve_left h0]
  have hc0 : (rowOf k off).w1c = 0 := hc.resolve_right fun h => h0 h.2
  unfold fieldsWritten
  simp only [hs, hm, hc0, BitVec.ofNat_eq_ofNat, BitVec.and_zero, BitVec.not_zero, BitVec.and_allOnes, BitVec.or_zero]

/-- A write of a register that only stores is its fields' (R5, R33): of all of them, or of none of the RWL ones it has. -/
theorem blockWrite_storesOnly {s : State} {a : Agent} {p off : Nat} (v : Word) (be : BitVec 4) (h : s.Takes a p off)
    (hs : storesOnly p off = true) :
    s.blockWrite a p off v be = { s with dev := Dev.storeReg p off (s.dev.merged p off v be) s.dev } ∨
      s.blockWrite a p off v be = s ∧ fieldsWritten (pageKind p) off (s.dev.reg p off) v be = s.dev.reg p off := by
  obtain ⟨-, -, -, -, -, hi, hr, -⟩ := h.elim
  obtain ⟨hlo, hhi⟩ := storesOnly_pairs hs
  by_cases ht : BitVec.ofNat 32 (rwlBits (pageKind p) off) = 0 ∨ BitVec.ofNat 32 (rwlBits (pageKind p) off) &&& byteMask be ≠ 0
  · left
    unfold State.blockWrite
    have ht' : (BitVec.ofNat 32 (rwlBits (pageKind p) off) = 0 || BitVec.ofNat 32 (rwlBits (pageKind p) off) &&& byteMask be ≠ 0) = true := by
      simpa using ht
    simp only [hi, hr, hlo, hhi, h.not_denied, ht', Bool.not_true, Bool.false_and, Bool.false_eq_true, if_false,
      storesOnly_effectWrite hs, storesOnly_blockWrite hs]
    rw [if_neg]
    split
    · next n hk =>
      simp [storesOnly, hk] at hs
      simp
      omega
    · decide
  · obtain ⟨hl, hm⟩ := not_or.1 ht
    rw [not_not] at hm
    refine .inr ⟨?_, fieldsWritten_untouched be _ v (storesOnly_woRwl hs) hl hm⟩
    unfold State.blockWrite
    simp only [hi, hl, hm, hhi, ne_eq, not_true_eq_false, decide_false, Bool.not_true, Bool.false_and, Bool.or_false, Bool.not_false,
      Bool.and_self, Bool.false_eq_true, if_false, if_true]

end Sys2Proof.Machine
end

section
/-!
Writes of one register as a command: what has no effect, what is refused, what only stores, and the header (R33–R36, R48, R57).
-/
namespace Sys2Proof.Machine

/-- A write of one register completes with what the bus makes of it. -/
theorem onState_writeReg {s t : State} {a : Agent} {p off : Nat} {v : Word} {be : BitVec 4} (hp : s.Powered)
    (h : s.busWrite a p off v be = t) : onState (State.writeReg a p off v be) s = .next { t with dev := t.dev.answer .done } := by
  rw [onState_of_powered hp, State.writeReg, h]

/-! ## Writes without effect, and refused ones (R35, R36, R48) -/

theorem busWrite_without_effect {s : State} {p off : Nat} (a : Agent) (v : Word) (be : BitVec 4)
    (h : pageKind p = .unassigned ∨ s.dev.absentPage p = true ∨ (s.Reaches p ∧ 0x040 ≤ off ∧ implemented p off = false)) :
    s.busWrite a p off v be = s := by
  by_cases hn : pageKind p = .unassigned ∨ s.dev.absentPage p = true ∨ be = 0
  · exact busWrite_of_nobody s a p off v be hn
  · simp only [not_or] at hn
    obtain ⟨hk, ha, hb⟩ := hn
    obtain h | h | ⟨hr, ho, hi⟩ := h
    · exact absurd h hk
    · exact absurd h ha
    · exact busWrite_block hr hk hb ho (blockWrite_unimplemented hi) (.refl _)

theorem busWrite_asleep {s : State} {p off : Nat} (a : Agent) (v : Word) {be : BitVec 4} (hk : pageKind p ≠ .unassigned)
    (ha : s.dev.absentPage p = false) (hb : be ≠ 0) (ho : 0x040 ≤ off) (hz : s.dev.asleep p = true) :
    s.busWrite a p off v be = { s with dev := s.dev.err p 30 } :=
  busWrite_of_follows hk ha hb (by rw [if_neg (by omega), if_pos hz]) ((Dev.Follows.refl _).err _ _)

theorem busWrite_denied {s : State} {a : Agent} {p off : Nat} (v : Word) {be : BitVec 4} (hr : s.Reaches p) (hk : pageKind p ≠ .unassigned)
    (ho : 0x040 ≤ off) (hi : implemented p off = true) (hl : BitVec.ofNat 32 (rwlBits (pageKind p) off) &&& byteMask be ≠ 0)
    (hc : s.dev.claimedBy a p = false) : s.busWrite a p off v be = { s with dev := s.dev.deny a p } := by
  have hb : be ≠ 0 := by
    rintro rfl
    exact hl (by rw [byteMask_zero, BitVec.and_zero]; rfl)
  exact busWrite_block hr hk hb ho (blockWrite_denied hi hl hc) ((Dev.Follows.refl _).deny _ _)

/-! ## A register that only stores (R5, R33) -/

theorem fieldsWritten_none (k : PageKind) (off : Nat) (old v : Word) : fieldsWritten k off old v 0 = old := by
  unfold fieldsWritten
  rw [byteMask_zero]
  simp only [BitVec.and_zero, BitVec.zero_and, BitVec.not_zero, BitVec.and_allOnes, BitVec.or_zero]

theorem reg_storeReg_other (d : Dev) (p off q o : Nat) (w : Word) (h : q ≠ p ∨ o ≠ off) (ho : o < 4096) (hf : off < 4096) :
    (Dev.storeReg p off w d).reg q o = d.reg q o := Dev.reg_setReg_other _ _ _ _ _ _ h ho hf

theorem Dev.Follows.storeReg {d e : Dev} (h : d.Follows e) (p off : Nat) (w : Word) (hf : 0x010 < off ∧ off < 4096) :
    d.Follows (Dev.storeReg p off w e) := h.setReg _ _ _ hf

theorem busWrite_storesOnly {s : State} {a : Agent} {p off : Nat} (v : Word) (be : BitVec 4) (h : s.Takes a p off)
    (hs : storesOnly p off = true) (hf : off < 4096) :
    s.busWrite a p off v be = { s with dev := Dev.storeReg p off (s.dev.merged p off v be) s.dev } ∨
      s.busWrite a p off v be = s ∧ fieldsWritten (pageKind p) off (s.dev.reg p off) v be = s.dev.reg p off := by
  have ⟨hr, hk, ho, _⟩ := h
  by_cases hb : be = 0
  · subst hb
    exact .inr ⟨busWrite_of_nobody _ _ _ _ _ _ (.inr (.inr rfl)), fieldsWritten_none _ _ _ _⟩
  · obtain hw | ⟨hw, he⟩ := blockWrite_storesOnly v be h hs
    · exact .inl (busWrite_block hr hk hb ho hw ((Dev.Follows.refl _).storeReg _ _ _ (by omega)))
    · exact .inr ⟨busWrite_block hr hk hb ho hw (.refl _), he⟩

/-! ## The header (R47, R51, R57) -/

theorem Dev.Follows.clearErrors {d e : Dev} (h : d.Follows e) (p : Nat) (v : Word) : d.Follows (e.clearErrors p v) :=
  .ite _ ((h.setReg _ _ _ (by omega)).setFlag _ _ _ _ (by omega)) (h.setReg _ _ _ (by omega))

theorem Dev.Follows.claim {d e : Dev} (h : d.Follows e) (a : Agent) (p : Nat) : d.Follows (e.claim a p) :=
  .ite _ h (h.setReg _ _ _ (by omega))

theorem Dev.Follows.release {d e : Dev} (h : d.Follows e) (a : Agent) (p : Nat) : d.Follows (e.release a p) :=
  .ite _ ((h.setField p 0x024 9 8 0 (by omega)).setField p 0x024 15 12 0 (by omega)) h

theorem Dev.Follows.vote {d e : Dev} (h : d.Follows e) (a : Agent) (p : Nat) (v : Word) : d.Follows (e.vote a p v) :=
  .ite _ h ((h.setField _ _ _ _ _ (by omega)).settleEach _)

/-- ERR_MASK takes the enabled bytes (R57). -/
theorem busWrite_errMask {s : State} {p : Nat} (a : Agent) (v : Word) (be : BitVec 4) (hk : pageKind p ≠ .unassigned)
    (ha : s.dev.absentPage p = false) :
    (s.busWrite a p 0x018 v be).dev.reg p 0x018 = (s.dev.reg p 0x018 &&& ~~~byteMask be) ||| (v &&& byteMask be) ∧
      ∀ q o : Nat, o < 4096 → (q ≠ p ∨ o ≠ 0x018) → (s.busWrite a p 0x018 v be).dev.reg q o = s.dev.reg q o := by
  by_cases hb : be = 0
  · subst hb
    rw [busWrite_of_nobody _ _ _ _ _ _ (.inr (.inr rfl)), byteMask_zero, BitVec.not_zero, BitVec.and_allOnes, BitVec.and_zero, BitVec.or_zero]
    exact ⟨rfl, fun _ _ _ _ => rfl⟩
  · have hw : Dev.headerWrite a p 0x018 v be s.dev = s.dev.setReg p 0x018 ((v &&& byteMask be) ||| (s.dev.reg p 0x018 &&& ~~~byteMask be)) := rfl
    rw [busWrite_header hk ha hb (by omega) (hw ▸ (Dev.Follows.refl _).setReg _ _ _ (by omega)), hw]
    refine ⟨?_, fun q o ho hq => Dev.reg_setReg_other _ _ _ _ _ _ hq ho (by omega)⟩
    rw [Dev.reg_setReg_same, BitVec.or_comm]

/-- A 1 written to a bit of ERR_SUM clears it (R57). -/
theorem busWrite_errSum {s : State} {p : Nat} (a : Agent) (v : Word) (be : BitVec 4) (hk : pageKind p ≠ .unassigned)
    (ha : s.dev.absentPage p = false) :
    (s.busWrite a p 0x014 v be).dev.reg p 0x014 = s.dev.reg p 0x014 &&& ~~~(v &&& byteMask be) := by
  by_cases hb : be = 0
  · subst hb
    rw [busWrite_of_nobody _ _ _ _ _ _ (.inr (.inr rfl)), byteMask_zero, BitVec.and_zero, BitVec.not_zero, BitVec.and_allOnes]
  · have hw : Dev.headerWrite a p 0x014 v be s.dev = s.dev.clearErrors p (v &&& byteMask be) := rfl
    rw [busWrite_header hk ha hb (by omega) (hw ▸ (Dev.Follows.refl _).clearErrors _ _), hw]
    unfold Dev.clearErrors
    simp only
    split
    · rw [Dev.setFlag, Dev.reg_setReg_other _ _ _ _ _ _ (.inr (by omega)) (by omega) (by omega), Dev.reg_setReg_same]
    · rw [Dev.reg_setReg_same]

/-- A write of a whole header register that is a command's meaning is that command. -/
theorem registerWrite_header {s : State} {ag : Agent} {r : RegAddr} {v : Word} {f : Dev → Dev} (hp : s.Powered)
    (hk : pageKind r.page.val ≠ .unassigned) (ha : s.dev.absentPage r.page.val = false) (ho : 4 * r.word.val < 0x040)
    (hw : Dev.headerWrite ag r.page.val (4 * r.word.val) v 15 s.dev = f s.dev) (hf : s.dev.Follows (f s.dev)) :
    exec (.registerWrite ag r v 15) s = ends .done (onDev f s) := by
  rw [exec_registerWrite, onDev_of_powered hp, onState_writeReg hp (busWrite_header hk ha (by decide) ho (hw ▸ hf)), hw]
  rfl

/-- A write of OWNER or VOTE is the command of its page (R47, R51). -/
theorem headerCommands_write {s : State} (ag : Agent) {p : Fin 8192} (v : Word) (hp : s.Powered) (hk : pageKind p.val ≠ .unassigned)
    (ha : s.dev.absentPage p.val = false) :
    ∀ c ∈ headerCommands ag p v, exec (.registerWrite ag c.1 v 15) s = ends .done (exec c.2 s) := by
  have hfull : v &&& byteMask 15 = v := by rw [byteMask_all, BitVec.and_allOnes]
  have hvote : Dev.headerWrite ag p.val 0x028 v 15 s.dev = s.dev.vote ag p.val v := by
    show s.dev.vote ag p.val ((v &&& byteMask 15) ||| (s.dev.reg p.val 0x028 &&& ~~~byteMask 15)) = _
    rw [hfull, byteMask_all, BitVec.not_allOnes, BitVec.and_zero, BitVec.or_zero]
  have howner : Dev.headerWrite ag p.val 0x024 v 15 s.dev = Dev.writeOwner ag p.val v s.dev := by
    show Dev.writeOwner ag p.val (v &&& byteMask 15) s.dev = _
    rw [hfull]
  unfold headerCommands
  intro c hc
  rw [List.mem_append, List.mem_append] at hc
  obtain (hc | hc) | hc := hc
  · obtain rfl := List.mem_singleton.1 hc
    rw [exec_voteWrite]
    exact registerWrite_header hp hk ha (show 4 * 10 < 0x040 by decide) hvote ((Dev.Follows.refl _).vote _ _ _)
  · split_ifs at hc with hv
    · obtain rfl := List.mem_singleton.1 hc
      rw [exec_claim]
      exact registerWrite_header hp hk ha (show 4 * 9 < 0x040 by decide) (howner.trans (by simp only [Dev.writeOwner, hv]))
        ((Dev.Follows.refl _).claim _ _)
    · exact absurd hc List.not_mem_nil
  · split_ifs at hc with hv
    · obtain rfl := List.mem_singleton.1 hc
      rw [exec_release]
      exact registerWrite_header hp hk ha (show 4 * 9 < 0x040 by decide) (howner.trans (by simp only [Dev.writeOwner, hv]))
        ((Dev.Follows.refl _).release _ _)
    · exact absurd hc List.not_mem_nil

end Sys2Proof.Machine
end

section
/-!
Registers whose write is a command of the table: the semaphores, HO_PTR, SNAP, BUF_FREE, the cliff watch and the halt unit.
-/
namespace Sys2Proof.Machine

namespace Dev
variable {d e : Dev}

/-! ## The commands' work puts no core in reset -/

theorem semOff_offset {n : Nat} (hn : n < 64) : 0x010 < semOff n ∧ semOff n < 4096 := by
  unfold semOff
  omega

theorem Follows.semFree (h : d.Follows e) {n : Nat} (hn : n < 64) : d.Follows (e.semFree n) :=
  (h.setReg _ _ _ (semOff_offset hn)).setFlag _ _ _ _ (by omega)

theorem Follows.semTake (h : d.Follows e) (a : Agent) {n : Nat} (hn : n < 64) : d.Follows (e.semTake a n) :=
  .ite _ h (h.setReg _ _ _ (semOff_offset hn))

theorem Follows.semGive (h : d.Follows e) (a : Agent) {n : Nat} (hn : n < 64) : d.Follows (e.semGive a n) :=
  .ite _ (h.semFree hn) (h.err _ _)

theorem Follows.semForce (h : d.Follows e) {n : Nat} (hn : n < 64) (g : Nat) : d.Follows (e.semForce n g) := .ite _ (h.semFree hn) h

theorem Follows.writeHoPtr (h : d.Follows e) (v : Word) : d.Follows (writeHoPtr v e) := by
  unfold Dev.writeHoPtr
  extract_lets n freed d1
  split
  · have h1 : d.Follows d1 := h.forEach _ fun _ _ x => (Follows.refl x).fields (by rfl)
    exact h1.setField _ _ _ _ _ (by omega)
  · exact h.err _ _

theorem Follows.snapTake (h : d.Follows e) : d.Follows e.snapTake := by
  refine Follows.countFrz (h.forEach _ fun k hk x => ?_) _ _ _ (by omega)
  have hk : k < 8 := List.mem_range.1 hk
  exact (Follows.refl x).setPair48 _ _ _ (by omega)

theorem Follows.cliffRequests (h : d.Follows e) (mask : Nat) : d.Follows (e.cliffRequests mask) :=
  h.forEach _ fun n _ x => .ite _ (.refl x) (.ite _ ((Follows.refl x).countFrz _ _ _ (by omega)) ((Follows.refl x).setCliff _ _).cliffWork)

theorem cliffBase_offset {n : Nat} (hn : n < 8) : 0x010 < cliffBase n ∧ cliffBase n < 4096 := by
  unfold cliffBase
  omega

theorem Follows.guardSet (h : d.Follows e) (chs : Nat) : d.Follows (e.guardSet chs) :=
  h.forEach _ fun n hn x => by
    have hn : n < 8 := List.mem_range.1 (List.mem_filter.1 hn).1
    have hs := (Follows.refl x).setFlag 0x040 0x140 n true (by omega)
    exact .ite _ (hs.setField _ _ _ _ _ (cliffBase_offset hn)) hs

theorem Follows.tripReport (h : d.Follows e) (cause : Nat) : d.Follows (e.tripReport cause) := by
  have hu : d.Follows e.uncheck := h.fields (by rfl)
  have hb : d.Follows e.tripBits := ((hu.countFrz _ _ _ (by omega)).errBit _ _).safetyEvent
  exact .ite _ (hb.logs (logOpen_logs _ _)) hb

end Dev

theorem follows_writeArm (s : State) (v : Word) : s.dev.Follows (s.writeArm v).dev := by
  unfold State.writeArm
  simp only
  split
  · split <;> exact .refl _
  · split
    · exact (Dev.Follows.refl _).err _ _
    · exact .refl _
    · exact .refl _
    · exact .refl _

theorem follows_writeOutCmd (s : State) (v : Word) : s.dev.Follows (s.writeOutCmd v).dev := by
  unfold State.writeOutCmd
  simp only
  split <;> exact .refl _

theorem follows_writeHb (s : State) (v : Word) : s.dev.Follows (s.writeHb v).dev := by
  unfold State.writeHb
  simp only
  split
  · exact .refl _
  · exact (Dev.Follows.refl _).err _ _

theorem follows_writeTripAck (s : State) (v : Word) : s.dev.Follows (s.writeTripAck v).dev := by
  unfold State.writeTripAck
  split <;> exact .refl _

theorem follows_writeForce (s : State) (v : Word) : s.dev.Follows (s.writeForce v).dev := by
  unfold State.writeForce State.trip
  split_ifs
  · exact (Dev.Follows.refl _).tripReport 5
  · exact .refl _
  · exact .refl _

/-! ## A write of the whole register -/

/-- A write of a whole register that is no half of a pair: what its block does, -/
theorem busWrite_word {s : State} {a : Agent} {p off : Nat} {v : Word} {e : Dev} (h : s.Takes a p off)
    (hl : pairLo (pageKind p) off = false) (hh : pairHi (pageKind p) off = false) (he : s.effectWrite a p off v = none)
    (hb : Dev.blockWrite a p off v (BitVec.allOnes 32) s.dev = e) (hf : s.dev.Follows e) :
    s.busWrite a p off v 15 = { s with dev := e } := by
  have ⟨hr, hk, ho, _⟩ := h
  exact busWrite_block hr hk (by decide) ho (((blockWrite_word h hl hh).2 he).trans (by rw [hb])) hf

/-- or its effect beyond the device. -/
theorem busWrite_effect {s t : State} {a : Agent} {p off : Nat} {v : Word} (h : s.Takes a p off) (hl : pairLo (pageKind p) off = false)
    (hh : pairHi (pageKind p) off = false) (he : s.effectWrite a p off v = some t) (hf : s.dev.Follows t.dev) :
    s.busWrite a p off v 15 = t := by
  have ⟨hr, hk, ho, _⟩ := h
  exact busWrite_block hr hk (by decide) ho ((blockWrite_word h hl hh).1 t he) hf

theorem anyWrite_of_reaches {s : State} {p : Nat} (h : s.Reaches p) (f : Dev → Dev) : Dev.anyWrite p f s.dev = f s.dev := by
  obtain ⟨-, ha, hz⟩ := h
  simp [Dev.anyWrite, ha, hz]

theorem rwlWrite_of_admits {s : State} {a : Agent} {p : Nat} (h : s.Admits a p) (f : Dev → Dev) : Dev.rwlWrite a p f s.dev = f s.dev := by
  obtain ⟨hr, hc⟩ := h
  rw [Dev.rwlWrite, anyWrite_of_reaches hr, if_pos hc]

/-- The semaphores' registers. -/
theorem busWrite_sem {s : State} {a : Agent} {n : Nat} (v : Word) (hn : n < 64) (h : s.Takes a 0x001 (0x040 + 4 * n)) :
    s.busWrite a 0x001 (0x040 + 4 * n) v 15 = { s with dev := s.dev.semWrite a n v } := by
  have hpair : ∀ n < 64, pairLo .sems (0x040 + 4 * n) = false ∧ pairHi .sems (0x040 + 4 * n) = false := by decide +kernel
  refine busWrite_word h (hpair n hn).1 (hpair n hn).2 rfl ?_ ?_
  · show (if (0x040 ≤ 0x040 + 4 * n && 0x040 + 4 * n < 0x140) = true then s.dev.semWrite a ((0x040 + 4 * n - 0x040) / 4) v else _) = _
    rw [if_pos (by simp; omega), show (0x040 + 4 * n - 0x040) / 4 = n by omega]
  · exact .ite _ ((Dev.Follows.refl _).semTake a hn) (.ite _ ((Dev.Follows.refl _).semGive a hn) (.refl _))

/-! ## The commands of the table (R31, R52, R53, R67, R95, R133, R139, R144–R147) -/

section
variable (s : State) (ag : Agent) (v : Word)

theorem exec_semTake (n : Fin 64) : exec (.semTake ag n) s = onDev (fun d => d.semTake ag n.val) s := rfl
theorem exec_semGive (n : Fin 64) : exec (.semGive ag n) s = onDev (fun d => d.semGive ag n.val) s := rfl
theorem exec_semForce (n : Fin 64) (g : BitVec 8) : exec (.semForce n g) s = onDev (fun d => d.semForce n.val g.toNat) s := rfl
theorem exec_hoPtrWrite : exec (.hoPtrWrite ag v) s = onDev (Dev.anyWrite 0x067 (Dev.writeHoPtr v)) s := rfl
theorem exec_snapTake : exec (.snapTake ag) s = onDev (Dev.anyWrite 0x018 Dev.snapTake) s := rfl
theorem exec_bufFree (n : Fin 8) : exec (.bufFree ag n v) s = onDev (Dev.anyWrite (chanPage n.val) fun d =>
    d.setReg (chanPage n.val) 0x098 (d.reg (chanPage n.val) 0x098 ||| v)) s := rfl
theorem exec_cliffCheckWrite (m : BitVec 8) :
    exec (.cliffCheckWrite ag m) s = onDev (Dev.anyWrite 0x040 fun d => d.cliffRequests m.toNat) s := rfl
theorem exec_guardSet (m : BitVec 8) : exec (.guardSet ag m) s = onDev (Dev.anyWrite 0x040 fun d => d.guardSet m.toNat) s := rfl
theorem exec_haltArm : exec (.haltArm ag v) s = onState (haltWrite ag fun s => s.writeArm v) s := rfl
theorem exec_haltOutCmd : exec (.haltOutCmd ag v) s = onState (haltWrite ag fun s => s.writeOutCmd v) s := rfl
theorem exec_heartbeatRefresh : exec (.heartbeatRefresh ag v) s = onState (haltWrite ag fun s => s.writeHb v) s := rfl
theorem exec_tripAck : exec (.tripAck ag v) s = onState (haltWrite ag fun s => s.writeTripAck v) s := rfl
theorem exec_haltForce :
    exec (.haltForce ag v) s = onState (fun s => if s.dev.absentPage 0x041 then s else s.writeForce v) s := rfl

end

/-- A command that changes the device as the write of a register does is that write. -/
theorem registerWrite_onDev {s : State} {ag : Agent} {r : RegAddr} {v : Word} {f : Dev → Dev} (hp : s.Powered)
    (h : s.busWrite ag r.page.val (4 * r.word.val) v 15 = { s with dev := f s.dev }) :
    exec (.registerWrite ag r v 15) s = ends .done (onDev f s) := by
  rw [exec_registerWrite, onState_writeReg hp h, onDev_of_powered hp]
  rfl

/-- One that changes the whole state so. -/
theorem registerWrite_onState {s : State} {ag : Agent} {r : RegAddr} {v : Word} {f : State → State} (hp : s.Powered)
    (h : s.busWrite ag r.page.val (4 * r.word.val) v 15 = f s) :
    exec (.registerWrite ag r v 15) s = ends .done (onState f s) := by
  rw [exec_registerWrite, onState_writeReg hp h, onState_of_powered hp]
  rfl

/-- A write of a register of the halt unit that is the holder's alone (R48, R144). -/
theorem haltWrite_of_takes {s : State} {a : Agent} {off : Nat} (h : s.Takes a 0x041 off) (hl : rwlBits .halt off ≠ 0) (f : State → State) :
    haltWrite a f s = f s := by
  obtain ⟨-, ha, -, -, -, -, -, hc⟩ := h.elim
  rw [haltWrite, if_neg (by simp [ha]), if_pos (hc.resolve_left hl)]

/-- A register of the halt unit whose write is the holder's command. -/
theorem registerWrite_haltWrite {s : State} {ag : Agent} {r : RegAddr} {v : Word} {f : State → State} (hr : r.page = 0x041)
    (h : s.Takes ag 0x041 (4 * r.word.val)) (hl : rwlBits .halt (4 * r.word.val) ≠ 0)
    (hpair : pairLo .halt (4 * r.word.val) = false ∧ pairHi .halt (4 * r.word.val) = false)
    (he : s.effectWrite ag 0x041 (4 * r.word.val) v = some (f s)) (hf : s.dev.Follows (f s).dev) :
    exec (.registerWrite ag r v 15) s = ends .done (onState (haltWrite ag f) s) := by
  have hb := busWrite_effect h hpair.1 hpair.2 he hf
  refine registerWrite_onState h.elim.1 ?_
  rw [hr, haltWrite_of_takes h hl]
  exact hb

/-- A register of a page without RWL fields, whose write changes the device. -/
theorem registerWrite_anyWrite {s : State} {ag : Agent} {r : RegAddr} {v : Word} {f : Dev → Dev}
    (h : s.Takes ag r.page.val (4 * r.word.val))
    (hl : pairLo (pageKind r.page.val) (4 * r.word.val) = false) (hh : pairHi (pageKind r.page.val) (4 * r.word.val) = false)
    (he : s.effectWrite ag r.page.val (4 * r.word.val) v = none)
    (hb : Dev.blockWrite ag r.page.val (4 * r.word.val) v (BitVec.allOnes 32) s.dev = f s.dev) (hf : s.dev.Follows (f s.dev)) :
    exec (.registerWrite ag r v 15) s = ends .done (onDev (Dev.anyWrite r.page.val f) s) := by
  refine registerWrite_onDev h.elim.1 ?_
  rw [anyWrite_of_reaches h.1]
  exact busWrite_word h hl hh he hb hf

/-- The codes that take and give a semaphore (R52). -/
theorem semCode (v : Word) : (bit v 0 && !bit v 1) = decide (bits v 1 0 = 1) ∧ (bit v 1 && !bit v 0) = decide (bits v 1 0 = 2) := by
  have h0 : bit v 0 = decide (v.toNat % 4 % 2 = 1) := by rw [bit, Nat.testBit_zero, Nat.mod_mod_of_dvd _ (by decide)]
  have h1 : bit v 1 = decide (v.toNat % 4 / 2 = 1) := by
    rw [bit, Nat.testBit_succ, Nat.testBit_zero]
    congr 1
    have : v.toNat / 2 % 2 = v.toNat % 4 / 2 := by omega
    rw [this]
  have hb : bits v 1 0 = v.toNat % 4 := rfl
  have hlt : v.toNat % 4 < 4 := Nat.mod_lt _ (by decide)
  rw [h0, h1, hb]
  generalize v.toNat % 4 = x at hlt
  revert x
  decide

/-- A semaphore's register: 1 takes it and 2 gives it (R52). -/
theorem registerWrite_semaphore {s : State} (ag : Agent) (v : Word) (n : Fin 64)
    (h : s.Takes ag 0x001 (4 * (Fin.ofNat 1024 (16 + n.val)).val)) :
    (bits v 1 0 = 1 → exec (.registerWrite ag ⟨0x001, Fin.ofNat 1024 (16 + n.val)⟩ v 15) s = ends .done (exec (.semTake ag n) s)) ∧
      (bits v 1 0 = 2 → exec (.registerWrite ag ⟨0x001, Fin.ofNat 1024 (16 + n.val)⟩ v 15) s = ends .done (exec (.semGive ag n) s)) := by
  have hoff : 4 * (Fin.ofNat 1024 (16 + n.val)).val = 0x040 + 4 * n.val := by
    show 4 * ((16 + n.val) % 1024) = _
    omega
  have hw := busWrite_sem v n.isLt (hoff ▸ h)
  rw [← hoff] at hw
  refine ⟨fun hv => ?_, fun hv => ?_⟩
  · rw [exec_semTake]
    exact registerWrite_onDev h.elim.1 (hw.trans (by simp [Dev.semWrite, semCode, hv]))
  · rw [exec_semGive]
    exact registerWrite_onDev h.elim.1 (hw.trans (by simp [Dev.semWrite, semCode, hv]))

/-- SEM_FORCE (R54). -/
theorem registerWrite_semForce {s : State} (ag : Agent) (v : Word) (h : s.Takes ag 0x001 0x150) :
    exec (.registerWrite ag ⟨0x001, 0x150 / 4⟩ v 15) s =
      ends .done (exec (.semForce (Fin.ofNat 64 v.toNat) (BitVec.ofNat 8 (bits v 15 8))) s) := by
  rw [exec_semForce]
  have hgen : (BitVec.ofNat 8 (bits v 15 8)).toNat = bits v 15 8 := Nat.mod_eq_of_lt (Nat.mod_lt _ (by decide))
  rw [hgen]
  exact registerWrite_onDev h.elim.1
    (busWrite_word h (by decide) (by decide) rfl rfl ((Dev.Follows.refl _).semForce (Nat.mod_lt _ (by decide)) _))

/-- A camera's BUF_FREE (R95). -/
theorem registerWrite_bufFree {s : State} (ag : Agent) (v : Word) (n : Fin 8) (hn : 0x020 + n.val < 8192)
    (h : s.Takes ag (0x020 + n.val) 0x098) :
    exec (.registerWrite ag ⟨⟨0x020 + n.val, hn⟩, 0x098 / 4⟩ v 15) s = ends .done (exec (.bufFree ag n v) s) := by
  have hk : pageKind (0x020 + n.val) = .stream n.val := by
    have hall : ∀ n : Fin 8, pageKind (0x020 + n.val) = .stream n.val := by decide
    exact hall n
  have hpair : pairLo (.stream n.val) 0x098 = false ∧ pairHi (.stream n.val) 0x098 = false := by
    have hall : ∀ n : Fin 8, pairLo (.stream n.val) 0x098 = false ∧ pairHi (.stream n.val) 0x098 = false := by decide
    exact hall n
  rw [exec_bufFree]
  refine registerWrite_anyWrite h (hk ▸ hpair.1) (hk ▸ hpair.2) ?_ ?_ ((Dev.Follows.refl _).setReg _ _ _ (by decide))
  · show s.effectWrite ag (0x020 + n.val) 0x098 v = none
    simp only [State.effectWrite, hk]
  · show Dev.blockWrite ag (0x020 + n.val) 0x098 v (BitVec.allOnes 32) s.dev = _
    simp only [Dev.blockWrite, hk, n.isLt, decide_true, Bool.and_self, if_true, chanPage]

/-- FORCE, which needs no claim (R147). -/
theorem registerWrite_haltForce {s : State} (ag : Agent) (v : Word) (h : s.Takes ag 0x041 0x064) :
    exec (.registerWrite ag ⟨0x041, 0x064 / 4⟩ v 15) s = ends .done (exec (.haltForce ag v) s) := by
  have ⟨⟨hp, ha, _⟩, _⟩ := h
  rw [exec_haltForce]
  refine registerWrite_onState hp ?_
  rw [ha, if_neg (by decide)]
  exact busWrite_effect h (by decide) (by decide) rfl (follows_writeForce s v)

/-- The registers whose write is a command (R31, R52, R53, R67, R95, R133, R139, R144–R147). -/
theorem registerCommands_write {s : State} (ag : Agent) (v : Word) :
    ∀ c ∈ registerCommands ag v, s.Takes ag c.1.page.val (4 * c.1.word.val) →
      exec (.registerWrite ag c.1 v 15) s = ends .done (exec c.2 s) := by
  intro c hc h
  unfold registerCommands at hc
  simp only [List.mem_append, List.mem_cons, List.not_mem_nil, or_false] at hc
  obtain (((hc | hc | hc) | hc) | hc) | hc | hc | hc | hc | hc | hc | hc := hc
  case inl.inl.inl.inl =>
    obtain ⟨x, hx, hc⟩ := List.mem_flatMap.1 hc
    obtain ⟨n, -, rfl⟩ := List.mem_map.1 hx
    split_ifs at hc with h1 h2
    · obtain rfl := List.mem_singleton.1 hc
      exact (registerWrite_semaphore ag v n h).1 h1
    · obtain rfl := List.mem_singleton.1 hc
      exact (registerWrite_semaphore ag v n h).2 h2
    · exact absurd hc List.not_mem_nil
  case inl.inl.inl.inr.inl =>
    subst hc
    exact registerWrite_semForce ag v h
  case inl.inl.inl.inr.inr =>
    subst hc
    dsimp only at h ⊢
    exact registerWrite_anyWrite (f := Dev.writeHoPtr v) h (by decide) (by decide) rfl rfl ((Dev.Follows.refl _).writeHoPtr v)
  case inl.inl.inr =>
    split_ifs at hc with hb
    · obtain rfl := List.mem_singleton.1 hc
      dsimp only at h ⊢
      refine registerWrite_anyWrite (f := Dev.snapTake) h (by decide) (by decide) rfl ?_ (Dev.Follows.refl _).snapTake
      show (if bit v 0 then s.dev.snapTake else s.dev) = _
      rw [if_pos hb]
    · exact absurd hc List.not_mem_nil
  case inl.inr =>
    obtain ⟨n, -, rfl⟩ := List.mem_map.1 hc
    exact registerWrite_bufFree ag v n _ h
  case inr.inl =>
    subst hc
    dsimp only at h ⊢
    exact registerWrite_anyWrite (f := fun d => d.cliffRequests (bits v 7 0)) h (by decide) (by decide) rfl rfl
      ((Dev.Follows.refl _).cliffRequests _)
  case inr.inr.inl =>
    subst hc
    dsimp only at h ⊢
    exact registerWrite_anyWrite (f := fun d => d.guardSet (bits v 7 0)) h (by decide) (by decide) rfl rfl
      ((Dev.Follows.refl _).guardSet _)
  case inr.inr.inr.inl =>
    subst hc
    dsimp only at h ⊢
    exact registerWrite_haltWrite rfl h (by decide) (by decide) rfl (follows_writeArm s v)
  case inr.inr.inr.inr.inl =>
    subst hc
    dsimp only at h ⊢
    exact registerWrite_haltWrite rfl h (by decide) (by decide) rfl (follows_writeOutCmd s v)
  case inr.inr.inr.inr.inr.inl =>
    subst hc
    dsimp only at h ⊢
    exact registerWrite_haltWrite rfl h (by decide) (by decide) rfl (follows_writeHb s v)
  case inr.inr.inr.inr.inr.inr.inl =>
    subst hc
    dsimp only at h ⊢
    exact registerWrite_haltWrite rfl h (by decide) (by decide) rfl (follows_writeTripAck s v)
  case inr.inr.inr.inr.inr.inr.inr =>
    subst hc
    exact registerWrite_haltForce ag v h

end Sys2Proof.Machine
end

section
/-!
Reads of registers (R34–R36, R57), and requests to BAR0 (R33, R430).
-/
namespace Sys2Proof.Machine

theorem exec_registerReadClear (s : State) (ag : Agent) (p : Fin 8192) :
    exec (.registerReadClear ag p) s = onState (State.readReg ag p.val 0x020) s := rfl

theorem exec_pairLoRead (s : State) (ag : Agent) (r : RegAddr) :
    exec (.pairLoRead ag r) s = onState (State.readReg ag r.page.val (4 * r.word.val)) s := rfl

theorem exec_bar0Request (s : State) (q : Port) (a : BitVec 25) (r : Request) (b : Bool) :
    exec (.bar0Request q a r b) s = onState (State.bar0 q a.toNat r b) s := rfl

/-! ## Reads of one register -/

/-- A read of one register completes with what the bus reads. -/
theorem onState_readReg {s t : State} {a : Agent} {p off : Nat} {v : Word} (hp : s.Powered) (h : s.busRead a p off = (v, t)) :
    onState (State.readReg a p off) s = .next { t with dev := t.dev.answer (.data [v]) } := by
  rw [onState_of_powered hp, State.readReg, h]

theorem headerView_of_present {d : Dev} {p off : Nat} (ha : d.absentPage p = false) (h10 : off ≠ 0x010) (h28 : off ≠ 0x028) :
    d.headerView p off = d.reg p off := by
  rw [Dev.headerView, ha, if_neg (by decide), if_neg h10, if_neg h28]

/-- ERR_COUNT clears as it is read (R57). -/
theorem busRead_errCount {s : State} (a : Agent) {p : Nat} (hk : pageKind p ≠ .unassigned) (ha : s.dev.absentPage p = false) :
    s.busRead a p 0x020 = (s.dev.reg p 0x020, { s with dev := s.dev.setReg p 0x020 0 }) := by
  unfold State.busRead
  rw [if_neg hk, if_pos (by decide), headerView_of_present ha (by decide) (by decide)]
  simp only [ha, decide_true, Bool.not_false, Bool.and_self, if_true]

/-- A register of a block that answers is its block's to read. -/
theorem busRead_block {s : State} (a : Agent) {p off : Nat} (ha : s.dev.absentPage p = false) (hz : s.dev.asleep p = false)
    (hk : pageKind p ≠ .unassigned) (ho : 0x040 ≤ off) : s.busRead a p off = s.blockRead a p off := by
  unfold State.busRead
  rw [if_neg hk, if_neg (by omega), ha, if_neg (by decide), hz, if_neg (by decide)]

/-- An agent's latch of a register set to `v` (R34). -/
def Dev.latch (d : Dev) (a : Agent) (p off : Nat) (v : Option Word) : Dev :=
  { d with latched := Sparse.put (fun _ => none) d.latched (latchKey a p off) v }

theorem Dev.get_latch (d : Dev) (a : Agent) (p off : Nat) (v : Option Word) :
    Sparse.get (fun _ => none) (d.latch a p off v).latched (latchKey a p off) = v := Sparse.get_put_same _ _ _ _

/-- A read of a LO half latches the HI half for its agent (R34). -/
theorem blockRead_lo {s : State} (a : Agent) {p off : Nat} (he : s.dev.readEffect p off = none) (hi : (rowOf (pageKind p) off).hi ≠ 0) :
    s.blockRead a p off = (s.view a p off, { s with dev := s.dev.latch a p (off + 4) (some (s.view a p (off + 4))) }) := by
  simp only [State.blockRead, he, if_pos hi, Dev.latch]

/-- A latched register reads as latched, once. -/
theorem blockRead_latched {s : State} {a : Agent} {p off : Nat} {v : Word} (he : s.dev.readEffect p off = none)
    (hi : (rowOf (pageKind p) off).hi = 0) (hl : Sparse.get (fun _ => none) s.dev.latched (latchKey a p off) = some v) :
    s.blockRead a p off = (v, { s with dev := s.dev.latch a p off none }) := by
  simp only [State.blockRead, he, hi, ne_eq, not_true_eq_false, if_false, hl, Dev.latch]

/-- A plain read shows the register and changes nothing (R33). -/
theorem busRead_plain {s : State} {a : Agent} {p off : Nat} (h : s.ReadsPlain a p off) : s.busRead a p off = (s.view a p off, s) := by
  obtain ⟨hk, ha, h20, hb⟩ := h
  by_cases ho : off < 0x040
  · unfold State.busRead State.view
    simp only [if_neg hk, if_pos ho, h20, decide_false, Bool.false_and, Bool.false_eq_true, if_false]
  · obtain ⟨hz, he, hi, hl⟩ := hb (by omega)
    rw [busRead_block a ha hz hk (by omega)]
    simp only [State.blockRead, he, hi, ne_eq, not_true_eq_false, if_false, hl]

/-! ## Requests to BAR0 -/

/-- What the device does not support as a request of n bytes at an address (R430, R434). -/
theorem bar0_unsupported {s : State} {q : Port} {a : Nat} {req : Request} {n : Nat} (hu : s.dev.portUp q = true)
    (hn : req = .read n ∨ ∃ data es, req = .write data es ∧ data.length = n)
    (h : s.dev.flag q.page 0x040 12 = true ∨ 64 < n ∨ (n ≠ 0 ∧ a / 4096 ≠ (a + n - 1) / 4096)) :
    s.bar0 q a req false = { s with dev := s.dev.answer .unsupported } := by
  have hc : (s.dev.flag q.page 0x040 12 || 64 < n || (n ≠ 0 && a / 4096 ≠ (a + n - 1) / 4096)) = true := by
    simpa [or_assoc] using h
  unfold State.bar0
  obtain rfl | ⟨data, es, rfl, rfl⟩ := hn
  · simp only [hu, hc, Bool.not_true, Bool.false_eq_true, if_false, if_true]
  · simp only [hu, hc, Bool.not_true, Bool.false_eq_true, if_false, if_true]

section
variable {s : State} {q : Port} (ho : s.dev.Bar0Open q) {a : Nat}
include ho

theorem bar0_supports {n : Nat} (hn : n ≤ 64) (hc : n ≠ 0 → a / 4096 = (a + n - 1) / 4096) :
    (s.dev.flag q.page 0x040 12 || 64 < n || (n ≠ 0 && a / 4096 ≠ (a + n - 1) / 4096)) = false := by
  simpa [ho.2, hn] using hc

/-- A read of BAR0 completes with the words that it reads. -/
theorem bar0_read {n : Nat} (hn : n ≤ 64) (hc : n ≠ 0 → a / 4096 = (a + n - 1) / 4096) {vs : List Word} {t : State}
    (hr : s.bar0Read q.agent (a / 4) ((a + n + 3) / 4 - a / 4) = (vs, t)) :
    s.bar0 q a (.read n) false = { t with dev := t.dev.answer (.data vs) } := by
  unfold State.bar0
  simp only [ho.1, bar0_supports ho hn hc, hr, Bool.not_true, Bool.false_eq_true, if_false]

/-- A write of BAR0 writes its words in ascending order. -/
theorem bar0_write {data : List Byte} (es : List Bool) (hn : data.length ≤ 64)
    (hc : data.length ≠ 0 → a / 4096 = (a + data.length - 1) / 4096) {t : State}
    (hw : (List.range ((a + data.length + 3) / 4 - a / 4)).foldl (fun s i =>
        s.busWrite q.agent ((a / 4 + i) / 1024) (4 * ((a / 4 + i) % 1024))
          (wordOf (enabledBytes a data es) (a / 4 + i)).1 (wordOf (enabledBytes a data es) (a / 4 + i)).2) s = t) :
    s.bar0 q a (.write data es) false = { t with dev := t.dev.answer .done } := by
  unfold State.bar0
  simp only [ho.1, bar0_supports ho hn hc, hw, Bool.not_true, Bool.false_eq_true, if_false]

end

/-- Words of one page that all read plainly. -/
theorem bar0Read_plain {s : State} {a : Agent} {p : Nat} (w n : Nat)
    (h : ∀ i, i < n → (w + i) / 1024 = p ∧ s.ReadsPlain a p (4 * ((w + i) % 1024))) :
    s.bar0Read a w n = ((List.range n).map fun i => s.view a p (4 * ((w + i) % 1024)), s) := by
  induction n generalizing w with
  | zero => rfl
  | succ n ih =>
    obtain ⟨hp, hr⟩ := h 0 (by omega)
    rw [Nat.add_zero] at hp hr
    have hrest : ∀ i, i < n → (w + 1 + i) / 1024 = p ∧ s.ReadsPlain a p (4 * ((w + 1 + i) % 1024)) := fun i hi => by
      rw [show w + 1 + i = w + (i + 1) by omega]
      exact h (i + 1) (by omega)
    have hshift : (fun i => s.view a p (4 * ((w + 1 + i) % 1024))) = fun i => s.view a p (4 * ((w + (i + 1)) % 1024)) :=
      funext fun i => by rw [show w + 1 + i = w + (i + 1) by omega]
    simp only [State.bar0Read, hp, busRead_plain hr, ih (w + 1) hrest, hshift, List.range_succ_eq_map, List.map_cons, List.map_map,
      Nat.add_zero]
    rfl

/-- A BAR0 read of registers that read plainly (R33). -/
theorem bar0Request_read_plain {s : State} {q : Port} {a : BitVec 25} {n : Nat} {p : Fin 8192} (hp : s.Powered) (ho : s.dev.Bar0Open q)
    (hn : n ≤ 64) (hpage : a.toNat / 4096 = p.val) (hc : n ≠ 0 → (a.toNat + n - 1) / 4096 = p.val)
    (hr : ∀ i, i < (a.toNat + n + 3) / 4 - a.toNat / 4 → s.ReadsPlain q.agent p.val (a.toNat % 4096 / 4 * 4 + 4 * i)) :
    exec (.bar0Request q a (.read n) false) s = .next { s with dev := s.dev.answer (.data
      ((List.range ((a.toNat + n + 3) / 4 - a.toNat / 4)).map fun i => s.view q.agent p.val (a.toNat % 4096 / 4 * 4 + 4 * i))) } := by
  rw [exec_bar0Request, onState_of_powered hp]
  generalize a.toNat = x at *
  have hlast : (x + n + 3) / 4 - x / 4 = 0 ∨ (x + n - 1) / 4096 = p.val := by
    by_cases h0 : n = 0
    · subst h0
      omega
    · exact .inr (hc h0)
  have hword : ∀ i, i < (x + n + 3) / 4 - x / 4 →
      (x / 4 + i) / 1024 = p.val ∧ 4 * ((x / 4 + i) % 1024) = x % 4096 / 4 * 4 + 4 * i := by
    intro i hi
    omega
  have hread := bar0Read_plain (s := s) (a := q.agent) (p := p.val) (x / 4) ((x + n + 3) / 4 - x / 4) fun i hi =>
    ⟨(hword i hi).1, (hword i hi).2 ▸ hr i hi⟩
  have hmap : ((List.range ((x + n + 3) / 4 - x / 4)).map fun i => s.view q.agent p.val (4 * ((x / 4 + i) % 1024))) =
      (List.range ((x + n + 3) / 4 - x / 4)).map fun i => s.view q.agent p.val (x % 4096 / 4 * 4 + 4 * i) :=
    List.map_congr_left fun i hi => by rw [(hword i (List.mem_range.1 hi)).2]
  rw [bar0_read ho hn (fun h0 => hpage.trans (hc h0).symm) hread, hmap]

/-- A BAR0 read of one aligned word is a read of that register (R33). -/
theorem bar0Request_read_word {s : State} {q : Port} {a : BitVec 25} {r : RegAddr} (hp : s.Powered) (ho : s.dev.Bar0Open q)
    (ha : a.toNat = r.page.val * 4096 + 4 * r.word.val) :
    exec (.bar0Request q a (.read 4) false) s = onState (State.readReg q.agent r.page.val (4 * r.word.val)) s := by
  have hw := r.word.isLt
  have hread : s.bar0Read q.agent (a.toNat / 4) ((a.toNat + 4 + 3) / 4 - a.toNat / 4) =
      ([(s.busRead q.agent r.page.val (4 * r.word.val)).1], (s.busRead q.agent r.page.val (4 * r.word.val)).2) := by
    rw [show (a.toNat + 4 + 3) / 4 - a.toNat / 4 = 0 + 1 by omega, State.bar0Read, show a.toNat / 4 / 1024 = r.page.val by omega,
      show a.toNat / 4 % 1024 = r.word.val by omega]
    rfl
  rw [exec_bar0Request, onState_of_powered hp, bar0_read ho (by decide) (fun _ => by omega) hread,
    onState_readReg hp (Prod.mk.eta (p := s.busRead q.agent r.page.val (4 * r.word.val))).symm]

/-- A BAR0 write completes once its words are written, in ascending order (R33). -/
theorem bar0Request_write {s : State} {q : Port} {a : BitVec 25} {data : List Byte} (es : List Bool) (hp : s.Powered)
    (ho : s.dev.Bar0Open q) (hn : data.length ≤ 64) (hc : data ≠ [] → a.toNat / 4096 = (a.toNat + data.length - 1) / 4096) :
    exec (.bar0Request q a (.write data es) false) s = ends .done (.next
      ((List.range ((a.toNat + data.length + 3) / 4 - a.toNat / 4)).foldl (fun s i =>
        s.busWrite q.agent ((a.toNat / 4 + i) / 1024) (4 * ((a.toNat / 4 + i) % 1024))
          (wordOf (enabledBytes a.toNat data es) (a.toNat / 4 + i)).1 (wordOf (enabledBytes a.toNat data es) (a.toNat / 4 + i)).2) s)) := by
  rw [exec_bar0Request, onState_of_powered hp, bar0_write ho es hn (fun h0 => hc (List.ne_nil_of_length_pos (Nat.pos_of_ne_zero h0))) rfl]
  rfl

/-- One within a word writes that register (R33). -/
theorem bar0Request_write_word {s : State} {q : Port} {a : BitVec 25} {r : RegAddr} {data : List Byte} (es : List Bool) (hp : s.Powered)
    (ho : s.dev.Bar0Open q) (ha : a.toNat / 4 = 1024 * r.page.val + r.word.val) (hd : data ≠ []) (hn : a.toNat % 4 + data.length ≤ 4) :
    exec (.bar0Request q a (.write data es) false) s =
      exec (.registerWrite q.agent r (wordOf (enabledBytes a.toNat data es) (a.toNat / 4)).1
        (wordOf (enabledBytes a.toNat data es) (a.toNat / 4)).2) s := by
  have hw := r.word.isLt
  have hpos := List.length_pos_of_ne_nil hd
  rw [bar0Request_write es hp ho (by omega) (fun _ => by omega), exec_registerWrite, onState_writeReg hp rfl,
    show (a.toNat + data.length + 3) / 4 - a.toNat / 4 = 1 by omega]
  simp only [List.range_one, List.foldl_cons, List.foldl_nil, Nat.add_zero, show a.toNat / 4 / 1024 = r.page.val by omega,
    show a.toNat / 4 % 1024 = r.word.val by omega]
  rfl

/-! ## The commands (R34, R57) -/

/-- REGISTER_READ_CLEAR (R57). -/
theorem registerReadClear_clears {s : State} (ag : Agent) {p : Fin 8192} (hp : s.Powered) (hk : pageKind p.val ≠ .unassigned)
    (ha : s.dev.absentPage p.val = false) :
    ∃ t, exec (.registerReadClear ag p) s = .next t ∧ t.dev.bus = .data [s.dev.reg p.val 0x020] ∧ t.dev.reg p.val 0x020 = 0 ∧
      ∀ q o : Nat, o < 4096 → (q ≠ p.val ∨ o ≠ 0x020) → t.dev.reg q o = s.dev.reg q o := by
  rw [exec_registerReadClear, onState_readReg hp (busRead_errCount ag hk ha)]
  exact ⟨_, rfl, rfl, Dev.reg_setReg_same s.dev _ _ _, fun q o ho hq => Dev.reg_setReg_other s.dev _ _ _ _ _ hq ho (by decide)⟩

/-- PAIR_LO_READ of a LO half (R34). -/
theorem pairLoRead_latches {s : State} (ag : Agent) {r : RegAddr} (hr : s.Reaches r.page.val) (hk : pageKind r.page.val ≠ .unassigned)
    (ho : 0x040 ≤ 4 * r.word.val) (he : s.dev.readEffect r.page.val (4 * r.word.val) = none)
    (hi : (rowOf (pageKind r.page.val) (4 * r.word.val)).hi ≠ 0) :
    ∃ t, exec (.pairLoRead ag r) s = .next t ∧ t.dev.bus = .data [s.view ag r.page.val (4 * r.word.val)] ∧
      Sparse.get (fun _ => none) t.dev.latched (latchKey ag r.page.val (4 * r.word.val + 4)) =
        some (s.view ag r.page.val (4 * r.word.val + 4)) ∧
      t = { s with dev := { s.dev with latched := t.dev.latched, bus := t.dev.bus } } := by
  obtain ⟨hp, ha, hz⟩ := hr
  rw [exec_pairLoRead, onState_readReg hp ((busRead_block ag ha hz hk ho).trans (blockRead_lo ag he hi))]
  exact ⟨_, rfl, rfl, Dev.get_latch s.dev ag r.page.val _ (some (s.view ag r.page.val (4 * r.word.val + 4))), rfl⟩

/-- PAIR_LO_READ of a register that is latched (R34). -/
theorem pairLoRead_latched {s : State} {ag : Agent} {r : RegAddr} {v : Word} (hr : s.Reaches r.page.val)
    (hk : pageKind r.page.val ≠ .unassigned) (ho : 0x040 ≤ 4 * r.word.val)
    (he : s.dev.readEffect r.page.val (4 * r.word.val) = none) (hi : (rowOf (pageKind r.page.val) (4 * r.word.val)).hi = 0)
    (hl : Sparse.get (fun _ => none) s.dev.latched (latchKey ag r.page.val (4 * r.word.val)) = some v) :
    ∃ t, exec (.pairLoRead ag r) s = .next t ∧ t.dev.bus = .data [v] ∧
      Sparse.get (fun _ => none) t.dev.latched (latchKey ag r.page.val (4 * r.word.val)) = none := by
  obtain ⟨hp, ha, hz⟩ := hr
  rw [exec_pairLoRead, onState_readReg hp ((busRead_block ag ha hz hk ho).trans (blockRead_latched he hi hl))]
  exact ⟨_, rfl, rfl, Dev.get_latch s.dev ag _ (4 * r.word.val) none⟩

end Sys2Proof.Machine
end

section
/-!
Writes of pairs (R34): what the LO half stages, what the HI half commits, and the pairs whose commit does more (R66, R78, R108, R281).
-/
namespace Sys2Proof.Machine

/-! ## The LO half -/

theorem agentReg_setAgentReg (d : Dev) (a : Agent) (p off : Nat) (v : Word) : (d.setAgentReg a p off v).agentReg a p off = v :=
  Sparse.get_put_same _ _ _ _

theorem busWrite_pairLo {s : State} {a : Agent} {p off : Nat} (v : Word) (h : s.Takes a p off) (hl : pairLo (pageKind p) off = true) :
    s.busWrite a p off v 15 = { s with dev := s.dev.setAgentReg a p off v } := by
  have ⟨hr, hk, ho, _⟩ := h
  exact busWrite_block hr hk (by decide) ho (blockWrite_pairLo h hl) ((Dev.Follows.refl _).fields (by rfl))

/-! ## The HI half -/

theorem busWrite_pairHi {s : State} {a : Agent} {p off : Nat} {v : Word} {e : Dev} (h : s.Takes a p off)
    (hh : pairHi (pageKind p) off = true) (he : Dev.pairWrite a p off v s.dev = e) (hf : s.dev.Follows e) :
    s.busWrite a p off v 15 = { s with dev := e } := by
  have ⟨hr, hk, ho, _⟩ := h
  exact busWrite_block hr hk (by decide) ho ((blockWrite_pairHi h hh).trans (by rw [he])) hf

/-- Both halves of a pair set. -/
def Dev.storePair (a : Agent) (p off : Nat) (v : Word) (d : Dev) : Dev :=
  (d.storeReg p (off - 4) (d.agentReg a p (off - 4))).storeReg p off v

theorem Dev.Follows.storePair {d e : Dev} (h : d.Follows e) (a : Agent) (p off : Nat) (v : Word) (ho : 0x014 < off ∧ off < 4096) :
    d.Follows (e.storePair a p off v) := (h.storeReg _ _ _ (by omega)).storeReg _ _ _ (by omega)

/-- A commit that does nothing else sets both halves. -/
theorem pairWrite_of_plain {p off : Nat} (a : Agent) (v : Word) (d : Dev) (hc : pairCommits (pageKind p) off = false) :
    Dev.pairWrite a p off v d = d.storePair a p off v := by
  unfold Dev.pairWrite Dev.storePair
  simp only
  split
  · next hk =>
    have hn : ¬ off % 0x40 = 0x1C := by simpa [pairCommits, hk] using hc
    rw [if_neg hn]
  · next hk => exact absurd hc (by simp [pairCommits, hk])
  · next n hk =>
    have hn : ¬ (22 ≤ n && off = 0x084) = true := by simpa [pairCommits, hk] using hc
    rw [if_neg hn]
  · next hk => exact absurd hc (by simp [pairCommits, hk])
  · rfl

/-- A LO half stores all of its bits. -/
theorem storeReg_lo {p off : Nat} (d : Dev) (v : Word) (hl : pairLo (pageKind p) off = true) : (Dev.storeReg p off v d).reg p off = v := by
  have hr := rowOf_regular (pageKind p) off
  simp only [RegRow.regular, Bool.and_eq_true, Bool.or_eq_true, beq_iff_eq] at hr
  simp only [pairLo, Bool.and_eq_true, Bool.or_eq_true, bne_iff_ne] at hl
  obtain ⟨⟨-, hc⟩, hs⟩ := hr
  obtain ⟨hhi, hst⟩ := hl
  have hs : (rowOf (pageKind p) off).rw ||| (rowOf (pageKind p) off).rwl = full := by grind
  have hc : (rowOf (pageKind p) off).w1c = 0 := by grind
  unfold Dev.storeReg storedBits
  simp only [Dev.reg_setReg_same, hs, hc]
  rw [show BitVec.ofNat 32 full = BitVec.allOnes 32 by decide]
  simp only [BitVec.not_allOnes, BitVec.and_zero, BitVec.and_allOnes, BitVec.zero_or, BitVec.not_zero]

/-- What both halves then hold, -/
theorem reg_storePair {p off : Nat} (a : Agent) (v : Word) (d : Dev) (hh : pairHi (pageKind p) off = true) (ho : off < 4096) :
    (d.storePair a p off v).reg p off = fieldsWritten (pageKind p) off (d.reg p off) v 15 ∧
      (d.storePair a p off v).reg p (off - 4) = d.agentReg a p (off - 4) := by
  have hh' := hh
  simp only [pairHi, Bool.and_eq_true, decide_eq_true_eq] at hh'
  obtain ⟨h4, hl⟩ := hh'
  unfold Dev.storePair
  refine ⟨?_, ?_⟩
  · have hold : (d.storeReg p (off - 4) (d.agentReg a p (off - 4))).reg p off = d.reg p off :=
      reg_storeReg_other _ _ _ _ _ _ (.inr (by omega)) ho (by omega)
    generalize d.storeReg p (off - 4) (d.agentReg a p (off - 4)) = x at hold ⊢
    unfold Dev.storeReg fieldsWritten
    simp only [Dev.reg_setReg_same, hold, byteMask_all, BitVec.and_allOnes]
  · rw [reg_storeReg_other _ _ _ _ _ _ (.inr (by omega)) (by omega) ho, storeReg_lo _ _ hl]

/-- and what the other registers do. -/
theorem reg_storePair_other {p off q o : Nat} (a : Agent) (v : Word) (d : Dev) (hq : q ≠ p ∨ (o ≠ off ∧ o ≠ off - 4)) (ho : o < 4096)
    (hf : off < 4096) : (d.storePair a p off v).reg q o = d.reg q o := by
  unfold Dev.storePair
  rw [reg_storeReg_other _ _ _ _ _ _ (by omega) ho hf, reg_storeReg_other _ _ _ _ _ _ (by omega) ho (by omega)]

/-! ## The commands PAIR_LO_WRITE and PAIR_HI_WRITE -/

theorem pairLoWrite_stages {s : State} (ag : Agent) {r : RegAddr} (v : Word) (h : s.Takes ag r.page.val (4 * r.word.val))
    (hl : pairLo (pageKind r.page.val) (4 * r.word.val) = true) :
    ∃ t, exec (.pairLoWrite ag r v) s = .next t ∧ t.dev.bus = .done ∧ t.dev.agentReg ag r.page.val (4 * r.word.val) = v ∧
      t.dev.regs = s.dev.regs := by
  rw [exec_pairLoWrite, onState_writeReg h.elim.1 (busWrite_pairLo v h hl)]
  exact ⟨_, rfl, rfl, agentReg_setAgentReg s.dev ag r.page.val (4 * r.word.val) v, rfl⟩

/-- PAIR_HI_WRITE, by what the commit makes of the device. -/
theorem pairHiWrite_commits {s : State} {ag : Agent} {r : RegAddr} {v : Word} {e : Dev} (h : s.Takes ag r.page.val (4 * r.word.val))
    (hh : pairHi (pageKind r.page.val) (4 * r.word.val) = true) (he : Dev.pairWrite ag r.page.val (4 * r.word.val) v s.dev = e)
    (hf : s.dev.Follows e) : exec (.pairHiWrite ag r v) s = .next { s with dev := e.answer .done } := by
  rw [exec_pairHiWrite, onState_writeReg h.elim.1 (busWrite_pairHi h hh he hf)]

theorem pairHiWrite_plain {s : State} (ag : Agent) {r : RegAddr} (v : Word) (h : s.Takes ag r.page.val (4 * r.word.val))
    (hh : pairHi (pageKind r.page.val) (4 * r.word.val) = true) (hc : pairCommits (pageKind r.page.val) (4 * r.word.val) = false) :
    ∃ t, exec (.pairHiWrite ag r v) s = .next t ∧ t.dev.bus = .done ∧
      t.dev.reg r.page.val (4 * r.word.val) =
        fieldsWritten (pageKind r.page.val) (4 * r.word.val) (s.dev.reg r.page.val (4 * r.word.val)) v 15 ∧
      t.dev.reg r.page.val (4 * r.word.val - 4) = s.dev.agentReg ag r.page.val (4 * r.word.val - 4) ∧
      ∀ q o : Nat, o < 4096 → (q ≠ r.page.val ∨ (o ≠ 4 * r.word.val ∧ o ≠ 4 * r.word.val - 4)) → t.dev.reg q o = s.dev.reg q o := by
  have ho : 0x040 ≤ 4 * r.word.val := h.2.2.1
  have hw := r.word.isLt
  have hboth := reg_storePair ag v s.dev hh (by omega)
  have hrest : ∀ q o : Nat, o < 4096 → (q ≠ r.page.val ∨ (o ≠ 4 * r.word.val ∧ o ≠ 4 * r.word.val - 4)) →
      (s.dev.storePair ag r.page.val (4 * r.word.val) v).reg q o = s.dev.reg q o :=
    fun q o hlt hq => reg_storePair_other ag v s.dev hq hlt (by omega)
  rw [pairHiWrite_commits h hh (pairWrite_of_plain ag v s.dev hc) ((Dev.Follows.refl _).storePair _ _ _ _ (by omega))]
  generalize s.dev.storePair ag r.page.val (4 * r.word.val) v = e at hboth hrest
  exact ⟨_, rfl, rfl, hboth.1, hboth.2, hrest⟩

end Sys2Proof.Machine
end

section
/-!
The pairs whose commit does more than set both halves: POS, TGT, a push, and LEND_EN (R66, R78, R108, R281).
-/
namespace Sys2Proof.Machine

/-- A register that its block does not refuse takes a write of the page's holder. -/
theorem State.Admits.takes {s : State} {a : Agent} {p off : Nat} (h : s.Admits a p) (hk : pageKind p ≠ .unassigned)
    (ht : pageKind p ≠ .streamTable) (ho : 0x040 ≤ off) (hr : s.dev.writeRefused p off = none) : s.Takes a p off := by
  obtain ⟨hreach, hc⟩ := h
  refine ⟨hreach, hk, ho, ?_, hr, .inr hc⟩
  simp [implemented, ht]

/-- PAIR_HI_WRITE where the commit is a command of the page's holder. -/
theorem pairHiWrite_rwlWrite {s : State} {ag : Agent} {p : Nat} {r : RegAddr} {v : Word} {f : Dev → Dev} (hr : r.page.val = p)
    (hadm : s.Admits ag p) (h : s.Takes ag p (4 * r.word.val)) (hh : pairHi (pageKind p) (4 * r.word.val) = true)
    (he : Dev.pairWrite ag p (4 * r.word.val) v s.dev = f s.dev) (hf : s.dev.Follows (f s.dev)) :
    exec (.pairHiWrite ag r v) s = ends .done (onDev (Dev.rwlWrite ag p f) s) := by
  subst hr
  rw [pairHiWrite_commits h hh he hf, onDev_of_powered h.elim.1, rwlWrite_of_admits hadm]
  rfl

/-! ## POS (R66) -/

theorem pageKind_reel (k : Fin 8) : pageKind (0x019 + k.val / 4) = .reelChannels := by
  revert k
  decide

theorem pairHi_pos (k : Fin 8) : pairHi .reelChannels (0x040 + 0x40 * (k.val % 4) + 0x1C) = true := by
  revert k
  decide

/-- A pair of 48 bits reads as it was set. -/
theorem Dev.pair48_setPair48 (d : Dev) {p off v : Nat} (hv : v < 2 ^ 48) : (d.setPair48 p off v).pair48 p off = v := by
  unfold setPair48 pair48
  rw [field_setReg, if_pos rfl, reg_setReg, if_neg (by omega), reg_setReg_same]
  simp only [bits, BitVec.toNat_ofNat, Nat.shiftRight_zero]
  omega

theorem Dev.reelPos_writePos (d : Dev) (k : Fin 8) {v : Nat} (hv : v < 2 ^ 48) :
    (d.writePos k.val v).reelPos k.val = if d.rstate k.val = 0 then v else d.reelPos k.val := by
  unfold writePos
  split
  · exact Dev.pair48_setPair48 d hv
  · have herr := err_onlyRegs d (reelReg k.val 0).1 (12 + k.val % 4)
    have hreg : ∀ o, (reelReg k.val 0x18).2 ≤ o → o ≤ (reelReg k.val 0x18).2 + 4 →
        (d.err (reelReg k.val 0).1 (12 + k.val % 4)).reg (reelReg k.val 0x18).1 o = d.reg (reelReg k.val 0x18).1 o := by
      have hk := k.isLt
      unfold reelReg at herr ⊢
      intro o hlo hhi
      refine herr _ _ (by omega) ?_
      simp only [errRegs, eventRegs, List.cons_append, List.nil_append, List.mem_cons, Prod.ext_iff, List.not_mem_nil, or_false]
      omega
    unfold reelPos pair48 field rerr
    rw [hreg _ (by omega) (by omega), hreg _ (by omega) (by omega)]

theorem Dev.Follows.writePos {d e : Dev} (h : d.Follows e) (k v : Nat) : d.Follows (e.writePos k v) := by
  refine .ite _ ?_ (h.err _ _)
  exact (h.setPair48 (reelReg k 0x18).1 (reelReg k 0x18).2 v (by unfold reelReg; simp only; omega)).fields (by rfl)

/-- The HI half of POS (R66). -/
theorem pairHiWrite_pos {s : State} {ag : Agent} {k : Fin 8} {r : RegAddr} (v : Word) (hadm : s.Admits ag (reelReg k.val 0).1)
    (hr : (r.page.val, 4 * r.word.val) = reelReg k.val 0x1C) :
    ∃ t, exec (.pairHiWrite ag r v) s = .next t ∧ t.dev.bus = .done ∧ t.dev.reelPos k.val =
      if s.dev.rstate k.val = 0 then (s.dev.agentReg ag r.page.val (4 * r.word.val - 4)).toNat + bits v 15 0 * 2 ^ 32
      else s.dev.reelPos k.val := by
  have hp : r.page.val = 0x019 + k.val / 4 := congrArg (·.1) hr
  have ho : 4 * r.word.val = 0x040 + 0x40 * (k.val % 4) + 0x1C := congrArg (·.2) hr
  have hk : pageKind r.page.val = .reelChannels := hp ▸ pageKind_reel k
  have hh : pairHi (pageKind r.page.val) (4 * r.word.val) = true := by rw [hk, ho, pairHi_pos]
  have htakes : s.Takes ag r.page.val (4 * r.word.val) :=
    State.Admits.takes (show s.Admits ag r.page.val from hp ▸ hadm) (by simp [hk]) (by simp [hk]) (by omega) (by simp [Dev.writeRefused, hk])
  have hcommit : Dev.pairWrite ag r.page.val (4 * r.word.val) v s.dev =
      s.dev.writePos k.val ((s.dev.agentReg ag r.page.val (4 * r.word.val - 4)).toNat + bits v 15 0 * 2 ^ 32) := by
    have hlt := k.isLt
    unfold Dev.pairWrite
    simp only [hk]
    rw [if_pos (by omega), show 4 * (r.page.val - 0x019) + (4 * r.word.val - 0x040) / 0x40 = k.val by omega]
  have hval : (s.dev.agentReg ag r.page.val (4 * r.word.val - 4)).toNat + bits v 15 0 * 2 ^ 32 < 2 ^ 48 := by
    have h1 := (s.dev.agentReg ag r.page.val (4 * r.word.val - 4)).isLt
    have h2 : bits v 15 0 < 2 ^ 16 := Nat.mod_lt _ (by decide)
    omega
  rw [pairHiWrite_commits htakes hh hcommit ((Dev.Follows.refl _).writePos _ _)]
  exact ⟨_, rfl, rfl, Dev.reelPos_writePos s.dev k hval⟩

/-! ## TGT (R78) -/

theorem pairHi_tgt (m : Fin 32) : pairHi .reelMarks (Dev.markBase m.val + 8) = true := by
  revert m
  decide

/-- Registers of the MARK page do not move a channel of Reel. -/
theorem Dev.reelStale_setReg (d : Dev) {k : Nat} (off : Nat) (v : Word) (hk : k < 8) (ho : off < 4096) :
    (d.setReg 0x01B off v).reelStale k = d.reelStale k := by
  have hreg : ∀ o, o < 0x40 → (d.setReg 0x01B off v).reg (reelReg k o).1 (reelReg k o).2 = d.reg (reelReg k o).1 (reelReg k o).2 :=
    fun o hlt => Dev.reg_setReg_other _ _ _ _ _ _ (.inl (by unfold reelReg; simp only; omega)) (by unfold reelReg; simp only; omega) ho
  simp only [reelStale, rstate, field, hreg 0x14 (by decide), hreg 8 (by decide)]

namespace Dev

theorem markBase_offset {m : Nat} (hm : m < 32) : 0x010 < markBase m ∧ markBase m + 8 < 4096 := by
  unfold markBase
  omega

/-- MARK m armed for target x (R78). -/
def armTgt (d : Dev) (m x : Nat) : Dev :=
  ((d.setPair48 0x01B (markBase m + 4) x).setFlag 0x01B (markBase m) 0 true).setArmed m d.now

theorem mfield_setTgt (d : Dev) {m : Nat} (x : Nat) (hm : m < 32) :
    (d.setPair48 0x01B (markBase m + 4) x).mfield m 0 3 1 = d.mfield m 0 3 1 := by
  have hbase := markBase_offset hm
  unfold mfield field setPair48
  rw [reg_setReg_other _ _ _ _ _ _ (.inr (by omega)) (by omega) (by omega),
    reg_setReg_other _ _ _ _ _ _ (.inr (by omega)) (by omega) (by omega)]

theorem now_setPair48 (d : Dev) (p off x : Nat) : (d.setPair48 p off x).now = d.now := rfl

theorem reelStale_setArmed (d : Dev) (m t k : Nat) : (d.setArmed m t).reelStale k = d.reelStale k := rfl

theorem reelStale_armTgt (d : Dev) {m k : Nat} (x : Nat) (hm : m < 32) (hk : k < 8) : (d.armTgt m x).reelStale k = d.reelStale k := by
  have hbase := markBase_offset hm
  rw [armTgt, reelStale_setArmed, setFlag, reelStale_setReg _ _ _ hk (by omega), setPair48, reelStale_setReg _ _ _ hk (by omega),
    reelStale_setReg _ _ _ hk (by omega)]

theorem Follows.armTgt {d e : Dev} (h : d.Follows e) {m : Nat} (x : Nat) (hm : m < 32) : d.Follows (e.armTgt m x) := by
  have hbase := markBase_offset hm
  have hset : d.Follows ((e.setPair48 0x01B (markBase m + 4) x).setFlag 0x01B (markBase m) 0 true) :=
    (h.setPair48 _ _ _ (by omega)).setFlag _ _ _ _ (by omega)
  exact hset.fields (by rfl)

/-- No MARK of a channel without a valid position fires (R65). -/
theorem checkMarks_of_stale {d : Dev} {k : Nat} (h : d.reelStale k = true) : d.checkMarks k = d := by
  simp [checkMarks, rmoves, h]

/-- A TGT whose channel has no valid position arms its MARK. -/
theorem writeTgt_of_stale {d : Dev} {m : Nat} (lo hi : Word) (hm : m < 32) (ho : d.markOwner m = none)
    (hs : d.reelStale (d.mfield m 0 3 1) = true) : d.writeTgt m lo hi = d.armTgt m (lo.toNat + bits hi 15 0 * 2 ^ 32) := by
  have hk : d.mfield m 0 3 1 < 8 := Nat.mod_lt _ (by decide)
  unfold writeTgt
  rw [ho]
  dsimp only
  generalize lo.toNat + bits hi 15 0 * 2 ^ 32 = x
  rw [mfield_setTgt d x hm, now_setPair48, ← armTgt]
  exact checkMarks_of_stale ((reelStale_armTgt d x hm hk).trans hs)

end Dev

/-- The HI half of a TGT is MARK_ARM. -/
theorem pairHiWrite_tgt {s : State} {ag : Agent} {m : Fin 32} {r : RegAddr} (v : Word) (hadm : s.Admits ag 0x01B)
    (hr : r.page.val = 0x01B) (ho : 4 * r.word.val = Dev.markBase m.val + 8) (hown : s.dev.markOwner m.val = none)
    (hs : s.dev.reelStale (s.dev.mfield m.val 0 3 1) = true) :
    exec (.pairHiWrite ag r v) s = ends .done (exec (.markArm ag m (.target v)) s) := by
  have hlt := m.isLt
  have hidx : (Dev.markBase m.val + 8 - 0x040) / 0x20 = m.val := by
    unfold Dev.markBase
    omega
  have htakes : s.Takes ag 0x01B (4 * r.word.val) :=
    State.Admits.takes hadm (by decide) (by decide) (by unfold Dev.markBase at ho; omega)
      (by simp only [Dev.writeRefused, show pageKind 0x01B = .reelMarks from rfl, ho, hidx, hown, Option.isSome_none, Bool.and_false,
        Bool.false_and, Bool.false_eq_true, if_false])
  refine pairHiWrite_rwlWrite hr hadm htakes (ho ▸ pairHi_tgt m) ?_ ?_
  · show s.dev.writeTgt ((4 * r.word.val - 0x040) / 0x20) (s.dev.agentReg ag 0x01B (4 * r.word.val - 4)) v = _
    rw [ho, hidx, show Dev.markBase m.val + 8 - 4 = Dev.markBase m.val + 4 by omega]
  · show s.dev.Follows (s.dev.writeTgt m.val (s.dev.agentReg ag 0x01B (Dev.markBase m.val + 4)) v)
    rw [Dev.writeTgt_of_stale _ _ hlt hown hs]
    exact (Dev.Follows.refl _).armTgt _ hlt

/-! ## LEND_EN (R281) -/

theorem Dev.reclaimTiles_of_unlent {d : Dev} (p : Nat → Bool) (h : ∀ n, n < 64 → d.lent n = false) : d.reclaimTiles p = d :=
  forEach_keeps (P := fun x => x = d) (fun n hn x hx => by
    have hn : n < 64 := List.mem_range.1 (List.mem_filter.1 hn).1
    subst hx
    simp [Dev.reclaimTile, h n hn]) d rfl

/-- The HI half of LEND_EN with no tile lent. -/
theorem pairHiWrite_lendEn {s : State} {ag : Agent} (v : Word) (hadm : s.Admits ag 0x0D4) (hl : ∀ n, n < 64 → s.dev.lent n = false) :
    ∃ t, exec (.pairHiWrite ag ⟨0x0D4, 0x044 / 4⟩ v) s = .next t ∧ t.dev.bus = .done ∧ t.dev.reg 0x0D4 0x044 = v ∧
      t.dev.reg 0x0D4 0x040 = s.dev.agentReg ag 0x0D4 0x040 := by
  have hh : pairHi (pageKind 0x0D4) 0x044 = true := by decide
  have htakes : s.Takes ag 0x0D4 0x044 := State.Admits.takes hadm (by decide) (by decide) (by decide) rfl
  have hcommit : Dev.pairWrite ag 0x0D4 0x044 v s.dev = s.dev.storePair ag 0x0D4 0x044 v := by
    show (s.dev.storePair ag 0x0D4 0x044 v).lendWritten = _
    refine Dev.reclaimTiles_of_unlent _ fun n hn => ?_
    rw [← hl n hn]
    unfold Dev.lent Dev.flag
    rw [reg_storePair_other _ _ _ (.inl (by omega)) (by decide) (by decide)]
  have hfull : ∀ old : Word, fieldsWritten (pageKind 0x0D4) 0x044 old v 15 = v := fun old => by
    unfold fieldsWritten
    rw [show storedBits (pageKind 0x0D4) 0x044 = BitVec.allOnes 32 by decide, show (rowOf (pageKind 0x0D4) 0x044).w1c = 0 by decide,
      byteMask_all]
    simp only [BitVec.and_allOnes, BitVec.not_allOnes, BitVec.and_zero, BitVec.zero_or, BitVec.not_zero]
  obtain ⟨hhi, hlo⟩ := reg_storePair ag v s.dev hh (by decide)
  rw [hfull] at hhi
  have hf : s.dev.Follows (s.dev.storePair ag 0x0D4 0x044 v) := (Dev.Follows.refl _).storePair _ _ _ _ (by decide)
  generalize s.dev.storePair ag 0x0D4 0x044 v = e at hhi hlo hcommit hf
  exact ⟨_, pairHiWrite_commits (r := ⟨0x0D4, 0x044 / 4⟩) htakes hh hcommit hf, rfl, hhi, hlo⟩

/-! ## A push (R108) -/

/-- The HI half of a general channel's value is GEN_PUSH. -/
theorem pairHiWrite_genPush {s : State} {ag : Agent} {k : Fin 2} {r : RegAddr} (v : Word) (hadm : s.Admits ag (chanPage (22 + k.val)))
    (hr : r.page.val = chanPage (22 + k.val)) (ho : 4 * r.word.val = 0x084) :
    exec (.pairHiWrite ag r v) s = ends .done (exec (.genPush ag k v) s) := by
  have hk : pageKind (chanPage (22 + k.val)) = .stream (22 + k.val) := by
    have hall : ∀ k : Fin 2, pageKind (chanPage (22 + k.val)) = .stream (22 + k.val) := by decide
    exact hall k
  have hh : pairHi (.stream (22 + k.val)) 0x084 = true := by
    have hall : ∀ k : Fin 2, pairHi (.stream (22 + k.val)) 0x084 = true := by decide
    exact hall k
  have htakes : s.Takes ag (chanPage (22 + k.val)) (4 * r.word.val) :=
    State.Admits.takes hadm (by simp [hk]) (by simp [hk]) (by omega) (by simp [Dev.writeRefused, hk, ho])
  refine pairHiWrite_rwlWrite hr hadm htakes (by rw [hk, ho, hh]) ?_ ((Dev.Follows.refl _).genPush _ k.isLt _ _)
  unfold Dev.pairWrite
  simp only [hk, ho]
  simp

end Sys2Proof.Machine
end

section
/-!
Writes and reads of registers (R5, R33–R36, R48, R50, R57).
-/
namespace Sys2Proof.Machine

/-- REGISTER_WRITE, by what the bus makes of the state. -/
theorem registerWrite_completes {s t : State} {ag : Agent} {r : RegAddr} {v : Word} {be : BitVec 4} (hp : s.Powered)
    (h : s.busWrite ag r.page.val (4 * r.word.val) v be = t) :
    exec (.registerWrite ag r v be) s = .next { t with dev := t.dev.answer .done } := by
  rw [exec_registerWrite, onState_writeReg hp h]

/-- A register that only stores, written (R5, R33). -/
theorem registerWrite_storesOnly {s : State} {ag : Agent} {r : RegAddr} (v : Word) (be : BitVec 4)
    (h : s.Takes ag r.page.val (4 * r.word.val)) (hs : storesOnly r.page.val (4 * r.word.val) = true) :
    ∃ t, exec (.registerWrite ag r v be) s = .next t ∧ t.dev.bus = .done ∧
      t.dev.reg r.page.val (4 * r.word.val) =
        fieldsWritten (pageKind r.page.val) (4 * r.word.val) (s.dev.reg r.page.val (4 * r.word.val)) v be ∧
      (∀ q o : Nat, o < 4096 → (q ≠ r.page.val ∨ o ≠ 4 * r.word.val) → t.dev.reg q o = s.dev.reg q o) ∧
      t = { s with dev := { s.dev with regs := t.dev.regs, bus := .done } } := by
  have hw := r.word.isLt
  obtain hb | ⟨hb, he⟩ := busWrite_storesOnly v be h hs (by omega)
  · have hreg := reg_storeReg_merged s.dev r.page.val (4 * r.word.val) v be (storesOnly_keptBits hs)
    have hrest := fun q o ho hq => reg_storeReg_other s.dev r.page.val (4 * r.word.val) q o
      (s.dev.merged r.page.val (4 * r.word.val) v be) hq ho (by omega)
    have hregs : Dev.storeReg r.page.val (4 * r.word.val) (s.dev.merged r.page.val (4 * r.word.val) v be) s.dev =
      { s.dev with regs := (Dev.storeReg r.page.val (4 * r.word.val) (s.dev.merged r.page.val (4 * r.word.val) v be) s.dev).regs } := rfl
    generalize Dev.storeReg r.page.val (4 * r.word.val) (s.dev.merged r.page.val (4 * r.word.val) v be) s.dev = e at hb hreg hrest hregs
    refine ⟨_, registerWrite_completes h.elim.1 hb, rfl, hreg, hrest, ?_⟩
    rw [hregs]
    rfl
  · exact ⟨_, registerWrite_completes h.elim.1 hb, rfl, he.symm, fun _ _ _ _ => rfl, rfl⟩

/-- Settles O4, each clause by the lemma about its access: what the bus makes of the write or read, and that it puts no core in reset. -/
theorem registerAccesses : Obligations.RegisterAccesses := by
  unfold Obligations.RegisterAccesses
  refine ⟨fun s ag r v be hp h => registerWrite_completes hp (busWrite_without_effect ag v be h),
    fun s ag r v be hp hk ha ho hz hb => registerWrite_completes hp (busWrite_asleep ag v hk ha hb ho hz),
    fun s ag r v be hr hk ho hi hl hc => registerWrite_completes hr.1 (busWrite_denied v hr hk ho hi hl hc),
    fun s ag r v be h hs => registerWrite_storesOnly v be h hs,
    fun s ag p v be hp hk ha => ⟨⟨_, registerWrite_completes (r := ⟨p, 6⟩) hp rfl, rfl, busWrite_errMask ag v be hk ha⟩,
      ⟨_, registerWrite_completes (r := ⟨p, 5⟩) hp rfl, rfl, busWrite_errSum ag v be hk ha⟩⟩,
    fun s ag p v hp hk ha => headerCommands_write ag v hp hk ha,
    fun s ag v => registerCommands_write ag v,
    fun s ag p hp hk ha => registerReadClear_clears ag hp hk ha,
    fun s q a n p hp ho hn hpage hc hr => bar0Request_read_plain hp ho hn hpage hc hr,
    fun s q a r hp ho ha => ?_,
    fun s q a r data es hp ho ha hd hn => bar0Request_write_word es hp ho ha hd hn,
    fun s q a data es hp ho hn hc => bar0Request_write es hp ho hn hc,
    fun s q a req n hp hu hn h => ?_,
    fun s ag r hr hk ho he hi => pairLoRead_latches ag hr hk ho he hi,
    fun s ag r v hr hk ho he hi hl => pairLoRead_latched hr hk ho he hi hl,
    fun s ag r v h hl => pairLoWrite_stages ag v h hl,
    fun s ag r v h hh hc => pairHiWrite_plain ag v h hh hc,
    fun s ag k r v hadm hr => pairHiWrite_pos v hadm hr,
    fun s ag m r v hadm hr ho hown hs => pairHiWrite_tgt v hadm hr ho hown hs,
    fun s ag v hadm hl => pairHiWrite_lendEn v hadm hl,
    fun s ag k r v hadm hr ho => pairHiWrite_genPush v hadm hr ho⟩
  case refine_1 =>
    rw [bar0Request_read_word hp ho ha]
    split
    · next hw => rw [exec_registerReadClear, hw]; rfl
    · rw [exec_pairLoRead]
  case refine_2 => rw [exec_bar0Request, onState_of_powered hp, bar0_unsupported hu hn h]

end Sys2Proof.Machine
end

section
/-!
What writes of Skein and the life of a task leave alone: the pages of the clocks, of Reel's common block and channels, of intake, the
microphones, the cliff watch, the halt unit and the pack supervisor, and what those blocks keep (R265–R273, R293–R309).
-/
namespace Sys2Proof.Machine

/-- The pages of the blocks that neither memory nor the scheduler writes; page 0x01B is not among them, for its last four MARKs follow the
delay lists (R81). -/
def peripheralPage (p : Nat) : Prop := 0x010 ≤ p ∧ p < 0x050 ∧ p ≠ 0x01B

namespace Dev

/-- What the device keeps of those blocks beside their registers. -/
abbrev peripherals (d : Dev) :=
  (d.pkg, d.now, d.power, d.encoders, d.reels, d.zc, d.chans, d.aer, d.i3c, d.mic, d.cliffs, d.cliffRun, d.roundAt, d.packSup, d.thermIn)

/-- From `d` to `d'` no register of a peripheral page and nothing that those blocks keep has moved. -/
def Elsewhere (d d' : Dev) : Prop :=
  d'.peripherals = d.peripherals ∧ ∀ p off, peripheralPage p → off < 4096 → d'.reg p off = d.reg p off

theorem Elsewhere.refl (d : Dev) : d.Elsewhere d := ⟨rfl, fun _ _ _ _ => rfl⟩

theorem Elsewhere.trans {a b c : Dev} (h : a.Elsewhere b) (k : b.Elsewhere c) : a.Elsewhere c :=
  ⟨k.1.trans h.1, fun p off hp ho => (k.2 p off hp ho).trans (h.2 p off hp ho)⟩

theorem Elsewhere.chans {d d' : Dev} (h : d.Elsewhere d') : d'.chans = d.chans := congrArg (fun x => x.2.2.2.2.2.2.1) h.1

theorem Elsewhere.now {d d' : Dev} (h : d.Elsewhere d') : d'.now = d.now := congrArg (fun x => x.2.1) h.1

theorem Elsewhere.chan {d d' : Dev} (h : d.Elsewhere d') (n : Nat) : d'.chan n = d.chan n := by
  unfold Dev.chan
  rw [h.chans]

variable {d e : Dev}

/-! ## Chains of updates -/

/-- An update of other fields than the registers and what the peripherals keep. -/
theorem Elsewhere.fields (h : d.Elsewhere e) {e' : Dev} (hr : (e'.regs, e'.peripherals) = (e.regs, e.peripherals)) : d.Elsewhere e' := by
  have hregs : e'.regs = e.regs := congrArg (·.1) hr
  have hpkg : e'.pkg = e.pkg := congrArg (·.2.1) hr
  refine h.trans ⟨congrArg (·.2) hr, fun p off _ _ => ?_⟩
  unfold reg
  rw [hregs, hpkg]

/-- An update that signals, and moves only registers of other pages. -/
theorem Elsewhere.signals (h : d.Elsewhere e) {e' : Dev} {l : List (Nat × Nat)} (hs : e.Signals e') (hr : OnlyRegs l e e')
    (hl : ∀ x ∈ l, ¬ peripheralPage x.1) : d.Elsewhere e' :=
  h.trans ⟨by rw [hs], fun p off hp ho => hr p off ho fun hm => hl _ hm hp⟩

theorem Elsewhere.setReg (h : d.Elsewhere e) (p off : Nat) (v : Word) (hp : ¬ peripheralPage p) (hf : off < 4096) :
    d.Elsewhere (e.setReg p off v) :=
  h.signals (setReg_signals _ _ _ _) (setReg_onlyRegs e p off v [(p, off)] hf (by simp)) (by simpa using hp)

theorem Elsewhere.setField (h : d.Elsewhere e) (p off hi lo v : Nat) (hp : ¬ peripheralPage p) (hf : off < 4096) :
    d.Elsewhere (e.setField p off hi lo v) := h.setReg _ _ _ hp hf

theorem Elsewhere.setPageState (h : d.Elsewhere e) (p v : Nat) (hp : ¬ peripheralPage p) : d.Elsewhere (e.setPageState p v) :=
  h.setReg _ _ _ hp (by omega)

theorem Elsewhere.setFlag (h : d.Elsewhere e) (p off i : Nat) (v : Bool) (hp : ¬ peripheralPage p) (hf : off < 4096) :
    d.Elsewhere (e.setFlag p off i v) := h.setReg _ _ _ hp hf

theorem Elsewhere.setArmed (h : d.Elsewhere e) (n t : Nat) : d.Elsewhere (e.setArmed n t) := h.fields (by rfl)

theorem Elsewhere.setPair48 (h : d.Elsewhere e) (p off v : Nat) (hp : ¬ peripheralPage p) (hf : off + 4 < 4096) :
    d.Elsewhere (e.setPair48 p off v) :=
  (h.setReg _ _ _ hp (by omega)).setReg _ _ _ hp hf

theorem not_peripheralPage_eventRegs : ∀ x ∈ eventRegs, ¬ peripheralPage x.1 := by simp [eventRegs, peripheralPage]

theorem not_peripheralPage_errRegs {p : Nat} (hp : ¬ peripheralPage p) : ∀ x ∈ errRegs p, ¬ peripheralPage x.1 := fun x hx => by
  obtain hm | hm := List.mem_append.1 hx
  · have hpage : x.1 = p := by
      simp only [List.mem_cons, List.not_mem_nil, or_false] at hm
      rcases hm with rfl | rfl | rfl <;> rfl
    rwa [hpage]
  · exact not_peripheralPage_eventRegs x hm

theorem Elsewhere.settle (h : d.Elsewhere e) (r : Nat) : d.Elsewhere (e.settle r) :=
  h.signals (settle_signals e r) (settle_onlyRegs e r) (by simp [peripheralPage])

theorem Elsewhere.err (h : d.Elsewhere e) (p b : Nat) (hp : ¬ peripheralPage p) : d.Elsewhere (e.err p b) :=
  h.signals (err_signals e p b) (err_onlyRegs e p b) (not_peripheralPage_errRegs hp)

theorem Elsewhere.logs (h : d.Elsewhere e) {e' : Dev} (hl : e.Logs e') : d.Elsewhere e' :=
  Elsewhere.signals (e := { e with log := e'.log }) (h.fields (by rfl)) hl.1 (fun p off ho hm => hl.2 p off ho hm)
    (by simp [logRegs, errRegs, eventRegs, peripheralPage])

theorem Elsewhere.ite (c : Prop) [Decidable c] {a b : Dev} (ha : d.Elsewhere a) (hb : d.Elsewhere b) : d.Elsewhere (if c then a else b) := by
  split
  · exact ha
  · exact hb

theorem Elsewhere.when (h : d.Elsewhere e) (c : Prop) [Decidable c] {x : Dev} (hx : e.Elsewhere x) : d.Elsewhere (if c then x else e) :=
  .ite c (h.trans hx) h

theorem Elsewhere.forEach (h : d.Elsewhere e) (l : List Nat) {f : Nat → Dev → Dev} (hf : ∀ n ∈ l, ∀ x : Dev, x.Elsewhere (f n x)) :
    d.Elsewhere (forEach l f e) :=
  h.trans (forEach_rel Elsewhere.refl (fun _ _ _ => Elsewhere.trans) hf e)

theorem Elsewhere.foldl {α : Type} (h : d.Elsewhere e) (l : List α) {f : Dev → α → Dev} (hf : ∀ a x, Elsewhere x (f x a)) :
    d.Elsewhere (l.foldl f e) := by
  induction l generalizing e with
  | nil => exact h
  | cons a l ih => exact ih (h.trans (hf a e))

theorem Elsewhere.settleEach (h : d.Elsewhere e) (l : List Nat) : d.Elsewhere (Machine.forEach l (fun r d => d.settle r) e) :=
  h.forEach l fun r _ x => (Elsewhere.refl x).settle r

/-! ## A page and its block's work (R37, R38) -/

/-- The registers of another page stay as a page's go back to their reset values. -/
theorem reg_resetRegs_other (d : Dev) (p q o : Nat) (kept : PageKind → Nat → Bool) (ho : o < 4096) (hq : q ≠ p) :
    (d.resetRegs p kept).reg q o = d.reg q o := by
  refine Sparse.get_forget_of_not_picked (regDefault d.pkg) d.regs (fun k =>
    k / 4096 == p && decide (0x040 ≤ k % 4096) && readOnly p (k % 4096) && !kept (pageKind p) (k % 4096)) _ ?_
  have hpage : (q * 4096 + o) / 4096 ≠ p := by omega
  simp only [beq_false_of_ne hpage, Bool.false_and]

theorem Elsewhere.disabled (h : d.Elsewhere e) (p : Nat) (hp : ¬ peripheralPage p) : d.Elsewhere (e.disabled p) := by
  have hreset : d.Elsewhere (e.resetCounters p) :=
    h.trans ⟨rfl, fun q o hq ho => reg_resetRegs_other e p q o keptStatus ho fun heq => hp (heq ▸ hq)⟩
  exact hreset.setReg _ _ _ hp (by omega)

theorem Elsewhere.work (h : d.Elsewhere e) (p : Nat) (busy : Dev → Bool) {ended : Dev → Dev} (he : ∀ x : Dev, x.Elsewhere (ended x))
    (hp : ¬ peripheralPage p) : d.Elsewhere (work p busy ended e) :=
  .ite _ (.ite _ (h.setPageState p 2 hp) h) (.ite _ (.ite _ h (h.setPageState p 1 hp)) (.ite _ (.ite _ h ((h.disabled p hp).trans (he _))) h))

/-! ## Writes of Skein (R265–R273) -/

theorem not_peripheralPage_of_ge {p : Nat} (h : 0x050 ≤ p) : ¬ peripheralPage p := fun hp => by
  have := hp.2.1
  omega

theorem Elsewhere.countAbove (h : d.Elsewhere e) (p off n : Nat) (hp : 0x050 ≤ p) (hf : off < 4096) : d.Elsewhere (e.count p off n) :=
  h.setReg _ _ _ (not_peripheralPage_of_ge hp) hf

theorem Elsewhere.setAbove (h : d.Elsewhere e) (p off : Nat) (v : Word) (hp : 0x050 ≤ p) (hf : off < 4096) : d.Elsewhere (e.setReg p off v) :=
  h.setReg _ _ _ (not_peripheralPage_of_ge hp) hf

theorem Elsewhere.errAbove (h : d.Elsewhere e) (p b : Nat) (hp : 0x050 ≤ p) : d.Elsewhere (e.err p b) := h.err _ _ (not_peripheralPage_of_ge hp)

theorem Elsewhere.setBytes (h : d.Elsewhere e) (a : Nat) (l : List Byte) : d.Elsewhere (e.setBytes a l) := by
  rw [setBytes_frame]
  exact h.fields (by rfl)

theorem Elsewhere.switchPage (h : d.Elsewhere e) (p t f : Nat) : d.Elsewhere (e.switchPage p t f) :=
  .when (.when (.when (.countAbove (h.fields (by rfl)) _ _ _ (by omega) (by omega)) _ (.countAbove (.refl _) _ _ _ (by omega) (by omega))) _
    (.countAbove (.refl _) _ _ _ (by omega) (by omega))) _ (.countAbove (.refl _) _ _ _ (by omega) (by omega))

theorem elsewhere_makeRoom (k : Nat) : ∀ (x : Place) (t : Nat) (d d' : Dev), makeRoom x k t d = some d' → d.Elsewhere d' := by
  induction k with
  | zero =>
    intro x t d d' h
    simp [makeRoom] at h
  | succ k ih =>
    intro x t d d' h
    unfold makeRoom at h
    obtain ⟨e, -, he⟩ := List.exists_of_findSome?_eq_some h
    split at he
    · obtain rfl := Option.some.inj he
      exact (Elsewhere.refl d).switchPage _ _ _
    · simp only [Option.bind_eq_some_iff, Option.map_eq_some_iff] at he
      obtain ⟨d1, h1, f, -, rfl⟩ := he
      exact (ih _ _ _ _ h1).switchPage _ _ _

theorem Elsewhere.giveFrame (h : d.Elsewhere e) (p : Nat) {e' : Dev} (hg : e.giveFrame p = some e') : d.Elsewhere e' := by
  unfold Dev.giveFrame at hg
  simp only at hg
  split at hg
  · obtain rfl := Option.some.inj hg
    exact h.fields (by rfl)
  · simp only [Option.bind_eq_some_iff, Option.map_eq_some_iff] at hg
    obtain ⟨e1, he, tf, -, rfl⟩ := hg
    obtain ⟨t, -, ht⟩ := List.exists_of_findSome?_eq_some he
    exact (h.trans (elsewhere_makeRoom _ _ _ _ _ ht)).fields (by rfl)

theorem Elsewhere.queueMig (h : d.Elsewhere e) (m : Migration) : d.Elsewhere (e.queueMig m) := .ite _ h (h.fields (by rfl))

theorem Elsewhere.touch (h : d.Elsewhere e) (p : Nat) : d.Elsewhere (e.touch p) := by
  unfold Dev.touch
  exact .when (h.fields (by rfl)) _ (.queueMig (.refl _) _)

theorem Elsewhere.lowWater (h : d.Elsewhere e) : d.Elsewhere e.lowWater := by
  refine h.forEach _ fun t _ x => ?_
  split
  · split
    · exact (Elsewhere.refl x).queueMig _
    · exact .refl x
  · exact .refl x

theorem elsewhere_writeLine (x : Dev × Bool) (l : Nat × List Byte) : x.1.Elsewhere (writeLine x l).1 := by
  unfold writeLine
  simp only
  split
  · split
    · exact .refl _
    · rename_i e he
      have hf : x.1.Elsewhere e := by
        split at he
        · exact (Elsewhere.refl _).giveFrame _ he
        · exact Option.some.inj he ▸ .refl _
      have hs := Elsewhere.setBytes (e := e.setPlace (pageOf l.1) { e.place (pageOf l.1) with clean := false }) (hf.fields (by rfl)) l.1 l.2
      exact .ite _ (hs.fields (by rfl)) (hs.fields (by rfl))
  · exact ((Elsewhere.refl x.1).setBytes l.1 l.2).fields (by rfl)

theorem Elsewhere.storeLines (h : d.Elsewhere e) (a : Nat) (data : List Byte) : d.Elsewhere (e.storeLines a data).1 := by
  have hl : ∀ (l : List (Nat × List Byte)) (x : Dev × Bool), x.1.Elsewhere (l.foldl writeLine x).1 := by
    intro l
    induction l with
    | nil => exact fun _ => .refl _
    | cons y r ih => exact fun x => (elsewhere_writeLine x y).trans (ih _)
  exact h.trans (hl _ _)

theorem Elsewhere.dropWrite (h : d.Elsewhere e) (who : MemAgent) : d.Elsewhere (e.dropWrite who) :=
  ((h.countAbove _ _ _ (by omega) (by omega)).setAbove _ _ _ (by omega) (by omega)).errAbove _ _ (by omega)

theorem Elsewhere.syncTh (h : d.Elsewhere e) (c n : Nat) (cfg : Bool) : d.Elsewhere (e.syncTh c n cfg) := .ite _ (h.setBytes _ _) h

theorem Elsewhere.whorlPart (h : d.Elsewhere e) (l : Nat × List Byte) : d.Elsewhere (e.whorlPart l) := by
  unfold Dev.whorlPart
  simp only
  split_ifs
  · exact h
  · exact ((h.setBytes _ _).forEach _ fun n _ x => (Elsewhere.refl x).syncTh _ n _).forEach _ fun n _ x => (Elsewhere.refl x).syncTh _ n _
  · exact (h.setAbove _ _ _ (by omega) (by omega)).errAbove _ _ (by omega)

theorem Elsewhere.remoteRequest (h : d.Elsewhere e) (who : MemAgent) (rd : Bool) (a len : Nat) (l : List Byte) :
    d.Elsewhere (e.remoteRequest who rd a len l) := by
  unfold Dev.remoteRequest
  simp only
  rw [sendPacket_links]
  exact h.fields (by rfl)

theorem elsewhere_writePart (who : MemAgent) (x : Dev × List Byte × Bool × Bool) (p : Nat × Nat) : x.1.Elsewhere (writePart who x p).1 := by
  obtain ⟨d, data, un, ok⟩ := x
  obtain ⟨a, n⟩ := p
  have hs := fun a => (Elsewhere.refl d).storeLines a (data.take n)
  unfold writePart
  simp only
  split
  · exact .refl d
  · exact (Elsewhere.refl d).foldl _ fun l x => (Elsewhere.refl x).whorlPart l
  · exact hs _
  · exact hs _
  · split
    · exact Elsewhere.touch ((Elsewhere.refl d).fields (by rfl)) _
    · refine Elsewhere.touch ?_ _
      split
      · exact (hs a).lowWater
      · exact hs a
  · split
    · exact .refl d
    · split
      · split
        · exact hs _
        · exact .refl d
      · exact (Elsewhere.refl d).remoteRequest _ _ _ _ _

theorem Elsewhere.put (h : d.Elsewhere e) (who : MemAgent) (a : Nat) (data : List Byte) : d.Elsewhere (e.put who a data) := by
  have hl : ∀ (l : List (Nat × Nat)) (x : Dev × List Byte × Bool × Bool), x.1.Elsewhere (l.foldl (writePart who) x).1 := by
    intro l
    induction l with
    | nil => exact fun _ => .refl _
    | cons y r ih => exact fun x => (elsewhere_writePart who x y).trans (ih _)
  have hw := h.trans (hl (pageParts a data.length) (e, data, false, true))
  have hu := (hw.countAbove 0x0D0 0x04C 1 (by omega) (by omega)).errAbove 0x0D0 2 (by omega)
  unfold Dev.put Dev.write
  simp only
  split_ifs
  · exact hu
  · exact hw
  · exact hu.dropWrite who
  · exact hw.dropWrite who

/-! ## The life of a task (R293–R309) -/

theorem Elsewhere.traceEv (h : d.Elsewhere e) (evt slot : Nat) (t : Task) (w : Nat) : d.Elsewhere (e.traceEv evt slot t w) :=
  .ite _ (Elsewhere.setField (h.fields (by rfl)) _ _ _ _ _ (not_peripheralPage_of_ge (by omega)) (by omega)) h

theorem Elsewhere.makeReady (h : d.Elsewhere e) (s : Nat) (t : Task) : d.Elsewhere (e.makeReady s t) :=
  Elsewhere.traceEv (h.fields (by rfl)) _ _ _ _

theorem Elsewhere.makeEligible (h : d.Elsewhere e) (s : Nat) (t : Task) : d.Elsewhere (e.makeEligible s t) :=
  .ite _ (h.fields (by rfl)) (h.makeReady s t)

/-- A delay list moves its own registers and its MARK (R81, R306). -/
theorem Elsewhere.dlArm (h : d.Elsewhere e) (l : Nat) (hl : l < 4) : d.Elsewhere (e.dlArm l) := by
  have hmark : ¬ peripheralPage 0x01B := fun hp => hp.2.2 rfl
  have hlist : ¬ peripheralPage 0x0E2 := not_peripheralPage_of_ge (by omega)
  unfold Dev.dlArm
  extract_lets m c es d1 d2
  have h1 : d.Elsewhere d1 := h.setReg _ _ _ hlist (by omega)
  have h2 : d.Elsewhere d2 := h1.setReg _ _ _ hmark (by omega)
  clear_value d2 d1 es
  cases es with
  | nil => exact (h1.setFlag _ _ _ _ hmark (by omega)).setPair48 _ _ _ hlist (by omega)
  | cons x r =>
    dsimp -zeta only
    extract_lets same d3 d4
    have h4 : d.Elsewhere d4 := ((h2.setPair48 _ _ _ hmark (by omega)).setPair48 _ _ _ hlist (by omega)).setReg _ _ _ hmark (by omega)
    exact .ite _ h4 (h4.setArmed _ _)

theorem Elsewhere.dlRelease (h : d.Elsewhere e) (s : Nat) (t : Task) (cf : Nat) : d.Elsewhere (e.dlRelease s t cf) :=
  (h.traceEv _ _ _ _).makeEligible _ _

theorem Elsewhere.escWork (h : d.Elsewhere e) : d.Elsewhere e.escWork :=
  h.work _ _ (fun _ => Elsewhere.setAbove ((Elsewhere.refl _).fields (by rfl)) _ _ _ (by omega) (by omega)) (not_peripheralPage_of_ge (by omega))

theorem Elsewhere.leaveHeld (h : d.Elsewhere e) (stream : Nat) (ended : Bool) : d.Elsewhere (e.leaveHeld stream ended) := by
  unfold Dev.leaveHeld
  exact .ite _ (Elsewhere.escWork (.settleEach (h.fields (by rfl)) _)) h

/-- What the episode of a task's stream makes of its retirement (R15). -/
theorem Elsewhere.leaveHeldOf (h : d.Elsewhere e) (esc : Option Nat) :
    d.Elsewhere (match esc with
      | some stream => e.leaveHeld stream (e.sstate stream == 0)
      | none => e) := by
  cases esc with
  | none => exact h
  | some stream => exact h.leaveHeld _ _

theorem Elsewhere.cancelTask (h : d.Elsewhere e) (s status cf : Nat) : d.Elsewhere (e.cancelTask s status cf) := by
  unfold Dev.cancelTask
  cases e.task s with
  | none => exact h
  | some t =>
    dsimp -zeta only
    extract_lets d1 d2 d3
    have h1 : d.Elsewhere d1 := Elsewhere.traceEv (h.fields (by rfl)) _ _ _ _
    have h3 : d.Elsewhere d3 := (h1.settleEach t.voted).leaveHeldOf t.esc
    exact .ite _ (h3.dlArm _ t.list_lt) h3

theorem Elsewhere.taskFailed (h : d.Elsewhere e) (t : Task) (status : Nat) : d.Elsewhere (e.taskFailed t status) := by
  have hl := h.logs (logContained_logs e (taskRecord t status))
  unfold Dev.taskFailed
  extract_lets r es d1 d2 d3
  have h2 : d.Elsewhere d2 := .ite _ (hl.fields (by rfl)) hl
  have h3 : d.Elsewhere d3 := h2.fields (by rfl)
  exact .ite _ (h3.foldl _ fun _ x => .ite _ ((Elsewhere.refl x).cancelTask _ _ _) (.refl x)) h3

theorem Elsewhere.retireTask (h : d.Elsewhere e) (s status progress cf : Nat) : d.Elsewhere (e.retireTask s status progress cf) := by
  unfold Dev.retireTask
  cases e.task s with
  | none => exact h
  | some t =>
    refine .ite _ h ?_
    extract_lets late d1 d2 d3 d4
    have hring : 0x050 ≤ ringPage t.ring := by unfold ringPage; omega
    have h1 : d.Elsewhere d1 := Elsewhere.traceEv (h.fields (by rfl)) _ _ _ _
    have hanswer := h1.setAbove (ringPage t.ring) 0x084 (if status = 0x10 then 1 else 2) hring (by omega)
    have h2 : d.Elsewhere d2 := .ite _ (.ite _ (hanswer.countAbove _ _ _ hring (by omega)) hanswer) h1
    have h3 : d.Elsewhere d3 := h2.settleEach _
    have h4 : d.Elsewhere d4 := .ite _ (h3.taskFailed t status) h3
    exact h4.leaveHeldOf t.esc

theorem Elsewhere.promote (n : Nat) (h : d.Elsewhere e) : d.Elsewhere (promote n e) := by
  induction n generalizing e with
  | zero => exact h
  | succ n ih =>
    unfold Dev.promote
    split
    · exact ih (h.retireTask _ _ _ _)
    · split
      · exact ih (h.makeReady _ _)
      · exact h

theorem Elsewhere.dlInsert (h : d.Elsewhere e) (s : Nat) (t : Task) : d.Elsewhere (e.dlInsert s t) := by
  have hl := t.list_lt
  refine .ite _ ((h.countAbove _ _ _ (by omega) (by omega)).dlRelease _ _ _)
    (.ite _ ((Elsewhere.retireTask (h.fields (by rfl)) _ _ _ _).errAbove _ _ (by omega)) ?_)
  exact (Elsewhere.traceEv (h.fields (by rfl)) _ _ _ _).dlArm _ hl

theorem Elsewhere.accept (h : d.Elsewhere e) (n : Nat) (by_ : Submitter) (words : List Word) (esc : Option Nat) :
    d.Elsewhere (e.accept n by_ words esc) := by
  have hring : 0x050 ≤ ringPage n := by unfold ringPage; omega
  unfold Dev.accept
  extract_lets p s seq t bad t' d1 d2 d3 d4 d5
  have h1 : d.Elsewhere d1 := (h.setAbove _ _ _ hring (by omega)).countAbove _ _ _ hring (by omega)
  have h2 : d.Elsewhere d2 := .ite _ (h1.setPageState _ _ (not_peripheralPage_of_ge hring)) h1
  clear_value d2
  have h3 : d.Elsewhere d3 := Elsewhere.traceEv (h2.fields (by rfl)) _ _ _ _
  have h4 : d.Elsewhere d4 := .ite _ (h3.errAbove _ _ hring) h3
  have h5 : d.Elsewhere d5 := .ite _ (h4.cancelTask _ _ _) (.ite _ (h4.dlInsert _ _) (h4.makeEligible _ _))
  exact h5.promote _

/-- A submission of a hardware producer (R295). -/
theorem Elsewhere.submitHw (h : d.Elsewhere e) (n : Nat) (words : List Word) (esc : Option Nat) : d.Elsewhere (e.submitHw n words esc).1 := by
  have hring : 0x050 ≤ ringPage n := by unfold ringPage; omega
  unfold Dev.submitHw
  simp only
  split
  · exact h.accept _ _ _ _
  · exact ((h.countAbove _ _ _ hring (by omega)).traceEv _ _ _ _).errAbove _ _ hring

end Dev
end Sys2Proof.Machine
end

section
/-!
The records of the stream channels: none opens a frame or moves a register of the CSI-2 page, and a GAP record leaves its channel's other
losses (R85–R92, R96).
-/
namespace Sys2Proof.Machine.Dev

variable {d e : Dev}

/-! ## Notifications (R92) -/

theorem Elsewhere.notifyTask (h : d.Elsewhere e) (n : Nat) (seq : Word) (off : Nat) : d.Elsewhere (e.notifyTask n seq off) :=
  h.submitHw _ _ _

theorem chan_setChan (d : Dev) (n : Nat) (c : Chan) (k : Nat) : (d.setChan n c).chan k = if k = n then c else d.chan k :=
  Sparse.get_put _ _ _ _ _

/-- The notifications of channel n move no register of a peripheral page, and of what the channels keep only the list of those owed. -/
theorem notify_spec (d : Dev) (n : Nat) (seq : Word) (off : Nat) :
    (∀ k, ∃ l, (d.notify n seq off).chan k = { d.chan k with owed := l }) ∧
    ∀ p o, peripheralPage p → o < 4096 → (d.notify n seq off).reg p o = d.reg p o := by
  have howed (x : Dev) (l : List (Word × Nat)) (k : Nat) :
      ∃ m, (x.setChan n { x.chan n with owed := l }).chan k = { x.chan k with owed := m } := by
    rw [chan_setChan]
    split
    · next heq => exact ⟨l, by rw [heq]⟩
    · exact ⟨_, rfl⟩
  unfold notify postOwedOf
  generalize hx : d.setChan n _ = x
  have hchan (k : Nat) : ∃ l, x.chan k = { d.chan k with owed := l } := hx ▸ howed d _ k
  have hreg (p o : Nat) : x.reg p o = d.reg p o := by rw [← hx]; rfl
  extract_lets owed
  split
  · exact ⟨hchan, fun p o _ _ => hreg p o⟩
  · have hposts := Elsewhere.foldl (.refl (x.setChan n { x.chan n with owed := [] })) owed
      fun a y => (Elsewhere.refl y).notifyTask n a.1 a.2
    refine ⟨fun k => ?_, fun p o hp ho => (hposts.2 p o hp ho).trans (hreg p o)⟩
    obtain ⟨l, hl⟩ := howed x [] k
    obtain ⟨m, hm⟩ := hchan k
    exact ⟨l, by rw [hposts.chan, hl, hm]⟩

/-! ## Frames (R95, R96) -/

/-- From `d` to `d'` no frame was opened, and no register of the CSI-2 page moved. -/
def FramesEnd (d d' : Dev) : Prop :=
  (∀ n, (d.chan n).frame = none → (d'.chan n).frame = none) ∧ ∀ off < 4096, d'.reg 0x038 off = d.reg 0x038 off

theorem FramesEnd.refl (d : Dev) : d.FramesEnd d := ⟨fun _ h => h, fun _ _ => rfl⟩

theorem FramesEnd.trans {a b c : Dev} (h : a.FramesEnd b) (k : b.FramesEnd c) : a.FramesEnd c :=
  ⟨fun n hn => k.1 n (h.1 n hn), fun off ho => (k.2 off ho).trans (h.2 off ho)⟩

theorem FramesEnd.elsewhere (h : d.FramesEnd e) {e' : Dev} (he : e.Elsewhere e') : d.FramesEnd e' :=
  h.trans ⟨fun n hn => by rw [he.chan]; exact hn, fun off ho => he.2 0x038 off (by unfold peripheralPage; omega) ho⟩

theorem FramesEnd.ite (c : Prop) [Decidable c] {a b : Dev} (ha : d.FramesEnd a) (hb : d.FramesEnd b) : d.FramesEnd (if c then a else b) := by
  split
  · exact ha
  · exact hb

theorem FramesEnd.setChan (h : d.FramesEnd e) (n : Nat) {c : Chan} (hc : c.frame = (e.chan n).frame ∨ c.frame = none) :
    d.FramesEnd (e.setChan n c) := by
  refine h.trans ⟨fun k hk => ?_, fun _ _ => rfl⟩
  rw [chan_setChan]
  split
  · next heq => exact hc.elim (fun hc => hc.trans (heq ▸ hk)) id
  · exact hk

theorem FramesEnd.setReg (h : d.FramesEnd e) (p off : Nat) (v : Word) (hp : p ≠ 0x038) (hf : off < 4096) : d.FramesEnd (e.setReg p off v) :=
  h.trans ⟨fun _ hk => hk, fun _ ho => reg_setReg_other _ _ _ _ _ _ (.inl hp.symm) ho hf⟩

theorem FramesEnd.setPageState (h : d.FramesEnd e) {p : Nat} (v : Nat) (hp : p ≠ 0x038) : d.FramesEnd (e.setPageState p v) :=
  h.setReg _ _ _ hp (by omega)

theorem FramesEnd.err (h : d.FramesEnd e) (p b : Nat) (hp : p ≠ 0x038) : d.FramesEnd (e.err p b) :=
  h.trans ⟨fun n hn => by unfold chan; rw [(err_signals e p b).chans]; exact hn, fun off ho => err_onlyRegs e p b 0x038 off ho (by
    simp [errRegs, eventRegs, hp.symm])⟩

theorem FramesEnd.countFrz (h : d.FramesEnd e) (p off n : Nat) (hp : p ≠ 0x038) (hf : off < 4096) : d.FramesEnd (e.countFrz p off n) :=
  .ite _ h (h.setReg _ _ _ hp hf)

theorem chanPage_ne {n : Nat} (hn : n < 24) : chanPage n ≠ 0x038 := by
  unfold chanPage
  omega

/-- The registers of channel n once a record was written: WR, SEQ, and the count of GAP records (R86, R90). -/
def recordCounted (d : Dev) (n : Nat) (gap : Prop) [Decidable gap] (wr seq : Word) : Dev :=
  let d := (d.setReg (chanPage n) 0x050 wr).setReg (chanPage n) 0x058 seq
  if gap then d.countFrz (chanPage n) 0x060 else d

section
variable (d : Dev) (n : Nat) (gap : Prop) [Decidable gap] (wr seq : Word)

theorem chan_recordCounted (k : Nat) : (d.recordCounted n gap wr seq).chan k = d.chan k := by
  unfold recordCounted countFrz
  dsimp only
  split_ifs <;> rfl

theorem reg_recordCounted_other (q o : Nat) (ho : o < 4096) (hq : q ≠ chanPage n) : (d.recordCounted n gap wr seq).reg q o = d.reg q o := by
  have hset : ((d.setReg (chanPage n) 0x050 wr).setReg (chanPage n) 0x058 seq).reg q o = d.reg q o := by
    rw [reg_setReg_other _ _ _ _ _ _ (.inl hq) ho (by omega), reg_setReg_other _ _ _ _ _ _ (.inl hq) ho (by omega)]
  unfold recordCounted countFrz
  dsimp only
  split_ifs
  · exact hset
  · exact (reg_setReg_other _ _ _ _ _ _ (.inl hq) ho (by omega)).trans hset
  · exact hset

theorem reg_recordCounted_seq : (d.recordCounted n gap wr seq).reg (chanPage n) 0x058 = seq := by
  have hset := reg_setReg_same (d.setReg (chanPage n) 0x050 wr) (chanPage n) 0x058 seq
  unfold recordCounted countFrz
  dsimp only
  split_ifs
  · exact hset
  · exact (reg_setReg_other _ _ _ _ _ _ (.inr (by omega)) (by omega) (by omega)).trans hset
  · exact hset

theorem reg_recordCounted_gaps (hg : gap) (hf : d.frozen (chanPage n) = false) :
    (d.recordCounted n gap wr seq).reg (chanPage n) 0x060 = satAdd (d.reg (chanPage n) 0x060) 1 := by
  have hset (o : Nat) (ho : o < 4096) (hne : o ≠ 0x050 ∧ o ≠ 0x058) :
      ((d.setReg (chanPage n) 0x050 wr).setReg (chanPage n) 0x058 seq).reg (chanPage n) o = d.reg (chanPage n) o := by
    rw [reg_setReg_other _ _ _ _ _ _ (.inr hne.2) ho (by omega), reg_setReg_other _ _ _ _ _ _ (.inr hne.1) ho (by omega)]
  have hctrl : ((d.setReg (chanPage n) 0x050 wr).setReg (chanPage n) 0x058 seq).frozen (chanPage n) = false :=
    (flag_of_reg (hset 0x00C (by omega) (by omega)) 2).trans hf
  unfold recordCounted countFrz
  dsimp only
  rw [if_pos hg, hctrl, if_neg (by simp), reg_count_same, hset 0x060 (by omega) (by omega)]

end

/-- A record is put into memory and counted, and its channel notes it; a notification follows where one is due (R92). -/
theorem writeRecord_cases (d : Dev) {n : Nat} (hn : n < 24) (r : Rec) :
    ∃ (x y : Dev) (c : Chan) (wr : Word), d.Elsewhere x ∧ y = x.recordCounted n (r.type = 0x0F) wr (d.reg (chanPage n) 0x058 + 1) ∧
      c.gaps = (y.chan n).gaps ∧ c.frame = (y.chan n).frame ∧
      (d.writeRecord n r = y.setChan n c ∨ ∃ seq off, d.writeRecord n r = (y.setChan n c).notify n seq off) := by
  have hpage : peripheralPage (chanPage n) := by
    unfold peripheralPage chanPage
    omega
  unfold writeRecord
  extract_lets p sz total wrap pad d1 off seq body d2 d3 d4 c c1 every overlaps kept c2
  have h1 : d.Elsewhere d1 := .when (.refl _) _ ((Elsewhere.refl _).put _ _ _)
  have h2 : d.Elsewhere d2 := h1.put _ _ _
  have hseq : seq = d.reg (chanPage n) 0x058 := h1.2 _ _ hpage (by omega)
  have hkept : c2.gaps = c.gaps ∧ c2.frame = c.frame := by
    unfold c2
    split <;> exact ⟨rfl, rfl⟩
  obtain ⟨hgaps, hframe⟩ := hkept
  rw [← hseq]
  split
  · exact ⟨d2, d4, { c2 with since := 0 }, _, h2, rfl, hgaps, hframe, .inr ⟨seq, off, rfl⟩⟩
  · exact ⟨d2, d4, { c2 with since := c2.since + 1 }, _, h2, rfl, hgaps, hframe, .inl rfl⟩

/-- What a record leaves and moves: every channel's losses and open frame stand, and of the peripherals' registers only WR, SEQ and the
count of GAP records of its channel move. -/
theorem writeRecord_spec (d : Dev) {n : Nat} (hn : n < 24) (r : Rec) :
    (∀ k, ((d.writeRecord n r).chan k).gaps = (d.chan k).gaps ∧ ((d.writeRecord n r).chan k).frame = (d.chan k).frame) ∧
    (∀ p o, peripheralPage p → o < 4096 → p ≠ chanPage n → (d.writeRecord n r).reg p o = d.reg p o) ∧
    (d.writeRecord n r).reg (chanPage n) 0x058 = d.reg (chanPage n) 0x058 + 1 ∧
    (r.type = 0x0F → d.frozen (chanPage n) = false →
      (d.writeRecord n r).reg (chanPage n) 0x060 = satAdd (d.reg (chanPage n) 0x060) 1) := by
  have hpage : peripheralPage (chanPage n) := by
    unfold peripheralPage chanPage
    omega
  obtain ⟨x, y, c, wr, hx, rfl, hgaps, hframe, hw⟩ := writeRecord_cases d hn r
  generalize hy : x.recordCounted n (r.type = 0x0F) wr (d.reg (chanPage n) 0x058 + 1) = y at *
  have hchan (k : Nat) : ((y.setChan n c).chan k).gaps = (d.chan k).gaps ∧ ((y.setChan n c).chan k).frame = (d.chan k).frame := by
    have hyk : y.chan k = d.chan k := by rw [← hy, chan_recordCounted, hx.chan]
    rw [chan_setChan, ← hyk]
    split
    · next heq => exact heq ▸ ⟨hgaps, hframe⟩
    · exact ⟨rfl, rfl⟩
  have hfinal : (∀ k, ((d.writeRecord n r).chan k).gaps = (d.chan k).gaps ∧ ((d.writeRecord n r).chan k).frame = (d.chan k).frame) ∧
      ∀ p o, peripheralPage p → o < 4096 → (d.writeRecord n r).reg p o = y.reg p o := by
    obtain hw | ⟨seq, off, hw⟩ := hw
    · rw [hw]
      exact ⟨hchan, fun _ _ _ _ => rfl⟩
    · rw [hw]
      obtain ⟨hn, hr⟩ := notify_spec (y.setChan n c) n seq off
      refine ⟨fun k => ?_, hr⟩
      obtain ⟨l, hl⟩ := hn k
      rw [hl]
      exact hchan k
  obtain ⟨hk, hr⟩ := hfinal
  refine ⟨hk, fun p o hp ho hne => ?_, ?_, fun ht hf => ?_⟩
  · rw [hr p o hp ho, ← hy, reg_recordCounted_other _ _ _ _ _ _ _ ho hne, hx.2 p o hp ho]
  · rw [hr _ _ hpage (by omega), ← hy, reg_recordCounted_seq]
  · have hctrl : x.frozen (chanPage n) = false := (flag_of_reg (hx.2 _ 0x00C hpage (by omega)) 2).trans hf
    rw [hr _ _ hpage (by omega), ← hy, reg_recordCounted_gaps _ _ _ _ _ ht hctrl, hx.2 _ _ hpage (by omega)]

/-- A record opens no frame. -/
theorem FramesEnd.writeRecord (h : d.FramesEnd e) {n : Nat} (hn : n < 24) (r : Rec) : d.FramesEnd (e.writeRecord n r) := by
  obtain ⟨hchan, hreg, -, -⟩ := writeRecord_spec e hn r
  exact h.trans ⟨fun k hk => (hchan k).2.trans hk, fun o ho => hreg 0x038 o (by unfold peripheralPage; omega) ho (chanPage_ne hn).symm⟩

theorem FramesEnd.flushGaps {n : Nat} (hn : n < 24) (svc : Bool) (next k : Nat) (h : d.FramesEnd e) :
    d.FramesEnd (flushGaps n svc next k e) := by
  induction k generalizing e with
  | zero => exact h
  | succ k ih =>
    unfold Dev.flushGaps
    split
    · exact h
    · exact .ite _ h (.ite _ (ih ((h.setChan n (.inl (by rfl))).writeRecord hn _)) h)

theorem FramesEnd.addLoss (h : d.FramesEnd e) {n : Nat} (hn : n < 24) (cause cnt : Nat) : d.FramesEnd (e.addLoss n cause cnt) := by
  have hp := chanPage_ne hn
  unfold Dev.addLoss
  refine .ite _ h ?_
  extract_lets c gaps d1 d2
  have h1 : d.FramesEnd d1 := (h.setChan n (.inl (by rfl))).countFrz _ _ _ hp (by omega)
  have h2 : d.FramesEnd d2 := .ite _ (h1.err _ _ hp) (.ite _ (h1.err _ _ hp) h1)
  exact h2.flushGaps hn _ _ _

theorem FramesEnd.captureOk (h : d.FramesEnd e) {n : Nat} (hn : n < 24) (svc : Bool) (r : Rec) (lost : Nat) :
    d.FramesEnd (e.captureOk n svc r lost).1 := by
  have hg := h.flushGaps hn svc r.payload.length 8
  unfold Dev.captureOk
  split
  · exact h
  · split
    · exact h.addLoss hn _ _
    · simp only
      split
      · exact hg.writeRecord hn _
      · exact hg.addLoss hn _ _

/-- A channel that its page leaves in DISABLED has no frame (R38). -/
theorem FramesEnd.streamWork (h : d.FramesEnd e) {n : Nat} (hn : n < 24) : d.FramesEnd (streamWork n e) := by
  have hp := chanPage_ne hn
  have hreset : d.FramesEnd (e.resetCounters (chanPage n)) :=
    h.trans ⟨fun _ hk => hk, fun _ ho => reg_resetRegs_other e _ _ _ _ ho hp.symm⟩
  have hempty : d.FramesEnd ((e.disabled (chanPage n)).setChan n {}) := (hreset.setPageState 4 hp).setChan n (.inr rfl)
  have hended : d.FramesEnd (((e.disabled (chanPage n)).setChan n {}).rewind n) :=
    hempty.elsewhere (.forEach (.refl _) _ fun _ _ x => (Elsewhere.refl x).fields (by rfl))
  exact .ite _ (.ite _ (h.setPageState 2 hp) h) (.ite _ (.ite _ h (h.setPageState 1 hp)) (.ite _ (.ite _ h hended) h))

theorem FramesEnd.closeEvents (h : d.FramesEnd e) {n : Nat} (hn : n < 24) : d.FramesEnd (e.closeEvents n) :=
  .ite _ h (FramesEnd.streamWork ((h.setChan n (.inl (by rfl))).captureOk hn _ _ _) hn)

theorem FramesEnd.lose (h : d.FramesEnd e) {n : Nat} (hn : n < 24) (cause cnt : Nat) : d.FramesEnd (e.lose n cause cnt) :=
  (h.closeEvents hn).addLoss hn _ _

/-- An open frame that is discarded ends (R96). -/
theorem dropFrame_ends (d : Dev) {n : Nat} (hn : n < 24) (cause : Nat) :
    d.FramesEnd (d.dropFrame n cause) ∧ ((d.dropFrame n cause).chan n).frame = none := by
  unfold dropFrame
  split
  · next hnone => exact ⟨.refl d, hnone⟩
  · next f _ =>
    have hset : ((d.setChan n { d.chan n with frame := none }).setFlag (chanPage n) 0x098 f.buf true).FramesEnd
        (((d.setChan n { d.chan n with frame := none }).setFlag (chanPage n) 0x098 f.buf true).lose n cause 1) := (FramesEnd.refl _).lose hn _ _
    refine ⟨(((FramesEnd.refl d).setChan n (.inr rfl)).setReg _ _ _ (chanPage_ne hn) (by omega)).trans hset, hset.1 n ?_⟩
    show ((d.setChan n { d.chan n with frame := none }).chan n).frame = none
    rw [chan_setChan, if_pos rfl]


end Sys2Proof.Machine.Dev
end

section
/-!
Reel's channels (03): the registers of a channel under the updates that Reel's commands are made of, and what each command's work moves
(R61–R75).
-/
namespace Sys2Proof.Machine

/-- Where `f n` does nothing that `R` forbids for every `n` of a list but `k`, `forEach` does as `f k` alone, between two such moves. -/
theorem forEach_once {R : Dev → Dev → Prop} (hr : ∀ d, R d d) (ht : ∀ a b c, R a b → R b c → R a c) {l : List Nat}
    {f : Nat → Dev → Dev} {k : Nat} (hk : k ∈ l) (hn : l.Nodup) (h : ∀ n ∈ l, n ≠ k → ∀ d, R d (f n d)) (d : Dev) :
    ∃ e, R d e ∧ R (f k e) (forEach l f d) := by
  induction l generalizing d with
  | nil => simp at hk
  | cons n r ih =>
    obtain ⟨hnr, hrn⟩ := List.nodup_cons.1 hn
    by_cases heq : n = k
    · subst heq
      exact ⟨d, hr d, forEach_rel hr ht (fun m hm => h m (List.mem_cons_of_mem _ hm) fun he => hnr (he ▸ hm)) (f n d)⟩
    · have hkr : k ∈ r := (List.mem_cons.1 hk).resolve_left (Ne.symm heq)
      obtain ⟨e, hde, hend⟩ := ih hkr hrn (fun m hm => h m (List.mem_cons_of_mem _ hm)) (f n d)
      exact ⟨e, ht _ _ _ (h n (by simp) heq d) hde, hend⟩

namespace Dev

/-! ## A channel's registers -/

/-- The register of channel k at offset o of its block. -/
def rreg (d : Dev) (k o : Nat) : Word := d.reg (reelReg k o).1 (reelReg k o).2

theorem rreg_rset (d : Dev) (k o : Nat) (v : Word) (j i : Nat) (ho : o < 0x40) (hi : i < 0x40) :
    (d.rset k o v).rreg j i = if j = k ∧ i = o then v else d.rreg j i := by
  unfold rset rreg
  rw [reg_setReg]
  unfold reelReg
  simp only
  congr 1
  apply propext
  omega

theorem rreg_rset_same (d : Dev) (k o : Nat) (v : Word) (ho : o < 0x40) : (d.rset k o v).rreg k o = v := by
  rw [rreg_rset _ _ _ _ _ _ ho ho, if_pos ⟨rfl, rfl⟩]

theorem rreg_rset_other (d : Dev) {k o : Nat} (v : Word) {j i : Nat} (ho : o < 0x40) (hi : i < 0x40) (h : j ≠ k ∨ i ≠ o) :
    (d.rset k o v).rreg j i = d.rreg j i := by
  rw [rreg_rset _ _ _ _ _ _ ho hi, if_neg (by omega)]

/-- POS of channel k set to a position. -/
def setReelPos (d : Dev) (k v : Nat) : Dev := d.setPair48 (reelReg k 0x18).1 (reelReg k 0x18).2 v

theorem setReelPos_eq (d : Dev) (k v : Nat) :
    d.setReelPos k v = (d.rset k 0x18 (BitVec.ofNat 32 v)).rset k 0x1C (BitVec.ofNat 32 (v / 2 ^ 32 % 2 ^ 16)) := rfl

theorem reelPos_setReelPos (d : Dev) (k : Nat) {v : Nat} (hv : v < 2 ^ 48) : (d.setReelPos k v).reelPos k = v := pair48_setPair48 d hv

theorem reelPos_lt (d : Dev) (k : Nat) : d.reelPos k < 2 ^ 48 := by
  have hlo := (d.reg (reelReg k 0x18).1 (reelReg k 0x18).2).isLt
  have hhi := field_lt d (reelReg k 0x18).1 ((reelReg k 0x18).2 + 4) 15 0
  unfold reelPos pair48
  omega

/-- A position follows its two registers. -/
theorem reelPos_of_rreg {d d' : Dev} {k : Nat} (hlo : d'.rreg k 0x18 = d.rreg k 0x18) (hhi : d'.rreg k 0x1C = d.rreg k 0x1C) :
    d'.reelPos k = d.reelPos k := by
  show (d'.rreg k 0x18).toNat + bits (d'.rreg k 0x1C) 15 0 * 2 ^ 32 = (d.rreg k 0x18).toNat + bits (d.rreg k 0x1C) 15 0 * 2 ^ 32
  rw [hlo, hhi]

theorem rstate_of_rreg {d d' : Dev} {k : Nat} (h : d'.rreg k 0x14 = d.rreg k 0x14) : d'.rstate k = d.rstate k :=
  congrArg (fun w => bits w 1 0) h

theorem rsrc_of_rreg {d d' : Dev} {k : Nat} (h : d'.rreg k 0 = d.rreg k 0) : d'.rsrc k = d.rsrc k := congrArg (fun w => bits w 5 1) h

theorem reel_setReel (d : Dev) (k : Nat) (r : ReelCh) (j : Nat) : (d.setReel k r).reel j = if j = k then r else d.reel j :=
  Sparse.get_put _ _ _ _ _

/-! ## What Reel's updates move -/

/-- From `d` to `d'` Reel's channels moved, with what an error of their pages signals: what they keep, the registers of pages 0x019 and
0x01A, and those of events. -/
def ReelMoves (d d' : Dev) : Prop :=
  Signals { d with reels := d'.reels } d' ∧
  ∀ p off, off < 4096 → p ≠ 0x019 → p ≠ 0x01A → (p, off) ∉ eventRegs → d'.reg p off = d.reg p off

/-- From `d` to `d'` no register of the eight channels moved but those that `l` names by channel and offset. -/
def OnlyReel (l : List (Nat × Nat)) (d d' : Dev) : Prop := ∀ j < 8, ∀ i < 0x40, (j, i) ∉ l → d'.rreg j i = d.rreg j i

theorem ReelMoves.refl (d : Dev) : d.ReelMoves d := ⟨rfl, fun _ _ _ _ _ _ => rfl⟩

theorem ReelMoves.trans {a b c : Dev} (h : a.ReelMoves b) (k : b.ReelMoves c) : a.ReelMoves c := by
  obtain ⟨hs, hr⟩ := h
  obtain ⟨ks, kr⟩ := k
  refine ⟨?_, fun p off ho h1 h2 hm => (kr p off ho h1 h2 hm).trans (hr p off ho h1 h2 hm)⟩
  unfold Signals at *
  rw [ks, hs]

theorem ReelMoves.encoder {d d' : Dev} (h : d.ReelMoves d') (q : Nat) : d'.encoder q = d.encoder q := by rw [h.1]; rfl
theorem ReelMoves.zc {d d' : Dev} (h : d.ReelMoves d') : d'.zc = d.zc := by rw [h.1]
theorem ReelMoves.chans {d d' : Dev} (h : d.ReelMoves d') : d'.chans = d.chans := by rw [h.1]
theorem ReelMoves.now {d d' : Dev} (h : d.ReelMoves d') : d'.now = d.now := by rw [h.1]
theorem ReelMoves.mic {d d' : Dev} (h : d.ReelMoves d') : d'.mic = d.mic := by rw [h.1]

/-- No MARK is armed by what Reel's channels do. -/
theorem ReelMoves.noMarks {d d' : Dev} (h : d.ReelMoves d') (hm : d.NoMarks) : d'.NoMarks := fun m => by
  have hlt := m.isLt
  have hreg : d'.reg 0x01B (markBase m.val) = d.reg 0x01B (markBase m.val) :=
    h.2 _ _ (by unfold markBase; omega) (by omega) (by omega) (by simp [eventRegs])
  exact (congrArg (fun w => bits w 0 0) hreg).trans (hm m)

theorem OnlyReel.refl (l : List (Nat × Nat)) (d : Dev) : OnlyReel l d d := fun _ _ _ _ _ => rfl

theorem OnlyReel.trans {l : List (Nat × Nat)} {a b c : Dev} (h : OnlyReel l a b) (k : OnlyReel l b c) : OnlyReel l a c :=
  fun j hj i hi hm => (k j hj i hi hm).trans (h j hj i hi hm)

/-- Reel moves, of the registers those that `l` names. -/
def ReelMoved (l : List (Nat × Nat)) (d d' : Dev) : Prop := d.ReelMoves d' ∧ OnlyReel l d d'

variable {l : List (Nat × Nat)} {d e : Dev}

theorem ReelMoved.refl (d : Dev) : ReelMoved l d d := ⟨.refl d, .refl l d⟩

theorem ReelMoved.trans {a b c : Dev} (h : ReelMoved l a b) (k : ReelMoved l b c) : ReelMoved l a c := ⟨h.1.trans k.1, h.2.trans k.2⟩

theorem ReelMoved.setReel (h : ReelMoved l d e) (k : Nat) (r : ReelCh) : ReelMoved l d (e.setReel k r) :=
  h.trans ⟨⟨rfl, fun _ _ _ _ _ _ => rfl⟩, fun _ _ _ _ _ => rfl⟩

theorem reelPage_of_lt {k : Nat} (hk : k < 8) : 0x019 + k / 4 = 0x019 ∨ 0x019 + k / 4 = 0x01A := by omega

theorem ReelMoved.rset (h : ReelMoved l d e) {k o : Nat} (v : Word) (hk : k < 8) (ho : o < 0x40) (hm : (k, o) ∈ l) :
    ReelMoved l d (e.rset k o v) := by
  refine h.trans ⟨⟨rfl, fun p off hoff h19 h1A _ => ?_⟩, fun j _ i hi hn => ?_⟩
  · have hpage := reelPage_of_lt hk
    exact reg_setReg_other _ _ _ _ _ _ (.inl (by unfold reelReg; simp only; omega)) hoff (by unfold reelReg; simp only; omega)
  · refine rreg_rset_other _ _ ho hi ?_
    by_contra hcon
    obtain ⟨rfl, rfl⟩ : j = k ∧ i = o := by omega
    exact hn hm

theorem ReelMoved.setReelPos (h : ReelMoved l d e) {k : Nat} (v : Nat) (hk : k < 8) (hlo : (k, 0x18) ∈ l) (hhi : (k, 0x1C) ∈ l) :
    ReelMoved l d (e.setReelPos k v) := by
  rw [setReelPos_eq]
  exact (h.rset _ hk (by omega) hlo).rset _ hk (by omega) hhi

theorem ReelMoved.rcount (h : ReelMoved l d e) {k o : Nat} (n : Nat) (hk : k < 8) (ho : o < 0x40) (hm : (k, o) ∈ l) :
    ReelMoved l d (e.rcount k o n) := by
  unfold Dev.rcount countFrz
  split
  · exact h
  · exact h.rset _ hk ho hm

theorem ReelMoved.rerr (h : ReelMoved l d e) {k : Nat} (b : Nat) (hk : k < 8) : ReelMoved l d (e.rerr k b) := by
  have hpage := reelPage_of_lt hk
  have hregs := err_onlyRegs e (0x019 + k / 4) (b + k % 4)
  have hsignals := err_signals e (0x019 + k / 4) (b + k % 4)
  have hreels : (e.rerr k b).reels = e.reels := by
    show (e.err (0x019 + k / 4) (b + k % 4)).reels = e.reels
    rw [hsignals]
  refine h.trans ⟨⟨?_, fun p off hoff h19 h1A hn => hregs p off hoff ?_⟩, fun j hj i hi _ => hregs _ _ ?_ ?_⟩
  · rw [hreels]
    exact hsignals
  · simp only [errRegs, List.mem_append, List.mem_cons, Prod.ext_iff, List.not_mem_nil, or_false, not_or]
    exact ⟨by omega, hn⟩
  · unfold reelReg
    simp only
    omega
  · unfold reelReg
    simp only [errRegs, eventRegs, List.cons_append, List.nil_append, List.mem_cons, Prod.ext_iff, List.not_mem_nil, or_false]
    omega

theorem ReelMoved.ite (c : Prop) [Decidable c] {a b : Dev} (ha : ReelMoved l d a) (hb : ReelMoved l d b) :
    ReelMoved l d (if c then a else b) := by
  split
  · exact ha
  · exact hb

theorem ReelMoved.forEach (h : ReelMoved l d e) {ks : List Nat} {f : Nat → Dev → Dev} (hf : ∀ k ∈ ks, ∀ x, ReelMoved l x (f k x)) :
    ReelMoved l d (forEach ks f e) := h.trans (forEach_rel ReelMoved.refl (fun _ _ _ => ReelMoved.trans) hf e)

/-- Positions stand where their registers are not named. -/
theorem ReelMoved.reelPos (h : ReelMoved l d e) {k : Nat} (hk : k < 8) (hlo : (k, 0x18) ∉ l) (hhi : (k, 0x1C) ∉ l) :
    e.reelPos k = d.reelPos k := reelPos_of_rreg (h.2 k hk _ (by omega) hlo) (h.2 k hk _ (by omega) hhi)

/-! ## The source is judged (R70–R73) -/

/-- Channel k's window is spoiled where something makes its source invalid now. -/
def spoiled (d : Dev) (k : Nat) : Dev := if d.liveBad k then d.setReel k { d.reel k with bad := true } else d

/-- Channel k leaves TRACK. -/
def trackLost (d : Dev) (k : Nat) (lost tooFast : Bool) : Dev :=
  let d := (d.rsetField k 0x14 1 0 (d.lossState k)).rcount k 0x28
  let d := if tooFast then d.rerr k 0 else d
  if lost then d.rerr k 4 else d

theorem judge_eq (d : Dev) (k : Nat) : judge k d =
    if (d.spoiled k).rstate k = 1 && (d.srcLost k || d.overspeed k) then (d.spoiled k).trackLost k (d.srcLost k) (d.overspeed k)
    else d.spoiled k := rfl

theorem spoiled_moved (d : Dev) (k : Nat) : ReelMoved l d (d.spoiled k) := .ite _ ((ReelMoved.refl d).setReel k _) (.refl d)

theorem reel_spoiled (d : Dev) (k j : Nat) : ∃ b, (d.spoiled k).reel j = { d.reel j with bad := b } := by
  unfold spoiled
  split
  · rw [reel_setReel]
    split
    · next heq => exact ⟨true, by rw [heq]⟩
    · exact ⟨_, rfl⟩
  · exact ⟨_, rfl⟩

/-- The errors of a channel that leaves TRACK. -/
theorem lossErrors_moved (d : Dev) {k : Nat} (hk : k < 8) (lost tooFast : Bool) :
    ReelMoved l d (if lost then (if tooFast then d.rerr k 0 else d).rerr k 4 else if tooFast then d.rerr k 0 else d) := by
  have hfast : ReelMoved l d (if tooFast then d.rerr k 0 else d) := .ite _ ((ReelMoved.refl d).rerr 0 hk) (.refl d)
  exact .ite _ (hfast.rerr 4 hk) hfast

theorem trackLost_moved (d : Dev) {k : Nat} (hk : k < 8) (lost tooFast : Bool) (hs : (k, 0x14) ∈ l) (hc : (k, 0x28) ∈ l) :
    ReelMoved l d (d.trackLost k lost tooFast) :=
  (((ReelMoved.refl d).rset _ hk (by omega) hs).rcount 1 hk (by omega) hc).trans (lossErrors_moved _ hk lost tooFast)

theorem reel_rcount (d : Dev) (k o n j : Nat) : (d.rcount k o n).reel j = d.reel j := by
  unfold rcount countFrz
  split <;> rfl

theorem reel_rerr (d : Dev) (k b j : Nat) : (d.rerr k b).reel j = d.reel j := by
  have hreels : (d.rerr k b).reels = d.reels := by
    unfold rerr
    rw [err_signals]
  unfold reel
  rw [hreels]

theorem reel_trackLost (d : Dev) (k : Nat) (lost tooFast : Bool) (j : Nat) : (d.trackLost k lost tooFast).reel j = d.reel j := by
  unfold trackLost
  dsimp only
  split_ifs <;> simp only [reel_rerr, reel_rcount] <;> rfl

theorem rstate_rsetField (d : Dev) (k v : Nat) : (d.rsetField k 0x14 1 0 v).rstate k = v % 4 := field_setField_same d _ _ 1 0 v (by omega)

theorem lossState_cases (d : Dev) (k : Nat) : d.lossState k = 2 ∨ d.lossState k = 3 := by
  unfold lossState
  split
  · exact .inl rfl
  · exact .inr rfl

theorem lossState_of_rreg {d d' : Dev} {k : Nat} (h : d'.rreg k 0 = d.rreg k 0) : d'.lossState k = d.lossState k :=
  congrArg (fun w => if bits w 8 8 = 1 then 2 else 3) h

theorem rstate_trackLost (d : Dev) {k : Nat} (hk : k < 8) (lost tooFast : Bool) :
    (d.trackLost k lost tooFast).rstate k = d.lossState k := by
  have hcounted : ReelMoved [(k, 0x28)] (d.rsetField k 0x14 1 0 (d.lossState k)) (d.trackLost k lost tooFast) :=
    ((ReelMoved.refl _).rcount 1 hk (by omega) (by simp)).trans (lossErrors_moved _ hk lost tooFast)
  have hcases := d.lossState_cases k
  rw [rstate_of_rreg (hcounted.2 k hk _ (by omega) (by simp)), rstate_rsetField]
  omega

theorem judge_moved (d : Dev) {k : Nat} (hk : k < 8) (hs : (k, 0x14) ∈ l) (hc : (k, 0x28) ∈ l) : ReelMoved l d (judge k d) :=
  .ite _ ((spoiled_moved d k).trans (trackLost_moved _ hk _ _ hs hc)) (spoiled_moved d k)

/-- Of what a channel keeps a judgement moves no more than whether its window is spoiled (R73). -/
theorem reel_judge (d : Dev) (k j : Nat) : ∃ b, (judge k d).reel j = { d.reel j with bad := b } := by
  rw [judge_eq]
  split
  · rw [reel_trackLost]
    exact reel_spoiled d k j
  · exact reel_spoiled d k j

/-- A source lost or too fast takes a channel out of TRACK (R73). -/
theorem rstate_judge_of_lost (d : Dev) {k : Nat} (hk : k < 8) (hs : d.rstate k = 1) (hl : d.srcLost k = true) :
    (judge k d).rstate k = d.lossState k := by
  have hspoiled : ReelMoved [] d (d.spoiled k) := spoiled_moved d k
  have hstate : (d.spoiled k).rstate k = 1 := (rstate_of_rreg (hspoiled.2 k hk _ (by omega) (by simp))).trans hs
  rw [judge_eq, hstate, hl, if_pos (by simp), rstate_trackLost _ hk, lossState_of_rreg (hspoiled.2 k hk _ (by omega) (by simp))]

/-- The registers that judgements move: STAT and DR_COUNT of every channel. -/
def judgedRegs : List (Nat × Nat) := (List.range 8).flatMap fun k => [(k, 0x14), (k, 0x28)]

theorem judgeEach_moved (d : Dev) {ks : List Nat} (hks : ∀ k ∈ ks, k < 8) : ReelMoved judgedRegs d (forEach ks judge d) :=
  (ReelMoved.refl d).forEach fun k hk x => judge_moved x (hks k hk) (by simp [judgedRegs, hks k hk]) (by simp [judgedRegs, hks k hk])

theorem not_mem_judgedRegs {k o : Nat} (h : o ≠ 0x14 ∧ o ≠ 0x28) : (k, o) ∉ judgedRegs := by simp [judgedRegs, h]

/-! ## MARKs that are not armed (R78) -/

/-- Without an armed MARK no position fires one (R65). -/
theorem checkMarks_of_noMarks {d : Dev} (h : d.NoMarks) (k : Nat) : d.checkMarks k = d := by
  have hnone : forEach (List.range 32) (fun m d =>
      if d.mfield m 0 0 0 = 1 && d.mfield m 0 3 1 = k && reached (d.reelPos k) (d.markTgt m) then
        d.markFire m (if d.floorDue m then 3 else 1)
      else d) d = d :=
    forEach_keeps (P := fun x => x = d) (fun m hm x hx => by
      have hfree : d.mfield m 0 0 0 = 0 := h ⟨m, List.mem_range.1 hm⟩
      subst hx
      simp [hfree]) d rfl
  unfold checkMarks
  rw [hnone, ite_self]

theorem channelsMoved_of_noMarks {d : Dev} (h : d.NoMarks) (ks : List Nat) : channelsMoved ks d = forEach ks judge d := by
  have hnone : forEach ks (fun k d => d.checkMarks k) d = d :=
    forEach_keeps (P := fun x => x = d) (fun k _ x hx => by
      subst hx
      exact checkMarks_of_noMarks h k) d rfl
  unfold channelsMoved
  rw [hnone]

/-! ## Counts (R61, R62, R64) -/

/-- The registers that a count of channel k moves: STAT and POS. -/
def countedRegs (k : Nat) : List (Nat × Nat) := [(k, 0x14), (k, 0x18), (k, 0x1C)]

theorem addCounts_moved (d : Dev) {k : Nat} (hk : k < 8) (n : Nat) (half : Bool) : ReelMoved (countedRegs k) d (d.addCounts k n half) := by
  unfold addCounts
  extract_lets r inc acc add r' f d1
  exact .ite _ (((ReelMoved.refl d).setReel k _).setReelPos _ hk (by simp [countedRegs]) (by simp [countedRegs])) ((ReelMoved.refl d).setReel k _)

/-- A count in TRACK adds INC to the position and its fraction (R64). -/
theorem reelPos_addCounts (d : Dev) {k : Nat} (hs : d.rstate k = 1) :
    (d.addCounts k 1 false).reelPos k = (d.reelPos k + ((d.reel k).frac + d.rword k 4) / 2 ^ 24) % 2 ^ 48 := by
  unfold addCounts
  simp only [hs, if_true, Nat.mul_one, Bool.false_eq_true, if_false]
  exact reelPos_setReelPos _ k (Nat.mod_lt _ (by decide))

/-! ## Encoders (R61, R64) -/

/-- Channel k stands: its registers and what it keeps. -/
def ChannelStands (k : Nat) (d d' : Dev) : Prop := d'.reel k = d.reel k ∧ ∀ i < 0x40, d'.rreg k i = d.rreg k i

theorem ChannelStands.refl (k : Nat) (d : Dev) : ChannelStands k d d := ⟨rfl, fun _ _ => rfl⟩

theorem ChannelStands.trans {k : Nat} {a b c : Dev} (h : ChannelStands k a b) (h' : ChannelStands k b c) : ChannelStands k a c :=
  ⟨h'.1.trans h.1, fun i hi => (h'.2 i hi).trans (h.2 i hi)⟩

theorem reel_setReelPos (d : Dev) (k v j : Nat) : (d.setReelPos k v).reel j = d.reel j := rfl

theorem reel_addCounts_other (d : Dev) {k j : Nat} (n : Nat) (half : Bool) (h : j ≠ k) : (d.addCounts k n half).reel j = d.reel j := by
  have hset (r : ReelCh) : (d.setReel k r).reel j = d.reel j := by rw [reel_setReel, if_neg h]
  unfold addCounts
  extract_lets r inc acc add r' f d1
  split
  · exact (reel_setReelPos d1 k _ j).trans (hset _)
  · exact hset _

theorem legalEdge_moved (d : Dev) {k : Nat} (hk : k < 8) (q : Nat) (counted fast back : Bool) :
    ReelMoved (countedRegs k) d (legalEdge q counted fast back k d) := by
  unfold legalEdge
  extract_lets r d1
  have h1 : ReelMoved (countedRegs k) d d1 := .ite _ ((ReelMoved.refl d).setReel k _) (.refl d)
  exact .ite _ ((h1.rset _ hk (by omega) (by simp [countedRegs])).trans (addCounts_moved _ hk _ _)) h1

theorem legalEdge_stands (d : Dev) {k j : Nat} (hk : k < 8) (hj : j < 8) (hne : j ≠ k) (q : Nat) (counted fast back : Bool) :
    ChannelStands j d (legalEdge q counted fast back k d) := by
  refine ⟨?_, fun i hi => (legalEdge_moved d hk q counted fast back).2 j hj i hi (by simp [countedRegs, hne])⟩
  have hfast : (if fast then d.setReel k { d.reel k with edgeOver := true } else d).reel j = d.reel j := by
    split
    · rw [reel_setReel, if_neg hne]
    · rfl
  unfold legalEdge
  extract_lets r d1
  split
  · exact (reel_addCounts_other _ _ _ hne).trans hfast
  · exact hfast

/-- A counted edge of the encoder that channel k follows in TRACK is one count (R61, R64). -/
theorem reelPos_legalEdge (d : Dev) {q k : Nat} (hq : q < 4) (hk : k < 8) (fast back : Bool) (hsrc : d.rsrc k = q + 1)
    (hs : d.rstate k = 1) : (legalEdge q true fast back k d).reelPos k =
      (d.reelPos k + ((d.reel k).frac + d.rword k 4) / 2 ^ 24) % 2 ^ 48 := by
  unfold legalEdge
  extract_lets r d1
  have hd1 : ReelMoved [] d d1 := .ite _ ((ReelMoved.refl d).setReel k _) (.refl d)
  have hfrac : (d1.reel k).frac = (d.reel k).frac := by
    unfold d1
    split
    · rw [reel_setReel, if_pos rfl]
    · rfl
  have hr (i : Nat) (hi : i < 0x40) : d1.rreg k i = d.rreg k i := hd1.2 k hk i hi (by simp)
  clear_value d1
  have hsrc1 : d1.rsrc k = q + 1 := (rsrc_of_rreg (hr _ (by omega))).trans hsrc
  have henc : (d1.encodersOf k).count q = 1 := by
    unfold encodersOf
    simp only [hsrc1]
    rw [if_pos (by simp; omega)]
    simp
  have hodo : (d1.rsrc k == 5) = false := by
    rw [hsrc1]
    simp
    omega
  have hback : ReelMoved [(k, 0x14)] d1 (d1.rsetField k 0x14 8 8 back.toNat) := (ReelMoved.refl d1).rset _ hk (by omega) (by simp)
  have hstate : (d1.rsetField k 0x14 8 8 back.toNat).rstate k = 1 := by
    have hfield : (d1.rsetField k 0x14 8 8 back.toNat).rstate k = bits (putBits (d1.rreg k 0x14) 8 8 back.toNat) 1 0 :=
      congrArg (fun w => bits w 1 0) (rreg_rset_same d1 k 0x14 _ (by omega))
    rw [hfield, bits_putBits_other _ _ _ _ _ _ (by omega) (by omega), hr _ (by omega)]
    exact hs
  rw [if_pos rfl, henc, hodo, reelPos_addCounts _ hstate, hback.reelPos hk (by simp) (by simp)]
  have hinc : (d1.rsetField k 0x14 8 8 back.toNat).rword k 4 = d.rword k 4 :=
    congrArg BitVec.toNat ((hback.2 k hk 4 (by omega) (by simp)).trans (hr 4 (by omega)))
  rw [hinc, hd1.reelPos hk (by simp) (by simp)]
  show (_ + ((d1.reel k).frac + _) / _) % _ = _
  rw [hfrac]

end Dev
end Sys2Proof.Machine
end

section
/-!
The encoders and zero crossings of Reel (R61–R64).
-/
namespace Sys2Proof.Machine

namespace Dev

/-! ## New levels of an encoder (R61) -/

/-- The channels that follow encoder q. -/
def followers (d : Dev) (q : Nat) : List Nat := (List.range 8).filter fun k => (d.encodersOf k).contains q

/-- Whether a legal change of encoder q goes backward: where B leads A. -/
def edgeBack (d : Dev) (q : Nat) (a b : Bool) : Bool := if a != (d.encoder q).a then a == b else a != b

/-- NET of encoder q after a legal change. -/
def netAfter (d : Dev) (q : Nat) (a b : Bool) : Word :=
  if d.countedEdge q (a != (d.encoder q).a) a then
    if d.edgeBack q a b == d.flag 0x018 (0x040 + 4 * q) 10 then (d.encoder q).net + 1 else (d.encoder q).net - 1
  else (d.encoder q).net

/-- The times of the recent edges of encoder q with one more now (R70). -/
def edgesAfter (d : Dev) (q : Nat) : List Nat := d.now :: (d.encoder q).edges.filter fun t => decide (d.now < t + 4)

/-- Encoder q after a legal change. -/
def encoderStepped (d : Dev) (q : Nat) (a b : Bool) : Dev :=
  d.setEncoder q { a := a, b := b, net := d.netAfter q a b, edges := d.edgesAfter q }

/-- The channels that follow encoder q after a legal change. -/
def edgesCounted (d : Dev) (q : Nat) (a b : Bool) : Dev :=
  forEach (d.followers q)
    (legalEdge q (d.countedEdge q (a != (d.encoder q).a) a) (decide (80 < (d.edgesAfter q).length)) (d.edgeBack q a b))
    (d.encoderStepped q a b)

theorem followers_lt {d : Dev} {q k : Nat} (h : k ∈ d.followers q) : k < 8 := List.mem_range.1 (List.mem_filter.1 h).1

theorem mem_followers {d : Dev} {q k : Nat} (hq : q < 4) (hk : k < 8) (hsrc : d.rsrc k = q + 1) : k ∈ d.followers q := by
  refine List.mem_filter.2 ⟨List.mem_range.2 hk, ?_⟩
  unfold encodersOf
  simp only [hsrc]
  rw [if_pos (by simp; omega)]
  simp

/-- A change of one pin alone is an edge of every channel that follows the encoder. -/
theorem encoderLevels_legal (d : Dev) (q : Nat) (a b : Bool) (h : a ≠ (d.encoder q).a ↔ b = (d.encoder q).b) :
    d.encoderLevels q a b = channelsMoved (d.followers q) (d.edgesCounted q a b) := by
  unfold encoderLevels
  extract_lets e ks chA chB back counted edges net
  have hone : (chA && chB) = false ∧ (chA || chB) = true := by
    unfold chA chB
    by_cases ha : a = e.a
    · have hb : b ≠ e.b := fun hb => h.2 hb ha
      simp [ha, hb]
    · have hb : b = e.b := h.1 ha
      simp [ha, hb]
  rw [if_neg (by simp [hone.1]), if_pos hone.2]
  rfl

theorem encoderLevels_illegal (d : Dev) (q : Nat) (a b : Bool) (ha : a ≠ (d.encoder q).a) (hb : b ≠ (d.encoder q).b) :
    d.encoderLevels q a b =
      forEach (d.followers q) (illegalEdge q) (d.setEncoder q { d.encoder q with a := a, b := b }) := by
  unfold encoderLevels
  extract_lets e ks chA chB
  rw [if_pos (by simp [chA, chB, e, ha, hb])]
  rfl

theorem encoderLevels_same (d : Dev) (q : Nat) : d.encoderLevels q (d.encoder q).a (d.encoder q).b = d := by
  simp [encoderLevels]

theorem encoder_setEncoder (d : Dev) (q : Nat) (x : Encoder) : (d.setEncoder q x).encoder q = x := Sparse.get_put_same _ _ _ _

theorem edgesCounted_moves (d : Dev) (q : Nat) (a b : Bool) : (d.encoderStepped q a b).ReelMoves (d.edgesCounted q a b) :=
  forEach_rel ReelMoves.refl (fun _ _ _ => ReelMoves.trans) (fun _ hk x => (legalEdge_moved x (followers_lt hk) _ _ _ _).1) _

theorem NoMarks.encoderStepped {d : Dev} (h : d.NoMarks) (q : Nat) (a b : Bool) : (d.encoderStepped q a b).NoMarks := h

/-- Without an armed MARK a legal change counts and its channels are judged. -/
theorem encoderLevels_counts {d : Dev} {q : Nat} {a b : Bool} (h : a ≠ (d.encoder q).a ↔ b = (d.encoder q).b) (hm : d.NoMarks) :
    d.encoderLevels q a b = forEach (d.followers q) judge (d.edgesCounted q a b) := by
  rw [encoderLevels_legal d q a b h]
  exact channelsMoved_of_noMarks ((edgesCounted_moves d q a b).noMarks (NoMarks.encoderStepped hm q a b)) _

/-- The encoder after a legal change (R61). -/
theorem encoder_encoderLevels {d : Dev} {q : Nat} {a b : Bool} (h : a ≠ (d.encoder q).a ↔ b = (d.encoder q).b) (hm : d.NoMarks) :
    (d.encoderLevels q a b).encoder q = { a := a, b := b, net := d.netAfter q a b, edges := d.edgesAfter q } := by
  have hjudged := (judgeEach_moved (d.edgesCounted q a b) (ks := d.followers q) fun _ => followers_lt).1
  rw [encoderLevels_counts h hm, hjudged.encoder, (edgesCounted_moves d q a b).encoder]
  exact encoder_setEncoder d q _

/-- The position of a channel in TRACK that follows encoder q after a counted edge (R64). -/
theorem reelPos_encoderLevels {d : Dev} {q k : Nat} {a b : Bool} (h : a ≠ (d.encoder q).a ↔ b = (d.encoder q).b) (hm : d.NoMarks)
    (hq : q < 4) (hk : k < 8) (hsrc : d.rsrc k = q + 1) (hs : d.rstate k = 1)
    (hc : d.countedEdge q (a != (d.encoder q).a) a = true) :
    (d.encoderLevels q a b).reelPos k = (d.reelPos k + ((d.reel k).frac + d.rword k 4) / 2 ^ 24) % 2 ^ 48 := by
  have hjudged := judgeEach_moved (d.edgesCounted q a b) (ks := d.followers q) fun _ => followers_lt
  rw [encoderLevels_counts h hm, hjudged.reelPos hk (not_mem_judgedRegs (by omega)) (not_mem_judgedRegs (by omega))]
  unfold edgesCounted
  rw [hc]
  obtain ⟨e, ⟨hreel, hregs⟩, hend⟩ := forEach_once (ChannelStands.refl k) (fun _ _ _ => ChannelStands.trans) (mem_followers hq hk hsrc)
    (List.Nodup.filter _ List.nodup_range)
    (fun n hn hne x => legalEdge_stands x (followers_lt hn) hk (Ne.symm hne) q true (decide (80 < (d.edgesAfter q).length)) (d.edgeBack q a b))
    (d.encoderStepped q a b)
  rw [reelPos_of_rreg (hend.2 _ (by omega)) (hend.2 _ (by omega)),
    reelPos_legalEdge e hq hk _ _ ((rsrc_of_rreg (hregs _ (by omega))).trans hsrc) ((rstate_of_rreg (hregs _ (by omega))).trans hs),
    reelPos_of_rreg (hregs _ (by omega)) (hregs _ (by omega)), hreel]
  have hinc : e.rword k 4 = d.rword k 4 := congrArg BitVec.toNat (hregs 4 (by omega))
  rw [hinc]
  rfl

/-- NET by MODE and direction (R61). -/
theorem netAfter_eq (d : Dev) (q : Nat) (a b : Bool) : d.netAfter q a b =
    if d.field 0x018 (0x040 + 4 * q) 9 8 = 1 ∧ a = (d.encoder q).a then (d.encoder q).net
    else if d.field 0x018 (0x040 + 4 * q) 9 8 = 2 ∧ (a = (d.encoder q).a ∨ a = false) then (d.encoder q).net
    else if ((a ≠ (d.encoder q).a ↔ a ≠ b) ↔ d.flag 0x018 (0x040 + 4 * q) 10 = false) then (d.encoder q).net + 1
    else (d.encoder q).net - 1 := by
  unfold netAfter
  have hcounted : d.countedEdge q (a != (d.encoder q).a) a = false ↔
      (d.field 0x018 (0x040 + 4 * q) 9 8 = 1 ∧ a = (d.encoder q).a) ∨
      (d.field 0x018 (0x040 + 4 * q) 9 8 = 2 ∧ (a = (d.encoder q).a ∨ a = false)) := by
    unfold countedEdge
    split
    · simp_all
    · simp_all [or_iff_not_imp_left]
    · simp_all
  have hdir : (d.edgeBack q a b == d.flag 0x018 (0x040 + 4 * q) 10) = true ↔
      ((a ≠ (d.encoder q).a ↔ a ≠ b) ↔ d.flag 0x018 (0x040 + 4 * q) 10 = false) :=
    have htable : ∀ a b old inv : Bool, ((if a != old then a == b else a != b) == inv) = true ↔ ((a ≠ old ↔ a ≠ b) ↔ inv = false) := by decide
    htable a b _ _
  by_cases h : d.countedEdge q (a != (d.encoder q).a) a = true
  · have hn := mt hcounted.2 (by simp [h])
    rw [if_pos h, if_neg (fun hx => hn (.inl hx)), if_neg (fun hx => hn (.inr hx))]
    simp only [hdir]
  · rw [if_neg h]
    obtain hx | hx := hcounted.1 (by simpa using h)
    · rw [if_pos hx]
    · rw [if_pos hx, ite_self]

/-- An illegal transition moves neither NET nor a position (R61). -/
theorem encoderLevels_illegal_spec {d : Dev} {q : Nat} {a b : Bool} (ha : a ≠ (d.encoder q).a) (hb : b ≠ (d.encoder q).b) :
    (d.encoderLevels q a b).encoder q = { d.encoder q with a := a, b := b } ∧
    ∀ k, (d.encoderLevels q a b).reelPos k = d.reelPos k := by
  have hedge (k : Nat) (x : Dev) : (illegalEdge q k x).encoder q = x.encoder q ∧ ∀ j, (illegalEdge q k x).reelPos j = x.reelPos j := by
    unfold illegalEdge rcount countFrz
    extract_lets r first
    generalize hy : x.setReel k _ = y
    have hpos (j : Nat) : y.reelPos j = x.reelPos j := by rw [← hy]; rfl
    have henc : y.encoder q = x.encoder q := by rw [← hy]; rfl
    split
    · exact ⟨henc, hpos⟩
    · refine ⟨henc, fun j => Eq.trans (reelPos_of_rreg ?_ ?_) (hpos j)⟩
      · exact rreg_rset_other y _ (by omega) (by omega) (.inr (by omega))
      · exact rreg_rset_other y _ (by omega) (by omega) (.inr (by omega))
  have hall := forEach_rel (R := fun x y => y.encoder q = x.encoder q ∧ ∀ j, y.reelPos j = x.reelPos j) (fun _ => ⟨rfl, fun _ => rfl⟩)
    (fun _ _ _ h k => ⟨k.1.trans h.1, fun j => (k.2 j).trans (h.2 j)⟩) (l := d.followers q) (f := illegalEdge q)
    (fun n _ x => hedge n x) (d.setEncoder q { d.encoder q with a := a, b := b })
  obtain ⟨henc, hpos⟩ := hall
  rw [encoderLevels_illegal d q a b ha hb]
  exact ⟨henc.trans (encoder_setEncoder _ _ _), hpos⟩

/-! ## Zero crossings (R63) -/

theorem sourceCount_moves {d : Dev} (h : d.NoMarks) (src : Nat) : d.ReelMoves (d.sourceCount src) := by
  have hlt : ∀ k ∈ (List.range 8).filter fun k => d.rsrc k == src, k < 8 := fun k hk => List.mem_range.1 (List.mem_filter.1 hk).1
  unfold sourceCount
  extract_lets ks
  have hcount : d.ReelMoves (forEach ks (fun k d => d.addCounts k 1 false) d) :=
    forEach_rel ReelMoves.refl (fun _ _ _ => ReelMoves.trans) (fun k hk x => (addCounts_moved x (hlt k hk) 1 false).1) d
  rw [channelsMoved_of_noMarks (hcount.noMarks h)]
  exact hcount.trans (judgeEach_moved _ hlt).1

theorem zcCross_accepted {d : Dev} {rising : Bool} (hp : d.pkg = .rm) (hm : d.NoMarks) (hr : rising = true ∨ d.flag 0x018 0x054 8 = true)
    (hlate : d.zc.any = true → d.zc.last + 1000 * d.field 0x018 0x054 19 12 ≤ d.now) :
    (d.zcCross rising).zc = { any := true, last := d.now, lost := false } := by
  have hedge : (rising || d.flag 0x018 0x054 8) = true := by simpa using hr
  have hmin : (d.zc.any && decide (d.now < d.zc.last + 1000 * d.field 0x018 0x054 19 12)) = false := by
    by_cases hany : d.zc.any = true
    · simp [hlate hany]
    · simp [hany]
  unfold zcCross
  extract_lets z
  rw [if_neg (by simp [hp, hedge]), if_neg (by simp [z, hmin])]
  exact (sourceCount_moves (d := { d with zc := { any := true, last := d.now, lost := false } }) hm 0x11).zc

theorem zcCross_ignored {d : Dev} {rising : Bool} (h : d.pkg = .tc ∨ (rising = false ∧ d.flag 0x018 0x054 8 = false) ∨
    (d.zc.any = true ∧ d.now < d.zc.last + 1000 * d.field 0x018 0x054 19 12)) : d.zcCross rising = d := by
  unfold zcCross
  extract_lets z
  rcases h with hp | ⟨hr, hf⟩ | ⟨hany, hearly⟩
  · rw [if_pos (by simp [hp])]
  · rw [if_pos (by simp [hr, hf])]
  · rw [if_pos (c := (z.any && decide _) = true) (by simp [z, hany, hearly]), ite_self]

theorem judgeAll_moved (d : Dev) : ReelMoved judgedRegs d d.judgeAll := judgeEach_moved d fun _ hk => List.mem_range.1 hk

theorem zcExpire_lost {d : Dev} (h : d.zc.last + 1000 * d.field 0x018 0x054 31 24 ≤ d.now) :
    d.zcExpire.zc.lost = true ∧ d.zcExpire.zc.last = d.zc.last := by
  unfold zcExpire
  rw [if_pos h, (judgeAll_moved _).1.zc]
  exact ⟨rfl, rfl⟩

end Dev

/-! ## The commands -/

theorem exec_encoderEdge (s : State) (q : Fin 4) (a b : Bool) :
    exec (.encoderEdge q a b) s = onDev (fun d => if d.pkg = .rm then d.encoderLevels q.val a b else d) s := rfl

theorem exec_zcCrossing (s : State) (rising : Bool) : exec (.zcCrossing rising) s = onDev (fun d => d.zcCross rising) s := rfl

theorem exec_zcTimeout (s : State) : exec .zcTimeout s = onDev Dev.zcExpire s := rfl

theorem encoderEdge_runs {s : State} (q : Fin 4) (a b : Bool) (hp : s.Powered) (hk : s.dev.pkg = .rm) :
    exec (.encoderEdge q a b) s = .next { s with dev := s.dev.encoderLevels q.val a b } := by
  rw [exec_encoderEdge, onDev_of_powered hp, if_pos hk]

/-- Settles O9: a command is the change of levels, the crossing or the expiry of its device, case by case. -/
theorem encodersAndZeroCrossings : Obligations.EncodersAndZeroCrossings := by
  unfold Obligations.EncodersAndZeroCrossings
  refine ⟨fun s q a b hp hk hm h => ⟨_, encoderEdge_runs q a b hp hk, ?_⟩, fun s q => onDev_of_fixed ?_,
    fun s q a b hp hk ha hb => ⟨_, encoderEdge_runs q a b hp hk, ?_⟩, fun s q a b hk => onDev_of_fixed (if_neg (by simp [hk])),
    fun s r hp hk hm hr hl => ⟨_, (exec_zcCrossing s r).trans (onDev_of_powered hp _), Dev.zcCross_accepted hk hm hr hl⟩,
    fun s r _ h => (exec_zcCrossing s r).trans (onDev_of_fixed (Dev.zcCross_ignored h)),
    fun s hp h => ⟨_, (exec_zcTimeout s).trans (onDev_of_powered hp _), Dev.zcExpire_lost h⟩⟩
  · simp only [Dev.encoder_encoderLevels h hm, Dev.netAfter_eq, true_and]
    exact fun k hsrc hs hc => Dev.reelPos_encoderLevels h hm q.isLt k.isLt hsrc hs hc
  · rw [Dev.encoderLevels_same, ite_self]
  · obtain ⟨henc, hpos⟩ := Dev.encoderLevels_illegal_spec ha hb
    simp only [henc, true_and]
    exact hpos

end Sys2Proof.Machine
end

section
/-!
Reel's channels as software and time move them: enable, disable and recovery, rate windows, losses and snapshots (R66–R73).
-/
namespace Sys2Proof

/-- Bits that a mask keeps. -/
theorem bits_and_of_ones {w m : Word} {hi lo : Nat} (h : ∀ i < hi + 1, lo ≤ i → m.getLsbD i = true) :
    bits (w &&& m) hi lo = bits w hi lo := by
  apply Nat.eq_of_testBit_eq
  intro i
  rw [testBit_bits, testBit_bits, BitVec.getLsbD_and]
  by_cases hi' : i < hi + 1 - lo
  · rw [h (lo + i) (by omega) (by omega), Bool.and_true]
  · simp [hi']

/-- Bits that a mask leaves free. -/
theorem bits_or_of_zeros {w m : Word} {hi lo : Nat} (h : ∀ i < hi + 1, lo ≤ i → m.getLsbD i = false) :
    bits (w ||| m) hi lo = bits w hi lo := by
  apply Nat.eq_of_testBit_eq
  intro i
  rw [testBit_bits, testBit_bits, BitVec.getLsbD_or]
  by_cases hi' : i < hi + 1 - lo
  · rw [h (lo + i) (by omega) (by omega), Bool.or_false]
  · simp [hi']

theorem bit_or (w m : Word) (i : Nat) : bit (w ||| m) i = (bit w i || bit m i) := by
  unfold bit
  rw [BitVec.toNat_or, Nat.testBit_or]

theorem bit_and (w m : Word) (i : Nat) : bit (w &&& m) i = (bit w i && bit m i) := by
  unfold bit
  rw [BitVec.toNat_and, Nat.testBit_and]

/-- A one-bit field is the bit. -/
theorem bits_bit (w : Word) (i : Nat) : bits w i i = (bit w i).toNat := by
  unfold bits bit
  rw [Nat.add_sub_cancel_left, pow_one, Nat.testBit, Nat.shiftRight_eq_div_pow, Nat.and_comm, Nat.and_one_is_mod]
  rcases Nat.mod_two_eq_zero_or_one (w.toNat / 2 ^ i) with h | h <;> rw [h] <;> rfl

namespace Machine
namespace Dev

variable {d d' : Dev} {k : Nat}

/-! ## Sources (R71) -/

/-- A camera's port follows the ROUTE entries (R94). -/
theorem camPort_of_routes (h : ∀ i < 16, d'.reg 0x038 (0x060 + 4 * i) = d.reg 0x038 (0x060 + 4 * i)) (n : Nat) :
    d'.camPort n = d.camPort n := by
  unfold camPort
  refine congrArg (Option.map (· / 4)) (List.find?_congr fun i hi => ?_)
  unfold flag field
  rw [h i (List.mem_range.1 hi)]

/-- Reel leaves the registers of the pages of intake. -/
theorem ReelMoves.reg (h : d.ReelMoves d') {p off : Nat} (hp : 0x01B ≤ p ∧ p < 0x150) (ho : off < 4096) : d'.reg p off = d.reg p off :=
  h.2 p off ho (by omega) (by omega) (by
    simp only [eventRegs, List.mem_cons, Prod.ext_iff, List.not_mem_nil, or_false]
    omega)

theorem ReelMoves.camDown (h : d.ReelMoves d') (n : Nat) : d'.camDown n = d.camDown n := by
  have hroutes (i : Nat) (hi : i < 16) : d'.reg 0x038 (0x060 + 4 * i) = d.reg 0x038 (0x060 + 4 * i) := h.reg (by omega) (by omega)
  unfold Dev.camDown
  rw [camPort_of_routes hroutes]
  split
  · next p hp =>
    have hlt : p < 4 := by
      unfold camPort at hp
      obtain ⟨i, hi, rfl⟩ := Option.map_eq_some_iff.1 hp
      have := List.mem_range.1 (List.mem_of_find?_eq_some hi)
      omega
    rw [flag_of_reg (h.reg (by omega) (by omega))]
  · rfl

/-- The source of a channel is lost as long as what judges it stands (R71): whether its window is spoiled does not. -/
theorem srcLost_of_moves (h : d.ReelMoves d') (hreel : ∃ b, d'.reel k = { d.reel k with bad := b }) (hsrc : d'.rsrc k = d.rsrc k)
    (htmo : d'.rreg k 0x10 = d.rreg k 0x10) : d'.srcLost k = d.srcLost k := by
  obtain ⟨b, hreel⟩ := hreel
  have hstalled : d'.stalled k = d.stalled k := by
    show decide ((d'.reel k).last + 1000 * max 1 (bits (d'.rreg k 0x10) 15 0) ≤ d'.now) =
      decide ((d.reel k).last + 1000 * max 1 (bits (d.rreg k 0x10) 15 0) ≤ d.now)
    rw [hreel, htmo, h.now]
  have hmic : d'.micClocked = d.micClocked := by
    unfold micClocked
    rw [h.mic, pageState_of_reg (h.reg (by omega) (by omega))]
  have hlink : d'.lstate 0 = d.lstate 0 := congrArg (fun w => bits w 2 0) (h.2 0x158 0x040 (by omega) (by omega) (by omega) (by simp [eventRegs]))
  unfold srcLost
  simp only [hsrc, hreel, hstalled, hmic, hlink, h.camDown, h.zc]

theorem overspeed_of_reel (hreel : d'.reel k = d.reel k) : d'.overspeed k = d.overspeed k := by
  unfold overspeed
  rw [hreel]

/-! ## CFG (R59, R66, R73) -/

/-- What a write of v leaves in CFG where it keeps SRC. -/
def cfgWord (v : Word) : Word := putBits (v &&& 0x1F733F) 5 1 (bits v 5 1)

theorem bits_cfgWord_src (v : Word) : bits (cfgWord v) 5 1 = bits v 5 1 := by
  rw [cfgWord, bits_putBits_same _ _ _ _ (by omega)]
  exact Nat.mod_eq_of_lt (Nat.mod_lt _ (by decide))

theorem bits_cfgWord_enable (v : Word) : bits (cfgWord v) 0 0 = bits v 0 0 := by
  rw [cfgWord, bits_putBits_other _ _ _ _ _ _ (by omega) (by omega), bits_and_of_ones (by decide)]

theorem bits_cfgWord_fallback (v : Word) : bits (cfgWord v) 8 8 = bits v 8 8 := by
  rw [cfgWord, bits_putBits_other _ _ _ _ _ _ (by omega) (by omega), bits_and_of_ones (by decide)]

/-- CFG of channel k after a write of v that keeps SRC. -/
def cfgSet (d : Dev) (k : Nat) (v : Word) : Dev := d.rset k 0 (cfgWord v)

/-- A write of CFG that keeps SRC is not refused, and acts by EN and RECOVER (R73). -/
theorem writeReelCfg_of_src {v : Word} (hsrc : bits v 5 1 = d.rsrc k) : d.writeReelCfg k v =
    if bit v 0 = false then (d.cfgSet k v).rsetField k 0x14 1 0 0
    else if (d.cfgSet k v).rstate k = 0 then
      if (d.cfgSet k v).srcLost k || (d.cfgSet k v).overspeed k then
        ((d.cfgSet k v).rsetField k 0x14 1 0 ((d.cfgSet k v).lossState k)).rcount k 0x28
      else (d.cfgSet k v).toTrack k
    else if bit v 24 && ((d.cfgSet k v).rstate k = 2 || (d.cfgSet k v).rstate k = 3) && 1 ≤ ((d.cfgSet k v).reel k).validRun &&
        !(d.cfgSet k v).srcLost k && !(d.cfgSet k v).overspeed k then
      (d.cfgSet k v).toTrack k
    else d.cfgSet k v := by
  have hkept : bits v 5 1 = bits (d.reg (reelReg k 0).1 (reelReg k 0).2) 5 1 := hsrc
  unfold writeReelCfg
  simp only [← hkept, bne_self_eq_false, Bool.false_and, Bool.and_false, Bool.false_eq_true, if_false, Bool.not_eq_true']
  rfl

variable {v : Word}

theorem cfgSet_moved (d : Dev) (hk : k < 8) (v : Word) : ReelMoved [(k, 0)] d (d.cfgSet k v) :=
  (ReelMoved.refl d).rset _ hk (by omega) (by simp)

theorem rreg_cfgSet (d : Dev) (k : Nat) (v : Word) : (d.cfgSet k v).rreg k 0 = cfgWord v := rreg_rset_same d k 0 _ (by omega)

theorem srcLost_cfgSet (hk : k < 8) (hsrc : bits v 5 1 = d.rsrc k) : (d.cfgSet k v).srcLost k = d.srcLost k := by
  have hmoved := cfgSet_moved d hk v
  refine srcLost_of_moves hmoved.1 ⟨_, rfl⟩ ?_ (hmoved.2 k hk _ (by omega) (by simp))
  show bits ((d.cfgSet k v).rreg k 0) 5 1 = _
  rw [rreg_cfgSet, bits_cfgWord_src, hsrc]

theorem rstate_cfgSet (d : Dev) (hk : k < 8) (v : Word) : (d.cfgSet k v).rstate k = d.rstate k :=
  rstate_of_rreg ((cfgSet_moved d hk v).2 k hk _ (by omega) (by simp))

theorem renabled_cfgSet (d : Dev) (k : Nat) (v : Word) : (d.cfgSet k v).renabled k = bit v 0 := by
  show (bits ((d.cfgSet k v).rreg k 0) 0 0 == 1) = bit v 0
  rw [rreg_cfgSet, bits_cfgWord_enable, bits_bit]
  cases bit v 0 <;> rfl

theorem lossState_cfgSet (hf : bits v 8 8 = bits (d.rreg k 0) 8 8) : (d.cfgSet k v).lossState k = d.lossState k := by
  show (if bits ((d.cfgSet k v).rreg k 0) 8 8 = 1 then 2 else 3) = if bits (d.rreg k 0) 8 8 = 1 then 2 else 3
  rw [rreg_cfgSet, bits_cfgWord_fallback, hf]

/-! ## TRACK (R73) -/

theorem toTrack_of_noMarks (h : d.NoMarks) (hk : k < 8) : d.toTrack k = d.rsetField k 0x14 1 0 1 := by
  have hmoved : ReelMoved [(k, 0x14)] d (d.rsetField k 0x14 1 0 1) := (ReelMoved.refl d).rset _ hk (by omega) (by simp)
  exact checkMarks_of_noMarks (hmoved.1.noMarks h) k

theorem rstate_toTrack (h : d.NoMarks) (hk : k < 8) : (d.toTrack k).rstate k = 1 := by
  rw [toTrack_of_noMarks h hk, rstate_rsetField]

theorem renabled_of_rreg (h : d'.rreg k 0 = d.rreg k 0) : d'.renabled k = d.renabled k := congrArg (fun w => bits w 0 0 == 1) h

theorem bit_of_renabled (h : d.renabled k = true) : bit (d.rreg k 0) 0 = true := by
  have hen : bits (d.rreg k 0) 0 0 = 1 := beq_iff_eq.1 h
  rw [bits_bit] at hen
  exact Bool.toNat_eq_one.1 hen

/-- A channel enabled (R73). -/
theorem writeReelCfg_enables (hk : k < 8) (hm : d.NoMarks) (hs : d.rstate k = 0) (hen : bit v 0 = true) (hsrc : bits v 5 1 = d.rsrc k)
    (hf : bits v 8 8 = bits (d.rreg k 0) 8 8) : (d.writeReelCfg k v).renabled k = true ∧
      (d.writeReelCfg k v).rstate k = if d.srcLost k || d.overspeed k then d.lossState k else 1 := by
  have hcfg : (d.cfgSet k v).renabled k = true := (renabled_cfgSet d k v).trans hen
  have hspeed : (d.cfgSet k v).overspeed k = d.overspeed k := overspeed_of_reel rfl
  rw [writeReelCfg_of_src hsrc, if_neg (by simp [hen]), rstate_cfgSet d hk, if_pos hs, srcLost_cfgSet hk hsrc, hspeed, lossState_cfgSet hf]
  split
  · have hcases := d.lossState_cases k
    have hcount : ReelMoved [(k, 0x28)] ((d.cfgSet k v).rsetField k 0x14 1 0 (d.lossState k))
        (((d.cfgSet k v).rsetField k 0x14 1 0 (d.lossState k)).rcount k 0x28) := (ReelMoved.refl _).rcount 1 hk (by omega) (by simp)
    have hstat : ReelMoved [(k, 0x14)] (d.cfgSet k v) ((d.cfgSet k v).rsetField k 0x14 1 0 (d.lossState k)) :=
      (ReelMoved.refl _).rset _ hk (by omega) (by simp)
    rw [renabled_of_rreg (hcount.2 k hk _ (by omega) (by simp)), renabled_of_rreg (hstat.2 k hk _ (by omega) (by simp)),
      rstate_of_rreg (hcount.2 k hk _ (by omega) (by simp)), rstate_rsetField]
    exact ⟨hcfg, by omega⟩
  · have hmarks : (d.cfgSet k v).NoMarks := (cfgSet_moved d hk v).1.noMarks hm
    have hstat : ReelMoved [(k, 0x14)] (d.cfgSet k v) ((d.cfgSet k v).rsetField k 0x14 1 0 1) :=
      (ReelMoved.refl _).rset _ hk (by omega) (by simp)
    refine ⟨?_, rstate_toTrack hmarks hk⟩
    rw [toTrack_of_noMarks hmarks hk, renabled_of_rreg (hstat.2 k hk _ (by omega) (by simp))]
    exact hcfg

/-- A channel disabled (R66, R73). -/
theorem writeReelCfg_disables (hk : k < 8) (hen : bit v 0 = false) (hsrc : bits v 5 1 = d.rsrc k) :
    (d.writeReelCfg k v).renabled k = false ∧ (d.writeReelCfg k v).rstate k = 0 ∧ (d.writeReelCfg k v).reelPos k = d.reelPos k := by
  have hstat : ReelMoved [(k, 0x14)] (d.cfgSet k v) ((d.cfgSet k v).rsetField k 0x14 1 0 0) :=
    (ReelMoved.refl _).rset _ hk (by omega) (by simp)
  rw [writeReelCfg_of_src hsrc, if_pos hen, rstate_rsetField, renabled_of_rreg (hstat.2 k hk _ (by omega) (by simp)), renabled_cfgSet,
    hstat.reelPos hk (by simp) (by simp), (cfgSet_moved d hk v).reelPos hk (by simp) (by simp)]
  exact ⟨hen, rfl, rfl⟩

/-- A channel recovered by software (R73). -/
theorem writeReelCfg_recovers (hk : k < 8) (hm : d.NoMarks) (hen : bit v 0 = true) (hrec : bit v 24 = true)
    (hsrc : bits v 5 1 = d.rsrc k) (hs : d.rstate k = 2 ∨ d.rstate k = 3) (hrun : 1 ≤ (d.reel k).validRun)
    (hlost : d.srcLost k = false) (hspeed : d.overspeed k = false) : (d.writeReelCfg k v).rstate k = 1 := by
  have hspeed' : (d.cfgSet k v).overspeed k = false := (overspeed_of_reel rfl).trans hspeed
  have hrun' : 1 ≤ ((d.cfgSet k v).reel k).validRun := hrun
  rw [writeReelCfg_of_src hsrc, if_neg (by simp [hen]), rstate_cfgSet d hk, if_neg (by omega), srcLost_cfgSet hk hsrc, hspeed', hlost,
    if_pos (by simp [hrec, hs, hrun'])]
  exact rstate_toTrack ((cfgSet_moved d hk v).1.noMarks hm) hk

/-! ## Rate windows (R69) -/

/-- The mean rate of the window of channel k that ends now (R69). -/
def meanRate (d : Dev) (k : Nat) : Nat := min 0xFFFFFFFF ((d.reel k).units * 1000 / d.rateWin k / 2 ^ 24)

theorem windowEnd_spec (hk : k < 8) (hm : d.NoMarks) (h : (d.reel k).opened + 1000 * d.rateWin k ≤ d.now) :
    (d.windowEnd k).rword k 0x20 = d.meanRate k ∧ ((d.windowEnd k).reel k).units = 0 ∧
      ((d.windowEnd k).reel k).opened = (d.reel k).opened + 1000 * d.rateWin k := by
  have hrate : (d.rset k 0x20 (BitVec.ofNat 32 (d.meanRate k))).rword k 0x20 = d.meanRate k := by
    show ((d.rset k 0x20 (BitVec.ofNat 32 (d.meanRate k))).rreg k 0x20).toNat = _
    have hlt : d.meanRate k ≤ 0xFFFFFFFF := Nat.min_le_left _ _
    rw [rreg_rset_same _ _ _ _ (by omega), BitVec.toNat_ofNat, Nat.mod_eq_of_lt (by omega)]
  have hset : ReelMoved [(k, 0x20)] d (d.rset k 0x20 (BitVec.ofNat 32 (d.meanRate k))) := (ReelMoved.refl d).rset _ hk (by omega) (by simp)
  unfold windowEnd
  rw [if_pos h]
  extract_lets rate d1 r1 valid d2 run c3 d3 c4 d4
  have hr1 : r1.units = 0 ∧ r1.opened = (d.reel k).opened + 1000 * d.rateWin k := ⟨rfl, rfl⟩
  have hd1 : d1.rword k 0x20 = d.meanRate k ∧ d1.NoMarks := ⟨hrate, hset.1.noMarks hm⟩
  clear_value r1 d1
  have h4 : ReelMoved [(k, 0x14), (k, 0x28)] d1 d4 :=
    ((((ReelMoved.refl d1).setReel k r1).trans (judge_moved _ hk (by simp) (by simp))).setReel k _).setReel k _
  have hreel : (d4.reel k).units = r1.units ∧ (d4.reel k).opened = r1.opened := by
    obtain ⟨b, hb⟩ := reel_judge (d1.setReel k r1) k k
    rw [reel_setReel, if_pos rfl] at hb
    simp only [d4, c4, d3, c3, d2, reel_setReel, if_true, hb, and_self]
  have hword (x : Dev) (hx : ReelMoved [(k, 0x14), (k, 0x28)] d1 x) : x.rword k 0x20 = d.meanRate k :=
    (congrArg BitVec.toNat (hx.2 k hk 0x20 (by omega) (by simp))).trans hd1.1
  rw [← hr1.1, ← hr1.2]
  split
  · rw [toTrack_of_noMarks (h4.1.noMarks hd1.2) hk]
    exact ⟨hword _ (h4.rset _ hk (by omega) (by simp)), hreel⟩
  · exact ⟨hword _ h4, hreel⟩

/-! ## No count for STALL_TMO (R71, R72) -/

theorem srcLost_of_stalled (hsrc : (8 ≤ d.rsrc k ∧ d.rsrc k < 0x10) ∨ d.rsrc k = 0x12) (hst : d.stalled k = true) : d.srcLost k = true := by
  unfold srcLost
  dsimp only
  rw [if_neg (by omega), if_neg (by omega), if_neg (by omega), hst]
  rcases hsrc with ⟨-, hlt⟩ | hkakan
  · rw [if_pos hlt, Bool.true_or]
  · rw [if_neg (by omega), if_neg (by omega), if_neg (by omega), Bool.true_or]

theorem srcLost_judge (d : Dev) (hk : k < 8) : (judge k d).srcLost k = d.srcLost k := by
  have hmoved : ReelMoved [(k, 0x14), (k, 0x28)] d (judge k d) := judge_moved d hk (by simp) (by simp)
  exact srcLost_of_moves hmoved.1 (reel_judge d k k) (rsrc_of_rreg (hmoved.2 k hk _ (by omega) (by simp)))
    (hmoved.2 k hk _ (by omega) (by simp))

theorem bit_reelStat_loss (d : Dev) (k : Nat) : bit (d.reelStat k) 5 = d.srcLost k := by
  unfold reelStat
  dsimp only
  rw [bit_putBit_other _ _ _ _ (by omega), bit_putBit_other _ _ _ _ (by omega), bit_putBit_same _ _ _ (by omega)]

theorem stallExpire_spec (hk : k < 8) (hsrc : (8 ≤ d.rsrc k ∧ d.rsrc k < 0x10) ∨ d.rsrc k = 0x12) (hst : d.stalled k = true)
    (hs : d.rstate k = 1) : (d.stallExpire k).rstate k = d.lossState k ∧ bit ((d.stallExpire k).reelStat k) 5 = true := by
  have hlost := srcLost_of_stalled hsrc hst
  unfold stallExpire
  rw [if_pos hst, bit_reelStat_loss, srcLost_judge d hk]
  exact ⟨rstate_judge_of_lost d hk hs hlost, hlost⟩

/-! ## Snapshots (R67) -/

theorem reg_setPair48_other (d : Dev) {p off q o : Nat} (v : Nat) (h : q ≠ p ∨ (o ≠ off ∧ o ≠ off + 4)) (ho : o < 4096)
    (hf : off + 4 < 4096) : (d.setPair48 p off v).reg q o = d.reg q o := by
  unfold setPair48
  rw [reg_setReg_other _ _ _ _ _ _ (by omega) ho (by omega), reg_setReg_other _ _ _ _ _ _ (by omega) ho (by omega)]

theorem pair48_of_reg {p off : Nat} (hlo : d'.reg p off = d.reg p off) (hhi : d'.reg p (off + 4) = d.reg p (off + 4)) :
    d'.pair48 p off = d.pair48 p off := by
  unfold pair48 field
  rw [hlo, hhi]

/-- The snapshot of channel k and its position stand. -/
def SnapStands (k : Nat) (d d' : Dev) : Prop :=
  d'.pair48 0x018 (0x080 + 8 * k) = d.pair48 0x018 (0x080 + 8 * k) ∧ d'.reelPos k = d.reelPos k

theorem reelPos_snap (d : Dev) (hk : k < 8) {o : Nat} (v : Nat) (ho : o + 4 < 4096) : (d.setPair48 0x018 o v).reelPos k = d.reelPos k :=
  have hpage : (reelReg k 0x18).1 ≠ 0x018 := by
    unfold reelReg
    omega
  pair48_of_reg (reg_setPair48_other d v (.inl hpage) (by unfold reelReg; omega) ho)
    (reg_setPair48_other d v (.inl hpage) (by unfold reelReg; omega) ho)

theorem snapStands_other (d : Dev) (hk : k < 8) {n : Nat} (hn : n < 8) (hne : n ≠ k) (v : Nat) :
    SnapStands k d (d.setPair48 0x018 (0x080 + 8 * n) v) :=
  ⟨pair48_of_reg (reg_setPair48_other d v (.inr (by omega)) (by omega) (by omega))
    (reg_setPair48_other d v (.inr (by omega)) (by omega) (by omega)), reelPos_snap d hk v (by omega)⟩

theorem snapStands_count (d : Dev) (hk : k < 8) : SnapStands k d (d.countFrz 0x018 0x060) := by
  have hreg (q o : Nat) (ho : o < 4096) (h : q ≠ 0x018 ∨ o ≠ 0x060) : (d.countFrz 0x018 0x060).reg q o = d.reg q o := by
    unfold countFrz
    split
    · rfl
    · exact reg_setReg_other _ _ _ _ _ _ h ho (by omega)
  have hpage : (reelReg k 0x18).1 ≠ 0x018 ∧ (reelReg k 0x18).2 + 4 < 4096 := by
    unfold reelReg
    omega
  exact ⟨pair48_of_reg (hreg _ _ (by omega) (.inr (by omega))) (hreg _ _ (by omega) (.inr (by omega))),
    pair48_of_reg (hreg _ _ (by omega) (.inl hpage.1)) (hreg _ _ (by omega) (.inl hpage.1))⟩

/-- TAKE copies every position (R67). -/
theorem snapTake_spec (d : Dev) (hk : k < 8) :
    d.snapTake.pair48 0x018 (0x080 + 8 * k) = d.reelPos k ∧ d.snapTake.reelPos k = d.reelPos k := by
  obtain ⟨e, ⟨-, hbefore⟩, hafter, hpos⟩ := forEach_once (R := SnapStands k) (l := List.range 8)
    (f := fun n x => x.setPair48 0x018 (0x080 + 8 * n) (x.reelPos n)) (fun _ => ⟨rfl, rfl⟩)
    (fun _ _ _ h h' => ⟨h'.1.trans h.1, h'.2.trans h.2⟩) (List.mem_range.2 hk) List.nodup_range
    (fun n hn hne x => snapStands_other x hk (List.mem_range.1 hn) hne _) d
  obtain ⟨hsnap, hstand⟩ := snapStands_count
    (forEach (List.range 8) (fun n x => x.setPair48 0x018 (0x080 + 8 * n) (x.reelPos n)) d) hk
  unfold snapTake
  rw [hsnap, hstand, hafter, hpos, pair48_setPair48 e (reelPos_lt e k), reelPos_snap e hk _ (by omega), hbefore]
  exact ⟨rfl, rfl⟩

end Dev

/-! ## The commands -/

/-- An admitted write of CFG with some bits set and others cleared. -/
theorem reelCfgWrite_of_admits {s : State} {ag : Agent} {k : Nat} (h : s.Admits ag (reelReg k 0).1) (on off : Word) :
    reelCfgWrite ag k on off s = .next { s with dev := s.dev.writeReelCfg k ((s.dev.rreg k 0 &&& ~~~ off) ||| on) } := by
  rw [reelCfgWrite, onDev_of_powered h.1.1, rwlWrite_of_admits h]
  rfl

theorem exec_channelEnable (s : State) (ag : Agent) (k : Fin 8) : exec (.channelEnable ag k) s = reelCfgWrite ag k.val 1 0 s := rfl
theorem exec_channelDisable (s : State) (ag : Agent) (k : Fin 8) : exec (.channelDisable ag k) s = reelCfgWrite ag k.val 0 1 s := rfl
theorem exec_channelRecover (s : State) (ag : Agent) (k : Fin 8) :
    exec (.channelRecover ag k) s = reelCfgWrite ag k.val 0x01000000 0 s := rfl
theorem exec_rateWindowEnd (s : State) (k : Fin 8) : exec (.rateWindowEnd k) s = onDev (fun d => d.windowEnd k.val) s := rfl
theorem exec_stallTmoExpiry (s : State) (k : Fin 8) : exec (.stallTmoExpiry k) s = onDev (fun d => d.stallExpire k.val) s := rfl

/-- Settles O10: a channel's command is a write of its CFG that keeps SRC, the end of a window, a judgement or the copy of the positions. -/
theorem reelChannels : Obligations.ReelChannels := by
  unfold Obligations.ReelChannels
  refine ⟨fun s ag k ha hm hs => ⟨_, (exec_channelEnable s ag k).trans (reelCfgWrite_of_admits ha _ _), ?enable⟩,
    fun s ag k ha => ⟨_, (exec_channelDisable s ag k).trans (reelCfgWrite_of_admits ha _ _), ?disable⟩,
    fun s ag k ha hm hen hs hrun hlost hspeed => ⟨_, (exec_channelRecover s ag k).trans (reelCfgWrite_of_admits ha _ _), ?recover⟩,
    fun s k hp hm h => ⟨_, (exec_rateWindowEnd s k).trans (onDev_of_powered hp _), Dev.windowEnd_spec k.isLt hm h⟩,
    fun s k hp hsrc hst hs => ⟨_, (exec_stallTmoExpiry s k).trans (onDev_of_powered hp _), Dev.stallExpire_spec k.isLt hsrc hst hs⟩,
    fun s ag hr => ⟨_, (exec_snapTake s ag).trans (onDev_of_powered hr.1 _), ?snap⟩⟩
  case enable =>
    refine Dev.writeReelCfg_enables k.isLt hm hs ?_ ?_ ?_
    · exact (bit_or _ _ _).trans (Bool.or_true _)
    · exact (bits_or_of_zeros (by decide)).trans (bits_and_of_ones (by decide))
    · exact (bits_or_of_zeros (by decide)).trans (bits_and_of_ones (by decide))
  case disable =>
    refine Dev.writeReelCfg_disables k.isLt ?_ ?_
    · exact (bit_or _ _ _).trans ((Bool.or_false _).trans ((bit_and _ _ _).trans (Bool.and_false _)))
    · exact (bits_or_of_zeros (by decide)).trans (bits_and_of_ones (by decide))
  case recover =>
    refine Dev.writeReelCfg_recovers k.isLt hm ?_ ?_ ?_ hs hrun hlost hspeed
    · exact (bit_or _ _ _).trans ((Bool.or_false _).trans ((bit_and _ _ _).trans ((Bool.and_true _).trans (Dev.bit_of_renabled hen))))
    · exact (bit_or _ _ _).trans (Bool.or_true _)
    · exact (bits_or_of_zeros (by decide)).trans (bits_and_of_ones (by decide))
  case snap =>
    rw [anyWrite_of_reaches hr]
    exact fun k => Dev.snapTake_spec s.dev k.isLt

end Machine
end Sys2Proof
end

section
/-!
Intake's ports, gaps and triggers (R71, R90, R91, R96, R98): a port that goes down ends the frames of its cameras one camera at a time,
and a gap is a record of its own.
-/
namespace Sys2Proof.Machine
namespace Dev

variable {d d' : Dev}

/-! ## Ports (R71, R96) -/

/-- What a port that goes down does to one camera (R96). -/
def cameraDown (n : Nat) (d : Dev) : Dev :=
  streamWork n ((d.dropFrame n 5).setChan n { (d.dropFrame n 5).chan n with skip := false })

theorem csiDown_eq (d : Dev) {p : Nat} (h : d.absentPage 0x038 = false) : d.csiDown p =
    (forEach ((List.range 8).filter fun n => (d.setFlag 0x038 (0x050 + 4 * p) 0 false).camPort n == some p) cameraDown
      (d.setFlag 0x038 (0x050 + 4 * p) 0 false)).judgeAll := by
  unfold csiDown
  rw [if_neg (by simp [h])]
  rfl

theorem cameraDown_ends (d : Dev) {n : Nat} (hn : n < 24) : d.FramesEnd (cameraDown n d) ∧ ((cameraDown n d).chan n).frame = none := by
  obtain ⟨hdrop, hnone⟩ := dropFrame_ends d hn 5
  have hskip : (d.dropFrame n 5).FramesEnd (cameraDown n d) := ((FramesEnd.refl _).setChan n (.inl (by rfl))).streamWork hn
  exact ⟨hdrop.trans hskip, hskip.1 n hnone⟩

/-- The routes of the cameras stand where a port's state moves (R94). -/
theorem camPort_setPort (d : Dev) {p : Nat} (hp : p < 4) (v : Bool) (n : Nat) :
    (d.setFlag 0x038 (0x050 + 4 * p) 0 v).camPort n = d.camPort n :=
  camPort_of_routes (fun _ _ => reg_setReg_other _ _ _ _ _ _ (.inr (by omega)) (by omega) (by omega)) n

theorem csiDown_spec (d : Dev) {p : Nat} (hp : p < 4) (h : d.absentPage 0x038 = false) :
    (d.csiDown p).flag 0x038 (0x050 + 4 * p) 0 = false ∧
      ∀ n < 8, d.camPort n = some p → ((d.csiDown p).chan n).frame = none := by
  rw [csiDown_eq d h]
  simp only [camPort_setPort d hp]
  generalize hset : d.setFlag 0x038 (0x050 + 4 * p) 0 false = e
  have hflag : e.flag 0x038 (0x050 + 4 * p) 0 = false := hset ▸ flag_setFlag_same _ _ _ _ _ (by omega)
  have hcam (n : Nat) (hn : n ∈ (List.range 8).filter fun n => d.camPort n == some p) (x : Dev) : x.FramesEnd (cameraDown n x) :=
    (cameraDown_ends x (Nat.lt_trans (List.mem_range.1 (List.mem_filter.1 hn).1) (by omega))).1
  have hdown := forEach_rel FramesEnd.refl (fun _ _ _ => FramesEnd.trans) hcam e
  have hjudged := (judgeAll_moved (forEach ((List.range 8).filter fun n => d.camPort n == some p) cameraDown e)).1
  refine ⟨?_, fun n hn hport => ?_⟩
  · rw [flag_of_reg (hjudged.reg (by omega) (by omega)), flag_of_reg (hdown.2 _ (by omega)), hflag]
  · have hmem : n ∈ (List.range 8).filter fun n => d.camPort n == some p := List.mem_filter.2 ⟨List.mem_range.2 hn, by simp [hport]⟩
    obtain ⟨x, -, hend⟩ := forEach_once FramesEnd.refl (fun _ _ _ => FramesEnd.trans) hmem
      (List.nodup_range.filter _) (fun m hm _ => hcam m hm) e
    rw [chan, hjudged.chans]
    exact hend.1 n (cameraDown_ends x (by omega)).2

theorem csiUp_spec (d : Dev) (p : Nat) (hp : p < 4) :
    (d.setFlag 0x038 (0x050 + 4 * p) 0 true).judgeAll.flag 0x038 (0x050 + 4 * p) 0 = true ∧
      (d.setFlag 0x038 (0x050 + 4 * p) 0 true).judgeAll.chans = d.chans := by
  have hjudged := (judgeAll_moved (d.setFlag 0x038 (0x050 + 4 * p) 0 true)).1
  exact ⟨(flag_of_reg (hjudged.reg (by omega) (by omega)) 0).trans (flag_setFlag_same _ _ _ _ _ (by omega)), hjudged.chans⟩

/-! ## Gaps (R90, R91) -/

theorem flushGaps_nil {n : Nat} (svc : Bool) (next k : Nat) (h : (d.chan n).gaps = []) : flushGaps n svc next k d = d := by
  cases k with
  | zero => rfl
  | succ k =>
    unfold flushGaps
    rw [h]

/-- The only gap of a channel is written where it fits (R91). -/
theorem flushGaps_single {n cause cnt next k : Nat} (hn : n < 24) (hf : d.frozen (chanPage n) = false)
    (hg : (d.chan n).gaps = [(cause, cnt)])
    (hr : d.recRoom n (if cause = 1 then d.gapNeed n next else d.recNeed n (d.recWr n) 0) = true) :
    ((flushGaps n false next (k + 1) d).chan n).gaps = [] ∧
      (flushGaps n false next (k + 1) d).reg (chanPage n) 0x058 = d.reg (chanPage n) 0x058 + 1 ∧
      (flushGaps n false next (k + 1) d).reg (chanPage n) 0x060 = satAdd (d.reg (chanPage n) 0x060) 1 := by
  generalize hset : d.setChan n { d.chan n with gaps := [] } = e
  have hempty : (e.chan n).gaps = [] := by rw [← hset, chan_setChan, if_pos rfl]
  have hreg (o : Nat) : e.reg (chanPage n) o = d.reg (chanPage n) o := by rw [← hset]; rfl
  have hfrozen : e.frozen (chanPage n) = false := by rw [← hset]; exact hf
  obtain ⟨hchan, -, hseq, hcount⟩ := writeRecord_spec e hn { type := 0x0F, tag := e.chanTag n, count := cnt, aux := cause }
  have hgaps := (hchan n).1.trans hempty
  unfold flushGaps
  rw [hg]
  dsimp only
  rw [hf, Bool.false_and, if_neg Bool.false_ne_true, if_pos hr, hset, flushGaps_nil _ _ _ hgaps, ← hreg, ← hreg]
  exact ⟨hgaps, hseq, hcount rfl hfrozen⟩

/-- An OVERFLOW gap waits for room for itself and the largest record (R91). -/
theorem flushGaps_waits {n cnt next k : Nat} {rest : List (Nat × Nat)} (hg : (d.chan n).gaps = (1, cnt) :: rest)
    (hr : d.recRoom n (d.gapNeed n next) = false) : flushGaps n false next k d = d := by
  cases k with
  | zero => rfl
  | succ k =>
    unfold flushGaps
    rw [hg]
    simp [hr]

/-! ## Triggers (R98) -/

theorem trigEnd_ends {n t : Nat} (h : (d.chan n).trigOn = some t) (ht : t + max 1 (d.field (chanPage n) 0x084 15 8) ≤ d.now) :
    ((d.trigEnd n).chan n).trigOn = none ∧ (d.trigEnd n).camTrigPin n = d.flag (chanPage n) 0x084 1 := by
  have hnone : ((d.setChan n { d.chan n with trigOn := none }).chan n).trigOn = none := by rw [chan_setChan, if_pos rfl]
  unfold trigEnd
  rw [h]
  dsimp only
  rw [if_pos ht]
  refine ⟨hnone, ?_⟩
  unfold camTrigPin
  rw [hnone]
  exact Bool.false_bne _

theorem trigEnd_waits {n t : Nat} (h : (d.chan n).trigOn = some t) (ht : d.now < t + max 1 (d.field (chanPage n) 0x084 15 8)) :
    d.trigEnd n = d := by
  unfold trigEnd
  rw [h]
  exact if_neg (by omega)

end Dev

/-! ## The commands -/

section
variable (s : State)

theorem exec_csiLinkDown (p : Fin 4) : exec (.csiLinkDown p) s = onDev (fun d => d.csiDown p.val) s := rfl
theorem exec_csiLinkUp (p : Fin 4) : exec (.csiLinkUp p) s =
    onDev (fun d => if d.absentPage 0x038 then d else (d.setFlag 0x038 (0x050 + 4 * p.val) 0 true).judgeAll) s := rfl
theorem exec_overflowGapWrite (n : Fin 24) : exec (.overflowGapWrite n) s =
    onDev (fun d => if d.capturing n.val then Dev.flushGaps n.val false (d.maxPayload n.val) 8 d else d) s := rfl
theorem exec_camTrigEnd (n : Fin 8) : exec (.camTrigEnd n) s = onDev (fun d => d.trigEnd n.val) s := rfl

end

/-- Settles O13: a port, a gap and a trigger each by what its command does to the device. -/
theorem intakePorts : Obligations.IntakePorts := by
  unfold Obligations.IntakePorts
  refine ⟨fun s p hp ha => ⟨_, (exec_csiLinkDown s p).trans (onDev_of_powered hp _), ?down⟩,
    fun s p hp ha => ⟨_, (exec_csiLinkUp s p).trans (onDev_of_powered hp _), ?up⟩,
    fun s n cause cnt hp hc hg hr => ⟨_, (exec_overflowGapWrite s n).trans (onDev_of_powered hp _), ?gap⟩,
    fun s n cnt rest hp hg hr => (exec_overflowGapWrite s n).trans (onDev_of_fixed ?waits),
    fun s n t hp h ht => ⟨_, (exec_camTrigEnd s n).trans (onDev_of_powered hp _), Dev.trigEnd_ends h ht⟩,
    fun s n t h ht => (exec_camTrigEnd s n).trans (onDev_of_fixed (Dev.trigEnd_waits h ht))⟩
  case down =>
    obtain ⟨hflag, hframes⟩ := Dev.csiDown_spec s.dev p.isLt ha
    exact ⟨hflag, fun n hport => hframes n.val n.isLt hport⟩
  case up =>
    rw [if_neg (by simp [ha])]
    exact Dev.csiUp_spec s.dev p.val p.isLt
  case gap =>
    obtain ⟨hpresent, hruns, hfrozen⟩ := hc
    rw [if_pos (by simp [Dev.capturing, hpresent, hruns])]
    exact Dev.flushGaps_single n.isLt hfrozen hg hr
  case waits => rw [Dev.flushGaps_waits hg hr, ite_self]

end Sys2Proof.Machine
end

section
/-!
MARKs (03): the firing of MARK28 whose encoder snapshot posts a notification, while a task still stands on delay list 0 (R79, R92, R107).
-/
namespace Sys2Proof.Machine

/-- A task of RING0 that waits on delay list 0, with SEQ 9. -/
def strayTask : Task := { ring := 0, seq := 9, words := [], by_ := .hardware, st := .delayed, order := 0 }

/-- MARK28 is free, list 0 being disabled, though `strayTask` stands on the list. Port A holds the claim of page 0x01B, and channel 0 is in
TRACK at position 0. A firing of MARK28 takes an encoder snapshot of SC20, which is READY with a record buffer in the AON SRAM and notifies
RING0 of every record. RING0 is a FENCE ring of FLYER tasks, so that the SPINDLE task of the notification fails with FORMAT (R291). -/
def strayEntry : State :=
  let marks := (({} : Dev).setField 0x01B 0x024 9 8 1).setTask 5 (some strayTask)
  let reel := (marks.setReg 0x019 0x040 1).setReg 0x019 0x054 1
  let ring := ((reel.setPageState 0x100 1).setReg 0x100 0x040 0x101).setReg 0x100 0x044 8
  let buffer := ((ring.setPageState 0x034 1).setPair48 0x034 0x044 0x10004001000).setReg 0x034 0x04C 1024
  { State.reset with dev := (buffer.setReg 0x034 0x064 0x100).setReg 0x034 0x080 0x11C }

theorem strayEntry_premises : strayEntry.Admits .portA 0x01B ∧ strayEntry.dev.markOwner 28 = none ∧ strayEntry.dev.NoMarks ∧
    strayEntry.dev.reelStale 0 = false ∧ reached (strayEntry.dev.reelPos 0) (strayEntry.dev.markTgt 28) = true ∧
    strayEntry.dev.frozen 0x01B = false := by decide +kernel

/-- The notification's task fails, its ring is fenced (R329), and `strayTask` is cancelled; list 0 is then empty, and MARK28 follows it. -/
theorem strayEntry_disarms : (strayEntry.dev.writeMctrl 28 0x11 true).mfield 28 0 0 0 = 0 := by decide +kernel

/-- Refutes O11: the clause of MARK_ARM has a PERIODIC MARK keep EN through its firing in every state. Where the MARK is free and yet a
task stands on its disabled delay list, the firing's encoder snapshot may post a notification that fails and fences its ring; the task
is cancelled with it, the MARK follows the emptied list (R306), and EN is 0 and not 1. -/
theorem not_marksAndTime : ¬ Obligations.MarksAndTime := by
  unfold Obligations.MarksAndTime
  rintro ⟨-, -, hfires, -⟩
  obtain ⟨hadm, hown, hmarks, hstale, hreached, hfrozen⟩ := strayEntry_premises
  obtain ⟨t, hrun, -, -, -, hen⟩ :=
    hfires strayEntry .portA 28 0x11 hadm hown (by decide) hmarks hstale hreached (by decide) hfrozen
  have hexec : exec (.markArm .portA 28 (.control 0x11)) strayEntry =
      .next { strayEntry with dev := strayEntry.dev.writeMctrl 28 0x11 true } :=
    (onDev_of_powered hadm.1.1 _).trans (by rw [rwlWrite_of_admits hadm]; rfl)
  obtain rfl : _ = t := Host.Outcome.next.inj (hexec.symm.trans hrun)
  have hindex : ((28 : Fin 32) : Nat) = 28 := rfl
  simp only [hindex, strayEntry_disarms] at hen
  exact absurd hen (by decide)

end Sys2Proof.Machine
end

section
/-!
What a capture of a stream channel, or its loss, leaves alone: everything that the peripherals keep but the channel's own accounts, and
every register of theirs but a few of the channel's page (R85–R92).
-/
namespace Sys2Proof.Machine

/-- From `c` to `c'` a channel's accounts of losses, records and notifications moved, and nothing of what it receives. -/
def Chan.Books (c c' : Chan) : Prop :=
  c' = { c with gaps := c'.gaps, since := c'.since, lost := c'.lost, recs := c'.recs, wroteAt := c'.wroteAt, owed := c'.owed }

theorem Chan.Books.refl (c : Chan) : c.Books c := rfl

theorem Chan.Books.trans {a b c : Chan} (h : a.Books b) (k : b.Books c) : a.Books c := by
  unfold Chan.Books at *
  rw [k, h]

section
variable {c c' : Chan}

theorem Chan.Books.frame (h : c.Books c') : c'.frame = c.frame := by rw [h]
theorem Chan.Books.skip (h : c.Books c') : c'.skip = c.skip := by rw [h]
theorem Chan.Books.done (h : c.Books c') : c'.done = c.done := by rw [h]
theorem Chan.Books.words (h : c.Books c') : c'.words = c.words := by rw [h]
theorem Chan.Books.busy (h : c.Books c') : c'.busy = c.busy := by rw [h]
theorem Chan.Books.edge (h : c.Books c') : c'.edge = c.edge := by rw [h]
theorem Chan.Books.readTag (h : c.Books c') : c'.readTag = c.readTag := by rw [h]
theorem Chan.Books.period (h : c.Books c') : c'.period = c.period := by rw [h]
theorem Chan.Books.push (h : c.Books c') : c'.push = c.push := by rw [h]

end

namespace Dev

variable {d e : Dev} {n : Nat} {l : List Nat}

theorem peripheralPage_chanPage (hn : n < 24) : peripheralPage (chanPage n) := by
  unfold peripheralPage chanPage
  omega

/-! ## Beside a channel -/

/-- What the peripherals keep beside their registers and the stream channels. -/
abbrev unitsBeside (d : Dev) := ({ d with chans := [] } : Dev).peripherals

/-- From `d` to `d'` nothing of the peripherals moved but channels and registers of channel n's page. -/
def Beside (n : Nat) (d d' : Dev) : Prop :=
  d'.unitsBeside = d.unitsBeside ∧
  ∀ p off, peripheralPage p → off < 4096 → p ≠ chanPage n → d'.reg p off = d.reg p off

theorem Beside.refl (n : Nat) (d : Dev) : Beside n d d := ⟨rfl, fun _ _ _ _ _ => rfl⟩

theorem Beside.trans {a b c : Dev} (h : Beside n a b) (k : Beside n b c) : Beside n a c :=
  ⟨k.1.trans h.1, fun p off hp ho hne => (k.2 p off hp ho hne).trans (h.2 p off hp ho hne)⟩

theorem Beside.ite (c : Prop) [Decidable c] {a b : Dev} (ha : Beside n d a) (hb : Beside n d b) : Beside n d (if c then a else b) := by
  split
  · exact ha
  · exact hb

theorem Beside.pkg (h : Beside n d e) : e.pkg = d.pkg := congrArg (·.1) h.1
theorem Beside.now (h : Beside n d e) : e.now = d.now := congrArg (·.2.1) h.1
theorem Beside.aer (h : Beside n d e) : e.aer = d.aer := congrArg (·.2.2.2.2.2.2.2.1) h.1
theorem Beside.i3c (h : Beside n d e) : e.i3c = d.i3c := congrArg (·.2.2.2.2.2.2.2.2.1) h.1

theorem Beside.absentPage (h : Beside n d e) (p : Nat) : e.absentPage p = d.absentPage p := congrArg (absent · p) h.pkg

theorem Elsewhere.beside (h : d.Elsewhere e) (n : Nat) : Beside n d e :=
  ⟨congrArg (fun x => (x.1, x.2.1, x.2.2.1, x.2.2.2.1, x.2.2.2.2.1, x.2.2.2.2.2.1, ([] : Sparse Chan), x.2.2.2.2.2.2.2)) h.1,
    fun p off hp ho _ => h.2 p off hp ho⟩

theorem Beside.setChan (h : Beside n d e) (k : Nat) (c : Chan) : Beside n d (e.setChan k c) :=
  h.trans ⟨rfl, fun _ _ _ _ _ => rfl⟩

theorem Beside.setReg (h : Beside n d e) {off : Nat} (v : Word) (hf : off < 4096) : Beside n d (e.setReg (chanPage n) off v) :=
  h.trans ⟨rfl, fun _ _ _ ho hne => reg_setReg_other _ _ _ _ _ _ (.inl hne) ho hf⟩

/-! ## The accounts of a channel -/

/-- From `d` to `d'` channel n's accounts moved, and of its page the registers that `l` names. -/
def Books (n : Nat) (l : List Nat) (d d' : Dev) : Prop :=
  Beside n d d' ∧ (d.chan n).Books (d'.chan n) ∧ ∀ off < 4096, off ∉ l → d'.reg (chanPage n) off = d.reg (chanPage n) off

theorem Books.refl (n : Nat) (l : List Nat) (d : Dev) : Books n l d d := ⟨.refl n d, .refl _, fun _ _ _ => rfl⟩

theorem Books.trans {a b c : Dev} (h : Books n l a b) (k : Books n l b c) : Books n l a c :=
  ⟨h.1.trans k.1, h.2.1.trans k.2.1, fun off ho hl => (k.2.2 off ho hl).trans (h.2.2 off ho hl)⟩

theorem Books.mono {m : List Nat} (h : Books n l d e) (hs : ∀ x ∈ l, x ∈ m) : Books n m d e :=
  ⟨h.1, h.2.1, fun off ho hm => h.2.2 off ho fun hl => hm (hs _ hl)⟩

theorem Books.ite (c : Prop) [Decidable c] {a b : Dev} (ha : Books n l d a) (hb : Books n l d b) : Books n l d (if c then a else b) := by
  split
  · exact ha
  · exact hb

theorem Books.reg (h : Books n l d e) {off : Nat} (ho : off < 4096) (hl : off ∉ l) : e.reg (chanPage n) off = d.reg (chanPage n) off :=
  h.2.2 off ho hl

theorem Elsewhere.books (h : d.Elsewhere e) (hn : n < 24) : Books n l d e :=
  ⟨h.beside n, by rw [h.chan]; exact .refl _, fun off ho _ => h.2 _ off (peripheralPage_chanPage hn) ho⟩

theorem Books.setChan (h : Books n l d e) {c : Chan} (hc : (e.chan n).Books c) : Books n l d (e.setChan n c) :=
  h.trans ⟨(Beside.refl n e).setChan n c, by rw [chan_setChan, if_pos rfl]; exact hc, fun _ _ _ => rfl⟩

theorem Books.setReg (h : Books n l d e) {off : Nat} (v : Word) (hf : off < 4096) (hm : off ∈ l) :
    Books n l d (e.setReg (chanPage n) off v) :=
  h.trans ⟨(Beside.refl n e).setReg v hf, .refl _,
    fun _ ho hl => reg_setReg_other _ _ _ _ _ _ (.inr fun heq => hl (heq ▸ hm)) ho hf⟩

theorem Books.countFrz (h : Books n l d e) {off : Nat} (k : Nat) (hf : off < 4096) (hm : off ∈ l) :
    Books n l d (e.countFrz (chanPage n) off k) := .ite _ h (h.setReg _ hf hm)

/-- An error of the channel's page. -/
theorem Books.err (h : Books n l d e) (hn : n < 24) (b : Nat) (hm : 0x014 ∈ l ∧ 0x01C ∈ l ∧ 0x020 ∈ l) :
    Books n l d (e.err (chanPage n) b) := by
  obtain ⟨h14, h1c, h20⟩ := hm
  have hsig := err_signals e (chanPage n) b
  have hreg := err_onlyRegs e (chanPage n) b
  have hpage : chanPage n ≠ 0x008 ∧ chanPage n ≠ 0x150 ∧ chanPage n ≠ 0x151 := by
    unfold chanPage
    omega
  refine h.trans ⟨⟨by rw [hsig], fun p off hp ho hne => hreg p off ho ?_⟩, by unfold chan; rw [hsig.chans]; exact .refl _,
    fun off ho hl => hreg _ off ho ?_⟩
  · unfold peripheralPage at hp
    simp only [errRegs, eventRegs, List.mem_append, List.mem_cons, Prod.ext_iff, List.not_mem_nil, or_false]
    omega
  · have hoff : off ≠ 0x014 ∧ off ≠ 0x01C ∧ off ≠ 0x020 :=
      ⟨fun heq => hl (heq ▸ h14), fun heq => hl (heq ▸ h1c), fun heq => hl (heq ▸ h20)⟩
    simp only [errRegs, eventRegs, List.mem_append, List.mem_cons, Prod.ext_iff, List.not_mem_nil, or_false]
    omega

/-! ## Records and losses (R86–R92) -/

/-- The registers that a record moves: WR, SEQ and the count of GAP records. -/
def recordRegs : List Nat := [0x050, 0x058, 0x060]

/-- The registers that a loss moves: LOST, the page's errors, and those of the GAP records. -/
def lossRegs : List Nat := [0x05C, 0x014, 0x01C, 0x020] ++ recordRegs

theorem recordRegs_loss : ∀ x ∈ recordRegs, x ∈ lossRegs := fun _ h => List.mem_append_right _ h

theorem Books.notify (h : Books n l d e) (hn : n < 24) (seq : Word) (off : Nat) : Books n l d (e.notify n seq off) := by
  unfold Dev.notify postOwedOf
  generalize hx : e.setChan n { e.chan n with owed := (e.chan n).owed ++ [(seq, off)] } = x
  have hx : Books n l d x := hx ▸ h.setChan rfl
  extract_lets owed
  split
  · exact hx
  · have hposts := Elsewhere.foldl (.refl (x.setChan n { x.chan n with owed := [] })) owed
      fun a y => (Elsewhere.refl y).notifyTask n a.1 a.2
    exact (hx.setChan (by rfl)).trans (hposts.books hn)

theorem writeRecord_books (d : Dev) (hn : n < 24) (r : Rec) : Books n recordRegs d (d.writeRecord n r) := by
  unfold writeRecord
  extract_lets p sz total wrap pad d1 off seq body d2 d3 d4 c c1 every overlaps kept c2
  have h1 : d.Elsewhere d1 := .when (.refl _) _ ((Elsewhere.refl _).put _ _ _)
  have h2 : Books n recordRegs d d2 := (h1.put _ _ _).books hn
  have h3 : Books n recordRegs d d3 := (h2.setReg _ (by omega) (by decide)).setReg _ (by omega) (by decide)
  have h4 : Books n recordRegs d d4 := .ite _ (h3.countFrz _ (by omega) (by decide)) h3
  have hkept : (d4.chan n).Books c2 := by
    unfold c2
    split <;> rfl
  split
  · exact (h4.setChan (hkept.trans (by rfl))).notify hn _ _
  · exact h4.setChan (hkept.trans (by rfl))

theorem Books.flushGaps (hn : n < 24) (svc : Bool) (next k : Nat) (h : Books n recordRegs d e) :
    Books n recordRegs d (flushGaps n svc next k e) := by
  induction k generalizing e with
  | zero => exact h
  | succ k ih =>
    unfold Dev.flushGaps
    split
    · exact h
    · exact .ite _ h (.ite _ (ih ((h.setChan (by rfl)).trans (writeRecord_books _ hn _))) h)

/-- A loss as it is noted and counted, before the gaps that fit are written. -/
def lossNoted (d : Dev) (n cause cnt : Nat) : Dev :=
  let gaps := match (d.chan n).gaps.getLast? with
    | some (k, m) => if k = cause then (d.chan n).gaps.dropLast ++ [(k, m + cnt)] else (d.chan n).gaps ++ [(cause, cnt)]
    | none => [(cause, cnt)]
  let d := (d.setChan n { d.chan n with gaps := gaps, lost := true }).countFrz (chanPage n) 0x05C cnt
  if cause = 1 then d.err (chanPage n) 0 else if cause = 5 then d.err (chanPage n) 1 else d

theorem addLoss_eq (d : Dev) (n cause cnt : Nat) : d.addLoss n cause cnt =
    if d.capturing n then Dev.flushGaps n false ((d.lossNoted n cause cnt).maxPayload n) 8 (d.lossNoted n cause cnt) else d := by
  unfold addLoss
  cases d.capturing n <;> rfl

theorem lossNoted_books (d : Dev) (hn : n < 24) (cause cnt : Nat) : Books n lossRegs d (d.lossNoted n cause cnt) := by
  have herr (x : Dev) (b : Nat) (h : Books n lossRegs d x) : Books n lossRegs d (x.err (chanPage n) b) := h.err hn b (by decide)
  unfold lossNoted
  extract_lets gaps c x
  have hx : Books n lossRegs d x := ((Books.refl n lossRegs d).setChan (by rfl)).countFrz _ (by omega) (by decide)
  exact .ite _ (herr x 0 hx) (.ite _ (herr x 1 hx) hx)

theorem Books.addLoss (h : Books n lossRegs d e) (hn : n < 24) (cause cnt : Nat) : Books n lossRegs d (e.addLoss n cause cnt) := by
  rw [addLoss_eq]
  exact .ite _ (h.trans ((lossNoted_books e hn cause cnt).trans (Books.mono (.flushGaps hn _ _ _ (.refl _ _ _)) recordRegs_loss))) h

theorem Books.captureOk (h : Books n lossRegs d e) (hn : n < 24) (svc : Bool) (r : Rec) (lost : Nat) :
    Books n lossRegs d (e.captureOk n svc r lost).1 := by
  have hg : Books n lossRegs d (Dev.flushGaps n svc r.payload.length 8 e) :=
    h.trans (Books.mono (.flushGaps hn _ _ _ (.refl _ _ _)) recordRegs_loss)
  unfold Dev.captureOk
  split
  · exact h
  · split
    · exact h.addLoss hn _ _
    · simp only
      split
      · exact hg.trans ((writeRecord_books _ hn r).mono recordRegs_loss)
      · exact hg.addLoss hn _ _

/-! ## A channel that takes captures -/

theorem Captures.capturing (h : d.Captures n) : d.capturing n = true := by
  obtain ⟨hpresent, hruns, -⟩ := h
  simp [Dev.capturing, hpresent, hruns]

/-- Whether a channel takes captures, by its page's CTRL and STATUS. -/
theorem Captures.of_regs (h : d.Captures n) (hpkg : e.pkg = d.pkg) (hctrl : e.reg (chanPage n) 0x00C = d.reg (chanPage n) 0x00C)
    (hstat : e.reg (chanPage n) 0x010 = d.reg (chanPage n) 0x010) : e.Captures n := by
  obtain ⟨hpresent, hruns, hfrozen⟩ := h
  refine ⟨?_, ?_, (flag_of_reg hctrl 2).trans hfrozen⟩
  · unfold Dev.absentPage
    rw [hpkg]
    exact hpresent
  · unfold running
    rw [pageState_of_reg hstat]
    exact hruns

theorem Captures.books (h : d.Captures n) (hb : Books n l d e) (hc : 0x00C ∉ l) (hs : 0x010 ∉ l) : e.Captures n :=
  h.of_regs hb.1.pkg (hb.reg (by omega) hc) (hb.reg (by omega) hs)

/-- LOST counts the captures of a loss (R90). -/
theorem reg_addLoss_lost (h : d.Captures n) (hn : n < 24) (cause cnt : Nat) :
    (d.addLoss n cause cnt).reg (chanPage n) 0x05C = satAdd (d.reg (chanPage n) 0x05C) cnt := by
  have hflush := Books.flushGaps hn false ((d.lossNoted n cause cnt).maxPayload n) 8 (.refl n recordRegs (d.lossNoted n cause cnt))
  have herr (x : Dev) (b : Nat) : (x.err (chanPage n) b).reg (chanPage n) 0x05C = x.reg (chanPage n) 0x05C :=
    Books.reg (l := [0x014, 0x01C, 0x020]) ((Books.refl n _ x).err hn b (by decide)) (by omega) (by decide)
  have hcount : ∀ x : Dev, x.frozen (chanPage n) = false →
      (x.countFrz (chanPage n) 0x05C cnt).reg (chanPage n) 0x05C = satAdd (x.reg (chanPage n) 0x05C) cnt := fun x hx => by
    unfold countFrz
    rw [hx, if_neg Bool.false_ne_true, reg_count_same]
  rw [addLoss_eq, h.capturing, if_pos rfl, hflush.reg (by omega) (by decide)]
  obtain ⟨-, -, hfrozen⟩ := h
  unfold lossNoted
  extract_lets gaps c x
  have hx : x.reg (chanPage n) 0x05C = satAdd (d.reg (chanPage n) 0x05C) cnt := hcount (d.setChan n _) hfrozen
  split_ifs
  · rw [herr, hx]
  · rw [herr, hx]
  · exact hx

/-- What says whether a record fits: the channel's page and the snapshots. -/
theorem TakesRecord.of_buffer {len : Nat} (h : d.TakesRecord n len) (hpkg : e.pkg = d.pkg) (hsnaps : e.snaps = d.snaps)
    (hreg : ∀ off < 4096, e.reg (chanPage n) off = d.reg (chanPage n) off) (hgaps : (e.chan n).gaps = (d.chan n).gaps) :
    e.TakesRecord n len := by
  obtain ⟨hc, hg, hr⟩ := h
  refine ⟨hc.of_regs hpkg (hreg _ (by omega)) (hreg _ (by omega)), hgaps.trans hg, ?_⟩
  have hroom : e.recRoom n (e.recNeed n (e.recWr n) len) = d.recRoom n (d.recNeed n (d.recWr n) len) := by
    unfold recRoom recNeed recFree heldParts recSize recWr recRd recBase pair48 field snap
    simp only [hsnaps, hreg _ (show 0x04C < 4096 by omega), hreg _ (show 0x050 < 4096 by omega), hreg _ (show 0x054 < 4096 by omega),
      hreg _ (show 0x044 < 4096 by omega), hreg _ (show 0x044 + 4 < 4096 by omega)]
  exact hroom.trans hr

theorem TakesRecord.setChan {len : Nat} (h : d.TakesRecord n len) {c : Chan} (hc : c.gaps = (d.chan n).gaps) :
    (d.setChan n c).TakesRecord n len :=
  h.of_buffer rfl rfl (fun _ _ => rfl) (by rw [chan_setChan, if_pos rfl, hc])

/-- A record that fits is written (R85). -/
theorem captureOk_of_takes {r : Rec} (h : d.TakesRecord n r.payload.length) (svc : Bool) (lost : Nat) :
    d.captureOk n svc r lost = (d.writeRecord n r, true) := by
  obtain ⟨hc, hgaps, hroom⟩ := h
  have hcap := hc.capturing
  obtain ⟨-, -, hfrozen⟩ := hc
  unfold captureOk
  simp only [hcap, hfrozen, flushGaps_nil svc _ 8 hgaps, hgaps, hroom, Bool.not_true, Bool.false_and, Bool.false_eq_true, if_false,
    List.filter_nil, List.isEmpty_nil, Bool.and_self, if_true]

/-- SEQ advances with a record (R89). -/
theorem reg_writeRecord_seq (d : Dev) (hn : n < 24) (r : Rec) :
    (d.writeRecord n r).reg (chanPage n) 0x058 = d.reg (chanPage n) 0x058 + 1 := by
  obtain ⟨-, -, hseq, -⟩ := writeRecord_spec d hn r
  exact hseq

/-! ## A page and its channel's work (R37) -/

/-- The page of a channel with work, or of one that runs, moves its STATUS alone. -/
theorem streamWork_books (h : d.running (chanPage n) = true ∨ d.streamBusy n = true) : Books n [0x010] d (streamWork n d) := by
  have hset (v : Nat) : Books n [0x010] d (d.setPageState (chanPage n) v) := (Books.refl n _ d).setReg _ (by omega) (by simp)
  have hsame := Books.refl n [0x010] d
  unfold streamWork work
  refine .ite _ (.ite _ (hset 2) hsame) (.ite _ (.ite _ hsame (hset 1)) ?_)
  split
  · next h3 =>
    have hbusy : d.streamBusy n = true := h.resolve_left (by simp [running, h3])
    rw [if_pos hbusy]
    exact hsame
  · exact hsame

/-- The page of a block that accepts work is ACTIVE where there is work and READY elsewhere, and nothing else moves. -/
theorem work_of_running {p : Nat} (busy : Dev → Bool) (ended : Dev → Dev) (h : d.running p = true) :
    (work p busy ended d = d ∨ ∃ v, work p busy ended d = d.setPageState p v) ∧
      (work p busy ended d).pageState p = if busy d then 2 else 1 := by
  have hset (v : Nat) (hv : v < 16) : (d.setPageState p v).pageState p = v :=
    (field_setField_same d p 0x010 3 0 v (by omega)).trans (Nat.mod_eq_of_lt hv)
  have hcases : d.pageState p = 1 ∨ d.pageState p = 2 := by simpa [running] using h
  unfold work
  rcases hcases with hp | hp <;> cases hb : busy d
  · simp [hp]
  · simp [hp, hset]
  · simp [hp, hset]
  · simp [hp]

theorem running_of_pageState {p : Nat} {b : Bool} (h : d.pageState p = if b then 2 else 1) : d.running p = true := by
  unfold running
  rw [h]
  cases b <;> rfl

/-- A channel that takes captures goes on taking them, ACTIVE where it has work. -/
theorem streamWork_captures (h : d.Captures n) :
    (streamWork n d).Captures n ∧ (streamWork n d).pageState (chanPage n) = if d.streamBusy n then 2 else 1 := by
  obtain ⟨hpresent, hruns, hfrozen⟩ := h
  have hbooks := streamWork_books (.inl hruns)
  obtain ⟨-, hstate⟩ := work_of_running (fun d => d.streamBusy n) (fun d => (d.setChan n {}).rewind n) hruns
  exact ⟨⟨(hbooks.1.absentPage _).trans hpresent, running_of_pageState hstate,
    (flag_of_reg (hbooks.reg (by omega) (by simp)) 2).trans hfrozen⟩, hstate⟩

/-- In every state of its page a channel's work moves nothing beside it. -/
theorem Beside.streamWork (h : Beside n d e) : Beside n d (streamWork n e) := by
  have hset (v : Nat) : Beside n d (e.setPageState (chanPage n) v) := h.setReg _ (by omega)
  have hreset : Beside n e (e.resetCounters (chanPage n)) :=
    ⟨rfl, fun p off _ ho hne => reg_resetRegs_other e _ p off keptStatus ho hne⟩
  have hdisabled : Beside n e (e.disabled (chanPage n)) := hreset.setReg (off := 0x010) _ (by omega)
  have hrewind (x : Dev) : x.Elsewhere (x.rewind n) := .forEach (.refl _) _ fun _ _ x => (Elsewhere.refl x).fields (by rfl)
  have hended : Beside n d (((e.disabled (chanPage n)).setChan n {}).rewind n) :=
    (h.trans (hdisabled.setChan n {})).trans ((hrewind _).beside n)
  exact .ite _ (.ite _ (hset 2) h) (.ite _ (.ite _ h (hset 1)) (.ite _ (.ite _ h hended) h))

/-! ## The open record of an event channel (R101) -/

theorem closeEvents_of_empty (h : (d.chan n).words = []) : d.closeEvents n = d := by
  unfold closeEvents
  simp [h]

/-- The record of an event channel's words (R101). -/
def eventRecord (c : Chan) : Rec :=
  { type := 3, flags := c.eflags, tag := c.tag, count := c.words.length, payload := c.words.flatMap fun w => bytesLE 8 w.toNat }

theorem closeEvents_of_words (h : (d.chan n).words ≠ []) : d.closeEvents n =
    streamWork n ((d.setChan n { d.chan n with words := [], eflags := 0 }).captureOk n true (eventRecord (d.chan n)) (d.chan n).words.length).1 := by
  unfold closeEvents
  simp only [List.isEmpty_iff, h, if_false]
  rfl

theorem Beside.closeEvents (h : Beside n d e) (hn : n < 24) : Beside n d (e.closeEvents n) := by
  by_cases hw : (e.chan n).words = []
  · rw [closeEvents_of_empty hw]
    exact h
  · rw [closeEvents_of_words hw]
    exact Beside.streamWork ((h.setChan n _).trans (Books.captureOk (.refl n _ _) hn _ _ _).1)

theorem Beside.lose (h : Beside n d e) (hn : n < 24) (cause cnt : Nat) : Beside n d (e.lose n cause cnt) :=
  (h.closeEvents hn).trans (Books.addLoss (.refl n _ _) hn cause cnt).1

/-- Without an open record a loss is noted at once. -/
theorem lose_of_empty (h : (d.chan n).words = []) (cause cnt : Nat) : d.lose n cause cnt = d.addLoss n cause cnt := by
  unfold lose
  rw [closeEvents_of_empty h]

/-- A loss leaves a channel that takes captures as it is, but for its open record and its accounts. -/
theorem lose_captures (h : d.Captures n) (hn : n < 24) (cause cnt : Nat) :
    (d.lose n cause cnt).Captures n ∧ ∃ c : Chan, c.Books ((d.lose n cause cnt).chan n) ∧
      (c = d.chan n ∨ c = { d.chan n with words := [], eflags := 0 }) := by
  have hloss (x : Dev) (hx : x.Captures n) : (x.addLoss n cause cnt).Captures n ∧ (x.chan n).Books ((x.addLoss n cause cnt).chan n) := by
    have hb := Books.addLoss (.refl n _ x) hn cause cnt
    exact ⟨hx.books hb (by decide) (by decide), hb.2.1⟩
  by_cases hw : (d.chan n).words = []
  · rw [lose_of_empty hw]
    obtain ⟨hcap, hbooks⟩ := hloss d h
    exact ⟨hcap, _, hbooks, .inl rfl⟩
  · unfold lose
    rw [closeEvents_of_words hw]
    generalize hx : d.setChan n { d.chan n with words := [], eflags := 0 } = x
    have hchan : x.chan n = { d.chan n with words := [], eflags := 0 } := by rw [← hx, chan_setChan, if_pos rfl]
    have hxcap : x.Captures n := hx ▸ h
    have hrec := Books.captureOk (.refl n _ x) hn true (eventRecord (d.chan n)) (d.chan n).words.length
    have hreccap := hxcap.books hrec (by decide) (by decide)
    obtain ⟨hwork, -⟩ := streamWork_captures hreccap
    obtain ⟨hcap, hbooks⟩ := hloss _ hwork
    exact ⟨hcap, _, (hrec.2.1.trans (streamWork_books (.inl hreccap.2.1)).2.1).trans hbooks, .inr hchan⟩

end Dev
end Sys2Proof.Machine
end

section
/-!
Skein and the lookback (R21, R110): no access of memory moves a snapshot or an escalation, and a read gives as many bytes as it asks for.
-/
namespace Sys2Proof.Machine.Dev

variable {d e : Dev}

/-! ## Snapshots and escalations stand -/

/-- From `d` to `d'` no snapshot and no escalation has moved. -/
def LookbackStands (d d' : Dev) : Prop := (d'.snaps, d'.escs) = (d.snaps, d.escs)

theorem LookbackStands.refl (d : Dev) : d.LookbackStands d := rfl

theorem LookbackStands.trans {a b c : Dev} (h : a.LookbackStands b) (k : b.LookbackStands c) : a.LookbackStands c := Eq.trans k h

theorem LookbackStands.snaps (h : d.LookbackStands e) : e.snaps = d.snaps := congrArg (·.1) h
theorem LookbackStands.escs (h : d.LookbackStands e) : e.escs = d.escs := congrArg (·.2) h

theorem LookbackStands.ite (c : Prop) [Decidable c] {a b : Dev} (ha : d.LookbackStands a) (hb : d.LookbackStands b) :
    d.LookbackStands (if c then a else b) := by
  split
  · exact ha
  · exact hb

theorem LookbackStands.when (h : d.LookbackStands e) (c : Prop) [Decidable c] {x : Dev} (hx : e.LookbackStands x) :
    d.LookbackStands (if c then x else e) :=
  .ite c (h.trans hx) h

theorem Signals.lookback (h : d.Signals e) : d.LookbackStands e := by
  unfold LookbackStands
  rw [h]

theorem lookback_foldl {α : Type} (l : List α) {f : Dev → α → Dev} (hf : ∀ a x, LookbackStands x (f x a)) (d : Dev) :
    d.LookbackStands (l.foldl f d) := by
  induction l generalizing d with
  | nil => exact .refl d
  | cons a l ih => exact (hf a d).trans (ih _)

/-! ## Writes of Skein (R265–R273) -/

theorem lookback_setBytes (d : Dev) (a : Nat) (l : List Byte) : d.LookbackStands (d.setBytes a l) := by
  rw [setBytes_frame]
  rfl

theorem lookback_switchPage (d : Dev) (p t f : Nat) : d.LookbackStands (d.switchPage p t f) := by
  have hcount (x : Dev) (off : Nat) : x.LookbackStands (x.count 0x0D0 off) := rfl
  exact .when (.when (.when (LookbackStands.trans rfl (hcount _ _)) _ (hcount _ _)) _ (hcount _ _)) _ (hcount _ _)

theorem lookback_makeRoom (k : Nat) : ∀ (x : Place) (t : Nat) (d d' : Dev), makeRoom x k t d = some d' → d.LookbackStands d' := by
  induction k with
  | zero =>
    intro x t d d' h
    simp [makeRoom] at h
  | succ k ih =>
    intro x t d d' h
    unfold makeRoom at h
    obtain ⟨e, -, he⟩ := List.exists_of_findSome?_eq_some h
    split at he
    · exact Option.some.inj he ▸ lookback_switchPage d _ _ _
    · simp only [Option.bind_eq_some_iff, Option.map_eq_some_iff] at he
      obtain ⟨d1, h1, f, -, rfl⟩ := he
      exact (ih _ _ _ _ h1).trans (lookback_switchPage d1 _ _ _)

theorem lookback_giveFrame {p : Nat} (h : d.giveFrame p = some e) : d.LookbackStands e := by
  unfold giveFrame at h
  dsimp only at h
  split at h
  · obtain rfl := Option.some.inj h
    rfl
  · simp only [Option.bind_eq_some_iff, Option.map_eq_some_iff] at h
    obtain ⟨e1, he, tf, -, rfl⟩ := h
    obtain ⟨t, -, ht⟩ := List.exists_of_findSome?_eq_some he
    exact (lookback_makeRoom _ _ _ _ _ ht).trans rfl

theorem lookback_queueMig (d : Dev) (m : Migration) : d.LookbackStands (d.queueMig m) := .ite _ (.refl d) rfl

theorem lookback_touch (d : Dev) (p : Nat) : d.LookbackStands (d.touch p) := by
  unfold touch
  exact .ite _ (LookbackStands.trans rfl (lookback_queueMig _ _)) rfl

theorem lookback_lowWater (d : Dev) : d.LookbackStands d.lowWater := by
  refine forEach_rel LookbackStands.refl (fun _ _ _ => LookbackStands.trans) (fun t _ x => ?_) d
  split
  · split
    · exact lookback_queueMig x _
    · exact .refl x
  · exact .refl x

theorem lookback_writeLine (x : Dev × Bool) (l : Nat × List Byte) : x.1.LookbackStands (writeLine x l).1 := by
  unfold writeLine
  simp only
  split
  · split
    · exact .refl _
    · rename_i e he
      have hframe : x.1.LookbackStands e := by
        split at he
        · exact lookback_giveFrame he
        · exact Option.some.inj he ▸ .refl _
      have hstore := hframe.trans (lookback_setBytes (e.setPlace (pageOf l.1) { e.place (pageOf l.1) with clean := false }) l.1 l.2)
      exact .ite _ (hstore.trans rfl) (hstore.trans rfl)
  · exact (lookback_setBytes x.1 l.1 l.2).trans rfl

theorem lookback_storeLines (d : Dev) (a : Nat) (data : List Byte) : d.LookbackStands (d.storeLines a data).1 := by
  have hl : ∀ (l : List (Nat × List Byte)) (x : Dev × Bool), x.1.LookbackStands (l.foldl writeLine x).1 := by
    intro l
    induction l with
    | nil => exact fun _ => .refl _
    | cons y r ih => exact fun x => (lookback_writeLine x y).trans (ih _)
  exact hl _ _

theorem lookback_syncTh (d : Dev) (c n : Nat) (cfg : Bool) : d.LookbackStands (d.syncTh c n cfg) :=
  .ite _ (lookback_setBytes d _ _) (.refl d)

theorem lookback_whorlPart (d : Dev) (l : Nat × List Byte) : d.LookbackStands (d.whorlPart l) := by
  have hsync (ns : List Nat) (c : Nat) (cfg : Bool) (x : Dev) : x.LookbackStands (forEach ns (fun n d => d.syncTh c n cfg) x) :=
    forEach_rel LookbackStands.refl (fun _ _ _ => LookbackStands.trans) (fun n _ y => lookback_syncTh y c n cfg) x
  unfold whorlPart
  simp only
  split_ifs
  · exact .refl d
  · exact ((lookback_setBytes d _ _).trans (hsync _ _ _ _)).trans (hsync _ _ _ _)
  · exact ((setField_signals d _ _ _ _ _).trans (err_signals _ _ _)).lookback

theorem lookback_remoteRequest (d : Dev) (who : MemAgent) (rd : Bool) (a len : Nat) (l : List Byte) :
    d.LookbackStands (d.remoteRequest who rd a len l) := by
  unfold remoteRequest
  simp only
  rw [sendPacket_links]
  rfl

theorem lookback_writePart (who : MemAgent) (x : Dev × List Byte × Bool × Bool) (p : Nat × Nat) :
    x.1.LookbackStands (writePart who x p).1 := by
  obtain ⟨d, data, un, ok⟩ := x
  obtain ⟨a, n⟩ := p
  have hs := fun a => lookback_storeLines d a (data.take n)
  unfold writePart
  simp only
  split
  · exact .refl d
  · exact lookback_foldl _ (fun l x => lookback_whorlPart x l) d
  · exact hs _
  · exact hs _
  · split
    · exact LookbackStands.trans rfl (lookback_touch _ _)
    · refine LookbackStands.trans ?_ (lookback_touch _ _)
      split
      · exact (hs a).trans (lookback_lowWater _)
      · exact hs a
  · split
    · exact .refl d
    · split
      · split
        · exact hs _
        · exact .refl d
      · exact lookback_remoteRequest d _ _ _ _ _

theorem lookback_put (d : Dev) (who : MemAgent) (a : Nat) (data : List Byte) : d.LookbackStands (d.put who a data) := by
  have hl : ∀ (l : List (Nat × Nat)) (x : Dev × List Byte × Bool × Bool), x.1.LookbackStands (l.foldl (writePart who) x).1 := by
    intro l
    induction l with
    | nil => exact fun _ => .refl _
    | cons y r ih => exact fun x => (lookback_writePart who x y).trans (ih _)
  have hw := hl (pageParts a data.length) (d, data, false, true)
  have hu := hw.trans (unmappedAccess_signals _).lookback
  unfold put write
  simp only
  split_ifs
  · exact hu
  · exact hw
  · exact hu.trans (dropWrite_signals _ who).lookback
  · exact hw.trans (dropWrite_signals _ who).lookback

/-! ## Reads of Skein (R265–R267, R284) -/

/-- What an access of Skein may move: nothing of the peripherals, of the snapshots or of the escalations. -/
def SkeinFrame (d d' : Dev) : Prop := d.Elsewhere d' ∧ d.LookbackStands d'

theorem SkeinFrame.refl (d : Dev) : d.SkeinFrame d := ⟨.refl d, .refl d⟩

theorem SkeinFrame.trans {a b c : Dev} (h : a.SkeinFrame b) (k : b.SkeinFrame c) : a.SkeinFrame c := ⟨h.1.trans k.1, h.2.trans k.2⟩

theorem skeinFrame_put (d : Dev) (who : MemAgent) (a : Nat) (data : List Byte) : d.SkeinFrame (d.put who a data) :=
  ⟨(Elsewhere.refl d).put who a data, lookback_put d who a data⟩

theorem skeinFrame_touch (d : Dev) (p : Nat) : d.SkeinFrame (d.touch p) := ⟨(Elsewhere.refl d).touch p, lookback_touch d p⟩

theorem skeinFrame_readLines (who : MemAgent) (ls : List Nat) (x : Dev × Bool × Nat) : x.1.SkeinFrame (ls.foldl (readLine who) x).1 := by
  induction ls generalizing x with
  | nil => exact .refl _
  | cons a ls ih =>
    have hcount := (Elsewhere.refl x.1).countAbove 0x0D0 0x048 1 (by omega) (by omega)
    exact SkeinFrame.trans ⟨.ite _ (.refl _) hcount, (readLine_signals who x a).lookback⟩ (ih _)

theorem length_bytes (d : Dev) (a n : Nat) : (d.bytes a n).length = n := by simp [bytes]

theorem readPart_spec (who : MemAgent) (x : ReadOut × Dev × Bool) (p : Nat × Nat) :
    x.2.1.SkeinFrame (readPart who x p).2.1 ∧ (readPart who x p).1.bytes.length = x.1.bytes.length + p.2 := by
  obtain ⟨r, d, un⟩ := x
  obtain ⟨a, n⟩ := p
  have hlines := skeinFrame_readLines who (linesOf a n) (d, false, 0)
  have hview (b : Nat) : (d.view who b n).length = n := length_bytes _ b n
  unfold readPart
  simp only
  split
  · exact ⟨.refl d, by simp⟩
  · split_ifs
    · exact ⟨.refl d, by simp⟩
    · exact ⟨.refl d, by simp [hview]⟩
    · exact ⟨.refl d, by simp⟩
    · exact ⟨⟨(Elsewhere.refl d).fields rfl, rfl⟩, by simp⟩
  · exact ⟨.refl d, by simp [length_bytes]⟩
  · exact ⟨hlines, by simp [length_bytes]⟩
  · exact ⟨hlines, by simp [length_bytes]⟩
  · exact ⟨hlines.trans (skeinFrame_touch _ _), by simp [hview]⟩

/-- A read moves nothing of the peripherals or the lookback, and gives the bytes it asks for. -/
theorem read_spec (d : Dev) (who : MemAgent) (a n : Nat) : d.SkeinFrame (d.read who a n).2 ∧ (d.read who a n).1.bytes.length = n := by
  have hparts : ∀ (ps : List (Nat × Nat)) (a m : Nat) (x : ReadOut × Dev × Bool), Tiles a m ps →
      x.2.1.SkeinFrame (ps.foldl (readPart who) x).2.1 ∧ (ps.foldl (readPart who) x).1.bytes.length = x.1.bytes.length + m := by
    intro ps
    induction ps with
    | nil =>
      rintro a m x rfl
      exact ⟨.refl _, rfl⟩
    | cons p ps ih =>
      rintro a m x ⟨-, hle, hrest⟩
      obtain ⟨hframe, hlen⟩ := readPart_spec who x p
      obtain ⟨hframes, hlens⟩ := ih _ _ (readPart who x p) hrest
      refine ⟨hframe.trans hframes, ?_⟩
      rw [List.foldl_cons, hlens, hlen]
      omega
  obtain ⟨hframe, hlen⟩ := hparts _ a n ({}, d, false) (pageParts_tiles a n)
  have hunmapped (x : Dev) : x.SkeinFrame x.unmappedAccess :=
    ⟨((Elsewhere.refl x).countAbove _ _ _ (by omega) (by omega)).errAbove _ _ (by omega), (unmappedAccess_signals x).lookback⟩
  unfold read
  simp only
  refine ⟨?_, by simpa using hlen⟩
  split
  · exact hframe.trans (hunmapped _)
  · exact hframe

/-! ## Commands that must be served at once (R267, R273) -/

/-- What can be served at once is done; the regions' votes alone may follow it (R394). -/
theorem whenServed_of_canServe {f : Dev → Dev} (h : d.CanServe f) : (f d).SkeinFrame (whenServed f d) := by
  obtain ⟨hopen, hheld⟩ := h
  have hvotes (x : Dev) : x.SkeinFrame x.skeinVotes :=
    forEach_rel SkeinFrame.refl (fun _ _ _ => SkeinFrame.trans) (fun r _ y => ⟨(Elsewhere.refl y).settle r, (settle_signals y r).lookback⟩) x
  have hdemand (x : Dev) : x.SkeinFrame { x with demand := false } := ⟨(Elsewhere.refl x).fields (by rfl), rfl⟩
  have hserved (x : Dev) : x.SkeinFrame x.placedServed := by
    unfold placedServed
    split
    · exact (hdemand x).trans (hvotes _)
    · exact .refl x
  unfold whenServed
  dsimp only
  rw [if_neg, if_pos hheld]
  · split
    · exact hserved _
    · exact .refl _
  · rcases hopen with ho | ha
    · simp [ho]
    · simp [ha]

end Sys2Proof.Machine.Dev
end

section
/-!
Cameras (R93–R97): what a packet's header counts, and how a frame is opened, joined by lines, ended and discarded.
-/
namespace Sys2Proof.Machine
namespace Dev

variable {d e : Dev} {n : Nat}

/-! ## Headers and routes (R93, R94) -/

/-- From `d` to `d'` only what page 0x038 counts of its ports moved. -/
def PortCounts (d d' : Dev) : Prop :=
  d' = { d with regs := d'.regs } ∧ ∀ p off, off < 4096 → (p = 0x038 → 0x060 ≤ off) → d'.reg p off = d.reg p off

theorem PortCounts.refl (d : Dev) : d.PortCounts d := ⟨rfl, fun _ _ _ _ => rfl⟩

theorem PortCounts.trans {a b c : Dev} (h : a.PortCounts b) (k : b.PortCounts c) : a.PortCounts c :=
  ⟨by rw [k.1, h.1], fun p off ho hp => (k.2 p off ho hp).trans (h.2 p off ho hp)⟩

theorem portCount_counts (d : Dev) {p : Nat} (hp : p < 4) (lo : Nat) : d.PortCounts (d.portCount p lo) :=
  ⟨rfl, fun _ _ ho hoff => reg_setReg_other _ _ _ _ _ _ (by omega) ho (by omega)⟩

/-- The CRC of a packet moves no more than its port's count (R93). -/
theorem crcCount_counts (d : Dev) {p : Nat} (hp : p < 4) (ok : Bool) : d.PortCounts (if ok then d else d.portCount p 24) := by
  cases ok
  · exact portCount_counts d hp 24
  · exact .refl d

theorem PortCounts.chan (h : d.PortCounts e) (k : Nat) : e.chan k = d.chan k := by rw [h.1]; rfl
theorem PortCounts.pkg (h : d.PortCounts e) : e.pkg = d.pkg := by rw [h.1]
theorem PortCounts.snaps (h : d.PortCounts e) : e.snaps = d.snaps := by rw [h.1]

theorem PortCounts.reg (h : d.PortCounts e) (hn : n < 24) {off : Nat} (ho : off < 4096) :
    e.reg (chanPage n) off = d.reg (chanPage n) off :=
  h.2 _ _ ho fun hp => absurd hp (chanPage_ne hn)

theorem PortCounts.captures (h : d.PortCounts e) (hn : n < 24) (hc : d.Captures n) : e.Captures n :=
  hc.of_regs h.pkg (h.reg hn (by omega)) (h.reg hn (by omega))

theorem PortCounts.takesRecord (h : d.PortCounts e) (hn : n < 24) {len : Nat} (ht : d.TakesRecord n len) : e.TakesRecord n len :=
  ht.of_buffer h.pkg h.snaps (fun _ ho => h.reg hn ho) (by rw [h.chan])

theorem PortCounts.capturing (h : d.PortCounts e) (hn : n < 24) : e.capturing n = d.capturing n := by
  have hstat := pageState_of_reg (h.reg hn (off := 0x010) (by omega))
  unfold Dev.capturing running Dev.absentPage
  rw [hstat, h.pkg]

theorem PortCounts.csiRoute (h : d.PortCounts e) {p vc : Nat} (hp : p < 4) (hvc : vc < 4) : e.csiRoute p vc = d.csiRoute p vc := by
  have hroute : e.reg 0x038 (0x060 + 4 * (4 * p + vc)) = d.reg 0x038 (0x060 + 4 * (4 * p + vc)) := h.2 _ _ (by omega) fun _ => by omega
  unfold Dev.csiRoute flag field
  dsimp only
  rw [hroute]

theorem PortCounts.noMarks (h : d.PortCounts e) (hm : d.NoMarks) : e.NoMarks := fun m => by
  have hlt := m.isLt
  have hreg : e.reg 0x01B (markBase m.val) = d.reg 0x01B (markBase m.val) := h.2 _ _ (by unfold markBase; omega) (by omega)
  exact (congrArg (fun w => bits w 0 0) hreg).trans (hm m)

/-- A buffer is free by the channel, its page and the snapshots (R97). -/
theorem PortCounts.freeBuf (h : d.PortCounts e) (hn : n < 24) : e.freeBuf n = d.freeBuf n := by
  unfold Dev.freeBuf bufIsFree heldBufs snap flag field
  rw [h.chan, h.snaps, h.reg hn (show 0x094 < 4096 by omega), h.reg hn (show 0x098 < 4096 by omega)]

/-- A packet whose header has no 2-bit error is received by a port that is up, whose count it may move (R93). -/
theorem csiHeader_received {p : Nat} {ecc : Ecc} (hp : p < 4) (hecc : ecc ≠ .bad) (ha : d.absentPage 0x038 = false)
    (hl : d.flag 0x038 (0x050 + 4 * p) 0 = true) :
    ∃ e, d.PortCounts e ∧ (ecc = .clean → e = d) ∧ ∀ f, d.csiHeader p ecc f = f e := by
  unfold csiHeader
  rw [ha, hl]
  cases ecc with
  | clean => exact ⟨d, .refl d, fun _ => rfl, fun f => rfl⟩
  | corrected => exact ⟨d.portCount p 8, portCount_counts d hp 8, nofun, fun f => rfl⟩
  | bad => exact absurd rfl hecc

/-- A packet whose header has a 2-bit error is dropped and counted (R93). -/
theorem csiHeader_bad {p : Nat} (ha : d.absentPage 0x038 = false) (hl : d.flag 0x038 (0x050 + 4 * p) 0 = true) (f : Dev → Dev) :
    d.csiHeader p .bad f = d.portCount p 16 := by
  unfold csiHeader
  rw [ha, hl]
  rfl

theorem field_portCount (d : Dev) {p lo : Nat} (hlo : lo + 7 < 32) :
    (d.portCount p lo).field 0x038 (0x050 + 4 * p) (lo + 7) lo = satAddN 8 (d.field 0x038 (0x050 + 4 * p) (lo + 7) lo) 1 := by
  refine (field_setField_same d _ _ _ _ _ hlo).trans (Nat.mod_eq_of_lt ?_)
  rw [show lo + 7 + 1 - lo = 8 by omega]
  unfold satAddN
  omega

/-- A frame start or end reaches the camera that its virtual channel is mapped to (R94). -/
theorem framePacket_delivered {p vc : Nat} (hr : d.csiRoute p vc = some n) (hn : n < 8) (f : Nat → Dev → Dev) :
    d.framePacket p vc f = f n d := by
  unfold framePacket
  simp only [hr, hn, if_true]

/-! ## A frame that is discarded (R96) -/

theorem dropFrame_of_none (h : (d.chan n).frame = none) (cause : Nat) : d.dropFrame n cause = d := by
  unfold dropFrame
  rw [h]

theorem dropFrame_captures (h : d.Captures n) (hn : n < 24) (cause : Nat) : (d.dropFrame n cause).Captures n := by
  unfold dropFrame
  split
  · exact h
  · next f _ =>
    have hset : ((d.setChan n { d.chan n with frame := none }).setFlag (chanPage n) 0x098 f.buf true).Captures n :=
      h.of_regs rfl (reg_setReg_other _ _ _ _ _ _ (.inr (by omega)) (by omega) (by omega))
        (reg_setReg_other _ _ _ _ _ _ (.inr (by omega)) (by omega) (by omega))
    exact (lose_captures hset hn cause 1).1

/-! ## A frame start (R95–R97) -/

theorem freeBuf_spec {k : Nat} (h : d.freeBuf n = some k) : k < 32 ∧ d.bufIsFree n k = true := by
  have hlt := List.mem_range.1 (List.mem_of_find?_eq_some h)
  exact ⟨by omega, List.find?_some h⟩

/-- The buffer of an open frame is not free (R97). -/
theorem freeBuf_ne_open {f : OpenFrame} (h : (d.chan n).frame = some f) : d.freeBuf n ≠ some f.buf := fun hfree => by
  obtain ⟨-, hbuf⟩ := freeBuf_spec hfree
  simp [bufIsFree, h] at hbuf

/-- A frame start takes the lowest free buffer once an open frame is discarded (R95, R96). -/
theorem frameStart_takes {k : Nat} (h : d.Captures n) (hn : n < 24) (hfree : (d.dropFrame n 4).freeBuf n = some k) :
    (((d.frameStart n).chan n).frame.map fun f => (f.buf, f.lines)) = some (k, 0) ∧
      (d.frameStart n).flag (chanPage n) 0x098 k = false ∧ (d.frameStart n).pageState (chanPage n) = 2 := by
  have hdrop := dropFrame_captures h hn 4
  obtain ⟨hk, -⟩ := freeBuf_spec hfree
  obtain ⟨hpresent, hruns, -⟩ := h
  unfold frameStart
  rw [if_neg (by simp [hpresent, hruns])]
  generalize d.dropFrame n 4 = x at *
  dsimp only
  rw [if_neg (by simp [hdrop.2.2])]
  simp only [hfree]
  generalize hy : x.setChan n _ = y
  have hframe : ((y.chan n).frame.map fun f => (f.buf, f.lines)) = some (k, 0) := by
    rw [← hy, chan_setChan, if_pos rfl]
    rfl
  have hycap : y.Captures n := hy ▸ hdrop
  have htaken := reg_setReg_other y (chanPage n) 0x098 (putBit (y.reg (chanPage n) 0x098) k false)
  generalize hz : y.setFlag (chanPage n) 0x098 k false = z
  have hzcap : z.Captures n := hz ▸ hycap.of_regs rfl (htaken _ 0x00C (.inr (by omega)) (by omega) (by omega))
    (htaken _ 0x010 (.inr (by omega)) (by omega) (by omega))
  have hzflag : z.flag (chanPage n) 0x098 k = false := hz ▸ flag_setFlag_same _ _ _ _ _ hk
  have hzframe : (z.chan n).frame = (y.chan n).frame := hz ▸ rfl
  have hbusy : z.streamBusy n = true := by
    obtain ⟨f, hf, -⟩ := Option.map_eq_some_iff.1 hframe
    simp [streamBusy, hzframe, hf]
  have hwork := streamWork_books (.inr hbusy)
  obtain ⟨-, hstate⟩ := streamWork_captures hzcap
  rw [hwork.2.1.frame, hzframe, hstate, if_pos hbusy]
  exact ⟨hframe, (flag_of_reg (hwork.reg (by omega) (by simp)) k).trans hzflag, rfl⟩

/-- Without a free buffer a frame start discards its frame (R96). -/
theorem frameStart_skips (h : d.Captures n) (hn : n < 24) (hframe : (d.chan n).frame = none) (hfree : d.freeBuf n = none) :
    ((d.frameStart n).chan n).frame = none ∧ ((d.frameStart n).chan n).skip = true := by
  have hcap := h
  obtain ⟨hpresent, hruns, hfrozen⟩ := h
  unfold frameStart
  rw [if_neg (by simp [hpresent, hruns]), dropFrame_of_none hframe]
  dsimp only
  rw [if_neg (by simp [hfrozen])]
  simp only [hfree]
  generalize hx : d.setChan n _ = x
  have hxcap : x.Captures n := hx ▸ hcap
  have hxchan : (x.chan n).frame = none ∧ (x.chan n).skip = true := by
    rw [← hx, chan_setChan, if_pos rfl]
    exact ⟨hframe, rfl⟩
  obtain ⟨-, c, hbooks, hc⟩ := lose_captures hxcap hn 2 1
  rw [hbooks.frame, hbooks.skip]
  rcases hc with rfl | rfl
  · exact hxchan
  · exact hxchan

/-! ## A line (R95, R96) -/

theorem longPacket_image {p vc dt : Nat} (hdt : dt = 0x1E ∨ dt = 0x2A ∨ dt = 0x2B ∨ dt = 0x2C) (hp : p < 4) (hvc : vc < 4)
    (hr : d.csiRoute p vc = some n) (hn : n < 8) (line : List Byte) (ok : Bool) :
    d.longPacket p vc dt line ok = (if ok then d else d.portCount p 24).frameLine n dt line ok := by
  have hroute := (crcCount_counts d hp ok).csiRoute hp hvc
  unfold longPacket
  rw [if_neg (by rcases hdt with rfl | rfl | rfl | rfl <;> simp)]
  simp only [hroute, hr, hn, if_true]
  rw [if_pos (by rcases hdt with rfl | rfl | rfl | rfl <;> simp)]

/-- A line joins the open frame; one with a CRC error marks it (R96). -/
theorem frameLine_joins {f : OpenFrame} (hm : d.NoMarks) (hc : d.capturing n = true) (hf : (d.chan n).frame = some f)
    (hlines : f.lines < 4096) (dt : Nat) (line : List Byte) (ok : Bool) :
    (((d.frameLine n dt line ok).chan n).frame.map fun g => (g.buf, g.lines, g.lineErr)) = some (f.buf, f.lines + 1, f.lineErr || !ok) := by
  have hframe : ((d.sourceCount (8 + n)).chan n).frame = some f := by
    unfold chan
    rw [(sourceCount_moves hm _).chans]
    exact hf
  unfold frameLine
  rw [if_neg (by simp [hc])]
  simp only [hframe]
  rw [if_neg (by omega), chan_setChan, if_pos rfl]
  rfl

/-! ## A frame end (R95, R96, R109) -/

theorem frameEnd_of_skip (hc : d.capturing n = true) (hframe : (d.chan n).frame = none) (hs : (d.chan n).skip = true) :
    d.frameEnd n = d.setChan n { d.chan n with skip := false } := by
  unfold frameEnd
  simp [hc, hframe, hs]

theorem frameEnd_orphan (hc : d.capturing n = true) (hframe : (d.chan n).frame = none) (hs : (d.chan n).skip = false) :
    d.frameEnd n = d.lose n 3 1 := by
  unfold frameEnd
  simp [hc, hframe, hs]

/-- The newest frame of a lookback that keeps eight. -/
theorem getLast?_lookback {α : Type} (l : List α) (x : α) : ((l ++ [x]).drop ((l ++ [x]).length - 8)).getLast? = some x := by
  rw [List.getLast?_drop, if_neg (by simp), List.getLast?_append]
  rfl

/-- A frame end writes the FRAME record, and the frame joins the lookback (R95, R109). -/
theorem frameEnd_records {f : OpenFrame} (hn : n < 24) (h : d.TakesRecord n 0) (hf : (d.chan n).frame = some f) :
    ((d.frameEnd n).chan n).frame = none ∧ (d.frameEnd n).reg (chanPage n) 0x058 = d.reg (chanPage n) 0x058 + 1 ∧
      (((d.frameEnd n).chan n).done.getLast?.map (·.buf)) = some f.buf := by
  unfold frameEnd
  rw [if_neg (by simp [h.1.capturing])]
  simp only [hf]
  generalize hx : List.foldl _ d _ = x
  have hfill : d.Elsewhere x := hx ▸ Elsewhere.foldl (.refl d) _ fun _ y => (Elsewhere.refl y).put _ _ _
  have hstands : d.LookbackStands x := hx ▸ lookback_foldl _ (fun _ y => lookback_put y _ _ _) d
  have hpage (off : Nat) (ho : off < 4096) : x.reg (chanPage n) off = d.reg (chanPage n) off := hfill.2 _ _ (peripheralPage_chanPage hn) ho
  have htakes : (x.setChan n { x.chan n with frame := none }).TakesRecord n 0 :=
    (h.of_buffer (hfill.beside n).pkg hstands.snaps hpage (by rw [hfill.chan])).setChan rfl
  generalize hy : x.setChan n { x.chan n with frame := none } = y at *
  have hframe : (y.chan n).frame = none := by rw [← hy, chan_setChan, if_pos rfl]
  have hseq : y.reg (chanPage n) 0x058 = d.reg (chanPage n) 0x058 := by rw [← hy]; exact hpage _ (by omega)
  rw [captureOk_of_takes (by exact htakes)]
  simp only [if_true]
  generalize hr : Dev.writeRecord y n _ = z
  have hz : Books n recordRegs y z := hr ▸ writeRecord_books y hn _
  have hzseq : z.reg (chanPage n) 0x058 = d.reg (chanPage n) 0x058 + 1 := by rw [← hr, reg_writeRecord_seq y hn, hseq]
  generalize hw : z.setChan n _ = w
  have hwcap : w.Captures n := hw ▸ (htakes.1.books hz (by decide) (by decide) : z.Captures n)
  have hbooks := streamWork_books (.inl hwcap.2.1)
  rw [hbooks.2.1.frame, hbooks.2.1.done, hbooks.reg (by omega) (by simp), ← hw, chan_setChan, if_pos rfl]
  refine ⟨hz.2.1.frame.trans hframe, hzseq, ?_⟩
  rw [getLast?_lookback]
  rfl

end Dev

/-! ## The commands -/

section
variable (s : State) (p vc : Fin 4)

theorem exec_csiFrameStart (ecc : Ecc) : exec (.csiFrameStart p vc ecc) s =
    onDev (fun d => d.csiHeader p.val ecc fun d => d.framePacket p.val vc.val fun n d => d.frameStart n) s := rfl
theorem exec_csiLinePacket (dt : BitVec 6) (line : List Byte) (ecc : Ecc) (ok : Bool) : exec (.csiLinePacket p vc dt line ecc ok) s =
    onDev (fun d => d.csiHeader p.val ecc fun d => d.longPacket p.val vc.val dt.toNat line ok) s := rfl
theorem exec_csiFrameEnd (ecc : Ecc) : exec (.csiFrameEnd p vc ecc) s =
    onDev (fun d => d.csiHeader p.val ecc fun d => d.framePacket p.val vc.val fun n d => d.frameEnd n) s := rfl
theorem exec_csiEventPacket (payload : List Byte) (ecc : Ecc) (ok : Bool) : exec (.csiEventPacket p vc payload ecc ok) s =
    onDev (fun d => d.csiHeader p.val ecc fun d => d.longPacket p.val vc.val 0x30 payload ok) s := rfl

end

/-- A packet's command gives its device to the part of it that follows the header (R93). -/
theorem csiPacket_received {s : State} {p vc : Fin 4} {ecc : Ecc} {n : Nat} (hp : s.Powered) (hecc : ecc ≠ .bad)
    (hd : s.dev.Delivers p.val vc.val n) :
    ∃ e, s.dev.PortCounts e ∧ (ecc = .clean → e = s.dev) ∧ e.csiRoute p.val vc.val = some n ∧
      ∀ f, onDev (fun d => d.csiHeader p.val ecc f) s = .next { s with dev := f e } := by
  obtain ⟨hpresent, hlink, hroute⟩ := hd
  obtain ⟨e, hcounts, hclean, hf⟩ := Dev.csiHeader_received p.isLt hecc hpresent hlink
  refine ⟨e, hcounts, hclean, (hcounts.csiRoute p.isLt vc.isLt).trans hroute, fun f => ?_⟩
  rw [onDev_of_powered hp, hf]

/-- Settles O12: each packet is received, routed to its camera, and does to it what the camera's state says. -/
theorem cameraFrames : Obligations.CameraFrames := by
  unfold Obligations.CameraFrames
  refine ⟨fun s p vc ecc n k hp hecc hd hn hc hframe hfree => ?start, fun s p vc n k hp hd hn hc hframe hfree => ?restart,
    fun s p vc ecc n hp hecc hd hn hc hframe hfree => ?noBuffer, fun s p vc dt l ok hp ha hl => ?bad,
    fun s p vc dt line ecc ok n f hp hm hecc hdt hd hn hc hf hlines => ?line, fun s p vc ecc n f hp hecc hd hn ht hf => ?record,
    fun s p vc ecc n hp hecc hd hn hc hframe hw => ?orphan, fun s ag cam v hr => ?free⟩
  case start =>
    obtain ⟨e, hcounts, -, hroute, hrun⟩ := csiPacket_received (vc := vc) hp hecc hd
    rw [exec_csiFrameStart, hrun, Dev.framePacket_delivered hroute hn]
    refine ⟨_, rfl, Dev.frameStart_takes (hcounts.captures (by omega) hc) (by omega) ?_⟩
    rw [Dev.dropFrame_of_none (by rw [hcounts.chan, hframe]), hcounts.freeBuf (by omega), hfree]
  case restart =>
    obtain ⟨e, -, hclean, hroute, hrun⟩ := csiPacket_received (ecc := .clean) hp nofun hd
    obtain rfl := hclean rfl
    rw [exec_csiFrameStart, hrun, Dev.framePacket_delivered hroute hn]
    obtain ⟨hbuf, hflag, -⟩ := Dev.frameStart_takes hc (by omega) hfree
    exact ⟨_, rfl, hbuf, hflag⟩
  case noBuffer =>
    obtain ⟨e, hcounts, -, hroute, hrun⟩ := csiPacket_received (vc := vc) hp hecc hd
    rw [exec_csiFrameStart, hrun, Dev.framePacket_delivered hroute hn]
    exact ⟨_, rfl, Dev.frameStart_skips (hcounts.captures (by omega) hc) (by omega) (by rw [hcounts.chan, hframe])
      (by rw [hcounts.freeBuf (by omega), hfree])⟩
  case bad =>
    have hdrop (f : Dev → Dev) : onDev (fun d => d.csiHeader p.val .bad f) s = .next { s with dev := s.dev.portCount p.val 16 } := by
      rw [onDev_of_powered hp, Dev.csiHeader_bad ha hl]
    have hcount : (s.dev.portCount p.val 16).chans = s.dev.chans ∧ (s.dev.portCount p.val 16).field 0x038 (0x050 + 4 * p.val) 23 16 =
        satAddN 8 (s.dev.field 0x038 (0x050 + 4 * p.val) 23 16) 1 := ⟨rfl, Dev.field_portCount _ (by omega)⟩
    simp only [List.forall_mem_cons, List.not_mem_nil, false_implies, implies_true, and_true]
    exact ⟨⟨_, (exec_csiFrameStart s p vc _).trans (hdrop _), hcount⟩, ⟨_, (exec_csiLinePacket s p vc dt l _ ok).trans (hdrop _), hcount⟩,
      ⟨_, (exec_csiFrameEnd s p vc _).trans (hdrop _), hcount⟩, ⟨_, (exec_csiEventPacket s p vc l _ ok).trans (hdrop _), hcount⟩⟩
  case line =>
    obtain ⟨e, hheader, -, hroute, hrun⟩ := csiPacket_received (vc := vc) hp hecc hd
    have hdt' : dt.toNat = 0x1E ∨ dt.toNat = 0x2A ∨ dt.toNat = 0x2B ∨ dt.toNat = 0x2C := by
      rcases hdt with rfl | rfl | rfl | rfl <;> decide
    have hcounts := hheader.trans (Dev.crcCount_counts e p.isLt ok)
    rw [exec_csiLinePacket, hrun, Dev.longPacket_image hdt' p.isLt vc.isLt hroute hn]
    exact ⟨_, rfl, Dev.frameLine_joins (hcounts.noMarks hm) ((hcounts.capturing (by omega)).trans hc) (by rw [hcounts.chan, hf]) hlines _ _ _⟩
  case record =>
    obtain ⟨e, hcounts, -, hroute, hrun⟩ := csiPacket_received (vc := vc) hp hecc hd
    obtain ⟨hnone, hseq, hdone⟩ := Dev.frameEnd_records (by omega) (hcounts.takesRecord (by omega) ht) ((hcounts.chan n).symm ▸ hf)
    rw [exec_csiFrameEnd, hrun, Dev.framePacket_delivered hroute hn]
    exact ⟨_, rfl, hnone, hseq.trans (by rw [hcounts.reg (by omega) (by omega)]), hdone⟩
  case orphan =>
    obtain ⟨e, hcounts, -, hroute, hrun⟩ := csiPacket_received (vc := vc) hp hecc hd
    have hecap := hcounts.captures (by omega) hc
    have heframe : (e.chan n).frame = none := by rw [hcounts.chan, hframe]
    rw [exec_csiFrameEnd, hrun, Dev.framePacket_delivered hroute hn, ← hcounts.chan, ← hcounts.reg (by omega) (by omega)]
    refine ⟨_, rfl, ?_⟩
    cases hs : (e.chan n).skip with
    | true =>
      rw [Dev.frameEnd_of_skip hecap.capturing heframe hs, Dev.chan_setChan, if_pos rfl]
      exact ⟨rfl, nofun⟩
    | false =>
      rw [Dev.frameEnd_orphan hecap.capturing heframe hs, Dev.lose_of_empty (by rw [hcounts.chan, hw])]
      exact ⟨(Dev.Books.addLoss (.refl n _ e) (by omega) 3 1).2.1.skip.trans hs, fun _ => Dev.reg_addLoss_lost hecap (by omega) 3 1⟩
  case free =>
    rw [exec_bufFree, onDev_of_powered hr.1, anyWrite_of_reaches hr]
    exact ⟨_, rfl, Dev.reg_setReg_same _ _ _ _, fun f hf => Dev.freeBuf_ne_open hf⟩

end Sys2Proof.Machine
end

section
/-!
Event channels and the AER port (R99–R103): a word that is accepted joins the open record, and Whorl, which it may reach, moves nothing of
intake.
-/
namespace Sys2Proof.Machine
namespace Dev

variable {d e : Dev} {n : Nat}

/-! ## Words that reach Whorl (R162, R171, R172) -/

theorem elsewhere_resetCounters (d : Dev) {p : Nat} (hp : 0x050 ≤ p) : d.Elsewhere (d.resetCounters p) :=
  ⟨rfl, fun q off hq ho => reg_resetRegs_other d p q off keptStatus ho fun heq => not_peripheralPage_of_ge hp (heq ▸ hq)⟩

theorem Elsewhere.whorlWork (h : d.Elsewhere e) : d.Elsewhere e.whorlWork := by
  refine h.work _ _ (fun x => ?_) (not_peripheralPage_of_ge (by omega))
  refine Elsewhere.forEach ((Elsewhere.refl x).fields (by rfl)) _ fun p hp y => elsewhere_resetCounters y ?_
  obtain ⟨i, -, rfl⟩ := List.mem_map.1 hp
  omega

theorem Elsewhere.ingress (h : d.Elsewhere e) {k : Nat} (hk : k < 8) (core input : Nat) (w : Word) :
    d.Elsewhere (e.ingress k core input w) := by
  have hdrop (x : Dev) (hx : d.Elsewhere x) : d.Elsewhere ((x.count 0x051 (0x0F0 + 4 * k)).err 0x050 4) :=
    (hx.countAbove _ _ _ (by omega) (by omega)).errAbove _ _ (by omega)
  have hsend (x : Dev) (hx : d.Elsewhere x) : d.Elsewhere (Dev.whorlWork { x with mesh := x.mesh ++ [{ core := core, input := input, word := w }] }) :=
    Elsewhere.whorlWork (hx.fields (by rfl))
  have hfresh : d.Elsewhere e.fresh.2 := h.fields (by rfl)
  exact .ite _ (hdrop e h) (.ite _ (.ite _ (hsend _ hfresh) (hdrop _ hfresh)) (hsend e h))

theorem Elsewhere.evEvent (h : d.Elsewhere e) {j : Nat} (hj : j < 2) (x y : Nat) (value : Int) (pos : Nat) :
    d.Elsewhere (e.evEvent j x y value pos) := by
  have hlost := h.countAbove 0x051 (0x0C0 + 16 * j + 0x0C) 1 (by omega) (by omega)
  exact .ite _ h (.ite _ hlost (.ite _ hlost (h.ingress (by omega) _ _ _)))

theorem Elsewhere.genEvent (h : d.Elsewhere e) {j : Nat} (hj : j < 2) (w : Word) : d.Elsewhere (e.genEvent j w) :=
  .ite _ h (.ite _ ((h.countAbove _ _ _ (by omega) (by omega)).errAbove _ _ (by omega)) (h.ingress (by omega) _ _ _))

/-! ## An open record that fills (R99–R101) -/

/-- Channel n takes captures, its open record holds `k` words, and it closes at `batch`. -/
def Fills (d : Dev) (n k batch : Nat) : Prop := d.Captures n ∧ (d.chan n).words.length = k ∧ d.evtBatch n = batch

theorem evtBatch_of_reg (h : e.reg (chanPage n) 0x080 = d.reg (chanPage n) 0x080) : e.evtBatch n = d.evtBatch n := by
  unfold evtBatch field
  rw [h]

theorem Fills.eventMark {k batch : Nat} (h : d.Fills n k batch) (m : Nat) : (d.eventMark n m).Fills n k batch := by
  obtain ⟨hc, hk, hb⟩ := h
  unfold Dev.eventMark
  split
  · exact ⟨hc, by rw [chan_setChan, if_pos rfl]; exact hk, hb⟩
  · exact ⟨hc, hk, hb⟩

/-- A word that does not fill the record joins it (R99). -/
theorem eventWord_joins {k batch : Nat} (h : d.Fills n k batch) (hn : n = 8 ∨ n = 9) (hk : k + 1 < batch) (pos raw : Nat) :
    (eventWord n pos d raw).Fills n (k + 1) batch ∧ Beside n d (eventWord n pos d raw) := by
  obtain ⟨hc, hlen, hbatch⟩ := h
  have hn' : n < 24 := by omega
  unfold eventWord
  rw [if_neg (by simp [hc.1, hc.2.1]), if_neg (by simp [hc.2.2])]
  extract_lets c tag rp flags w c' x y
  have hwords : c'.words.length = k + 1 := by
    show ((d.chan n).words ++ [BitVec.ofNat 64 w]).length = k + 1
    rw [List.length_append, hlen]
    rfl
  have hxy : x.Elsewhere y := (Elsewhere.refl x).evEvent (by omega) _ _ _ _
  have hchan : y.chan n = c' := by rw [hxy.chan, chan_setChan, if_pos rfl]
  have hreg (off : Nat) (ho : off < 4096) : y.reg (chanPage n) off = d.reg (chanPage n) off := hxy.2 _ off (peripheralPage_chanPage hn') ho
  have hycap : y.Captures n := hc.of_regs (hxy.beside n).pkg (hreg _ (by omega)) (hreg _ (by omega))
  have hybatch : y.evtBatch n = batch := (evtBatch_of_reg (hreg _ (by omega))).trans hbatch
  rw [if_neg (by omega)]
  have hwork := streamWork_books (.inl hycap.2.1)
  refine ⟨⟨(streamWork_captures hycap).1, ?_, ?_⟩, (((Beside.refl n d).setChan n c').trans (hxy.beside n)).trans hwork.1⟩
  · rw [hwork.2.1.words, hchan, hwords]
  · exact (evtBatch_of_reg (hwork.reg (by omega) (by simp))).trans hybatch

/-- The words of a packet join one after another. -/
theorem Fills.words {batch : Nat} (hn : n = 8 ∨ n = 9) (pos m : Nat) (ws : List Nat) :
    ∀ {d : Dev} {k : Nat}, d.Fills n k batch → k + ws.length < batch →
      (ws.foldl (fun d w => eventWord n pos (d.eventMark n m) w) d).Fills n (k + ws.length) batch := by
  induction ws with
  | nil => exact fun h _ => h
  | cons w ws ih =>
    intro d k h hk
    rw [List.length_cons] at hk ⊢
    have hword := (eventWord_joins (h.eventMark m) hn (by omega) pos w).1
    rw [List.foldl_cons, show k + (ws.length + 1) = k + 1 + ws.length by omega]
    exact ih hword (by omega)

/-- A payload holds a word for every eight bytes (R100). -/
theorem length_eventWords (l : List Byte) : ∀ k, l.length ≤ k → (eventWords k l).1.length = l.length / 8 := by
  intro k
  induction k generalizing l with
  | zero =>
    intro h
    simp [eventWords, Nat.le_zero.1 h]
  | succ k ih =>
    intro h
    unfold eventWords
    split
    · next hlt => exact (Nat.div_eq_of_lt hlt).symm
    · next hge =>
      have hrest := ih (l.drop 8) (by rw [List.length_drop]; omega)
      rw [List.length_drop] at hrest
      simp only [List.length_cons, hrest]
      omega

/-- The words of a packet join the open record (R100). -/
theorem eventPacket_joins {batch k : Nat} (h : d.Fills n k batch) (hn : n = 8 ∨ n = 9) {payload : List Byte}
    (hk : k + payload.length / 8 < batch) (ok : Bool) :
    (d.eventPacket n payload ok).Fills n (k + payload.length / 8) batch := by
  have hlen := length_eventWords payload payload.length le_rfl
  unfold eventPacket
  extract_lets pos
  generalize eventWords payload.length payload = words at *
  obtain ⟨ws, trunc⟩ := words
  dsimp only at hlen ⊢
  rw [← hlen] at hk ⊢
  have hfirst := h.words hn pos ((!ok).toNat * 4) ws.dropLast (by rw [List.length_dropLast]; omega)
  rw [List.length_dropLast] at hfirst
  cases hlast : ws.getLast? with
  | none =>
    rw [List.getLast?_eq_none_iff.1 hlast]
    exact h.eventMark _
  | some w =>
    have hpos : 0 < ws.length := List.length_pos_iff.2 fun hnil => by simp [hnil] at hlast
    have hjoin := (eventWord_joins (hfirst.eventMark ((!ok).toNat * 4 + trunc.toNat * 64)) hn (by omega) pos w).1
    rwa [show k + (ws.length - 1) + 1 = k + ws.length by omega] at hjoin

theorem longPacket_event {p vc : Nat} (hp : p < 4) (hvc : vc < 4) (hr : d.csiRoute p vc = some n) (hn : n = 8 ∨ n = 9)
    (payload : List Byte) (ok : Bool) : d.longPacket p vc 0x30 payload ok = (if ok then d else d.portCount p 24).eventPacket n payload ok := by
  have hroute := (crcCount_counts d hp ok).csiRoute hp hvc
  unfold longPacket
  rw [if_neg (by simp)]
  simp only [hroute, hr]
  rw [if_neg (by simp), if_pos trivial, if_pos (by simpa using hn)]

/-! ## A record that closes (R101) -/

theorem length_bytesLE (k v : Nat) : (bytesLE k v).length = k := by
  induction k generalizing v with
  | zero => rfl
  | succ k ih => rw [bytesLE, List.length_cons, ih]

theorem length_eventRecord (c : Chan) : (eventRecord c).payload.length = 8 * c.words.length := by
  simp [eventRecord, List.length_flatMap, length_bytesLE, Nat.mul_comm]

/-- An open record that fits is written and starts anew. -/
theorem closeEvents_writes (hn : n < 24) (h : d.TakesRecord n (8 * (d.chan n).words.length)) (hw : (d.chan n).words ≠ []) :
    ((d.closeEvents n).chan n).words = [] ∧ (d.closeEvents n).reg (chanPage n) 0x058 = d.reg (chanPage n) 0x058 + 1 := by
  rw [closeEvents_of_words hw]
  generalize hx : d.setChan n { d.chan n with words := [], eflags := 0 } = x
  have hempty : (x.chan n).words = [] := by rw [← hx, chan_setChan, if_pos rfl]
  have hseq : x.reg (chanPage n) 0x058 = d.reg (chanPage n) 0x058 := hx ▸ rfl
  have htakes : x.TakesRecord n (eventRecord (d.chan n)).payload.length := by
    rw [length_eventRecord, ← hx]
    exact h.setChan rfl
  rw [captureOk_of_takes htakes]
  have hbooks := writeRecord_books x hn (eventRecord (d.chan n))
  have hwork := streamWork_books (.inl (htakes.1.books hbooks (by decide) (by decide)).2.1)
  exact ⟨(hwork.2.1.trans (.refl _)).words.trans (hbooks.2.1.words.trans hempty),
    (hwork.reg (by omega) (by simp)).trans ((reg_writeRecord_seq x hn _).trans (by rw [hseq]))⟩

/-! ## The AER port (R102, R103) -/

theorem aerChan_cases (d : Dev) : d.aerChan = 8 ∨ d.aerChan = 9 := by
  have hlt : d.field 0x039 0x040 0 0 < 2 := Nat.mod_lt _ (by decide)
  unfold aerChan
  omega

theorem aerChan_lt (d : Dev) : d.aerChan < 24 := by
  have hcases := d.aerChan_cases
  omega

theorem chanPage_aerChan_ne (d : Dev) : 0x039 ≠ chanPage d.aerChan := by
  have hlt := d.aerChan_lt
  unfold chanPage
  omega

/-- What moves beside the port's channel leaves the port's page. -/
theorem Beside.reg_aer (h : Beside d.aerChan d e) {off : Nat} (ho : off < 4096) : e.reg 0x039 off = d.reg 0x039 off :=
  h.2 _ _ (by unfold peripheralPage; omega) ho d.chanPage_aerChan_ne

/-- The port's page follows its work, and moves its STATUS alone. -/
theorem aerWork_spec (h : d.running 0x039 = true) : d.aerWork.aer = d.aer ∧ d.aerWork.chans = d.chans ∧
    (∀ off < 4096, off ≠ 0x010 → d.aerWork.reg 0x039 off = d.reg 0x039 off) ∧
    d.aerWork.pageState 0x039 = if d.aer.beat0.isSome then 2 else 1 := by
  obtain ⟨hwork, hstate⟩ := work_of_running (fun d => d.aer.beat0.isSome) (fun d => { d with aer := {} }) h
  unfold aerWork
  refine ⟨?_, ?_, ?_, hstate⟩
  all_goals rcases hwork with heq | ⟨v, heq⟩ <;> rw [heq]
  · rfl
  · rfl
  · exact fun _ _ _ => rfl
  · exact fun off ho hne => reg_setReg_other _ _ _ _ _ _ (.inr hne) ho (by omega)

/-- An incomplete event is counted in AER_FRAMING and lost to its channel (R102). -/
theorem aerFraming_spec (h : d.frozen 0x039 = false) : d.aerFraming.aer = d.aer ∧
    d.aerFraming.reg 0x039 0x044 = satAdd (d.reg 0x039 0x044) 1 ∧ d.aerFraming.pageState 0x039 = d.pageState 0x039 := by
  have hcounted : d.countFrz 0x039 0x044 = d.count 0x039 0x044 := by
    unfold countFrz
    rw [h, if_neg Bool.false_ne_true]
  have hchan : d.aerChan = (d.count 0x039 0x044).aerChan := by
    have hcfg : (d.count 0x039 0x044).reg 0x039 0x040 = d.reg 0x039 0x040 :=
      reg_setReg_other _ _ _ _ _ _ (.inr (by omega)) (by omega) (by omega)
    unfold aerChan field
    rw [hcfg]
  have hlose := Beside.lose (.refl (d.count 0x039 0x044).aerChan (d.count 0x039 0x044)) (aerChan_lt _) 5 1
  unfold aerFraming
  rw [hcounted, hchan]
  exact ⟨hlose.aer, (hlose.reg_aer (by omega)).trans (reg_count_same _ _ _ _), pageState_of_reg ((hlose.reg_aer (by omega)).trans
    (reg_setReg_other _ _ _ _ _ _ (.inr (by omega)) (by omega) (by omega)))⟩

/-- The port once a beat was acknowledged, with `b` as its first beat. -/
def aerAcked (d : Dev) (b : Option Nat) : Dev := { d with aer := { beat0 := b, ackAt := some d.now, stuck := false } }

/-- A framing error is counted, and the port keeps `b` as its first beat (R102). -/
theorem aerFraming_counts (hr : d.running 0x039 = true) (hf : d.frozen 0x039 = false) (b : Option Nat) :
    (d.aerAcked b).aerFraming.aerWork.aer.beat0 = b ∧
      (d.aerAcked b).aerFraming.aerWork.reg 0x039 0x044 = satAdd (d.reg 0x039 0x044) 1 := by
  obtain ⟨hframing, hcount, hstate⟩ := aerFraming_spec (d := d.aerAcked b) hf
  obtain ⟨haer, -, hreg, -⟩ := aerWork_spec (d := (d.aerAcked b).aerFraming) (by unfold running; rw [hstate]; exact hr)
  rw [haer, hframing, hreg _ (by omega) (by omega), hcount]
  exact ⟨rfl, rfl⟩

section
variable (ha : d.absentPage 0x039 = false) (hr : d.running 0x039 = true)
include ha hr

/-- A beat that the port takes, by the beat before it (R102): with FRZ set only the second beat of a word is taken. -/
theorem aerBeat_eq (hf : d.frozen 0x039 = true → d.aer.beat0.isSome = true) (frm : Bool) (v : Nat) :
    d.aerBeat frm v = aerWork (match frm, d.aer.beat0 with
      | true, none => d.aerAcked (if d.frozen 0x039 then none else some v)
      | true, some _ => (d.aerAcked (if d.frozen 0x039 then none else some v)).aerFraming
      | false, none => (d.aerAcked d.aer.beat0).aerFraming
      | false, some b => eventWord d.aerChan (d.reelSlice (d.field (chanPage d.aerChan) 0x040 2 0) 24) (d.aerAcked none)
          (slice b 11 0 * 2 ^ 52 + slice v 11 0 * 2 ^ 40 + (slice b 15 12 * 16 + slice v 15 12) * 2 ^ 32)) := by
  have htaken : (d.absentPage 0x039 || !d.running 0x039 || (d.frozen 0x039 && d.aer.beat0.isNone)) = false := by
    simpa [ha, hr] using hf
  unfold aerBeat aerAcked
  rw [htaken, if_neg Bool.false_ne_true]
  dsimp only
  cases frm <;> cases d.aer.beat0 <;> rfl

/-- A first beat is kept (R102). -/
theorem aerBeat_first (hf : d.frozen 0x039 = false) (hb : d.aer.beat0 = none) (v : Nat) :
    (d.aerBeat true v).aer.beat0 = some v ∧ (d.aerBeat true v).aer.ackAt = some d.now ∧ (d.aerBeat true v).pageState 0x039 = 2 := by
  obtain ⟨haer, -, -, hstate⟩ := aerWork_spec (d := d.aerAcked (some v)) hr
  rw [aerBeat_eq ha hr (by simp [hf]), hb, hf]
  exact ⟨by rw [if_neg Bool.false_ne_true, haer]; rfl, by rw [if_neg Bool.false_ne_true, haer]; rfl, hstate⟩

/-- A second beat without a first is a framing error (R102). -/
theorem aerBeat_orphan (hf : d.frozen 0x039 = false) (hb : d.aer.beat0 = none) (v : Nat) :
    (d.aerBeat false v).aer.beat0 = none ∧ (d.aerBeat false v).reg 0x039 0x044 = satAdd (d.reg 0x039 0x044) 1 := by
  rw [aerBeat_eq ha hr (by simp [hf]), hb]
  exact aerFraming_counts hr hf none

/-- A first beat where a second is due is a framing error and takes the first one's place (R102). -/
theorem aerBeat_again {b : Nat} (hf : d.frozen 0x039 = false) (hb : d.aer.beat0 = some b) (v : Nat) :
    (d.aerBeat true v).aer.beat0 = some v ∧ (d.aerBeat true v).reg 0x039 0x044 = satAdd (d.reg 0x039 0x044) 1 := by
  rw [aerBeat_eq ha hr (by simp [hf]), hb, hf]
  exact aerFraming_counts hr hf (some v)

/-- A second beat completes a word, which joins the open record (R102). -/
theorem aerBeat_word {b k batch : Nat} (hb : d.aer.beat0 = some b) (h : d.Fills d.aerChan k batch) (hk : k + 1 < batch) (v : Nat) :
    (d.aerBeat false v).aer.beat0 = none ∧ ((d.aerBeat false v).chan d.aerChan).words.length = k + 1 := by
  rw [aerBeat_eq ha hr (by simp [hb]), hb]
  dsimp only
  generalize hx : eventWord d.aerChan _ (d.aerAcked none) _ = x
  have hfills : (d.aerAcked none).Fills d.aerChan k batch := h
  obtain ⟨⟨-, hwords, -⟩, hbeside⟩ := hx ▸ eventWord_joins hfills d.aerChan_cases hk _ _
  have hstat : x.reg 0x039 0x010 = d.reg 0x039 0x010 := Beside.reg_aer (d := d.aerAcked none) hbeside (by omega)
  obtain ⟨haer, hchans, -, -⟩ := aerWork_spec (d := x) (by unfold running; rw [pageState_of_reg hstat]; exact hr)
  rw [haer, hbeside.aer, chan, hchans]
  exact ⟨rfl, hwords⟩

/-- A request that stays high for longer than TMO is stuck (R103). -/
theorem aerStuck_late {t : Nat} (hack : d.aer.ackAt = some t) (ht : t + d.aerTmo < d.now) (hs : d.aer.stuck = false) :
    (d.aerStuck false).aer.stuck = true ∧ (d.aerStuck false).flag 0x039 0x014 0 = true := by
  have hstuck : d.aerStuck false = ({ d with aer := { d.aer with stuck := true } } : Dev).err 0x039 0 := by
    unfold aerStuck
    simp [ha, hr, hack, ht, hs]
  rw [hstuck]
  exact ⟨by rw [err_signals], flag_err _ _ _ (by omega)⟩

/-- Once it falls the request is stuck no more, and a stuck one is lost to its channel (R103). -/
theorem aerStuck_fell : (d.aerStuck true).aer.stuck = false ∧ (d.aerStuck true).aer.ackAt = none ∧
    (d.aer.stuck = true → d.Captures d.aerChan → (d.chan d.aerChan).words = [] →
      (d.aerStuck true).reg (chanPage d.aerChan) 0x05C = satAdd (d.reg (chanPage d.aerChan) 0x05C) 1) := by
  generalize hx : ({ d with aer := { d.aer with stuck := false, ackAt := none } } : Dev) = x
  have hfell : d.aerStuck true = if d.aer.stuck then x.lose d.aerChan 5 1 else x := by
    unfold aerStuck
    simp [ha, hr, ← hx]
  have haer : x.aer.stuck = false ∧ x.aer.ackAt = none := hx ▸ ⟨rfl, rfl⟩
  have hlose := Beside.lose (.refl d.aerChan x) d.aerChan_lt 5 1
  rw [hfell]
  cases hs : d.aer.stuck with
  | false => exact ⟨haer.1, haer.2, nofun⟩
  | true =>
    rw [if_pos rfl, hlose.aer]
    refine ⟨haer.1, haer.2, fun _ hc hw => ?_⟩
    have hxc : x.Captures d.aerChan := hx ▸ hc
    have hxw : (x.chan d.aerChan).words = [] := hx ▸ hw
    rw [lose_of_empty hxw, reg_addLoss_lost hxc d.aerChan_lt, ← hx]
    rfl

end

theorem aerStuck_early (h : ∀ t, d.aer.ackAt = some t → d.now ≤ t + d.aerTmo) : d.aerStuck false = d := by
  unfold aerStuck
  split
  · rfl
  · rw [if_neg Bool.false_ne_true]
    split
    · next t ht =>
      have := h t ht
      exact if_neg (by simp; omega)
    · rfl

end Dev

/-! ## The commands -/

section
variable (s : State)

theorem exec_evtBatchTimeout (k : Fin 2) : exec (.evtBatchTimeout k) s = onDev (fun d =>
    if !(d.chan (8 + k.val)).words.isEmpty && (d.chan (8 + k.val)).opened + d.evtMaxUs (8 + k.val) ≤ d.now then d.closeEvents (8 + k.val)
    else d) s := rfl
theorem exec_aerBeat (frm : Bool) (v : BitVec 16) : exec (.aerBeat frm v) s = onDev (fun d => d.aerBeat frm v.toNat) s := rfl
theorem exec_aerStuckTimeout (fell : Bool) : exec (.aerStuckTimeout fell) s = onDev (fun d => d.aerStuck fell) s := rfl

end

/-- Settles O14: a packet fills the open record word by word, MAX_US closes it, and a beat does what the beats before it say. -/
theorem eventChannels : Obligations.EventChannels := by
  unfold Obligations.EventChannels
  refine ⟨fun s p vc payload ecc ok n k hp hecc hd hn hc hk hb => ?packet, fun s k hp ht hw hdue => ?closes, fun s k h => ?waits,
    fun s v hp ha hr hf hb => ⟨_, (exec_aerBeat s _ v).trans (onDev_of_powered hp _), Dev.aerBeat_first ha hr hf hb _⟩,
    fun s v hp ha hr hf hb => ⟨_, (exec_aerBeat s _ v).trans (onDev_of_powered hp _), Dev.aerBeat_orphan ha hr hf hb _⟩,
    fun s v b hp ha hr hf hb => ⟨_, (exec_aerBeat s _ v).trans (onDev_of_powered hp _), Dev.aerBeat_again ha hr hf hb _⟩,
    fun s v b hp ha hr hb hc hk => ⟨_, (exec_aerBeat s _ v).trans (onDev_of_powered hp _), Dev.aerBeat_word ha hr hb ⟨hc, rfl, rfl⟩ hk _⟩,
    fun s t hp ha hr hack ht hs => ⟨_, (exec_aerStuckTimeout s _).trans (onDev_of_powered hp _), Dev.aerStuck_late ha hr hack ht hs⟩,
    fun s h => (exec_aerStuckTimeout s _).trans (onDev_of_fixed (Dev.aerStuck_early h)),
    fun s hp ha hr => ⟨_, (exec_aerStuckTimeout s _).trans (onDev_of_powered hp _), Dev.aerStuck_fell ha hr⟩⟩
  case packet =>
    obtain ⟨e, hheader, -, hroute, hrun⟩ := csiPacket_received (vc := vc) hp hecc hd
    have hcounts := hheader.trans (Dev.crcCount_counts e p.isLt ok)
    have hlt : n < 24 := by omega
    have hfills : Dev.Fills (if ok then e else e.portCount p.val 24) n (s.dev.chan n).words.length (s.dev.evtBatch n) :=
      ⟨hcounts.captures hlt hc, by rw [hcounts.chan], Dev.evtBatch_of_reg (hcounts.reg hlt (by omega))⟩
    obtain ⟨-, hwords, -⟩ := Dev.eventPacket_joins hfills hn (payload := payload) (hk ▸ hb) ok
    rw [exec_csiEventPacket, hrun, Dev.longPacket_event p.isLt vc.isLt hroute hn]
    exact ⟨_, rfl, hk ▸ hwords⟩
  case closes =>
    rw [exec_evtBatchTimeout, onDev_of_powered hp, if_pos (by simp [hw, hdue])]
    exact ⟨_, rfl, Dev.closeEvents_writes (by omega) ht hw⟩
  case waits =>
    refine (exec_evtBatchTimeout s k).trans (onDev_of_fixed (if_neg ?_))
    rcases h with hw | hlt
    · simp [hw]
    · simp only [Bool.and_eq_true, decide_eq_true_eq]
      omega

end Sys2Proof.Machine
end

section
/-!
The sampled sensors (R104–R107): a read that is asked for, its end with its record or its loss, encoder snapshots, and the software
transfers of the I3C controller.
-/
namespace Sys2Proof.Machine
namespace Dev

variable {d e : Dev} {n : Nat}

/-! ## Reads (R105, R106) -/

theorem streamBusy_of_busy (h : (d.chan n).busy = true) : d.streamBusy n = true := by
  simp [streamBusy, h]

/-- Channel n with a read under way whose tag is taken now. -/
def readBegun (d : Dev) (n : Nat) : Dev := d.setChan n { d.chan n with busy := true, readTag := d.chanTag n }

theorem chan_readBegun (d : Dev) (n : Nat) : (d.readBegun n).chan n = { d.chan n with busy := true, readTag := d.chanTag n } := by
  rw [readBegun, chan_setChan, if_pos rfl]

theorem startRead_books (h : d.Captures n) : Books n [0x010] (d.readBegun n) (d.startRead n) := by
  have hbusy : (d.readBegun n).streamBusy n = true := streamBusy_of_busy (by rw [chan_readBegun])
  obtain ⟨-, -, hfrozen⟩ := h
  unfold startRead
  rw [hfrozen, if_neg Bool.false_ne_true]
  exact streamWork_books (.inr hbusy)

/-- A read that is asked for starts where none runs, and is held where one does. -/
theorem askRead_eq (h : d.Captures n) : d.askRead n =
    if (d.chan n).busy then (d.setChan n { d.chan n with edge := true }, (d.chan n).edge) else (d.startRead n, false) := by
  obtain ⟨hpresent, hruns, -⟩ := h
  unfold askRead
  rw [if_neg (by simp [hpresent, hruns])]

/-- A read starts with its tag where none runs. -/
theorem askRead_starts (h : d.Captures n) (hb : (d.chan n).busy = false) :
    ((d.askRead n).1.chan n).busy = true ∧ ((d.askRead n).1.chan n).readTag = d.chanTag n ∧
      ((d.askRead n).1.chan n).period = (d.chan n).period := by
  have hbooks := (startRead_books h).2.1
  rw [askRead_eq h, hb, if_neg Bool.false_ne_true, hbooks.busy, hbooks.readTag, hbooks.period, chan_readBegun]
  exact ⟨rfl, rfl, rfl⟩

/-- A further request is held while a read runs. -/
theorem askRead_holds (h : d.Captures n) (hb : (d.chan n).busy = true) :
    d.askRead n = (d.setChan n { d.chan n with edge := true }, (d.chan n).edge) := by
  rw [askRead_eq h, hb, if_pos rfl]

/-- A period that begins asks for a read. -/
theorem periodRead_starts (h : d.Captures n) (hb : (d.chan n).busy = false) :
    (((d.nextPeriod n).askRead n).1.chan n).busy = true ∧ (((d.nextPeriod n).askRead n).1.chan n).period = d.now := by
  have hchan : (d.nextPeriod n).chan n = { d.chan n with period := d.now } := by rw [nextPeriod, chan_setChan, if_pos rfl]
  have hcap : (d.nextPeriod n).Captures n := h
  obtain ⟨hbusy, -, hperiod⟩ := askRead_starts hcap (by rw [hchan]; exact hb)
  exact ⟨hbusy, hperiod.trans (by rw [hchan])⟩

/-! ## The end of a read (R105, R106) -/

/-- What follows a read: the next one where a request was held. -/
def readNext (d : Dev) (n : Nat) (held : Bool) : Dev := streamWork n (if held && d.running (chanPage n) then d.startRead n else d)

theorem readNext_spec (h : d.Captures n) (hb : (d.chan n).busy = false) (held : Bool) :
    ((d.readNext n held).chan n).busy = held ∧
      ∀ off < 4096, off ≠ 0x010 → (d.readNext n held).reg (chanPage n) off = d.reg (chanPage n) off := by
  unfold readNext
  rw [h.2.1, Bool.and_true]
  cases held with
  | false =>
    have hwork := streamWork_books (.inl h.2.1)
    exact ⟨hwork.2.1.busy.trans hb, fun off ho hne => hwork.reg ho (by simpa using hne)⟩
  | true =>
    have hstart := startRead_books h
    have hbusy : ((d.startRead n).chan n).busy = true := by rw [hstart.2.1.busy, chan_readBegun]
    have hwork := hstart.trans (streamWork_books (.inr (streamBusy_of_busy hbusy)))
    exact ⟨hwork.2.1.busy.trans (by rw [chan_readBegun]), fun off ho hne => hwork.reg ho (by simpa using hne)⟩

/-- Channel n with its read over. -/
def readOver (d : Dev) (n : Nat) : Dev := d.setChan n { d.chan n with busy := false, edge := false }

theorem chan_readOver (d : Dev) (n : Nat) : (d.readOver n).chan n = { d.chan n with busy := false, edge := false } := by
  rw [readOver, chan_setChan, if_pos rfl]

/-- The record of a read's bytes. -/
def sampleRecord (c : Chan) (bytes : List Byte) : Rec := { type := 4, tag := c.readTag, count := 1, payload := bytes }

theorem readDone_data (hb : (d.chan n).busy = true) (burst : Nat) (l : List Byte) : d.readDone n burst (.data l) =
    ((d.readOver n).captureOk n true (sampleRecord (d.chan n) (l.take burst)) 1).1.readNext n (d.chan n).edge := by
  unfold readDone
  rw [if_pos hb]
  rfl

theorem readDone_failed (hb : (d.chan n).busy = true) (burst : Nat) {r : BusResult} (hr : ∀ l, r ≠ .data l) :
    d.readDone n burst r = ((d.readOver n).lose n 5 1).readNext n (d.chan n).edge := by
  unfold readDone
  rw [if_pos hb]
  cases r with
  | data l => exact absurd rfl (hr l)
  | nack => rfl
  | timeout => rfl
  | pecError _ => rfl

/-- A read that ends with its bytes writes a SAMPLE record, and the held request starts the next (R105, R106). -/
theorem readDone_records (hn : n < 24) (hb : (d.chan n).busy = true) {burst : Nat} {l : List Byte}
    (h : d.TakesRecord n (min burst l.length)) :
    ((d.readDone n burst (.data l)).chan n).busy = (d.chan n).edge ∧
      (d.readDone n burst (.data l)).reg (chanPage n) 0x058 = d.reg (chanPage n) 0x058 + 1 := by
  have htakes : (d.readOver n).TakesRecord n (sampleRecord (d.chan n) (l.take burst)).payload.length := by
    rw [sampleRecord, List.length_take]
    exact h.setChan rfl
  have hbooks := writeRecord_books (d.readOver n) hn (sampleRecord (d.chan n) (l.take burst))
  have hidle : (((d.readOver n).writeRecord n (sampleRecord (d.chan n) (l.take burst))).chan n).busy = false := by
    rw [hbooks.2.1.busy, chan_readOver]
  obtain ⟨hbusy, hreg⟩ := readNext_spec (htakes.1.books hbooks (by decide) (by decide)) hidle (d.chan n).edge
  rw [readDone_data hb, captureOk_of_takes htakes]
  exact ⟨hbusy, (hreg _ (by omega) (by omega)).trans (reg_writeRecord_seq _ hn _)⟩

/-- A read that fails is lost, and the held request starts the next (R105, R106). -/
theorem readDone_loses (hn : n < 24) (hb : (d.chan n).busy = true) (h : d.Captures n) (hw : (d.chan n).words = []) (burst : Nat)
    {r : BusResult} (hr : ∀ l, r ≠ .data l) :
    ((d.readDone n burst r).chan n).busy = (d.chan n).edge ∧
      (d.readDone n burst r).reg (chanPage n) 0x05C = satAdd (d.reg (chanPage n) 0x05C) 1 := by
  have hover : (d.readOver n).Captures n := h
  have hwords : ((d.readOver n).chan n).words = [] := by rw [chan_readOver, hw]
  have hbooks := Books.addLoss (.refl n lossRegs (d.readOver n)) hn 5 1
  have hidle : (((d.readOver n).addLoss n 5 1).chan n).busy = false := by rw [hbooks.2.1.busy, chan_readOver]
  obtain ⟨hbusy, hreg⟩ := readNext_spec (hover.books hbooks (by decide) (by decide)) hidle (d.chan n).edge
  rw [readDone_failed hb burst hr, lose_of_empty hwords]
  exact ⟨hbusy, (hreg _ (by omega) (by omega)).trans (reg_addLoss_lost hover hn 5 1)⟩

/-! ## Encoder snapshots (R107) -/

theorem length_encPayload (d : Dev) : d.encPayload.length = 80 := by
  simp [encPayload, List.length_flatMap, length_bytesLE]

/-- An encoder snapshot is a record at once, and leaves its channel's period. -/
theorem encSnapshot_records (h : d.TakesRecord 20 80) :
    (d.encSnapshot.chan 20).period = (d.chan 20).period ∧ d.encSnapshot.reg 0x034 0x058 = d.reg 0x034 0x058 + 1 := by
  unfold encSnapshot capture
  rw [captureOk_of_takes (r := { type := 4, tag := d.chanTag 20, count := 1, payload := d.encPayload }) (by rw [length_encPayload]; exact h)]
  exact ⟨(writeRecord_books d (by omega) _).2.1.period, reg_writeRecord_seq d (n := 20) (by omega) _⟩

/-! ## The I3C controller (R104) -/

/-- A waiting transfer that starts moves the controller alone. -/
theorem i3cNext_frame (d : Dev) : d.i3cNext = { d with i3c := d.i3cNext.i3c } := by
  unfold i3cNext
  split
  · split
    · rfl
    · rfl
  · rfl

/-- A waiting transfer starts where neither a transfer nor a channel's read runs. -/
theorem i3c_i3cNext (d : Dev) : d.i3cNext.i3c =
    if d.i3c.cur = none ∧ d.i3c.queue.isSome = true ∧ (d.chan 19).busy = false then { d.i3c with cur := d.i3c.queue, queue := none }
    else d.i3c := by
  unfold i3cNext
  split
  · next v hcur hqueue =>
    cases hb : (d.chan 19).busy <;> simp [hcur, hqueue]
  · next hnone =>
    rw [if_neg]
    rintro ⟨hcur, hqueue, -⟩
    obtain ⟨v, hv⟩ := Option.isSome_iff_exists.1 hqueue
    exact hnone v hcur hv

/-- The controller with a transfer that waits. -/
def i3cAsked (d : Dev) (v : Word) : Dev := { d with i3c := { d.i3c with queue := some v } }

theorem writeI3c_eq (d : Dev) (v : Word) : d.writeI3c v 0xFFFFFFFF =
    if bit v 31 then ((d.setReg 0x038 0x0B0 (v &&& 0x8000FFFF)).i3cAsked v).i3cNext else d.setReg 0x038 0x0B0 (v &&& 0x8000FFFF) := by
  have hstart : bit (v &&& 0xFFFFFFFF) 31 = bit v 31 := (bit_and _ _ _).trans (Bool.and_true _)
  unfold writeI3c
  rw [hstart]
  rfl

/-- A transfer that is asked for starts, or waits for the one under way and for the channel's read. -/
theorem i3cNext_asked (d : Dev) (v : Word) : if d.i3c.cur = none ∧ (d.chan 19).busy = false then
      (d.i3cAsked v).i3cNext.i3c.cur = some v ∧ (d.i3cAsked v).i3cNext.i3c.queue = none
    else (d.i3cAsked v).i3cNext.i3c.cur = d.i3c.cur ∧ (d.i3cAsked v).i3cNext.i3c.queue = some v := by
  have hnext := i3c_i3cNext (d.i3cAsked v)
  split
  · next hidle =>
    rw [hnext, if_pos ⟨hidle.1, rfl, hidle.2⟩]
    exact ⟨rfl, rfl⟩
  · next hwaits =>
    rw [hnext, if_neg fun h => hwaits ⟨h.1, h.2.2⟩]
    exact ⟨rfl, rfl⟩

theorem writeI3c_spec (d : Dev) (v : Word) : (d.writeI3c v 0xFFFFFFFF).reg 0x038 0x0B0 = v &&& 0x8000FFFF ∧
    (if bit v 31 = false then (d.writeI3c v 0xFFFFFFFF).i3c = d.i3c
     else if d.i3c.cur = none ∧ (d.chan 19).busy = false then
      (d.writeI3c v 0xFFFFFFFF).i3c.cur = some v ∧ (d.writeI3c v 0xFFFFFFFF).i3c.queue = none
     else (d.writeI3c v 0xFFFFFFFF).i3c.cur = d.i3c.cur ∧ (d.writeI3c v 0xFFFFFFFF).i3c.queue = some v) := by
  have hset : (d.setReg 0x038 0x0B0 (v &&& 0x8000FFFF)).reg 0x038 0x0B0 = v &&& 0x8000FFFF := reg_setReg_same _ _ _ _
  rw [writeI3c_eq]
  cases bit v 31 with
  | false => exact ⟨hset, rfl⟩
  | true =>
    rw [if_pos rfl, if_neg nofun]
    exact ⟨by rw [i3cNext_frame]; exact hset, i3cNext_asked (d.setReg 0x038 0x0B0 (v &&& 0x8000FFFF)) v⟩

/-- The FIFO once transfer `v` ended (R104): a read leaves its bytes, a write has taken its own, and a failed one does neither. -/
def fifoAfter (v : Word) (fifo : List Byte) : BusResult → List Byte
  | .data l => if bit v 7 then (fifo ++ l.take (bits v 15 8)).take 64 else fifo.drop (bits v 15 8)
  | _ => fifo

/-- The controller with transfer `v` over. -/
def i3cEnded (d : Dev) (v : Word) (r : BusResult) : Dev :=
  ({ d with i3c := { d.i3c with cur := none, fifo := fifoAfter v d.i3c.fifo r } } : Dev).setFlag 0x038 0x0B0 31 d.i3c.queue.isSome

theorem i3cDone_eq {v : Word} (h : d.i3c.cur = some v) (r : BusResult) : d.i3cDone r = (d.i3cEnded v r).i3cNext := by
  unfold i3cDone
  rw [h]
  cases r <;> rfl

/-- A transfer that ends clears START unless another waits, which then may start. -/
theorem i3cDone_spec {v : Word} (h : d.i3c.cur = some v) (r : BusResult) :
    (d.i3cDone r).flag 0x038 0x0B0 31 = d.i3c.queue.isSome ∧
      (d.i3cDone r).i3c.cur = (if (d.chan 19).busy then none else d.i3c.queue) ∧ (d.i3cDone r).i3c.fifo = fifoAfter v d.i3c.fifo r := by
  have hflag : (d.i3cEnded v r).flag 0x038 0x0B0 31 = d.i3c.queue.isSome := flag_setFlag_same _ _ _ _ _ (by omega)
  have hended : (d.i3cEnded v r).i3c = { d.i3c with cur := none, fifo := fifoAfter v d.i3c.fifo r } := rfl
  have hchan : (d.i3cEnded v r).chan 19 = d.chan 19 := rfl
  have hnext := i3c_i3cNext (d.i3cEnded v r)
  rw [hended, hchan] at hnext
  rw [i3cDone_eq h, hnext]
  refine ⟨by rw [i3cNext_frame]; exact hflag, ?_, ?_⟩
  · cases (d.chan 19).busy <;> cases d.i3c.queue <;> rfl
  · split
    · rfl
    · rfl

end Dev

/-! ## The commands -/

section
variable (s : State)

theorem exec_tofIbi (a : BitVec 7) : exec (.tofIbi a) s =
    onDev (fun d => if !d.flag 0x033 0x080 0 && d.field 0x033 0x080 14 8 = a.toNat then (d.askRead 19).1 else d) s := rfl
theorem exec_tofPeriodExpiry : exec .tofPeriodExpiry s = onDev (fun d =>
    if d.flag 0x033 0x080 0 && d.periodDue 19 (d.reg 0x033 0x084).toNat then ((d.nextPeriod 19).askRead 19).1 else d) s := rfl
theorem exec_tofReadDone (r : BusResult) : exec (.tofReadDone r) s =
    onDev (fun d => (d.readDone 19 (max 1 (min 256 (d.field 0x033 0x088 8 0))) r).i3cNext) s := rfl
theorem exec_imuIntEdge : exec .imuIntEdge s = onDev (fun d =>
    if d.flag 0x032 0x080 0 then d
    else if (d.askRead 18).2 then (d.askRead 18).1.countFrz 0x032 0x088 else (d.askRead 18).1) s := rfl
theorem exec_imuPeriodExpiry : exec .imuPeriodExpiry s = onDev (fun d =>
    if d.flag 0x032 0x080 0 && d.periodDue 18 (d.reg 0x032 0x084).toNat then ((d.nextPeriod 18).askRead 18).1 else d) s := rfl
theorem exec_imuReadDone (r : BusResult) : exec (.imuReadDone r) s =
    onDev (fun d => d.readDone 18 (max 1 (min 64 (d.field 0x032 0x080 30 24))) r) s := rfl
theorem exec_encPeriodExpiry : exec .encPeriodExpiry s = onDev (fun d =>
    if d.running 0x034 && !d.flag 0x034 0x080 8 && d.periodDue 20 (max 100 (d.field 0x034 0x080 31 16)) then
      (d.nextPeriod 20).encSnapshot
    else d) s := rfl
theorem exec_i3cTransfer (ag : Agent) (v : Word) : exec (.i3cTransfer ag v) s =
    onDev (Dev.rwlWrite ag 0x038 fun d => d.writeI3c v 0xFFFFFFFF) s := rfl
theorem exec_i3cTransferDone (r : BusResult) : exec (.i3cTransferDone r) s = onDev (fun d => d.i3cDone r) s := rfl

end

/-- An edge of IMU_INT in MODE 0 (R106): with one held already it is counted in INT_LOST. -/
theorem imuIntEdge_holds {d : Dev} (hc : d.Captures 18) (hb : (d.chan 18).busy = true) :
    let t := if (d.askRead 18).2 then (d.askRead 18).1.countFrz 0x032 0x088 else (d.askRead 18).1
    (t.chan 18).edge = true ∧ t.reg 0x032 0x088 = if (d.chan 18).edge then satAdd (d.reg 0x032 0x088) 1 else d.reg 0x032 0x088 := by
  rw [Dev.askRead_holds hc hb]
  generalize hx : d.setChan 18 { d.chan 18 with edge := true } = x
  have hedge : (x.chan 18).edge = true := by rw [← hx, Dev.chan_setChan, if_pos rfl]
  have hreg : x.reg 0x032 0x088 = d.reg 0x032 0x088 := hx ▸ rfl
  have hfrozen : x.frozen 0x032 = false := hx ▸ hc.2.2
  cases (d.chan 18).edge with
  | false => exact ⟨hedge, hreg⟩
  | true =>
    simp only [if_true, Dev.countFrz, hfrozen, Bool.false_eq_true, if_false]
    exact ⟨hedge, (Dev.reg_count_same _ _ _ _).trans (by rw [hreg])⟩

/-- Settles O15: a sensor's event asks for a read or ends one, and the transfers of the I3C controller wait for the channel's. -/
theorem sampledSensors : Obligations.SampledSensors := by
  unfold Obligations.SampledSensors
  refine ⟨fun s a hp hc hb hm ha => ?ibi, fun s a hp hc hb hm ha => ?ibiHeld, fun s hp hc hb hm hdue => ?tofPeriod,
    fun s l hp hb ht => ?tofData, fun s r hp hb hc hw hr => ?tofFails, fun s hp hc hb hm => ?edge, fun s hp hc hb hm => ?edgeHeld,
    fun s hp hc hb hm hdue => ?imuPeriod,
    fun s l hp hb ht => ⟨_, (exec_imuReadDone s _).trans (onDev_of_powered hp _), Dev.readDone_records (n := 18) (by omega) hb ht⟩,
    fun s r hp hb hc hw hr => ⟨_, (exec_imuReadDone s _).trans (onDev_of_powered hp _), Dev.readDone_loses (n := 18) (by omega) hb hc hw _ hr⟩,
    fun s hp ht hm hdue => ?encoder, fun s ag v ha => ?transfer,
    fun s v r hp hcur => ⟨_, (exec_i3cTransferDone s r).trans (onDev_of_powered hp _), ?done⟩⟩
  case ibi =>
    obtain ⟨hbusy, htag, -⟩ := Dev.askRead_starts hc hb
    rw [exec_tofIbi, onDev_of_powered hp, if_pos (by simp [hm, ha])]
    exact ⟨_, rfl, hbusy, htag⟩
  case ibiHeld =>
    rw [exec_tofIbi, onDev_of_powered hp, if_pos (by simp [hm, ha]), Dev.askRead_holds hc hb]
    refine ⟨_, rfl, ?_⟩
    rw [Dev.chan_setChan, if_pos rfl]
    exact ⟨hb, rfl⟩
  case tofPeriod =>
    rw [exec_tofPeriodExpiry, onDev_of_powered hp, if_pos (by simp [hm, hdue])]
    exact ⟨_, rfl, Dev.periodRead_starts hc hb⟩
  case tofData =>
    rw [exec_tofReadDone, onDev_of_powered hp, Dev.i3cNext_frame]
    exact ⟨_, rfl, Dev.readDone_records (n := 19) (by omega) hb ht⟩
  case tofFails =>
    rw [exec_tofReadDone, onDev_of_powered hp, Dev.i3cNext_frame]
    exact ⟨_, rfl, Dev.readDone_loses (n := 19) (by omega) hb hc hw _ hr⟩
  case edge =>
    obtain ⟨hbusy, htag, -⟩ := Dev.askRead_starts hc hb
    have hlost : (s.dev.askRead 18).2 = false := by rw [Dev.askRead_eq hc, hb]; rfl
    rw [exec_imuIntEdge, onDev_of_powered hp, if_neg (by simp [hm]), hlost, if_neg Bool.false_ne_true]
    exact ⟨_, rfl, hbusy, htag⟩
  case edgeHeld =>
    rw [exec_imuIntEdge, onDev_of_powered hp, if_neg (by simp [hm])]
    exact ⟨_, rfl, imuIntEdge_holds hc hb⟩
  case imuPeriod =>
    rw [exec_imuPeriodExpiry, onDev_of_powered hp, if_pos (by simp [hm, hdue])]
    exact ⟨_, rfl, Dev.periodRead_starts hc hb⟩
  case encoder =>
    have hruns : s.dev.running 0x034 = true := ht.1.2.1
    obtain ⟨hperiod, hseq⟩ := Dev.encSnapshot_records (d := s.dev.nextPeriod 20) (ht.setChan rfl)
    rw [exec_encPeriodExpiry, onDev_of_powered hp, if_pos (by simp [hruns, hm, hdue])]
    exact ⟨_, rfl, hperiod.trans (by rw [Dev.nextPeriod, Dev.chan_setChan, if_pos rfl]), hseq⟩
  case transfer =>
    rw [exec_i3cTransfer, onDev_of_powered ha.1.1, rwlWrite_of_admits ha]
    exact ⟨_, rfl, Dev.writeI3c_spec _ _⟩
  case done =>
    obtain ⟨hflag, hcur, hfifo⟩ := Dev.i3cDone_spec hcur r
    refine ⟨hflag, hcur, hfifo.trans ?_⟩
    cases r <;> rfl

end Sys2Proof.Machine
end

section
/-!
Pushed records (R108) and the lookback snapshots of escalations (R110).
-/
namespace Sys2Proof.Machine
namespace Dev

variable {d e : Dev} {n : Nat}

/-! ## A push (R108) -/

/-- A channel's tag is its Reel channel's, as the registers of Reel give it (R86). -/
theorem chanTag_of_regs (hcfg : e.reg (chanPage n) 0x040 = d.reg (chanPage n) 0x040)
    (hreel : ∀ p off, p = 0x019 ∨ p = 0x01A → off < 4096 → e.reg p off = d.reg p off) : e.chanTag n = d.chanTag n := by
  have hlt : d.field (chanPage n) 0x040 2 0 < 8 := Nat.mod_lt _ (by decide)
  have hfield : e.field (chanPage n) 0x040 2 0 = d.field (chanPage n) 0x040 2 0 := congrArg (fun w => bits w 2 0) hcfg
  have hrreg (o : Nat) (ho : o < 0x40) : e.reg (reelReg (d.field (chanPage n) 0x040 2 0) o).1 (reelReg (d.field (chanPage n) 0x040 2 0) o).2 =
      d.reg (reelReg (d.field (chanPage n) 0x040 2 0) o).1 (reelReg (d.field (chanPage n) 0x040 2 0) o).2 :=
    hreel _ _ (reelPage_of_lt hlt) (by unfold reelReg; omega)
  have hstate := rstate_of_rreg (hrreg 0x14 (by omega))
  have hpos := reelPos_of_rreg (hrreg 0x18 (by omega)) (hrreg 0x1C (by omega))
  unfold chanTag tagOf reelStale
  rw [hfield, hstate, hpos, hrreg 8 (by omega)]

theorem genPush_ignored {k : Nat} (h : (d.chan (22 + k)).push.isSome = true) (lo hi : Word) : d.genPush k lo hi = d := by
  unfold genPush
  exact if_pos (by simp [h])

/-- The address that a push writes. -/
def pushAddr (lo hi : Word) : Nat := lo.toNat + bits hi 15 0 * 2 ^ 32

theorem pushAddr_lt (lo hi : Word) : pushAddr lo hi < 2 ^ 48 := by
  have hhi : bits hi 15 0 < 2 ^ 16 := Nat.mod_lt _ (by decide)
  have hlo := lo.isLt
  unfold pushAddr
  omega

theorem pkg_setPair48 (d : Dev) (p off x : Nat) : (d.setPair48 p off x).pkg = d.pkg := rfl

theorem Captures.setChan (h : d.Captures n) (k : Nat) (c : Chan) : (d.setChan k c).Captures n := h

/-- A push starts the copy of its source, with its tag (R108). -/
theorem genPush_starts {k : Nat} (hk : k < 2) (h : d.Captures (22 + k)) (hp : (d.chan (22 + k)).push = none) (lo hi : Word) :
    ((d.genPush k lo hi).chan (22 + k)).readTag = d.chanTag (22 + k) ∧
      ((d.genPush k lo hi).chan (22 + k)).push = some (pushAddr lo hi, max 1 (min 4096 (d.field (chanPage (22 + k)) 0x088 12 0)),
        d.field (chanPage (22 + k)) 0x088 23 16) := by
  have hpage : chanPage (22 + k) ≠ 0x019 ∧ chanPage (22 + k) ≠ 0x01A := by
    unfold chanPage
    omega
  unfold genPush
  rw [if_neg (by simp [hp, h.2.1])]
  dsimp only
  rw [← pushAddr]
  generalize hx : d.setPair48 (chanPage (22 + k)) 0x080 (pushAddr lo hi) = x
  have hreg (p off : Nat) (hne : p ≠ chanPage (22 + k) ∨ (off ≠ 0x080 ∧ off ≠ 0x084)) (ho : off < 4096) : x.reg p off = d.reg p off :=
    hx ▸ reg_setPair48_other d _ hne ho (by omega)
  have haddr : x.pair48 (chanPage (22 + k)) 0x080 = pushAddr lo hi := hx ▸ pair48_setPair48 d (pushAddr_lt lo hi)
  have hfield (i j : Nat) : x.field (chanPage (22 + k)) 0x088 i j = d.field (chanPage (22 + k)) 0x088 i j :=
    congrArg (fun w => bits w i j) (hreg _ 0x088 (.inr (by omega)) (by omega))
  have htag : x.chanTag (22 + k) = d.chanTag (22 + k) :=
    chanTag_of_regs (hreg _ _ (.inr (by omega)) (by omega)) fun p off hp ho => hreg p off (.inl (by omega)) ho
  have hxcap : x.Captures (22 + k) := h.of_regs (hx ▸ pkg_setPair48 d _ _ _) (hreg _ _ (.inr (by omega)) (by omega)) (hreg _ _ (.inr (by omega)) (by omega))
  rw [if_neg (by simp [hxcap.2.2]), haddr, hfield, hfield, htag]
  generalize hy : x.setChan (22 + k) _ = y
  have hycap : y.Captures (22 + k) := hy ▸ hxcap.setChan _ _
  have hwork := (streamWork_books (.inl hycap.2.1)).2.1
  rw [hwork.readTag, hwork.push, ← hy, chan_setChan, if_pos rfl]
  exact ⟨rfl, rfl⟩

/-- The end of a copy writes its record (R108), and the words of an EVENTS record go to Whorl (R172). -/
theorem genDone_records {k a len type : Nat} (hk : k < 2) (hp : (d.chan (22 + k)).push = some (a, len, type))
    (h : d.TakesRecord (22 + k) len) :
    ((d.genDone k).chan (22 + k)).push = none ∧
      (d.genDone k).reg (chanPage (22 + k)) 0x058 = d.reg (chanPage (22 + k)) 0x058 + 1 := by
  have hn : 22 + k < 24 := by omega
  obtain ⟨hframe, hlen⟩ := read_spec d .producer a len
  unfold genDone
  dsimp only
  rw [hp]
  dsimp only
  generalize d.read .producer a len = out at *
  obtain ⟨o, x⟩ := out
  dsimp only at hframe hlen ⊢
  generalize hr : ({ type := type, tag := (d.chan (22 + k)).readTag, count := _, payload := o.bytes } : Rec) = r
  have hpage (off : Nat) (ho : off < 4096) : x.reg (chanPage (22 + k)) off = d.reg (chanPage (22 + k)) off :=
    hframe.1.2 _ _ (peripheralPage_chanPage hn) ho
  have htakes : x.TakesRecord (22 + k) r.payload.length := by
    rw [← hr, hlen]
    exact h.of_buffer (hframe.1.beside 0).pkg hframe.2.snaps hpage (by rw [hframe.1.chan])
  generalize hy : x.setChan (22 + k) { x.chan (22 + k) with push := none } = y
  have hytakes : y.TakesRecord (22 + k) r.payload.length := hy ▸ htakes.setChan rfl
  have hypush : (y.chan (22 + k)).push = none := by rw [← hy, chan_setChan, if_pos rfl]
  have hyseq : y.reg (chanPage (22 + k)) 0x058 = d.reg (chanPage (22 + k)) 0x058 := hy ▸ hpage _ (by omega)
  rw [captureOk_of_takes hytakes]
  have hbooks := writeRecord_books y hn r
  generalize hz : (if type = 3 then _ else y.writeRecord (22 + k) r : Dev) = z
  have hevents : (y.writeRecord (22 + k) r).Elsewhere z :=
    hz ▸ .ite _ (Elsewhere.foldl (.refl _) _ fun w v => (Elsewhere.refl v).genEvent hk w) (.refl _)
  have hzbooks := hbooks.trans (hevents.books hn)
  have hwork := streamWork_books (.inl (hytakes.1.books hzbooks (by decide) (by decide)).2.1)
  rw [hwork.2.1.push, hzbooks.2.1.push, hwork.reg (by omega) (by simp), hevents.2 _ _ (peripheralPage_chanPage hn) (by omega),
    reg_writeRecord_seq y hn, hyseq]
  exact ⟨hypush, rfl⟩

/-! ## Lookback snapshots (R21, R110) -/

/-- The snapshot `x` is held, and the microphones are `mic`. -/
def holdSnapshot (d : Dev) (slot : Nat) (x : Snapshot) (mic : Mic) : Dev :=
  { d with snaps := Sparse.put (fun _ => none) d.snaps slot (some x), mic := mic }

theorem escs_holdSnapshot (d : Dev) (slot : Nat) (x : Snapshot) (mic : Mic) : (d.holdSnapshot slot x mic).escs = d.escs := rfl

theorem snap_holdSnapshot (d : Dev) (slot : Nat) (x : Snapshot) (mic : Mic) : (d.holdSnapshot slot x mic).snap slot = some x := by
  unfold snap holdSnapshot
  simp only [Sparse.get_put_same]

/-- The escalation of a stream whose snapshot is due is marked, and its slot holds each camera's completed frames. -/
theorem lookbackSnapshot_holds {stream : Nat} {x : Escalation} (h : (d.escs.find? fun x => x.stream == stream && !x.snapped) = some x) :
    { x with snapped := true } ∈ (d.lookbackSnapshot stream).escs ∧
      (d.absentPage 0x038 = false → d.flag 0x038 0x0D0 0 = true → ((d.lookbackSnapshot stream).snap x.slot).map (·.bufs) =
        some ((List.range 8).flatMap fun n => (d.chan n).done.map fun f => (n, f.buf))) := by
  have hmem : { x with snapped := true } ∈ d.escs.map fun y => if y == x then { y with snapped := true } else y :=
    List.mem_map.2 ⟨x, List.mem_of_find?_eq_some h, if_pos (beq_self_eq_true x)⟩
  unfold lookbackSnapshot
  rw [h]
  dsimp only
  generalize hm : ({ d with escs := d.escs.map fun y => if y == x then { y with snapped := true } else y } : Dev) = m
  have hmarked : { x with snapped := true } ∈ m.escs := hm ▸ hmem
  have hchan (n : Nat) : m.chan n = d.chan n := hm ▸ rfl
  have hpage : m.absentPage 0x038 = d.absentPage 0x038 ∧ m.flag 0x038 0x0D0 0 = d.flag 0x038 0x0D0 0 := hm ▸ ⟨rfl, rfl⟩
  rw [← hpage.1, ← hpage.2]
  split
  · next hoff => exact ⟨hmarked, fun ha hl => by simp [ha, hl] at hoff⟩
  · have hputs (ns : List Nat) (a : Nat → Nat) (l : Nat → Dev → List Byte) (y : Dev) :
        y.SkeinFrame (forEach ns (fun n d => d.put .producer (a n) (l n d)) y) :=
      forEach_rel SkeinFrame.refl (fun _ _ _ => SkeinFrame.trans) (fun n _ z => skeinFrame_put z _ _ _) y
    generalize hy : Dev.put _ _ (m.snapAddr x.slot + 0x900) _ = y
    have hframe : m.SkeinFrame y := hy ▸ ((hputs _ _ (fun n d => d.snapCamera n) m).trans
      (hputs _ _ (fun k d => d.snapEvents (8 + k)) _)).trans (skeinFrame_put _ _ _ _)
    have hdone (n : Nat) : y.chan n = d.chan n := (hframe.1.chan n).trans (hchan n)
    rw [← holdSnapshot]
    refine ⟨?_, fun _ _ => ?_⟩
    · rw [escs_holdSnapshot, hframe.2.escs]
      exact hmarked
    · rw [snap_holdSnapshot, Option.map_some]
      simp only [hdone]

end Dev

/-! ## The commands -/

section
variable (s : State)

theorem exec_genPush (ag : Agent) (k : Fin 2) (hi : Word) : exec (.genPush ag k hi) s =
    onDev (Dev.rwlWrite ag (chanPage (22 + k.val)) fun d => d.genPush k.val (d.agentReg ag (chanPage (22 + k.val)) 0x080) hi) s := rfl
theorem exec_genPushDone (k : Fin 2) : exec (.genPushDone k) s = onDev (Dev.whenServed fun d => d.genDone k.val) s := rfl
theorem exec_lookbackSnapshot (e : Fin 256) : exec (.lookbackSnapshot e) s = onDev (Dev.whenServed fun d => d.lookbackSnapshot e.val) s := rfl

end

/-- Settles O16: a push starts a copy and its end is a record; a snapshot that can be written holds what its cameras completed. -/
theorem pushesAndSnapshots : Obligations.PushesAndSnapshots := by
  unfold Obligations.PushesAndSnapshots
  refine ⟨fun s ag k hi ha hc hp => ?push, fun s ag k hi ha hp => ?ignored, fun s k a len type hp hpush ht hserve => ?copied,
    fun s e x hp hfind hserve => ?snapshot⟩
  case push =>
    rw [exec_genPush, onDev_of_powered ha.1.1, rwlWrite_of_admits ha]
    exact ⟨_, rfl, Dev.genPush_starts k.isLt hc hp _ hi⟩
  case ignored => exact (exec_genPush s ag k hi).trans (onDev_of_fixed ((rwlWrite_of_admits ha _).trans (Dev.genPush_ignored hp _ hi)))
  case copied =>
    obtain ⟨hnone, hseq⟩ := Dev.genDone_records k.isLt hpush ht
    obtain ⟨hserved, -⟩ := Dev.whenServed_of_canServe hserve
    rw [exec_genPushDone, onDev_of_powered hp]
    exact ⟨_, rfl, (by rw [hserved.chan, hnone]), (hserved.2 _ _ (Dev.peripheralPage_chanPage (by omega)) (by omega)).trans hseq⟩
  case snapshot =>
    obtain ⟨hmem, hsnap⟩ := Dev.lookbackSnapshot_holds hfind
    obtain ⟨-, hstands⟩ := Dev.whenServed_of_canServe hserve
    rw [exec_lookbackSnapshot, onDev_of_powered hp]
    refine ⟨_, rfl, (by rw [hstands.escs]; exact hmem), fun ha hl => ?_⟩
    rw [Dev.snap, hstands.snaps]
    exact hsnap ha hl

end Sys2Proof.Machine
end

section
/-!
The modes of the microphone front end (R121, R122): the registers and clocks that a change of mode moves, and stuck microphones (R129).
-/
namespace Sys2Proof.Machine
namespace Dev

variable {d e : Dev}

/-! ## MODE_STAT.CUR and MODE -/

theorem micCur_setCur (d : Dev) {v : Nat} (hv : v < 8) : (d.setCur v).micCur = v :=
  (field_setField_same d 0x03A 0x044 2 0 v (by omega)).trans (Nat.mod_eq_of_lt hv)

theorem reg_setCur (d : Dev) (v : Nat) {p off : Nat} (h : p ≠ 0x03A ∨ off ≠ 0x044) (ho : off < 4096) :
    (d.setCur v).reg p off = d.reg p off := reg_setReg_other _ _ _ _ _ _ h ho (by omega)

theorem micCur_of_reg (h : e.reg 0x03A 0x044 = d.reg 0x03A 0x044) : e.micCur = d.micCur := congrArg (fun w => bits w 2 0) h

/-! ## Clocks that are asked for and given up (R411, R412) -/

/-- The registers of the clocks that a PLL's request moves: SRC_RDY, the locks and the CFGs of PLL0 and PLL1. -/
def pllRegs : List (Nat × Nat) := [(0x010, 0x040), (0x011, 0x040), (0x011, 0x044), (0x011, 0x050)]

/-- From `d` to `d'` only the registers that `pllRegs` names moved. -/
def PllMoves (d d' : Dev) : Prop := d' = { d with regs := d'.regs } ∧ OnlyRegs pllRegs d d'

theorem PllMoves.refl (d : Dev) : d.PllMoves d := ⟨rfl, .refl _ d⟩

theorem PllMoves.trans {a b c : Dev} (h : a.PllMoves b) (k : b.PllMoves c) : a.PllMoves c := ⟨by rw [k.1, h.1], h.2.trans k.2⟩

theorem PllMoves.ite (c : Prop) [Decidable c] {a b : Dev} (ha : d.PllMoves a) (hb : d.PllMoves b) : d.PllMoves (if c then a else b) := by
  split
  · exact ha
  · exact hb

theorem PllMoves.mic (h : d.PllMoves e) : e.mic = d.mic := by rw [h.1]

/-- The pages of the front end and of every other block than the sources and the PLLs stand. -/
theorem PllMoves.reg (h : d.PllMoves e) {p off : Nat} (hp : 0x011 < p) (ho : off < 4096) : e.reg p off = d.reg p off :=
  h.2 p off ho (by simp only [pllRegs, List.mem_cons, Prod.ext_iff, List.not_mem_nil, or_false]; omega)

theorem PllMoves.setFlag (h : d.PllMoves e) {p off : Nat} (i : Nat) (v : Bool) (hm : (p, off) ∈ pllRegs) :
    d.PllMoves (e.setFlag p off i v) := by
  have hoff : off < 4096 := by
    simp only [pllRegs, List.mem_cons, Prod.ext_iff, List.not_mem_nil, or_false] at hm
    omega
  exact h.trans ⟨rfl, setReg_onlyRegs e p off _ _ hoff hm⟩

theorem PllMoves.setLock (h : d.PllMoves e) {n : Nat} (hn : n < 3) (v : Bool) : d.PllMoves (e.setLock n v) := by
  have hlock := h.setFlag n v (p := 0x011) (off := 0x050) (by decide)
  unfold Dev.setLock
  split
  · obtain rfl | rfl : n = 0 ∨ n = 1 := by omega
    · exact hlock.setFlag 8 v (by decide)
    · exact hlock.setFlag 8 v (by decide)
  · exact hlock

theorem PllMoves.setRdy (h : d.PllMoves e) (n : Nat) (v : Bool) : d.PllMoves (e.setRdy n v) := h.setFlag n v (by decide)

/-- PLL n stops where nothing keeps it running. -/
def pllStopped (d : Dev) (n : Nat) : Dev := if d.pllOn n then d else (d.setLock n false).setRdy (4 + n) false

theorem clkStops_eq (d : Dev) :
    d.clkStops = (((if d.xtaOn then d else d.setRdy 2 false).pllStopped 2).pllStopped 1).pllStopped 0 := rfl

theorem PllMoves.pllStopped (h : d.PllMoves e) {n : Nat} (hn : n < 3) : d.PllMoves (e.pllStopped n) := .ite _ h ((h.setLock hn _).setRdy _ _)

theorem clkStops_moves (d : Dev) : d.PllMoves d.clkStops := by
  rw [clkStops_eq]
  exact (((PllMoves.ite _ (.refl d) ((PllMoves.refl d).setRdy 2 false)).pllStopped (by omega)).pllStopped (by omega)).pllStopped (by omega)

theorem pllLocked_setRdy (d : Dev) (n : Nat) (v : Bool) : (d.setRdy n v).pllLocked 1 = d.pllLocked 1 :=
  flag_of_reg (reg_setReg_other _ _ _ _ _ _ (.inl (by omega)) (by omega) (by omega)) 1

/-- A PLL that loses its lock gives none to PLL1. -/
theorem pllLocked_setLock (d : Dev) {n : Nat} (h : n = 1 ∨ d.pllLocked 1 = false) : (d.setLock n false).pllLocked 1 = false := by
  have hflag : (d.setFlag 0x011 0x050 n false).flag 0x011 0x050 1 = false := by
    by_cases hn : n = 1
    · rw [hn]
      exact flag_setFlag_same _ _ _ _ _ (by omega)
    · have hbit : bit (putBit (d.reg 0x011 0x050) n false) 1 = bit (d.reg 0x011 0x050) 1 := bit_putBit_other _ _ _ _ (Ne.symm hn)
      rw [setFlag, flag_setReg, if_pos rfl, hbit]
      exact h.resolve_left hn
  unfold setLock
  dsimp only
  split
  · exact (flag_of_reg (reg_setReg_other _ _ _ _ _ _ (.inr (by omega)) (by omega) (by omega)) 1).trans hflag
  · exact hflag

theorem pllLocked_pllStopped (h : d.pllLocked 1 = false) (n : Nat) : (d.pllStopped n).pllLocked 1 = false := by
  unfold pllStopped
  split
  · exact h
  · rw [pllLocked_setRdy, pllLocked_setLock d (.inr h)]

/-- Clocks that stop lock nothing. -/
theorem pllLocked_clkStops (h : d.pllLocked 1 = false) : d.clkStops.pllLocked 1 = false := by
  have hxta : (if d.xtaOn then d else d.setRdy 2 false).pllLocked 1 = false := by
    split
    · exact h
    · rw [pllLocked_setRdy, h]
  rw [clkStops_eq]
  exact pllLocked_pllStopped (pllLocked_pllStopped (pllLocked_pllStopped hxta 2) 1) 0

/-- PLL1's request as the front end leaves it. -/
def pll1Asked (d : Dev) (v : Bool) : Dev := { d with clk := { d.clk with pll1Req := v } }

/-- The front end's request moves registers of the clocks, and the request itself (R411). -/
theorem askPll1_moves (d : Dev) (v : Bool) : (d.pll1Asked v).PllMoves (d.askPll1 v) := by
  have hstart : (d.pll1Asked v).PllMoves ((if v && !d.pllOn 1 then d.setFlag 0x011 0x044 9 (!d.srcRdy 2) else d).pll1Asked v) := by
    split
    · exact (PllMoves.refl (d.pll1Asked v)).setFlag (p := 0x011) (off := 0x044) 9 (!d.srcRdy 2) (by decide)
    · exact .refl _
  exact hstart.trans (clkStops_moves _)

theorem pll1Req_askPll1 (d : Dev) (v : Bool) : (d.askPll1 v).clk.pll1Req = v := by
  rw [(askPll1_moves d v).1]
  rfl

theorem mic_askPll1 (d : Dev) (v : Bool) : (d.askPll1 v).mic = d.mic := (askPll1_moves d v).mic

theorem reg_askPll1 (d : Dev) (v : Bool) {off : Nat} (ho : off < 4096) : (d.askPll1 v).reg 0x03A off = d.reg 0x03A off :=
  (askPll1_moves d v).reg (by omega) ho

/-- PLL1 given up stays without the lock that it lost. -/
theorem pllLocked_askPll1_false (h : d.pllLocked 1 = false) : (d.askPll1 false).pllLocked 1 = false :=
  pllLocked_clkStops (d := d.pll1Asked false) h

/-! ## Changes of mode (R121, R122) -/

/-- The front end in TO_ACTIVE from now on, before it asks for PLL1. -/
def micAwaits (d : Dev) : Dev :=
  let d := (d.setFlag 0x03A 0x040 0 true).setCur 3
  { d with mic := { d.mic with toAt := d.now } }

theorem micToActive_eq (d : Dev) : d.micToActive = d.micAwaits.askPll1 true := rfl

/-- The front end asks for PLL1 and waits for its lock. -/
theorem micToActive_spec (d : Dev) : d.micToActive.micCur = 3 ∧ d.micToActive.flag 0x03A 0x040 0 = true ∧ d.micToActive.clk.pll1Req = true := by
  have hcur : d.micAwaits.micCur = 3 := micCur_setCur (d.setFlag 0x03A 0x040 0 true) (by omega)
  have hmode : d.micAwaits.flag 0x03A 0x040 0 = true :=
    (flag_of_reg (reg_setCur (d.setFlag 0x03A 0x040 0 true) 3 (.inr (by omega)) (by omega)) 0).trans (flag_setFlag_same _ _ _ _ _ (by omega))
  rw [micToActive_eq]
  exact ⟨(micCur_of_reg (reg_askPll1 _ _ (by omega))).trans hcur, (flag_of_reg (reg_askPll1 _ _ (by omega)) 0).trans hmode, pll1Req_askPll1 _ _⟩

/-- TO_ACTIVE moves nothing of what the front end keeps but when it began. -/
theorem mic_micToActive (d : Dev) : d.micToActive.mic = { d.mic with toAt := d.now } := mic_askPll1 _ _

theorem micCur_micListenStart (d : Dev) (extra : Nat) : (d.micListenStart extra).micCur = 1 := micCur_setCur _ (by omega)

theorem mic_micListenStart (d : Dev) (extra : Nat) :
    (d.micListenStart extra).mic = { d.mic with clk := 1, paths := [], settle := d.settlePeriods + extra } := rfl

theorem reg_micListenStart (d : Dev) (extra : Nat) {p off : Nat} (h : p ≠ 0x03A ∨ off ≠ 0x044) (ho : off < 4096) :
    (d.micListenStart extra).reg p off = d.reg p off := reg_setCur _ 1 h ho

/-- MODE = 0 with PLL1 given up. -/
def micGivenUp (d : Dev) : Dev := (d.setFlag 0x03A 0x040 0 false).askPll1 false

theorem mic_micGivenUp (d : Dev) : d.micGivenUp.mic = d.mic := mic_askPll1 _ _

theorem mode_micGivenUp (d : Dev) : d.micGivenUp.flag 0x03A 0x040 0 = false :=
  (flag_of_reg (reg_askPll1 _ _ (by omega)) 0).trans (flag_setFlag_same _ _ _ _ _ (by omega))

/-- TO_ACTIVE is given up: the front end is where its clock was (R121). -/
theorem micCancel_spec (d : Dev) : d.micCancel.micCur = (if d.mic.clk = 1 then 2 else 1) ∧ d.micCancel.flag 0x03A 0x040 0 = false ∧
    d.micCancel.clk.pll1Req = false := by
  have hmode := d.mode_micGivenUp
  have hreq : d.micGivenUp.clk.pll1Req = false := pll1Req_askPll1 _ _
  have hcancel : d.micCancel = if d.mic.clk = 1 then d.micGivenUp.setCur 2 else d.micGivenUp.micListenStart 1 := by
    rw [← d.mic_micGivenUp]
    rfl
  rw [hcancel]
  split
  · exact ⟨micCur_setCur _ (by omega), (flag_of_reg (reg_setCur _ 2 (.inr (by omega)) (by omega)) 0).trans hmode, hreq⟩
  · exact ⟨micCur_micListenStart _ _, (flag_of_reg (reg_micListenStart _ 1 (.inr (by omega)) (by omega)) 0).trans hmode, hreq⟩

/-- MODE written, before the front end acts on it. -/
theorem modeWritten_spec (d : Dev) (v : Word) :
    (d.setReg 0x03A 0x040 (v &&& 3)).micCur = d.micCur ∧ (d.setReg 0x03A 0x040 (v &&& 3)).flag 0x03A 0x040 0 = bit v 0 := by
  refine ⟨micCur_of_reg (reg_setReg_other _ _ _ _ _ _ (.inr (by omega)) (by omega) (by omega)), ?_⟩
  rw [flag_setReg, if_pos rfl, bit_and]
  exact Bool.and_true _

/-- MODE = 1 (R121): from LISTEN the front end goes to TO_ACTIVE, and elsewhere MODE is kept for later. -/
theorem writeMode_active {v : Word} (hv : bit v 0 = true) :
    (d.micCur = 2 → (d.writeMode v).micCur = 3 ∧ (d.writeMode v).flag 0x03A 0x040 0 = true ∧ (d.writeMode v).clk.pll1Req = true) ∧
    (d.micCur ≠ 2 → (d.writeMode v).micCur = d.micCur ∧ (d.writeMode v).flag 0x03A 0x040 0 = true) := by
  obtain ⟨hcur, hmode⟩ := modeWritten_spec d v
  unfold writeMode
  generalize d.setReg 0x03A 0x040 (v &&& 3) = w at *
  dsimp only
  rw [if_pos hv, ← hcur]
  refine ⟨fun h => ?_, fun h => ?_⟩
  · rw [if_pos h]
    exact micToActive_spec w
  · rw [if_neg h]
    exact ⟨rfl, hmode.trans hv⟩

/-- MODE = 0 (R121): from ACTIVE the front end goes to TO_LISTEN, TO_ACTIVE is given up, and elsewhere MODE is kept for later. -/
theorem writeMode_listen {v : Word} (hv : bit v 0 = false) :
    (d.micCur ≠ 3 → d.micCur ≠ 5 → (d.writeMode v).micCur = d.micCur ∧ (d.writeMode v).flag 0x03A 0x040 0 = false) ∧
    (d.micCur = 5 → (d.writeMode v).micCur = 6 ∧ (d.writeMode v).flag 0x03A 0x040 0 = false) ∧
    (d.micCur = 3 → (d.writeMode v).micCur = (if d.mic.clk = 1 then 2 else 1) ∧ (d.writeMode v).clk.pll1Req = false) := by
  obtain ⟨hcur, hmode⟩ := modeWritten_spec d v
  have hmic : (d.setReg 0x03A 0x040 (v &&& 3)).mic = d.mic := rfl
  unfold writeMode
  generalize d.setReg 0x03A 0x040 (v &&& 3) = w at *
  dsimp only
  rw [if_neg (by simp [hv]), ← hcur, ← hmic]
  refine ⟨fun h3 h5 => ?_, fun h5 => ?_, fun h3 => ?_⟩
  · rw [if_neg h3, if_neg h5]
    exact ⟨rfl, hmode.trans hv⟩
  · rw [if_neg (by omega), if_pos h5]
    exact ⟨micCur_setCur _ (by omega), (flag_of_reg (reg_setCur _ 6 (.inr (by omega)) (by omega)) 0).trans (hmode.trans hv)⟩
  · obtain ⟨hc, -, hreq⟩ := micCancel_spec w
    rw [if_pos h3]
    exact ⟨hc, hreq⟩

/-! ## Errors of the front end's page (R57) -/

/-- An error of the page leaves its own registers, those of the block. -/
theorem reg_micErr (d : Dev) (b : Nat) {off : Nat} (hlo : 0x020 < off) (ho : off < 4096) : (d.err 0x03A b).reg 0x03A off = d.reg 0x03A off :=
  err_onlyRegs d 0x03A b 0x03A off ho (by
    simp only [errRegs, eventRegs, List.cons_append, List.nil_append, List.mem_cons, Prod.ext_iff, List.not_mem_nil, or_false]
    omega)

/-! ## Stuck microphones (R129) -/

theorem micStuckSet_spec {m : Nat} (hm : m < 32) (h : d.micClk (m / 4) ≠ 0) :
    (d.micStuckSet m).flag 0x03A 0x04C m = true ∧ (d.micStuckSet m).flag 0x03A 0x014 4 = true := by
  unfold micStuckSet
  rw [if_neg h]
  exact ⟨(flag_of_reg (reg_micErr _ 4 (by omega) (by omega)) m).trans (flag_setFlag_same _ _ _ _ _ hm), flag_err _ _ _ (by omega)⟩

/-- A bit of a register beside the one that is written. -/
theorem flag_setFlag_other (d : Dev) (p off : Nat) {i j : Nat} (v : Bool) (h : j ≠ i) : (d.setFlag p off i v).flag p off j = d.flag p off j := by
  rw [setFlag, flag_setReg, if_pos rfl, bit_putBit_other _ _ _ _ h]
  rfl

end Dev
end Sys2Proof.Machine
end

section
/-!
What a grid period of the microphones leaves alone (R113–R128): the registers of its modes, the PLLs' pages, and the counts that time it.
-/
namespace Sys2Proof.Machine

/-- What times the front end: its clock, the settle left, the grid periods counted, and those of the open record. -/
abbrev Mic.timing (m : Mic) : Nat × Nat × Nat × Nat := (m.clk, m.settle, m.periods, m.len)

namespace Dev

variable {d e : Dev} {l : List Nat} {n : Nat}

/-- From `d` to `d'` the front end's timing stands, with the registers of the PLLs and those of its own page but the ones `l` names. -/
def MicStands (l : List Nat) (d d' : Dev) : Prop :=
  d'.mic.timing = d.mic.timing ∧ ∀ p off, off < 4096 → (p = 0x011 ∨ p = 0x03A ∧ off ∉ l) → d'.reg p off = d.reg p off

theorem MicStands.refl (l : List Nat) (d : Dev) : MicStands l d d := ⟨rfl, fun _ _ _ _ => rfl⟩

theorem MicStands.trans {a b c : Dev} (h : MicStands l a b) (k : MicStands l b c) : MicStands l a c :=
  ⟨k.1.trans h.1, fun p off ho hp => (k.2 p off ho hp).trans (h.2 p off ho hp)⟩

theorem MicStands.mono {m : List Nat} (h : MicStands l d e) (hs : ∀ x ∈ l, x ∈ m) : MicStands m d e :=
  ⟨h.1, fun p off ho hp => h.2 p off ho (hp.imp_right fun hm => ⟨hm.1, fun hl => hm.2 (hs _ hl)⟩)⟩

theorem MicStands.clk (h : MicStands l d e) : e.mic.clk = d.mic.clk := congrArg (·.1) h.1
theorem MicStands.settle (h : MicStands l d e) : e.mic.settle = d.mic.settle := congrArg (·.2.1) h.1
theorem MicStands.periods (h : MicStands l d e) : e.mic.periods = d.mic.periods := congrArg (·.2.2.1) h.1
theorem MicStands.len (h : MicStands l d e) : e.mic.len = d.mic.len := congrArg (·.2.2.2) h.1

theorem MicStands.reg (h : MicStands l d e) {off : Nat} (ho : off < 4096) (hl : off ∉ l) : e.reg 0x03A off = d.reg 0x03A off :=
  h.2 _ _ ho (.inr ⟨rfl, hl⟩)

theorem MicStands.pllLocked (h : MicStands l d e) : e.pllLocked 1 = d.pllLocked 1 := flag_of_reg (h.2 _ _ (by omega) (.inl rfl)) 1

theorem MicStands.micCur (h : MicStands l d e) (hl : 0x044 ∉ l) : e.micCur = d.micCur := micCur_of_reg (h.reg (by omega) hl)

theorem MicStands.running (h : MicStands l d e) (hl : 0x010 ∉ l) : e.running 0x03A = d.running 0x03A := by
  unfold Dev.running
  rw [pageState_of_reg (h.reg (by omega) hl)]

theorem MicStands.ite (c : Prop) [Decidable c] {a b : Dev} (ha : MicStands l d a) (hb : MicStands l d b) :
    MicStands l d (if c then a else b) := by
  split
  · exact ha
  · exact hb

theorem MicStands.foldl {α : Type} (h : MicStands l d e) (as : List α) {f : Dev → α → Dev} (hf : ∀ a x, MicStands l x (f x a)) :
    MicStands l d (as.foldl f e) := by
  induction as generalizing e with
  | nil => exact h
  | cons a as ih => exact ih (h.trans (hf a e))

theorem MicStands.forEach (h : MicStands l d e) (ns : List Nat) {f : Nat → Dev → Dev} (hf : ∀ k ∈ ns, ∀ x, MicStands l x (f k x)) :
    MicStands l d (forEach ns f e) :=
  h.trans (forEach_rel (MicStands.refl l) (fun _ _ _ => MicStands.trans) hf e)

/-- An update of other fields than the registers and the timing. -/
theorem MicStands.fields (h : MicStands l d e) {e' : Dev} (hr : (e'.regs, e'.pkg, e'.mic.timing) = (e.regs, e.pkg, e.mic.timing)) :
    MicStands l d e' := by
  have hregs : e'.regs = e.regs := congrArg (·.1) hr
  have hpkg : e'.pkg = e.pkg := congrArg (·.2.1) hr
  refine h.trans ⟨congrArg (·.2.2) hr, fun p off _ _ => ?_⟩
  unfold Dev.reg
  rw [hregs, hpkg]

theorem MicStands.setReg (h : MicStands l d e) {p off : Nat} (v : Word) (hp : 0x011 < p) (hm : p = 0x03A → off ∈ l) (hf : off < 4096) :
    MicStands l d (e.setReg p off v) := by
  refine h.trans ⟨rfl, fun q o ho hq => reg_setReg_other _ _ _ _ _ _ ?_ ho hf⟩
  by_contra hcon
  obtain ⟨rfl, rfl⟩ : q = p ∧ o = off := by omega
  rcases hq with rfl | ⟨rfl, hn⟩
  · omega
  · exact hn (hm rfl)

theorem MicStands.countFrz (h : MicStands l d e) {p off : Nat} (k : Nat) (hp : 0x011 < p) (hm : p = 0x03A → off ∈ l) (hf : off < 4096) :
    MicStands l d (e.countFrz p off k) := .ite _ h (h.setReg _ hp hm hf)

theorem MicStands.setChan (h : MicStands l d e) (k : Nat) (c : Chan) : MicStands l d (e.setChan k c) := h.fields rfl

/-- The blocks that neither memory nor the scheduler writes. -/
theorem MicStands.elsewhere (h : MicStands l d e) {e' : Dev} (he : e.Elsewhere e') : MicStands l d e' := by
  have hmic : e'.mic = e.mic := congrArg (fun x => x.2.2.2.2.2.2.2.2.2.1) he.1
  exact h.trans ⟨by rw [hmic], fun p off ho hp => he.2 p off (by unfold peripheralPage; omega) ho⟩

/-- The work of a stream channel beside its own page. -/
theorem MicStands.beside (h : MicStands l d e) (hn : n < 24) {e' : Dev} (he : Beside n e e') : MicStands l d e' := by
  have hmic : e'.mic = e.mic := congrArg (fun x => x.2.2.2.2.2.2.2.2.2.1) he.1
  exact h.trans ⟨by rw [hmic], fun p off ho hp => he.2 p off (by unfold peripheralPage; omega) ho (by unfold chanPage; omega)⟩

/-- Reel's channels move none of it. -/
theorem MicStands.reel (h : MicStands l d e) {e' : Dev} (he : e.ReelMoves e') : MicStands l d e' :=
  h.trans ⟨by rw [he.mic], fun p off ho hp => he.2 p off ho (by omega) (by omega) (by
    simp only [eventRegs, List.mem_cons, Prod.ext_iff, List.not_mem_nil, or_false]
    omega)⟩

/-- An error of another page than the clocks'. -/
theorem MicStands.err (h : MicStands l d e) {p : Nat} (b : Nat) (hp : 0x011 < p) (hm : 0x014 ∈ l ∧ 0x01C ∈ l ∧ 0x020 ∈ l) :
    MicStands l d (e.err p b) := by
  obtain ⟨h14, h1c, h20⟩ := hm
  refine h.trans ⟨by rw [(err_signals e p b).mic], fun q off ho hq => err_onlyRegs e p b q off ho ?_⟩
  rcases hq with rfl | ⟨rfl, hl⟩
  · simp only [errRegs, eventRegs, List.mem_append, List.mem_cons, Prod.ext_iff, List.not_mem_nil, or_false]
    omega
  · have hoff : off ≠ 0x014 ∧ off ≠ 0x01C ∧ off ≠ 0x020 :=
      ⟨fun heq => hl (heq ▸ h14), fun heq => hl (heq ▸ h1c), fun heq => hl (heq ▸ h20)⟩
    simp only [errRegs, eventRegs, List.mem_append, List.mem_cons, Prod.ext_iff, List.not_mem_nil, or_false]
    omega

/-! ## Records (R85–R92, R118)

An open record is kept under its microphone's number, and no number is ruled out, so that the channel may be any. -/

theorem chanPage_above (n : Nat) : 0x011 < chanPage n := by
  unfold chanPage
  omega

theorem MicStands.notify (h : MicStands l d e) (n : Nat) (seq : Word) (off : Nat) : MicStands l d (e.notify n seq off) := by
  unfold Dev.notify postOwedOf
  generalize hx : e.setChan n { e.chan n with owed := (e.chan n).owed ++ [(seq, off)] } = x
  have hx : MicStands l d x := hx ▸ h.setChan _ _
  extract_lets owed
  exact .ite _ hx ((hx.setChan _ _).elsewhere (.foldl (.refl _) owed fun a y => (Elsewhere.refl y).notifyTask n a.1 a.2))

theorem MicStands.writeRecord (h : MicStands lossRegs d e) (n : Nat) (r : Rec) : MicStands lossRegs d (e.writeRecord n r) := by
  have hpage := chanPage_above n
  unfold Dev.writeRecord
  extract_lets p sz total wrap pad d1 off seq body d2 d3 d4 c c1 every overlaps kept c2
  have h2 : e.Elsewhere d2 := (Elsewhere.when (.refl e) _ ((Elsewhere.refl e).put _ _ _)).put _ _ _
  have h3 : MicStands lossRegs d d3 :=
    ((h.elsewhere h2).setReg _ hpage (fun _ => by decide) (by omega)).setReg _ hpage (fun _ => by decide) (by omega)
  have h4 : MicStands lossRegs d d4 := .ite _ (h3.countFrz _ hpage (fun _ => by decide) (by omega)) h3
  exact .ite _ ((h4.setChan _ _).notify _ _ _) (h4.setChan _ _)

theorem MicStands.flushGaps (n : Nat) (svc : Bool) (next k : Nat) (h : MicStands lossRegs d e) :
    MicStands lossRegs d (flushGaps n svc next k e) := by
  induction k generalizing e with
  | zero => exact h
  | succ k ih =>
    unfold Dev.flushGaps
    split
    · exact h
    · exact .ite _ h (.ite _ (ih ((h.setChan _ _).writeRecord _ _)) h)

theorem MicStands.addLoss (h : MicStands lossRegs d e) (n cause cnt : Nat) : MicStands lossRegs d (e.addLoss n cause cnt) := by
  have hpage := chanPage_above n
  have herr (x : Dev) (b : Nat) (hx : MicStands lossRegs d x) : MicStands lossRegs d (x.err (chanPage n) b) := hx.err b hpage (by decide)
  have hnoted : MicStands lossRegs d (e.lossNoted n cause cnt) := by
    unfold lossNoted
    extract_lets gaps c x
    have hx : MicStands lossRegs d x := (h.setChan _ _).countFrz _ hpage (fun _ => by decide) (by omega)
    exact .ite _ (herr x 0 hx) (.ite _ (herr x 1 hx) hx)
  rw [addLoss_eq]
  exact .ite _ (hnoted.flushGaps _ _ _ _) h

theorem MicStands.captureOk (h : MicStands lossRegs d e) (n : Nat) (svc : Bool) (r : Rec) (lost : Nat) :
    MicStands lossRegs d (e.captureOk n svc r lost).1 := by
  have hg := h.flushGaps n svc r.payload.length 8
  unfold Dev.captureOk
  split
  · exact h
  · split
    · exact h.addLoss _ _ _
    · simp only
      split
      · exact hg.writeRecord _ _
      · exact hg.addLoss _ _ _

theorem MicStands.closeMic (h : MicStands lossRegs d e) (m : Nat) (r : MicRec) : MicStands lossRegs d (e.closeMic m r) := by
  have hc := h.captureOk (micChan m) true { type := 2, tag := r.tag, count := r.samples.length, payload := e.micPayload r } r.samples.length
  exact .ite _ (hc.fields rfl) hc

/-! ## The samples of a period (R113–R128) -/

theorem MicStands.micPeriod (h : MicStands l d e) (taps : List Int) (x : GridSamples) (m : Nat) : MicStands l d (micPeriod taps x m e).2 := by
  unfold Dev.micPeriod
  split
  · extract_lets p hpf swap
    split
    exact h.fields rfl
  · exact h.fields rfl

theorem MicStands.lose (h : MicStands l d e) (hn : n < 24) (cause cnt : Nat) : MicStands l d (e.lose n cause cnt) :=
  h.beside hn (.lose (.refl n e) hn cause cnt)

theorem MicStands.addSamples (h : MicStands l d e) (ss : List Int) {m : Nat} (hm : m < 8) : MicStands l d (addSamples ss m e) := by
  unfold Dev.addSamples
  extract_lets x w mute outs fmt r r1 r2 peak
  exact .ite _ (.ite _ h (h.lose (by unfold micChan; omega) _ _)) (h.fields rfl)

theorem MicStands.lookbackFrame (h : MicStands l d e) (taps : List Int) : MicStands l d (e.lookbackFrame taps) := by
  unfold Dev.lookbackFrame
  extract_lets ms x m sample data d1 seqs total held oldest seqs1
  have hm : m.timing = e.mic.timing := by
    unfold m
    split <;> rfl
  have h1 : MicStands l d d1 := h.elsewhere ((Elsewhere.refl e).put _ _ _)
  have hmic : d1.mic.timing = e.mic.timing := (MicStands.elsewhere (.refl l e) ((Elsewhere.refl e).put _ _ _)).1
  exact .ite _ h (h1.fields (by rw [hmic, ← hm]))

/-- A band's event reaches Whorl (R170). -/
theorem MicStands.fbEvent (h : MicStands l d e) (k : Nat) (w : Word) : MicStands l d (e.fbEvent k w) :=
  .ite _ (h.elsewhere ((Elsewhere.refl e).ingress (by omega) _ _ w)) h

theorem MicStands.setBand (h : MicStands l d e) (k : Nat) (b : Band) : MicStands l d (e.setBand k b) := h.fields rfl

theorem MicStands.bandEnd (h : MicStands [0x07C] d e) (k : Nat) : MicStands [0x07C] d (bandEnd k e) := by
  have hfresh : MicStands [0x07C] d e.fresh.2 := h.fields rfl
  unfold Dev.bandEnd
  extract_lets b env
  generalize e.fresh = f at hfresh ⊢
  obtain ⟨v, x⟩ := f
  dsimp only at hfresh ⊢
  exact .ite _ hfresh (MicStands.fbEvent (hfresh.setBand k _ |>.setReg (p := 0x03A) (off := 0x07C) _ (by omega) (fun _ => by decide) (by omega)) _ _)

theorem MicStands.bandStep (h : MicStands l d e) (x : Int) (k : Nat) : MicStands l d (bandStep x k e) := by
  unfold Dev.bandStep
  extract_lets b sec
  split
  split
  exact h.setBand k _

theorem MicStands.fbPeriod (h : MicStands [0x07C] d e) (base : List Int) : MicStands [0x07C] d (e.fbPeriod base) := by
  have hbands (x : Int) (y : Dev) : MicStands [0x07C] y (Machine.forEach (List.range 32) (Dev.bandStep x) y) :=
    (MicStands.refl _ y).forEach _ fun k _ z => (MicStands.refl _ z).bandStep _ k
  have hends (y : Dev) : MicStands [0x07C] y (Machine.forEach (List.range 32) Dev.bandEnd y) :=
    (MicStands.refl _ y).forEach _ fun k _ z => (MicStands.refl _ z).bandEnd k
  have hframe (y : Dev) (m : Nat) : MicStands [0x07C] y { y with mic := { y.mic with frame := m } } := (MicStands.refl _ y).fields rfl
  unfold Dev.fbPeriod
  extract_lets sel ms x y n
  have hy : MicStands [0x07C] d y := h.trans (hbands x e)
  split
  · exact hy.trans ((hframe y 0).trans (hends _))
  · exact hy.trans (hframe y n)

end Dev
end Sys2Proof.Machine
end

section
/-!
Grid boundaries, and how PLL1 takes the microphones from mode to mode (R119–R122, R129).
-/
namespace Sys2Proof.Machine
namespace Dev

variable {d e : Dev} {l : List Nat}

/-! ## The open record (R118, R119) -/

/-- The device with `k` periods in the front end's open record. -/
def withLen (d : Dev) (k : Nat) : Dev := { d with mic := { d.mic with len := k } }

theorem MicStands.withLen (h : MicStands l d e) (k : Nat) : MicStands l (d.withLen k) (e.withLen k) := by
  refine ⟨?_, h.2⟩
  show (e.mic.clk, e.mic.settle, e.mic.periods, k) = (d.mic.clk, d.mic.settle, d.mic.periods, k)
  rw [h.clk, h.settle, h.periods]

/-- The front end's page follows its open record: while it accepts work, no more than STATUS moves. -/
theorem micWork_stands (hr : d.running 0x03A = true) : MicStands [0x010] d d.micWork ∧ d.micWork.running 0x03A = true := by
  obtain ⟨hwork, hstate⟩ := work_of_running (fun d => d.mic.len != 0) (fun d =>
    { d with mic := { d.mic with clk := 0, paths := [], recs := [], len := 0, lbPos := 0, lbHeld := 0, lbSeqs := [] } }) hr
  refine ⟨?_, running_of_pageState hstate⟩
  unfold micWork
  rcases hwork with heq | ⟨v, heq⟩
  · rw [heq]
    exact .refl _ d
  · rw [heq]
    exact (MicStands.refl _ d).setReg _ (by omega) (by simp) (by omega)

/-- In every state of its page the front end's work moves no register of the PLLs. -/
theorem pllLocked_micWork (d : Dev) : d.micWork.pllLocked 1 = d.pllLocked 1 := by
  have hset (v : Nat) : (d.setPageState 0x03A v).reg 0x011 0x050 = d.reg 0x011 0x050 :=
    reg_setReg_other _ _ _ _ _ _ (.inl (by omega)) (by omega) (by omega)
  have hdisabled : (d.disabled 0x03A).reg 0x011 0x050 = d.reg 0x011 0x050 :=
    (reg_setReg_other _ _ _ _ _ _ (.inl (by omega)) (by omega) (by omega)).trans
      (reg_resetRegs_other d 0x03A 0x011 0x050 keptStatus (by omega) (by omega))
  refine flag_of_reg ?_ 1
  unfold micWork work
  split_ifs
  · exact hset 2
  · rfl
  · rfl
  · exact hset 1
  · rfl
  · exact hdisabled
  · rfl

/-- The records of a boundary written or lost, and the gain moved on (R119, R128). -/
def recordsClosed (d : Dev) : Dev := (d.mic.recs.foldl (fun d e => d.closeMic e.1 e.2) d).gainStep

/-- The front end without an open record. -/
def recordless (d : Dev) : Dev := { d with mic := { d.mic with recs := [], len := 0, peak := 0 } }

theorem closeAudio_eq (d : Dev) : d.closeAudio = if d.mic.len = 0 then d else d.recordsClosed.recordless.micWork := rfl

/-- The registers of its page that a boundary's records may move: those of a record or a loss, and the gain. -/
def closeRegs : List Nat := lossRegs ++ [0x064]

theorem recordsClosed_stands (d : Dev) : MicStands closeRegs d d.recordsClosed := by
  have hclosed : MicStands closeRegs d (d.mic.recs.foldl (fun d e => d.closeMic e.1 e.2) d) :=
    ((MicStands.refl lossRegs d).foldl _ fun a x => (MicStands.refl _ x).closeMic _ _).mono fun _ h => List.mem_append_left _ h
  unfold recordsClosed gainStep
  generalize d.mic.recs.foldl _ d = x at *
  extract_lets g t quiet next m y
  exact (hclosed.fields (e' := y) rfl).setReg _ (by omega) (fun _ => by decide) (by omega)

theorem closeAudio_pllLocked (d : Dev) : d.closeAudio.pllLocked 1 = d.pllLocked 1 := by
  rw [closeAudio_eq]
  split
  · rfl
  · exact (pllLocked_micWork _).trans d.recordsClosed_stands.pllLocked

/-- Where the page accepts work, a boundary's records leave the front end's timing but the length of the open record. -/
theorem closeAudio_stands (hr : d.running 0x03A = true) :
    ∃ k, MicStands (0x010 :: closeRegs) (d.withLen k) d.closeAudio ∧ d.closeAudio.running 0x03A = true := by
  rw [closeAudio_eq]
  split
  · exact ⟨d.mic.len, .refl _ d, hr⟩
  · have hclosed : MicStands closeRegs (d.withLen 0) d.recordsClosed.recordless := (d.recordsClosed_stands.withLen 0).fields rfl
    obtain ⟨hwork, hrunning⟩ := micWork_stands (hclosed.running (by decide) |>.trans hr)
    exact ⟨0, (hclosed.mono fun _ h => List.mem_cons_of_mem _ h).trans (hwork.mono (by simp)), hrunning⟩

/-! ## The samples of a period (R113–R128) -/

/-- The open record with one more period, its mode taken as it starts (R118). -/
def periodJoined (d : Dev) : Dev :=
  let m := if d.mic.len = 0 then
      { d.mic with active := d.mic.clk == 2, settled := d.micCur == 1 || d.micCur == 4 }
    else d.mic
  { d with mic := { m with len := m.len + 1 } }

theorem periodJoined_stands (l : List Nat) (d : Dev) : MicStands l (d.withLen (d.mic.len + 1)) d.periodJoined := by
  unfold periodJoined
  split
  · exact .fields (.refl l _) rfl
  · exact .fields (.refl l _) rfl

/-- Every microphone's samples of a period, with the paths moved on. -/
def decimated (d : Dev) (taps : List Int) (x : GridSamples) : List (List Int × Int) × Dev :=
  (List.range 8).foldl (fun a i =>
    let (s, d) := micPeriod taps x i a.2
    (a.1 ++ [s], d)) ([], d)

theorem decimated_stands (l : List Nat) (d : Dev) (taps : List Int) (x : GridSamples) : MicStands l d (d.decimated taps x).2 := by
  have hfold (is : List Nat) {f : List (List Int × Int) × Dev → Nat → List (List Int × Int) × Dev} (hf : ∀ a i, MicStands l a.2 (f a i).2) :
      ∀ a, MicStands l a.2 (is.foldl f a).2 := by
    induction is with
    | nil => exact fun _ => .refl l _
    | cons i is ih => exact fun a => (hf a i).trans (ih _)
  exact hfold (List.range 8) (fun a i => (MicStands.refl l a.2).micPeriod _ x i) ([], d)

/-- The samples of a period in the records, the lookback and the filterbank. -/
def samplesJoined (d : Dev) (active settled : Bool) (ss : List (List Int × Int)) : Dev :=
  let d : Dev := { d with mic := { d.mic with fresh := false } }
  let d := forEach d.micsOn (fun i d => addSamples (ss.getD i ([], 0)).1 i d) d
  let tap := ss.map (·.2)
  let d := d.lookbackFrame tap
  if d.flag 0x03A 0x074 0 && !settled then d.fbPeriod (if active then tap.map toS16 else tap) else d

theorem micsOn_lt (d : Dev) : ∀ m ∈ d.micsOn, m < 8 := fun _ h => List.mem_range.1 (List.mem_filter.1 h).1

theorem samplesJoined_stands (d : Dev) (active settled : Bool) (ss : List (List Int × Int)) :
    MicStands [0x07C] d (d.samplesJoined active settled ss) := by
  unfold samplesJoined
  extract_lets m x y tap z
  have hx : MicStands [0x07C] d x := .fields (.refl _ d) rfl
  have hy : MicStands [0x07C] d y := hx.forEach _ fun k hk w => (MicStands.refl _ w).addSamples _ (x.micsOn_lt k hk)
  have hz : MicStands [0x07C] d z := hy.lookbackFrame tap
  exact .ite _ (hz.fbPeriod _) hz

/-- Without a clock, and while FRZ holds the next record back, a period is not taken; elsewhere it joins the open record (R41, R119). -/
theorem gridSamples_cases (d : Dev) (x : GridSamples) :
    d.gridSamples x = d ∧ (d.mic.clk = 0 ∨ d.frozen 0x03A = true) ∨ MicStands [0x07C] d.periodJoined.micWork (d.gridSamples x) := by
  unfold gridSamples
  extract_lets m starts cur m1 y y1 taps
  split
  · next hclk => exact .inl ⟨rfl, .inl hclk⟩
  split
  · next hfrz => exact .inl ⟨rfl, .inr (by simp_all)⟩
  · have hy : y1 = d.periodJoined.micWork := rfl
    split
    next ss z heq =>
      have hdec : y1.decimated taps x = (ss, z) := heq
      have hpaths := decimated_stands [0x07C] y1 taps x
      rw [hdec, hy] at hpaths
      exact .inr (hpaths.trans (samplesJoined_stands z m1.active m1.settled ss))

/-- A period that is taken joins the open record, and moves of the front end's page STATUS and the count of band events alone. -/
theorem gridSamples_spec (hr : d.running 0x03A = true) (x : GridSamples) :
    ∃ k, MicStands [0x010, 0x07C] (d.withLen k) (d.gridSamples x) ∧ (d.gridSamples x).running 0x03A = true ∧
      (d.mic.clk ≠ 0 → d.frozen 0x03A = false → k = d.mic.len + 1) := by
  rcases gridSamples_cases d x with ⟨heq, hno⟩ | hsamples
  · rw [heq]
    exact ⟨d.mic.len, .refl _ d, hr, fun hclk hfrz => absurd hno (by simp [hclk, hfrz])⟩
  · have hjoined := periodJoined_stands [] d
    obtain ⟨hwork, hrunning⟩ := micWork_stands (hjoined.running (by simp) |>.trans hr)
    exact ⟨d.mic.len + 1, ((hjoined.mono (by simp)).trans (hwork.mono (by simp))).trans (hsamples.mono (by simp)),
      (hsamples.running (by simp)).trans hrunning, fun _ _ => rfl⟩

/-! ## A grid boundary (R119–R122) -/

/-- The counts of a boundary: the settle goes on, and the period is counted. -/
def micTicked (d : Dev) : Dev :=
  { d with mic := { d.mic with settle := d.mic.settle - 1, periods := (d.mic.periods + 1) % 2 ^ 32, auto := d.flag 0x03A 0x040 1 } }

theorem MicStands.micTicked (h : MicStands l d e) : MicStands l d.micTicked e.micTicked := by
  refine ⟨?_, h.2⟩
  show (e.mic.clk, e.mic.settle - 1, (e.mic.periods + 1) % 2 ^ 32, e.mic.len) =
    (d.mic.clk, d.mic.settle - 1, (d.mic.periods + 1) % 2 ^ 32, d.mic.len)
  rw [h.clk, h.settle, h.periods, h.len]

/-- Whether a settle ends at the boundary. -/
def settleEnds (d : Dev) : Bool := (d.micCur = 1 || d.micCur = 4) && d.mic.settle ≤ 1

theorem MicStands.settleEnds (h : MicStands l d e) (hl : 0x044 ∉ l) : e.settleEnds = d.settleEnds := by
  unfold Dev.settleEnds
  rw [h.micCur hl, h.settle]

/-- The records closed that a boundary closes. -/
def boundaryClosed (d : Dev) (ending : Bool) : Dev := if ending || d.recSamples ≤ d.mic.len then d.closeAudio else d

theorem gridBoundary_eq (hr : d.running 0x03A = true) (x : GridSamples) : d.gridBoundary x =
    let y := (d.sourceCount 0x10).gridSamples x
    let z := y.micTicked.boundaryClosed y.settleEnds
    if y.settleEnds then z.settleEnd else z.clockSwitch := by
  unfold gridBoundary
  rw [if_neg (by simp [hr]), if_pos hr]
  rfl

/-- The registers of its page that a period may move before the modes follow it. -/
def periodRegs : List Nat := [0x010, 0x07C] ++ closeRegs

/-- The records that close leave the rest of the front end. -/
theorem boundaryClosed_stands (hr : d.running 0x03A = true) (ending : Bool) :
    ∃ k, MicStands periodRegs (d.withLen k) (d.boundaryClosed ending) ∧ (d.boundaryClosed ending).running 0x03A = true ∧
      (ending = false → d.mic.len < d.recSamples → k = d.mic.len) := by
  unfold boundaryClosed
  split
  · next hc =>
    obtain ⟨k, hstands, hrunning⟩ := closeAudio_stands hr
    refine ⟨k, hstands.mono (by decide), hrunning, fun he hlen => ?_⟩
    simp only [he, Bool.false_or, decide_eq_true_eq] at hc
    omega
  · exact ⟨d.mic.len, .refl _ d, hr, fun _ _ => rfl⟩

/-- What a boundary comes to before the modes follow it: the period is counted and has joined the open record, and where a settle ends it
ends, and elsewhere the clock switch that is due is made. -/
theorem gridBoundary_spec (hm : d.NoMarks) (hr : d.running 0x03A = true) (x : GridSamples) :
    ∃ k z, MicStands periodRegs (d.withLen k).micTicked z ∧ z.running 0x03A = true ∧
      d.gridBoundary x = (if d.settleEnds then z.settleEnd else z.clockSwitch) ∧
      (d.mic.clk ≠ 0 → d.frozen 0x03A = false → d.settleEnds = false → d.mic.len + 1 < d.recSamples → k = d.mic.len + 1) := by
  have hcount (l : List Nat) : MicStands l d (d.sourceCount 0x10) := .reel (.refl l d) (sourceCount_moves hm 0x10)
  obtain ⟨j, hsamples, hrunning, hj⟩ := gridSamples_spec ((hcount []).running (by simp) |>.trans hr) x
  have hsamples := ((hcount _).withLen j).trans hsamples
  rw [gridBoundary_eq hr]
  generalize (d.sourceCount 0x10).gridSamples x = y at *
  obtain ⟨k, hclosed, hrunning', hk⟩ := boundaryClosed_stands (d := y.micTicked) hrunning y.settleEnds
  have hends : y.settleEnds = d.settleEnds := hsamples.settleEnds (by simp)
  refine ⟨k, _, ((hsamples.micTicked.mono (by decide)).withLen k).trans hclosed, hrunning', by rw [← hends], fun hclk hfrz hno hlen => ?_⟩
  have hylen : y.mic.len = d.mic.len + 1 := hsamples.len.trans (hj (by rwa [(hcount []).clk])
    ((flag_of_reg ((hcount []).reg (by omega) (by simp)) 2).trans hfrz) |>.trans (by rw [(hcount []).len]))
  have hrec : y.recSamples = d.recSamples := congrArg (fun w : Word => max 16 (min 1000 w.toNat)) (hsamples.reg (off := 0x058) (by omega) (by simp))
  refine (hk (hends.trans hno) ?_).trans hylen
  show y.mic.len < y.recSamples
  rw [hylen, hrec]
  exact hlen

/-! ## The end of a settle (R121) -/

theorem mic_periods_settleEnd (d : Dev) : d.settleEnd.mic.periods = d.mic.periods := by
  unfold settleEnd
  dsimp only
  split
  · split
    · rw [mic_micToActive]
      rfl
    · rfl
  · split
    · rfl
    · rfl

theorem micCur_settleEnd (hc : d.micCur = 1) (hw : d.flag 0x03A 0x040 0 = false) : d.settleEnd.micCur = 2 := by
  unfold settleEnd
  dsimp only
  rw [if_pos hc, if_neg (by simp [hw])]
  exact micCur_setCur d (by omega)

/-! ## Switches of the clock (R121, R122) -/

/-- In ACTIVE_SETTLE the clock is the one from PLL1. -/
def activeStarted (d : Dev) : Dev :=
  ({ d with mic := { d.mic with clk := 2, fresh := true, paths := [], settle := d.settlePeriods + 1 } } : Dev).setCur 4

/-- PLL1 given up, and the listening clock started at a boundary. -/
def listenStarted (d : Dev) : Dev :=
  let d := (d.askPll1 false).micListenStart 1
  { d with mic := { d.mic with fresh := true } }

theorem clockSwitch_eq (d : Dev) : d.clockSwitch = if d.micCur = 3 && d.pllLocked 1 then d.closeAudio.activeStarted
    else if d.micCur = 6 then d.closeAudio.listenStarted else d := rfl

theorem mic_listenStarted (d : Dev) : d.listenStarted.mic.clk = 1 ∧ d.listenStarted.mic.periods = d.mic.periods := by
  refine ⟨rfl, ?_⟩
  show ((d.askPll1 false).micListenStart 1).mic.periods = _
  rw [mic_micListenStart, mic_askPll1]

/-- The switch to the clock from PLL1, once it is locked. -/
theorem clockSwitch_active (hc : d.micCur = 3) (hp : d.pllLocked 1 = true) : d.clockSwitch.micCur = 4 ∧ d.clockSwitch.mic.clk = 2 := by
  rw [clockSwitch_eq, if_pos (by simp [hc, hp])]
  exact ⟨micCur_setCur _ (by omega), rfl⟩

/-- The switch back to the listening clock. -/
theorem clockSwitch_listen (hc : d.micCur = 6) :
    d.clockSwitch.micCur = 1 ∧ d.clockSwitch.mic.clk = 1 ∧ d.clockSwitch.clk.pll1Req = false := by
  rw [clockSwitch_eq, if_neg (by simp [hc]), if_pos hc]
  exact ⟨micCur_micListenStart (d.closeAudio.askPll1 false) 1, rfl, pll1Req_askPll1 d.closeAudio false⟩

/-- Outside TO_ACTIVE and TO_LISTEN no switch is due. -/
theorem clockSwitch_none (h3 : d.micCur ≠ 3) (h6 : d.micCur ≠ 6) : d.clockSwitch = d := by
  rw [clockSwitch_eq, if_neg (by simp [h3]), if_neg h6]

theorem mic_periods_clockSwitch (hr : d.running 0x03A = true) : d.clockSwitch.mic.periods = d.mic.periods := by
  obtain ⟨k, hclosed, -⟩ := closeAudio_stands hr
  rw [clockSwitch_eq]
  split
  · exact hclosed.periods
  · split
    · exact (mic_listenStarted _).2.trans hclosed.periods
    · rfl

/-! ## What a boundary does in each mode -/

section
variable (hm : d.NoMarks) (hr : d.running 0x03A = true) (x : GridSamples)
include hm hr

theorem gridBoundary_periods : (d.gridBoundary x).mic.periods = (d.mic.periods + 1) % 2 ^ 32 := by
  obtain ⟨k, z, hz, hrunning, heq, -⟩ := gridBoundary_spec hm hr x
  rw [heq]
  split
  · exact (mic_periods_settleEnd z).trans hz.periods
  · exact (mic_periods_clockSwitch hrunning).trans hz.periods

/-- In a mode without a settle the boundary makes the clock switch that is due. -/
theorem gridBoundary_switches (h1 : d.micCur ≠ 1) (h4 : d.micCur ≠ 4) :
    ∃ k z, d.gridBoundary x = clockSwitch z ∧ z.micCur = d.micCur ∧ z.pllLocked 1 = d.pllLocked 1 ∧ z.mic.len = k ∧
      (d.mic.clk ≠ 0 → d.frozen 0x03A = false → d.mic.len + 1 < d.recSamples → k = d.mic.len + 1) := by
  obtain ⟨k, z, hz, -, heq, hk⟩ := gridBoundary_spec hm hr x
  have hends : d.settleEnds = false := by simp [settleEnds, h1, h4]
  rw [hends, if_neg Bool.false_ne_true] at heq
  exact ⟨k, z, heq, hz.micCur (by decide), hz.pllLocked, hz.len, fun hclk hfrz => hk hclk hfrz hends⟩

/-- In LISTEN a period joins the record that does not fill (R119). -/
theorem gridBoundary_listen (hf : d.frozen 0x03A = false) (hc : d.micCur = 2) (hclk : d.mic.clk ≠ 0) (hlen : d.mic.len + 1 < d.recSamples) :
    (d.gridBoundary x).mic.len = d.mic.len + 1 ∧ (d.gridBoundary x).micCur = 2 := by
  obtain ⟨k, z, heq, hcur, -, hzlen, hk⟩ := gridBoundary_switches hm hr x (by omega) (by omega)
  rw [heq, clockSwitch_none (by omega) (by omega)]
  exact ⟨hzlen.trans (hk hclk hf hlen), hcur.trans hc⟩

/-- A settle of the listening clock that ends with MODE = 0 leaves LISTEN (R121). -/
theorem gridBoundary_settled (hc : d.micCur = 1) (hs : d.mic.settle ≤ 1) (hw : d.flag 0x03A 0x040 0 = false) : (d.gridBoundary x).micCur = 2 := by
  obtain ⟨k, z, hz, -, heq, -⟩ := gridBoundary_spec hm hr x
  rw [heq, if_pos (by simp [settleEnds, hc, hs])]
  exact micCur_settleEnd ((hz.micCur (by decide)).trans hc) ((flag_of_reg (hz.reg (by omega) (by decide)) 0).trans hw)

theorem gridBoundary_toActive (hc : d.micCur = 3) (hp : d.pllLocked 1 = true) : (d.gridBoundary x).micCur = 4 ∧ (d.gridBoundary x).mic.clk = 2 := by
  obtain ⟨k, z, heq, hcur, hlock, -⟩ := gridBoundary_switches hm hr x (by omega) (by omega)
  rw [heq]
  exact clockSwitch_active (hcur.trans hc) (hlock.trans hp)

theorem gridBoundary_toListen (hc : d.micCur = 6) :
    (d.gridBoundary x).micCur = 1 ∧ (d.gridBoundary x).mic.clk = 1 ∧ (d.gridBoundary x).clk.pll1Req = false := by
  obtain ⟨k, z, heq, hcur, -⟩ := gridBoundary_switches hm hr x (by omega) (by omega)
  rw [heq]
  exact clockSwitch_listen (hcur.trans hc)

end

/-! ## PLL1 that does not lock, or loses its lock (R121, R422) -/

/-- PLL1's lock and SRC_RDY clear, and a monitored loss is recorded. -/
def pll1Unlocked (d : Dev) : Dev :=
  let d := (d.setLock 1 false).setRdy 5 false
  if d.flag 0x010 0x048 5 then (d.setFlag 0x010 0x044 5 true).err 0x010 0 else d

theorem pll1Unlocked_spec (d : Dev) : d.pll1Unlocked.pllLocked 1 = false ∧ d.pll1Unlocked.micCur = d.micCur := by
  have hlost : d.PllMoves ((d.setLock 1 false).setRdy 5 false) := ((PllMoves.refl d).setLock (by omega) _).setRdy _ _
  have hlock : ((d.setLock 1 false).setRdy 5 false).pllLocked 1 = false := by rw [pllLocked_setRdy, pllLocked_setLock d (.inl rfl)]
  have hcur := micCur_of_reg (hlost.reg (p := 0x03A) (off := 0x044) (by omega) (by omega))
  have hkept (y : Dev) (p off : Nat) (hp : p = 0x011 ∨ p = 0x03A) (ho : off < 4096) :
      ((y.setFlag 0x010 0x044 5 true).err 0x010 0).reg p off = y.reg p off := by
    refine (err_onlyRegs _ 0x010 0 p off ho ?_).trans (reg_setReg_other _ _ _ _ _ _ (.inl (by omega)) ho (by omega))
    simp only [errRegs, eventRegs, List.cons_append, List.nil_append, List.mem_cons, Prod.ext_iff, List.not_mem_nil, or_false]
    omega
  unfold pll1Unlocked
  extract_lets y
  split
  · exact ⟨(flag_of_reg (hkept y _ _ (.inl rfl) (by omega)) 1).trans hlock, (micCur_of_reg (hkept y _ _ (.inr rfl) (by omega))).trans hcur⟩
  · exact ⟨hlock, hcur⟩

theorem micPllLost_eq (d : Dev) : d.micPllLost =
    if d.micCur = 4 || d.micCur = 5 || d.micCur = 6 then (d.closeAudio.micGivenUp.micListenStart 1).err 0x03A 1 else d := rfl

/-- A front end that runs from PLL1 listens again once the lock is lost, with MODE = 0 and its error. -/
theorem micPllLost_spec (hl : d.pllLocked 1 = false) : d.micPllLost.pllLocked 1 = false ∧
    (if d.micCur = 4 ∨ d.micCur = 5 ∨ d.micCur = 6 then
      d.micPllLost.micCur = 1 ∧ d.micPllLost.mic.clk = 1 ∧ d.micPllLost.flag 0x03A 0x014 1 = true ∧ d.micPllLost.flag 0x03A 0x040 0 = false
    else d.micPllLost.micCur = d.micCur) := by
  rw [micPllLost_eq]
  by_cases h : d.micCur = 4 ∨ d.micCur = 5 ∨ d.micCur = 6
  · rw [if_pos h, if_pos (by simpa [or_assoc] using h)]
    generalize hx : d.closeAudio = x
    have hclosed : (x.setFlag 0x03A 0x040 0 false).pllLocked 1 = false :=
      (flag_of_reg (reg_setReg_other _ _ _ _ _ _ (.inl (by omega)) (by omega) (by omega)) 1).trans
        (hx ▸ d.closeAudio_pllLocked.trans hl)
    have hgiven : x.micGivenUp.pllLocked 1 = false := pllLocked_askPll1_false hclosed
    have hlisten : (x.micGivenUp.micListenStart 1).pllLocked 1 = false :=
      (flag_of_reg (reg_micListenStart _ 1 (.inl (by omega)) (by omega)) 1).trans hgiven
    have hmode : (x.micGivenUp.micListenStart 1).flag 0x03A 0x040 0 = false :=
      (flag_of_reg (reg_micListenStart _ 1 (.inr (by omega)) (by omega)) 0).trans x.mode_micGivenUp
    have herr := MicStands.err (.refl [0x014, 0x01C, 0x020] (x.micGivenUp.micListenStart 1)) (p := 0x03A) 1 (by omega) (by decide)
    exact ⟨herr.pllLocked.trans hlisten, (herr.micCur (by decide)).trans (micCur_micListenStart _ _), herr.clk, flag_err _ _ _ (by omega),
      (flag_of_reg (herr.reg (by omega) (by decide)) 0).trans hmode⟩
  · rw [if_neg h, if_neg (by simpa [or_assoc] using h)]
    exact ⟨hl, rfl⟩

end Dev

/-! ## The commands -/

section
variable (s : State)

theorem exec_micModeActive (ag : Agent) : exec (.micModeActive ag) s =
    onDev (Dev.rwlWrite ag 0x03A fun d => d.writeMode (d.reg 0x03A 0x040 ||| 1)) s := rfl
theorem exec_micModeListen (ag : Agent) : exec (.micModeListen ag) s =
    onDev (Dev.rwlWrite ag 0x03A fun d => d.writeMode (d.reg 0x03A 0x040 &&& 2)) s := rfl
theorem exec_gridBoundary (x : GridSamples) : exec (.gridBoundary x) s = onDev (fun d => d.gridBoundary x) s := rfl
theorem exec_pll1LockTimeout : exec .pll1LockTimeout s = onDev (fun d =>
    if d.micCur = 3 && !d.pllLocked 1 && d.mic.toAt + 1000 ≤ d.now then d.micCancel.err 0x03A 0 else d) s := rfl
theorem exec_pll1Loss : exec .pll1Loss s = onDev (fun d => if d.pllLocked 1 then d.pll1Unlocked.micPllLost else d) s := rfl
theorem exec_micStuck (m : Fin 8) : exec (.micStuck m) s = onDev (fun d => d.micStuckSet m.val) s := rfl
theorem exec_micStuckClear (m : Fin 8) : exec (.micStuckClear m) s = onDev (fun d => d.setFlag 0x03A 0x04C m.val false) s := rfl

end

theorem micModeActive_writes {s : State} {ag : Agent} (h : s.Admits ag 0x03A) : exec (.micModeActive ag) s =
    .next { s with dev := s.dev.writeMode (s.dev.reg 0x03A 0x040 ||| 1) } := by
  rw [exec_micModeActive, onDev_of_powered h.1.1, rwlWrite_of_admits h]

theorem micModeListen_writes {s : State} {ag : Agent} (h : s.Admits ag 0x03A) : exec (.micModeListen ag) s =
    .next { s with dev := s.dev.writeMode (s.dev.reg 0x03A 0x040 &&& 2) } := by
  rw [exec_micModeListen, onDev_of_powered h.1.1, rwlWrite_of_admits h]

/-- MODE_ACTIVE writes MODE = 1, and MODE_LISTEN MODE = 0. -/
theorem bit_modeWord (w : Word) : bit (w ||| 1) 0 = true ∧ bit (w &&& 2) 0 = false := by
  rw [bit_or, bit_and]
  exact ⟨Bool.or_true _, Bool.and_false _⟩

/-- Settles O17: MODE acts where the mode says so, a boundary does what its mode has due, and PLL1's losses give the listening clock back. -/
theorem microphoneModes : Obligations.MicrophoneModes := by
  unfold Obligations.MicrophoneModes
  have hactive (s : State) := Dev.writeMode_active (d := s.dev) (bit_modeWord (s.dev.reg 0x03A 0x040)).1
  have hlisten (s : State) := Dev.writeMode_listen (d := s.dev) (bit_modeWord (s.dev.reg 0x03A 0x040)).2
  have hgrid (s : State) (x : GridSamples) (hp : s.Powered) := (exec_gridBoundary s x).trans (onDev_of_powered hp _)
  refine ⟨fun s ag h hc => ⟨_, micModeActive_writes h, (hactive s).1 hc⟩,
    fun s ag h hc => ⟨_, micModeActive_writes h, (hactive s).2 hc⟩,
    fun s ag h h3 h5 => ⟨_, micModeListen_writes h, (hlisten s).1 h3 h5⟩,
    fun s ag h hc => ⟨_, micModeListen_writes h, (hlisten s).2.1 hc⟩,
    fun s ag h hc => ⟨_, micModeListen_writes h, (hlisten s).2.2 hc⟩,
    fun s x hp hm hr => ⟨_, hgrid s x hp, Dev.gridBoundary_periods hm hr x⟩,
    fun s x hp hm hr hf hc hclk hlen => ⟨_, hgrid s x hp, Dev.gridBoundary_listen hm hr x hf hc hclk hlen⟩,
    fun s x hp hm hr hc hs hw => ⟨_, hgrid s x hp, Dev.gridBoundary_settled hm hr x hc hs hw⟩,
    fun s x hp hm hr hc hl => ⟨_, hgrid s x hp, Dev.gridBoundary_toActive hm hr x hc hl⟩,
    fun s x hp hm hr hc => ⟨_, hgrid s x hp, Dev.gridBoundary_toListen hm hr x hc⟩,
    fun s hp hc hl ht => ?timeout, fun s hp hl => ?loss,
    fun s m hp hclk => ⟨_, (exec_micStuck s m).trans (onDev_of_powered hp _), Dev.micStuckSet_spec (by omega) hclk⟩,
    fun s m hp => ⟨_, (exec_micStuckClear s m).trans (onDev_of_powered hp _), Dev.flag_setFlag_same _ _ _ _ _ (by omega),
      fun k hk => Dev.flag_setFlag_other _ _ _ _ fun heq => hk (Fin.ext heq)⟩⟩
  case timeout =>
    obtain ⟨hcur, hmode, -⟩ := Dev.micCancel_spec s.dev
    rw [exec_pll1LockTimeout, onDev_of_powered hp, if_pos (by simp [hc, hl, ht])]
    exact ⟨_, rfl, (Dev.micCur_of_reg (Dev.reg_micErr _ 0 (by omega) (by omega))).trans hcur, Dev.flag_err _ _ _ (by omega),
      (Dev.flag_of_reg (Dev.reg_micErr _ 0 (by omega) (by omega)) 0).trans hmode⟩
  case loss =>
    obtain ⟨hlock, hcur⟩ := Dev.pll1Unlocked_spec s.dev
    rw [exec_pll1Loss, onDev_of_powered hp, if_pos hl, ← hcur]
    exact ⟨_, rfl, Dev.micPllLost_spec hlock⟩

end Sys2Proof.Machine
end
section
/-!
Numbers that stand in Skein memory: what a little-endian number reads after a store, and which bytes it rests on.
-/
namespace Sys2Proof

theorem ofBytesLE_append (l m : List Byte) : ofBytesLE (l ++ m) = ofBytesLE l + 256 ^ l.length * ofBytesLE m := by
  induction l with
  | nil => simp [ofBytesLE]
  | cons b r ih => rw [List.cons_append, ofBytesLE, ofBytesLE, ih, List.length_cons, pow_succ]; ring

theorem ofBytesLE_lt (l : List Byte) : ofBytesLE l < 256 ^ l.length := by
  induction l with
  | nil => simp [ofBytesLE]
  | cons b r ih =>
    have hb := b.isLt
    rw [ofBytesLE, List.length_cons, pow_succ]
    omega

theorem ofBytesLE_bytesLE (n v : Nat) : ofBytesLE (bytesLE n v) = v % 256 ^ n := by
  induction n generalizing v with
  | zero => simp [bytesLE, ofBytesLE, Nat.mod_one]
  | succ n ih => rw [bytesLE, ofBytesLE, ih, BitVec.toNat_ofNat, show 2 ^ 8 = 256 from rfl, pow_succ' 256 n, Nat.mod_mul]

end Sys2Proof

namespace Sys2Proof.Machine

/-- A field of a number, as its division and remainder. -/
theorem slice_eq (n hi lo : Nat) : slice n hi lo = n / 2 ^ lo % 2 ^ (hi + 1 - lo) := by rw [slice, Nat.shiftRight_eq_div_pow]

theorem slice_lt (n hi lo : Nat) : slice n hi lo < 2 ^ (hi + 1 - lo) := Nat.mod_lt _ (by positivity)

/-- A bit depends on the bits below the next power of two alone. -/
theorem testBit_of_mod_eq {x y k : Nat} (i : Nat) (hi : i < k) (h : x % 2 ^ k = y % 2 ^ k) : x.testBit i = y.testBit i := by
  have hx := Nat.testBit_mod_two_pow x k i
  have hy := Nat.testBit_mod_two_pow y k i
  rw [h, hy] at hx
  simpa [hi] using hx.symm

/-- A signed field of 24 bits holds every value in its range. -/
theorem signedOf_ofInt {v : Int} (hlo : -8388608 ≤ v) (hhi : v ≤ 8388607) : signedOf 24 (BitVec.ofInt 24 v).toNat = v := by
  rw [signedOf, BitVec.ofNat_toNat, BitVec.setWidth_eq, BitVec.toInt_ofInt]
  exact Int.bmod_eq_of_le (by omega) (by omega)

/-- The range of a signed field of 24 bits. -/
theorem signedOf_range (n : Nat) : -8388608 ≤ signedOf 24 n ∧ signedOf 24 n ≤ 8388607 := by
  have hlo := BitVec.le_toInt (BitVec.ofNat 24 n)
  have hhi := BitVec.toInt_lt (x := BitVec.ofNat 24 n)
  unfold signedOf
  omega

namespace Dev

theorem bytes_congr {d e : Dev} {a n : Nat} (h : ∀ i < n, e.byte (a + i) = d.byte (a + i)) : e.bytes a n = d.bytes a n :=
  List.map_congr_left fun i hi => h i (List.mem_range.1 hi)

theorem num_congr {d e : Dev} {a n : Nat} (h : ∀ i < n, e.byte (a + i) = d.byte (a + i)) : e.num a n = d.num a n :=
  congrArg ofBytesLE (bytes_congr h)

/-- A number reads as its low bytes and, above them, its high bytes. -/
theorem num_add (d : Dev) (a m n : Nat) : d.num a (m + n) = d.num a m + 256 ^ m * d.num (a + m) n := by
  unfold num
  rw [bytes_add, ofBytesLE_append, length_bytes]

theorem num_lt (d : Dev) (a n : Nat) : d.num a n < 256 ^ n := by
  have h := ofBytesLE_lt (d.bytes a n)
  rwa [length_bytes] at h

/-- A number of bytes that were stored. -/
theorem num_setBytes {d : Dev} {a n : Nat} {l : List Byte} (h : l.length = n) : (d.setBytes a l).num a n = ofBytesLE l := by
  subst h
  exact congrArg ofBytesLE (bytes_setBytes d a l)

/-- A number beside the bytes that were stored. -/
theorem num_setBytes_other {d : Dev} {a b n : Nat} {l : List Byte} (h : b + n ≤ a ∨ a + l.length ≤ b) :
    (d.setBytes a l).num b n = d.num b n :=
  num_congr fun i hi => byte_setBytes_other d a l _ (by omega)

end Dev
end Sys2Proof.Machine
end
section
/-!
The neuron store (R163, R164): what NCFG and NSTATE read, and what a store into a neuron's NSTATE leaves of the others.
-/
namespace Sys2Proof.Machine
namespace Dev

variable {d e : Dev} {c n : Nat}

/-! ## The words of a neuron -/

theorem ncfg_of_num (h : e.num (whorlBase c + 0x20000 + 8 * n) 8 = d.num (whorlBase c + 0x20000 + 8 * n) 8) : e.ncfg c n = d.ncfg c n := by
  unfold ncfg
  rw [h]

theorem nstate_of_num (hcfg : e.ncfg c n = d.ncfg c n)
    (h : e.num (whorlBase c + 0x20800 + 8 * n) 8 = d.num (whorlBase c + 0x20800 + 8 * n) 8) : e.nstate c n = d.nstate c n := by
  unfold nstate
  rw [h, hcfg]

theorem nstate_th (d : Dev) (c n : Nat) : (d.nstate c n).th =
    if (d.ncfg c n).adaptEn then max 1 (slice (d.num (whorlBase c + 0x20800 + 8 * n) 8) 47 32) else (d.ncfg c n).thrBase := rfl

theorem thrBase_range (d : Dev) (c n : Nat) : 1 ≤ (d.ncfg c n).thrBase ∧ (d.ncfg c n).thrBase ≤ 65535 :=
  ⟨le_max_left _ _, max_le (by omega) (Nat.le_of_lt_succ (slice_lt _ 15 0))⟩

theorem th_range (d : Dev) (c n : Nat) : 1 ≤ (d.nstate c n).th ∧ (d.nstate c n).th ≤ 65535 := by
  have hbase := thrBase_range d c n
  have hth := slice_lt (d.num (whorlBase c + 0x20800 + 8 * n) 8) 47 32
  rw [nstate_th]
  split
  · exact ⟨le_max_left _ _, max_le (by omega) (Nat.le_of_lt_succ hth)⟩
  · exact hbase

theorem nstate_v (d : Dev) (c n : Nat) : (d.nstate c n).v = signedOf 24 (slice (d.num (whorlBase c + 0x20800 + 8 * n) 8) 23 0) := by
  rw [nstate]

theorem v_range (d : Dev) (c n : Nat) : -8388608 ≤ (d.nstate c n).v ∧ (d.nstate c n).v ≤ 8388607 := by
  rw [nstate_v]
  exact signedOf_range _

theorem ref_lt (d : Dev) (c n : Nat) : (d.nstate c n).ref < 16 := slice_lt _ 27 24

/-- With ADAPT_EN = 0 TH is THR_BASE (R166). -/
theorem th_of_fixed (h : (d.ncfg c n).adaptEn = false) : (d.nstate c n).th = (d.ncfg c n).thrBase := by simp [nstate, h]

theorem refract_lt (d : Dev) (c n : Nat) : (d.ncfg c n).refract < 16 := slice_lt _ 35 32

/-! ## A store into one neuron's NSTATE -/

/-- In memory, from `d` to `e` only NSTATE of neuron `n` of core `c` has moved. -/
def NstateMoves (c n : Nat) (d e : Dev) : Prop :=
  ∀ a, (a < whorlBase c + 0x20800 + 8 * n ∨ whorlBase c + 0x20800 + 8 * n + 8 ≤ a) → e.byte a = d.byte a

theorem NstateMoves.of_mem (h : e.mem = d.mem) : NstateMoves c n d e := fun a _ => by rw [byte, byte, h]

theorem NstateMoves.trans {f : Dev} (h : NstateMoves c n d e) (k : NstateMoves c n e f) : NstateMoves c n d f := fun a ha =>
  (k a ha).trans (h a ha)

theorem setNstate_moves (d : Dev) (c n : Nat) (s : NState) : NstateMoves c n d (d.setNstate c n s) := fun _ ha =>
  byte_setBytes_other _ _ _ _ (by rwa [length_bytesLE])

/-- In memory, from `d` to `e` nothing but NSTATE of other neurons of core `c` than `n` has moved. -/
def NeuronStands (c n : Nat) (d e : Dev) : Prop :=
  ∀ a, (∀ m, m ≠ n → a < whorlBase c + 0x20800 + 8 * m ∨ whorlBase c + 0x20800 + 8 * m + 8 ≤ a) → e.byte a = d.byte a

theorem NeuronStands.refl (d : Dev) : NeuronStands c n d d := fun _ _ => rfl

theorem NeuronStands.trans {f : Dev} (h : NeuronStands c n d e) (k : NeuronStands c n e f) : NeuronStands c n d f := fun a ha =>
  (k a ha).trans (h a ha)

theorem NstateMoves.stands {m : Nat} (h : NstateMoves c m d e) (hne : m ≠ n) : NeuronStands c n d e := fun a ha => h a (ha m hne)

theorem NeuronStands.ncfg (h : NeuronStands c n d e) (hn : n < 256) : e.ncfg c n = d.ncfg c n :=
  ncfg_of_num (num_congr fun i hi => h _ fun m _ => by omega)

theorem NeuronStands.nstate (h : NeuronStands c n d e) (hn : n < 256) : e.nstate c n = d.nstate c n :=
  nstate_of_num (h.ncfg hn) (num_congr fun i hi => h _ fun m _ => by omega)

theorem NeuronStands.syn (h : NeuronStands c n d e) {i : Nat} (hi : i < 512) (hn : n < 256) : e.syn c i n = d.syn c i n := by
  have hbyte := h (whorlBase c + i * 256 + n) fun m _ => by omega
  rw [Dev.syn, Dev.syn, hbyte]

theorem NstateMoves.ncfg (h : NstateMoves c n d e) : e.ncfg c n = d.ncfg c n :=
  ncfg_of_num (num_congr fun _ _ => h _ (by omega))

/-- NSTATE reads what was stored, TH by ADAPT_EN (R166). -/
theorem nstate_setNstate (d : Dev) (c n : Nat) {s : NState} (hv : -8388608 ≤ s.v ∧ s.v ≤ 8388607) (hr : s.ref < 16) :
    (d.setNstate c n s).nstate c n =
      { s with th := if (d.ncfg c n).adaptEn then max 1 (s.th % 65536) else (d.ncfg c n).thrBase } := by
  have hnum : (d.setNstate c n s).num (whorlBase c + 0x20800 + 8 * n) 8 =
      ((BitVec.ofInt 24 s.v).toNat + s.ref * 2 ^ 24 + s.th * 2 ^ 32) % 2 ^ 64 :=
    (num_setBytes (length_bytesLE _ _)).trans (ofBytesLE_bytesLE _ _)
  have hlow : (BitVec.ofInt 24 s.v).toNat < 2 ^ 24 := (BitVec.ofInt 24 s.v).isLt
  have hfields : slice ((d.setNstate c n s).num (whorlBase c + 0x20800 + 8 * n) 8) 23 0 = (BitVec.ofInt 24 s.v).toNat ∧
      slice ((d.setNstate c n s).num (whorlBase c + 0x20800 + 8 * n) 8) 27 24 = s.ref ∧
      slice ((d.setNstate c n s).num (whorlBase c + 0x20800 + 8 * n) 8) 47 32 = s.th % 65536 := by
    rw [hnum]
    simp only [slice_eq]
    omega
  obtain ⟨h0, h1, h2⟩ := hfields
  unfold nstate
  dsimp only
  rw [(setNstate_moves d c n s).ncfg, h0, h1, h2, signedOf_ofInt hv.1 hv.2]

/-- The neurons of a core in turn: neuron `n` is served in a device where it stands as at first, and stands after as it was left. -/
theorem forEach_neuron {f : Nat → Dev → Dev} (h : ∀ m d, NstateMoves c m d (f m d)) (hn : n < 256) (d : Dev) :
    ∃ e, NeuronStands c n d e ∧ NeuronStands c n (f n e) (forEach (List.range 256) f d) :=
  forEach_once NeuronStands.refl (fun _ _ _ => NeuronStands.trans) (List.mem_range.2 hn) List.nodup_range
    (fun m _ hne d => (h m d).stands hne) d

end Dev
end Sys2Proof.Machine
end

section
/-!
The service of events and ticks (R165–R169, R173–R175): the registers that the neurons of a core move, and what a neuron makes of V.
-/
namespace Sys2Proof.Machine
namespace Dev

variable {d e : Dev} {c n : Nat}

theorem Signals.wcores (h : d.Signals e) : e.wcores = d.wcores := by rw [h]

/-! ## What firings move -/

/-- The registers below page 0x058 that the neurons of core `c` move: its counts of spikes and saturations, the count of all spikes, and
those of errors. -/
def firingRegs (c : Nat) : List (Nat × Nat) := [whorlReg c 0x18, whorlReg c 0x20, (0x050, 0x058)] ++ errRegs 0x050

/-- From `d` to `e` no core's queue has moved, and no register but those of the wake entries and those that `firingRegs` names. -/
def Fires (c : Nat) (d e : Dev) : Prop :=
  e.wcores = d.wcores ∧ ∀ p off, off < 4096 → p ≠ 0x058 → (p, off) ∉ firingRegs c → e.reg p off = d.reg p off

theorem Fires.refl (d : Dev) : Fires c d d := ⟨rfl, fun _ _ _ _ _ => rfl⟩

theorem Fires.trans {f : Dev} (h : Fires c d e) (k : Fires c e f) : Fires c d f :=
  ⟨k.1.trans h.1, fun p off ho hp hm => (k.2 p off ho hp hm).trans (h.2 p off ho hp hm)⟩

theorem Fires.fields (h : Fires c d e) {e' : Dev} (hr : (e'.regs, e'.pkg, e'.wcores) = (e.regs, e.pkg, e.wcores)) : Fires c d e' := by
  have hregs : e'.regs = e.regs := congrArg (·.1) hr
  have hpkg : e'.pkg = e.pkg := congrArg (·.2.1) hr
  refine h.trans ⟨congrArg (·.2.2) hr, fun p off _ _ _ => ?_⟩
  unfold reg
  rw [hregs, hpkg]

theorem Fires.setReg (h : Fires c d e) {p off : Nat} (v : Word) (hf : off < 4096) (hm : p = 0x058 ∨ (p, off) ∈ firingRegs c) :
    Fires c d (e.setReg p off v) := by
  refine h.trans ⟨rfl, fun q o ho hq hn => reg_setReg_other _ _ _ _ _ _ ?_ ho hf⟩
  by_contra hcon
  obtain ⟨rfl, rfl⟩ : q = p ∧ o = off := by omega
  exact hm.elim hq hn

theorem Fires.err (h : Fires c d e) {p : Nat} (b : Nat) (hp : p = 0x050 ∨ p = 0x058) : Fires c d (e.err p b) := by
  refine h.trans ⟨(err_signals e p b).wcores, fun q o ho hq hn => err_onlyRegs e p b q o ho fun hm => ?_⟩
  rcases hp with rfl | rfl
  · exact hn (List.mem_append_right _ hm)
  · obtain hm | hm := List.mem_append.1 hm
    · simp only [List.mem_cons, Prod.ext_iff, List.not_mem_nil, or_false] at hm
      omega
    · exact hn (List.mem_append_right _ (List.mem_append_right _ hm))

theorem Fires.ite (p : Prop) [Decidable p] {a b : Dev} (ha : Fires c d a) (hb : Fires c d b) : Fires c d (if p then a else b) := by
  split
  · exact ha
  · exact hb

theorem Fires.forEach (h : Fires c d e) (l : List Nat) {f : Nat → Dev → Dev} (hf : ∀ n ∈ l, ∀ x, Fires c x (f n x)) :
    Fires c d (forEach l f e) :=
  h.trans (forEach_rel Fires.refl (fun _ _ _ => Fires.trans) hf e)

theorem Fires.wcount (h : Fires c d e) {o : Nat} (k : Nat) (ho : o = 0x18 ∨ o = 0x20) : Fires c d (e.wcount c o k) := by
  refine h.setReg _ (whorlReg_offset c o (by omega)).2 (.inr ?_)
  rcases ho with rfl | rfl <;> simp [firingRegs]

theorem Fires.setNstate (h : Fires c d e) (n : Nat) (s : NState) : Fires c d (e.setNstate c n s) := by
  unfold Dev.setNstate
  rw [setBytes_frame]
  exact h.fields rfl

theorem Fires.stormCount (h : Fires c d e) {k : Nat} (hk : k < 64) : Fires c d (e.stormCount k) :=
  ((h.setReg _ (by omega) (.inl rfl)).setReg _ (by omega) (.inl rfl)).fields rfl

theorem Fires.wakeRequest (h : Fires c d e) {k : Nat} (hk : k < 64) (core neuron score : Nat) :
    Fires c d (e.wakeRequest k core neuron score) := by
  have hs := h.stormCount hk
  have hpass : Fires c d (e.count 0x058 (0x048 + 16 * k)) := h.setReg _ (by omega) (.inl rfl)
  exact .ite _ hs (.ite _ ((hs.setReg _ (by omega) (.inl rfl)).err 0 (.inr rfl)) (hpass.fields rfl))

theorem Fires.wakeCheck (h : Fires c d e) (n val : Nat) : Fires c d (e.wakeCheck c n val) :=
  h.forEach _ fun _ hk x => .ite _ ((Fires.refl x).wakeRequest (List.mem_range.1 (List.mem_filter.1 hk).1) _ _ _) (.refl x)

theorem Fires.fire (h : Fires c d e) (n : Nat) (neg : Bool) : Fires c d (e.fire c n neg) := by
  unfold Dev.fire
  extract_lets g s mag val sgn d1 th d2 d3
  have h1 : Fires c d d1 := h.fields rfl
  have h3 : Fires c d d3 := ((h1.setNstate n _).wcount 1 (.inl rfl)).setReg _ (by omega) (.inr (by simp [firingRegs]))
  exact .ite _ h3 (h3.wakeCheck n val)

theorem Fires.fireCheck (h : Fires c d e) (n : Nat) : Fires c d (e.fireCheck c n) := by
  unfold Dev.fireCheck
  extract_lets s
  exact .ite _ (h.fire n _) (.ite _ (h.fire n _) h)

theorem Fires.integrate (h : Fires c d e) (i : Nat) (x : Int) (n : Nat) : Fires c d (integrate c i x n e) := by
  unfold Dev.integrate
  extract_lets w s v d1
  have h1 : Fires c d d1 := .ite _ ((h.wcount 1 (.inr rfl)).err 3 (.inl rfl)) h
  exact .ite _ h ((h1.setNstate n _).fireCheck n)

theorem Fires.leak (h : Fires c d e) (g n : Nat) : Fires c d (leak c g n e) := by
  unfold Dev.leak
  extract_lets f s v th d1
  have h1 : Fires c d d1 := h.setNstate n _
  exact .ite _ h (.ite _ (h1.fireCheck n) h1)

/-- What the neurons of a core leave of page 0x050's state, and of the core's registers beside its counts of spikes and saturations. -/
theorem Fires.pageState (h : Fires c d e) : e.pageState 0x050 = d.pageState 0x050 := by
  refine pageState_of_reg (h.2 _ _ (by omega) (by omega) ?_)
  simp only [firingRegs, errRegs, eventRegs, whorlReg, List.mem_append, List.mem_cons, Prod.ext_iff, List.not_mem_nil, or_false]
  omega

theorem Fires.wreg (h : Fires c d e) (hc : c < 128) {o : Nat} (ho : o < 0x40) (hne : o ≠ 0x18 ∧ o ≠ 0x20) :
    e.reg (whorlReg c o).1 (whorlReg c o).2 = d.reg (whorlReg c o).1 (whorlReg c o).2 := by
  refine h.2 _ _ (whorlReg_offset c o ho).2 ?_ ?_
  · unfold whorlReg
    omega
  · simp only [firingRegs, errRegs, eventRegs, whorlReg, List.mem_append, List.mem_cons, Prod.ext_iff, List.not_mem_nil, or_false]
    omega

/-! ## What a neuron makes of V and REF -/

theorem wakeRequest_mem (d : Dev) (k core neuron score : Nat) : (d.wakeRequest k core neuron score).mem = d.mem := by
  unfold wakeRequest
  split
  · rfl
  · split
    · exact (err_signals _ _ _).mem
    · rfl

theorem wakeCheck_mem (d : Dev) (c n val : Nat) : (d.wakeCheck c n val).mem = d.mem := by
  refine forEach_keeps (P := fun x : Dev => x.mem = d.mem) (fun k _ x hx => ?_) _ rfl
  dsimp only
  split
  · exact (wakeRequest_mem _ _ _ _ _).trans hx
  · exact hx

/-- TH as a firing leaves it (R165). -/
def firedTh (d : Dev) (c n : Nat) : Nat :=
  let g := d.ncfg c n
  let s := d.nstate c n
  if g.adaptEn && d.thrMin c ≤ s.th && s.th ≤ d.thrMax c then min (d.thrMax c) (s.th + d.thrInc c) else s.th

/-- What a neuron's NSTATE holds after a firing (R165). -/
def firedState (d : Dev) (c n : Nat) (neg : Bool) : NState :=
  { v := if (d.ncfg c n).subtract then (d.nstate c n).v - (if neg then -1 else 1) * (d.nstate c n).th else 0
    ref := (d.ncfg c n).refract, th := d.firedTh c n }

theorem setBytes_mem_congr (h : e.mem = d.mem) (a : Nat) (l : List Byte) : (e.setBytes a l).mem = (d.setBytes a l).mem := by
  induction l generalizing d e a with
  | nil => exact h
  | cons b r ih =>
    rw [setBytes_cons, setBytes_cons]
    exact ih (by rw [setByte, setByte, h]) _

/-- In memory a firing stores the neuron's NSTATE alone. -/
theorem fire_mem (d : Dev) (c n : Nat) (neg : Bool) : (d.fire c n neg).mem = (d.setNstate c n (d.firedState c n neg)).mem := by
  unfold fire
  extract_lets g s mag val sgn d1 th d2 d3
  have h1 : d1.mem = d.mem := rfl
  have h3 : d3.mem = (d.setNstate c n (d.firedState c n neg)).mem :=
    ((count_mem _ _ _ _).trans (count_mem _ _ _ _)).trans (setBytes_mem_congr h1 _ _)
  split
  · exact h3
  · exact (wakeCheck_mem _ _ _ _).trans h3

end Dev
end Sys2Proof.Machine
end
section
/-!
What a core makes of the item at the head of its queue (R165–R169): V, REF and TH of a neuron under an event and under a tick.
-/
namespace Sys2Proof.Machine
namespace Dev

variable {d e : Dev} {c n : Nat}

/-! ## Page 0x050 follows Whorl's work (R37) -/

theorem whorlBusy_of_inbox (h : (d.wcore c).inbox ≠ []) : d.whorlBusy = true := by
  have hlisted (l : Sparse WCore) (hl : (Sparse.get (fun _ => {}) l c).inbox ≠ []) : (l.any fun x => !x.2.inbox.isEmpty) = true := by
    induction l with
    | nil => exact absurd rfl hl
    | cons x r ih =>
      obtain ⟨j, v⟩ := x
      rw [List.any_cons, Bool.or_eq_true]
      by_cases hc : c = j
      · simp only [Sparse.get, if_pos hc] at hl
        exact .inl (by simpa using hl)
      · simp only [Sparse.get, if_neg hc] at hl
        exact .inr (ih hl)
  have hany : (d.wcores.any fun x => !x.2.inbox.isEmpty) = true := hlisted _ h
  rw [whorlBusy, hany, Bool.or_true]

/-- While Whorl runs or has work, its page moves its state at most. -/
theorem whorlWork_cases (h : d.running 0x050 = true ∨ d.whorlBusy = true) :
    d.whorlWork = d ∨ ∃ v < 16, d.whorlWork = d.setPageState 0x050 v := by
  unfold whorlWork work
  split_ifs with h1 hb h2 hb h3 hb
  · exact .inr ⟨2, by omega, rfl⟩
  · exact .inl rfl
  · exact .inl rfl
  · exact .inr ⟨1, by omega, rfl⟩
  · exact .inl rfl
  · refine absurd h ?_
    rw [running_iff]
    tauto
  · exact .inl rfl

/-- What Whorl's page leaves so: the cores' queues, the mesh, and every register but its own state. -/
theorem whorlWork_stands (h : d.running 0x050 = true ∨ d.whorlBusy = true) :
    d.whorlWork.wcores = d.wcores ∧ d.whorlWork.mesh = d.mesh ∧
      ∀ p off, off < 4096 → (p ≠ 0x050 ∨ off ≠ 0x010) → d.whorlWork.reg p off = d.reg p off := by
  obtain hw | ⟨v, -, hw⟩ := whorlWork_cases h
  · rw [hw]
    exact ⟨rfl, rfl, fun _ _ _ _ => rfl⟩
  · rw [hw]
    exact ⟨rfl, rfl, fun p off ho hp => reg_setReg_other _ _ _ _ _ _ hp ho (by omega)⟩

theorem whorlWork_mem (d : Dev) : d.whorlWork.mem = d.mem := by
  have hended (x : Dev) : x.whorlEnded.mem = x.mem := by
    unfold whorlEnded
    exact forEach_keeps (P := fun y : Dev => y.mem = x.mem) (f := fun p d => d.resetCounters p) (fun _ _ _ h => h) _ rfl
  unfold whorlWork work
  split_ifs
  · rfl
  · rfl
  · rfl
  · rfl
  · rfl
  · exact hended _
  · rfl

theorem wcore_setWcore (d : Dev) (c : Nat) (x : WCore) (k : Nat) : (d.setWcore c x).wcore k = if k = c then x else d.wcore k :=
  Sparse.get_put _ _ _ _ _

theorem wcore_of_wcores (h : e.wcores = d.wcores) (c : Nat) : e.wcore c = d.wcore c := by
  unfold wcore
  rw [h]

theorem running_of_same {p : Nat} (h : e.pageState p = d.pageState p) (hr : d.running p = true) : e.running p = true := by
  unfold running at *
  rwa [h]

/-! ## The words of a neuron through memory -/

theorem num_of_mem (h : e.mem = d.mem) (a k : Nat) : e.num a k = d.num a k := congrArg ofBytesLE (bytes_of_mem h a k)

theorem ncfg_of_mem (h : e.mem = d.mem) (c n : Nat) : e.ncfg c n = d.ncfg c n := ncfg_of_num (num_of_mem h _ _)

theorem nstate_of_mem (h : e.mem = d.mem) (c n : Nat) : e.nstate c n = d.nstate c n := nstate_of_num (ncfg_of_mem h c n) (num_of_mem h _ _)

theorem syn_of_mem (h : e.mem = d.mem) (c i n : Nat) : e.syn c i n = d.syn c i n := by
  unfold syn byte
  rw [h]

/-- A neuron whose V is stored keeps REF and TH. -/
theorem nstate_setNstate_v {s : NState} (hs : d.nstate c n = s) {v : Int} (hv : -8388608 ≤ v ∧ v ≤ 8388607) :
    (d.setNstate c n { s with v := v }).nstate c n = { s with v := v } := by
  have hth := th_range d c n
  have href := ref_lt d c n
  have hfixed := th_of_fixed (d := d) (c := c) (n := n)
  rw [hs] at hth href hfixed
  refine (nstate_setNstate d c n (s := { s with v := v }) hv href).trans ?_
  have hsame : (if (d.ncfg c n).adaptEn then max 1 (s.th % 65536) else (d.ncfg c n).thrBase) = s.th := by
    split
    · omega
    · next h => exact (hfixed (by simpa using h)).symm
  dsimp only
  rw [hsame]

/-! ## Firings (R165) -/

/-- V and REF after a firing. -/
theorem nstate_fire (neg : Bool) (hv : -8388608 ≤ (d.firedState c n neg).v ∧ (d.firedState c n neg).v ≤ 8388607) :
    ((d.fire c n neg).nstate c n).ref = (d.ncfg c n).refract ∧ ((d.fire c n neg).nstate c n).v = (d.firedState c n neg).v := by
  rw [nstate_of_mem (fire_mem d c n neg), nstate_setNstate d c n hv (refract_lt d c n)]
  exact ⟨rfl, rfl⟩

theorem fire_moves (d : Dev) (c n : Nat) (neg : Bool) : NstateMoves c n d (d.fire c n neg) :=
  (setNstate_moves d c n (d.firedState c n neg)).trans (.of_mem (fire_mem d c n neg))

theorem fireCheck_moves (d : Dev) (c n : Nat) : NstateMoves c n d (d.fireCheck c n) := by
  unfold fireCheck
  extract_lets s
  split
  · exact fire_moves d c n _
  · split
    · exact fire_moves d c n _
    · exact .of_mem rfl

/-- Below its threshold, and above the negative one where that counts, a neuron does not fire. -/
theorem fireCheck_quiet (hpos : (d.nstate c n).v < (d.nstate c n).th)
    (hneg : (d.ncfg c n).negEn = false ∨ -((d.nstate c n).th : Int) < (d.nstate c n).v) : d.fireCheck c n = d := by
  unfold fireCheck
  extract_lets s
  rw [if_neg (not_le.2 hpos), if_neg]
  simp only [Bool.and_eq_true, decide_eq_true_eq]
  rcases hneg with h | h
  · simp [h]
  · exact fun hc => absurd hc.2 (not_le.2 h)

theorem fireCheck_pos (hth : ((d.nstate c n).th : Int) ≤ (d.nstate c n).v) : ((d.fireCheck c n).nstate c n).ref = (d.ncfg c n).refract ∧
    ((d.fireCheck c n).nstate c n).v = if (d.ncfg c n).subtract then (d.nstate c n).v - (d.nstate c n).th else 0 := by
  have hv := v_range d c n
  have hr := th_range d c n
  have hfired : (d.firedState c n false).v = if (d.ncfg c n).subtract then (d.nstate c n).v - (d.nstate c n).th else 0 := by
    simp [firedState]
  have hcheck : d.fireCheck c n = d.fire c n false := by
    unfold fireCheck
    extract_lets s
    rw [if_pos hth]
  rw [hcheck, ← hfired]
  refine nstate_fire false ?_
  rw [hfired]
  split <;> omega

theorem fireCheck_neg (hen : (d.ncfg c n).negEn = true) (hth : (d.nstate c n).v ≤ -((d.nstate c n).th : Int)) :
    ((d.fireCheck c n).nstate c n).ref = (d.ncfg c n).refract ∧
    ((d.fireCheck c n).nstate c n).v = if (d.ncfg c n).subtract then (d.nstate c n).v + (d.nstate c n).th else 0 := by
  have hv := v_range d c n
  have hr := th_range d c n
  have hfired : (d.firedState c n true).v = if (d.ncfg c n).subtract then (d.nstate c n).v + (d.nstate c n).th else 0 := by
    simp [firedState]
  have hcheck : d.fireCheck c n = d.fire c n true := by
    unfold fireCheck
    extract_lets s
    rw [if_neg (by unfold s; omega), if_pos (by simp [hen, s, hth])]
  rw [hcheck, ← hfired]
  refine nstate_fire true ?_
  rw [hfired]
  split <;> omega

/-! ## An event at a neuron (R165) -/

/-- V of a neuron after an event of VALUE x on input i, before the firing check. -/
def integrated (d : Dev) (c i : Nat) (x : Int) (n : Nat) : Int := max (-8388608) (min 8388607 ((d.nstate c n).v + x * d.syn c i n))

theorem integrated_range (d : Dev) (c i : Nat) (x : Int) (n : Nat) :
    -8388608 ≤ d.integrated c i x n ∧ d.integrated c i x n ≤ 8388607 := by
  unfold integrated
  omega

/-- A refractory neuron, and one without the synapse, take no part. -/
theorem integrate_skips {i : Nat} {x : Int} (h : d.syn c i n = 0 ∨ 0 < (d.nstate c n).ref) : integrate c i x n d = d := by
  unfold integrate
  extract_lets w s v d1
  exact if_pos (by simpa [w, s] using h)

/-- Any other neuron stores V, and checks whether it fires. -/
theorem integrate_stores {i : Nat} {x : Int} (hw : d.syn c i n ≠ 0) (hr : (d.nstate c n).ref = 0) : ∃ y : Dev,
    integrate c i x n d = y.fireCheck c n ∧ NstateMoves c n d y ∧ y.ncfg c n = d.ncfg c n ∧
    y.nstate c n = { d.nstate c n with v := d.integrated c i x n } := by
  unfold integrate
  extract_lets w s v d1
  have hmem : d1.mem = d.mem := by
    unfold d1
    split
    · exact (err_signals _ _ _).mem
    · rfl
  have hs : d1.nstate c n = s := nstate_of_mem hmem c n
  have hmoves : NstateMoves c n d (d1.setNstate c n { s with v := d.integrated c i x n }) :=
    (NstateMoves.of_mem hmem).trans (setNstate_moves _ _ _ _)
  rw [if_neg (by simp [w, s, hw, hr])]
  exact ⟨_, rfl, hmoves, hmoves.ncfg, nstate_setNstate_v hs (d.integrated_range c i x n)⟩

theorem integrate_moves (d : Dev) (c i : Nat) (x : Int) (n : Nat) : NstateMoves c n d (integrate c i x n d) := by
  by_cases h : d.syn c i n = 0 ∨ 0 < (d.nstate c n).ref
  · rw [integrate_skips h]
    exact .of_mem rfl
  · obtain ⟨y, heq, hy, -⟩ := integrate_stores (i := i) (x := x) (fun hw => h (.inl hw)) (by omega)
    rw [heq]
    exact hy.trans (fireCheck_moves y c n)

/-! ## A tick at a neuron (R165) -/

/-- V of a neuron after its leak. -/
def leaked (d : Dev) (c n : Nat) : Int :=
  if 0 < (d.ncfg c n).leakShift then (d.nstate c n).v - (d.nstate c n).v / 2 ^ (d.ncfg c n).leakShift else (d.nstate c n).v

/-- A leak takes V toward zero. -/
theorem leaked_range (d : Dev) (c n : Nat) : -8388608 ≤ d.leaked c n ∧ d.leaked c n ≤ 8388607 := by
  have hv := v_range d c n
  unfold leaked
  split
  · next hk =>
    generalize (d.nstate c n).v = v at *
    generalize hm : (2 : Int) ^ (d.ncfg c n).leakShift = m
    have hpos : 2 ≤ m := by
      rw [← hm]
      exact_mod_cast Nat.le_self_pow (by omega : (d.ncfg c n).leakShift ≠ 0) 2
    have hlo : m * (v / m) ≤ v := Int.mul_ediv_self_le (by omega)
    have hhi : v < m * (v / m) + m := Int.lt_mul_ediv_self_add (by omega)
    constructor
    · by_contra hcon
      nlinarith
    · by_contra hcon
      nlinarith
  · exact hv

/-- A neuron of another group takes no part in a tick. -/
theorem leak_skips {g : Nat} (h : (d.ncfg c n).leakGroup ≠ g) : leak c g n d = d := if_pos h

/-- A neuron of the group leaks and counts REF down; one that leaves its refractory time checks whether it fires. -/
theorem leak_stores {g : Nat} (h : (d.ncfg c n).leakGroup = g) : ∃ y : Dev,
    leak c g n d = (if (d.nstate c n).ref - 1 = 0 then y.fireCheck c n else y) ∧ NstateMoves c n d y ∧ y.ncfg c n = d.ncfg c n ∧
    (y.nstate c n).v = d.leaked c n ∧ (y.nstate c n).ref = (d.nstate c n).ref - 1 ∧
    ((d.ncfg c n).adaptEn = false → (y.nstate c n).th = (d.nstate c n).th) := by
  have href := ref_lt d c n
  unfold leak
  extract_lets f s v th d1
  have hmoves : NstateMoves c n d d1 := setNstate_moves _ _ _ _
  have hstate : d1.nstate c n = _ :=
    nstate_setNstate d c n (s := { v := d.leaked c n, ref := s.ref - 1, th := th }) (d.leaked_range c n) (by
    unfold s
    dsimp only
    omega)
  rw [if_neg (not_not.2 h)]
  refine ⟨d1, rfl, hmoves, hmoves.ncfg, by rw [hstate], by rw [hstate], fun hfix => ?_⟩
  rw [th_of_fixed (by rw [hmoves.ncfg, hfix]), hmoves.ncfg, th_of_fixed hfix]

theorem leak_moves (d : Dev) (c g n : Nat) : NstateMoves c n d (leak c g n d) := by
  by_cases h : (d.ncfg c n).leakGroup = g
  · obtain ⟨y, heq, hy, -⟩ := leak_stores h
    rw [heq]
    split
    · exact hy.trans (fireCheck_moves y c n)
    · exact hy
  · rw [leak_skips h]
    exact .of_mem rfl

/-- V and REF of a neuron of the group that does not fire. -/
theorem leak_quiet {g : Nat} (h : (d.ncfg c n).leakGroup = g) (hq : 2 ≤ (d.nstate c n).ref ∨ ((d.ncfg c n).adaptEn = false ∧
    -((d.nstate c n).th : Int) < d.leaked c n ∧ d.leaked c n < (d.nstate c n).th)) :
    ((leak c g n d).nstate c n).ref = (d.nstate c n).ref - 1 ∧ ((leak c g n d).nstate c n).v = d.leaked c n := by
  obtain ⟨y, heq, -, -, hv, href, hth⟩ := leak_stores h
  have hleak : leak c g n d = y := by
    rw [heq]
    split
    · next h0 =>
      obtain h2 | ⟨hfix, hlo, hhi⟩ := hq
      · omega
      · exact fireCheck_quiet (by rw [hv, hth hfix]; exact hhi) (.inr (by rw [hv, hth hfix]; exact hlo))
    · rfl
  rw [hleak]
  exact ⟨href, hv⟩

end Dev
end Sys2Proof.Machine
end
section
/-!
Events at a Whorl core (R159, R161, R165, R168, R177, R178): their arrival from the mesh, and the service of the one at the head of the
queue.
-/
namespace Sys2Proof.Machine

theorem exec_whorlEventArrival (s : State) (c : Fin 128) : exec (.whorlEventArrival c) s = onDev (fun d => d.arrive c.val) s := rfl

theorem exec_whorlInputEvent (s : State) (c : Fin 128) : exec (.whorlInputEvent c) s = onDev (fun d => d.serveEvent c.val) s := rfl

namespace Dev

variable {d : Dev} {c : Nat} {p : WPacket}

/-! ## Arrivals, by what becomes of the packet -/

/-- The device without a packet on its mesh. -/
def took (d : Dev) (p : WPacket) : Dev := { d with mesh := d.mesh.erase p }

/-- A core takes a packet into its queue: it is awake, runs or has its window open, and has room (R161, R168, R177). -/
def Takes (d : Dev) (c : Nat) (p : WPacket) : Prop :=
  (d.mesh.find? fun p => p.core == c) = some p ∧ d.wasleep c = false ∧ d.wstate c ≠ 0 ∧ d.wdepth c < 64

theorem arrive_event (h : d.Takes c p) (hk : bits p.word 31 30 < 2) :
    d.arrive c = whorlWork ((d.took p).enqueue c (.event p.input (signedOf 8 (bits p.word 7 0)))) := by
  obtain ⟨hp, ha, hs, hroom⟩ := h
  have h2 : bits p.word 31 30 ≠ 2 := by omega
  have h3 : bits p.word 31 30 ≠ 3 := by omega
  simp [arrive, hp, ha, hs, hroom.ne, h2, h3, took]

theorem arrive_marker (h : d.Takes c p) (hk : bits p.word 31 30 = 3) (hm : d.wfield c 0 7 7 = 1) :
    d.arrive c = whorlWork ((d.took p).enqueue c (.event (d.wfield c 0 16 8) 127)) := by
  obtain ⟨hp, ha, hs, hroom⟩ := h
  simp [arrive, hp, ha, hs, hroom.ne, hk, hm, took]

/-- A running core with a full queue holds back its link (R161). -/
theorem arrive_waits (hp : (d.mesh.find? fun p => p.core == c) = some p) (ha : d.wasleep c = false) (hs : d.wstate c = 1)
    (hfull : d.wdepth c = 64) (hk : bits p.word 31 30 < 2 ∨ bits p.word 31 30 = 3 ∧ d.wfield c 0 7 7 = 1) : d.arrive c = d := by
  obtain h | ⟨h, hm⟩ := hk
  · have h2 : bits p.word 31 30 ≠ 2 := by omega
    have h3 : bits p.word 31 30 ≠ 3 := by omega
    simp [arrive, hp, ha, hs, hfull, h2, h3]
  · simp [arrive, hp, ha, hs, hfull, h, hm]

theorem arrive_drops (hp : (d.mesh.find? fun p => p.core == c) = some p) (ha : d.wasleep c = false)
    (h : d.wstate c = 0 ∨ bits p.word 31 30 = 2 ∨ (bits p.word 31 30 = 3 ∧ d.wfield c 0 7 7 = 0) ∨
      (d.wstate c = 2 ∧ d.wdepth c = 64)) : d.arrive c = whorlWork ((d.took p).wcount c 0x1C) := by
  unfold arrive
  rw [hp]
  dsimp only
  rw [if_neg (by simp [ha])]
  split_ifs with h0 h3 hfull hw
  · rfl
  · rfl
  · rfl
  all_goals
    simp only [Bool.or_eq_true, decide_eq_true_eq, Bool.and_eq_true] at h0 h3
    omega

theorem arrive_lost (hp : (d.mesh.find? fun p => p.core == c) = some p) (ha : d.wasleep c = true) :
    d.arrive c = whorlWork ((d.took p).count 0x057 0x040) := by simp [arrive, hp, ha, took]

/-! ## What follows from each -/

/-- After an item entered a core's queue Whorl has work, so its page leaves the mesh and the queues. -/
theorem whorlWork_enqueue (d : Dev) (c : Nat) (i : WItem) :
    (whorlWork (d.enqueue c i)).mesh = d.mesh ∧ ((whorlWork (d.enqueue c i)).wcore c).inbox = (d.wcore c).inbox ++ [i] := by
  have hin : ((d.enqueue c i).wcore c).inbox = (d.wcore c).inbox ++ [i] := by
    unfold enqueue
    rw [wcore_setWcore, if_pos rfl]
  have hbusy : (d.enqueue c i).whorlBusy = true := whorlBusy_of_inbox (by rw [hin]; simp)
  obtain ⟨hcores, hmesh, -⟩ := whorlWork_stands (.inr hbusy)
  exact ⟨hmesh, by rw [wcore_of_wcores hcores, hin]⟩

/-- A count while page 0x050 runs, and no more than that. -/
theorem whorlWork_count {q off : Nat} (hq : q ≠ 0x050) (hf : off < 4096) (hrun : d.running 0x050 = true) :
    (whorlWork (d.count q off)).mesh = d.mesh ∧ (whorlWork (d.count q off)).wcores = d.wcores ∧
      (whorlWork (d.count q off)).reg q off = satAdd (d.reg q off) 1 := by
  have hstate : (d.count q off).pageState 0x050 = d.pageState 0x050 :=
    pageState_of_reg (reg_setReg_other _ _ _ _ _ _ (.inl hq.symm) (by omega) hf)
  obtain ⟨hcores, hmesh, hregs⟩ := whorlWork_stands (.inl (running_of_same hstate hrun))
  exact ⟨hmesh, hcores, (hregs q off hf (.inl hq)).trans (reg_count_same _ _ _ _)⟩

/-! ## The service of an event (R165) -/

/-- The device as a core's neurons find it: the event has left the queue and is counted. -/
def eventTaken (d : Dev) (c : Nat) (rest : List WItem) : Dev :=
  ((d.setWcore c { d.wcore c with inbox := rest }).wcount c 0x14).count 0x050 0x054

theorem serveEvent_serves {i : Nat} {x : Int} {rest : List WItem} (hin : (d.wcore c).inbox = .event i x :: rest) (hs : d.wserves c = true) :
    d.serveEvent c = whorlWork (forEach (List.range 256) (integrate c i x) (d.eventTaken c rest)) := by
  unfold serveEvent
  rw [hin]
  exact if_pos hs

theorem serveEvent_waits (h : (∀ i x rest, (d.wcore c).inbox ≠ .event i x :: rest) ∨ d.wserves c = false) : d.serveEvent c = d := by
  unfold serveEvent
  split
  · next i x rest hin =>
    have hoff : d.wserves c = false := h.resolve_left fun hne => hne i x rest hin
    exact if_neg (by simp [hoff])
  · rfl

theorem eventTaken_wcore (d : Dev) (c : Nat) (rest : List WItem) : ((d.eventTaken c rest).wcore c).inbox = rest := by
  have h : (d.eventTaken c rest).wcore c = (d.setWcore c { d.wcore c with inbox := rest }).wcore c := wcore_of_wcores rfl c
  rw [h, wcore_setWcore, if_pos rfl]

/-- While page 0x050 runs, the event leaves the queue and counts in EV_IN. -/
theorem serveEvent_counts {i : Nat} {x : Int} {rest : List WItem} (hc : c < 128) (hin : (d.wcore c).inbox = .event i x :: rest)
    (hs : d.wserves c = true) (hrun : d.running 0x050 = true) : ((d.serveEvent c).wcore c).inbox = rest ∧
      (d.serveEvent c).reg (whorlReg c 0x14).1 (whorlReg c 0x14).2 = satAdd (d.reg (whorlReg c 0x14).1 (whorlReg c 0x14).2) 1 := by
  have hoff := whorlReg_offset c 0x14 (by omega)
  have hpage : (whorlReg c 0x14).1 ≠ 0x050 := by
    unfold whorlReg
    omega
  have hfires : Fires c (d.eventTaken c rest) (forEach (List.range 256) (integrate c i x) (d.eventTaken c rest)) :=
    (Fires.refl _).forEach _ fun n _ x => (Fires.refl x).integrate _ _ n
  have hstate : (forEach (List.range 256) (integrate c i x) (d.eventTaken c rest)).pageState 0x050 = d.pageState 0x050 := by
    rw [hfires.pageState]
    refine pageState_of_reg ?_
    unfold eventTaken wcount count
    rw [reg_setReg_other _ _ _ _ _ _ (.inr (by omega)) (by omega) (by omega),
      reg_setReg_other _ _ _ _ _ _ (.inl hpage.symm) (by omega) hoff.2]
    rfl
  obtain ⟨hcores, -, hregs⟩ := whorlWork_stands (.inl (running_of_same hstate hrun))
  rw [serveEvent_serves hin hs, wcore_of_wcores (hcores.trans hfires.1), eventTaken_wcore]
  refine ⟨rfl, (hregs _ _ hoff.2 (.inl hpage)).trans ?_⟩
  rw [hfires.wreg hc (by omega) (by omega)]
  unfold eventTaken wcount count
  rw [reg_setReg_other _ _ _ _ _ _ (.inl hpage) hoff.2 (by omega), reg_setReg_same]
  rfl

/-- Neuron `n` meets the event as it stood before, and stands after it as the event left it. -/
theorem serveEvent_neuron {i n : Nat} {x : Int} {rest : List WItem} (hn : n < 256) (hi : i < 512)
    (hin : (d.wcore c).inbox = .event i x :: rest) (hs : d.wserves c = true) :
    ∃ e : Dev, (e.ncfg c n = d.ncfg c n ∧ e.nstate c n = d.nstate c n ∧ e.syn c i n = d.syn c i n) ∧
      (d.serveEvent c).ncfg c n = (integrate c i x n e).ncfg c n ∧ (d.serveEvent c).nstate c n = (integrate c i x n e).nstate c n := by
  have hmem : (d.eventTaken c rest).mem = d.mem := (count_mem _ _ _ _).trans (count_mem _ _ _ _)
  obtain ⟨e, he, hend⟩ := forEach_neuron (fun m y => integrate_moves y c i x m) hn (d.eventTaken c rest)
  refine ⟨e, ⟨(he.ncfg hn).trans (ncfg_of_mem hmem c n), (he.nstate hn).trans (nstate_of_mem hmem c n),
    (he.syn hi hn).trans (syn_of_mem hmem c i n)⟩, ?_⟩
  rw [serveEvent_serves hin hs, ncfg_of_mem (whorlWork_mem _), nstate_of_mem (whorlWork_mem _), hend.ncfg hn, hend.nstate hn]
  exact ⟨rfl, rfl⟩

end Dev

/-- Settles O23, by what becomes of a packet at its core, and by neuron n's own part of the event that the core serves. -/
theorem whorlEvents : Obligations.WhorlEvents := by
  unfold Obligations.WhorlEvents
  refine ⟨?_, ?_, ?_, ?_, ?_, ?_, ?_, ?_⟩
  · intro s c p hpow hp ha hs hroom
    have htakes : s.dev.Takes c.val p := ⟨hp, ha, hs, hroom⟩
    rw [exec_whorlEventArrival, onDev_of_powered hpow]
    refine ⟨fun hk => ⟨_, rfl, ?_⟩, fun hk hm => ⟨_, rfl, ?_⟩⟩
    · rw [Dev.arrive_event htakes hk]
      exact Dev.whorlWork_enqueue _ _ _
    · rw [Dev.arrive_marker htakes hk hm]
      exact Dev.whorlWork_enqueue _ _ _
  · intro s c p _ hp ha hs hfull hk
    rw [exec_whorlEventArrival]
    exact onDev_of_fixed (Dev.arrive_waits hp ha hs hfull hk)
  · intro s c _ hp
    rw [exec_whorlEventArrival]
    exact onDev_of_fixed (by simp [Dev.arrive, hp])
  · intro s c p hpow hp ha hrun h
    rw [exec_whorlEventArrival, onDev_of_powered hpow]
    refine ⟨_, rfl, ?_⟩
    rw [Dev.arrive_drops hp ha h]
    exact Dev.whorlWork_count (d := s.dev.took p) (by unfold whorlReg; omega) (Dev.whorlReg_offset c.val 0x1C (by omega)).2 hrun
  · intro s c p hpow hp ha hrun
    rw [exec_whorlEventArrival, onDev_of_powered hpow]
    refine ⟨_, rfl, ?_⟩
    rw [Dev.arrive_lost hp ha]
    exact Dev.whorlWork_count (d := s.dev.took p) (by omega) (by omega) hrun
  · intro s c i x rest hpow hin hs
    rw [exec_whorlInputEvent, onDev_of_powered hpow]
    exact ⟨_, rfl, fun hrun => Dev.serveEvent_counts c.isLt hin hs hrun⟩
  · intro s c i x rest n hpow hin hs hi w g o v
    rw [exec_whorlInputEvent, onDev_of_powered hpow]
    obtain ⟨e, ⟨hg, ho, hw⟩, hcfg, hst⟩ := Dev.serveEvent_neuron (c := c.val) n.isLt hi hin hs
    have hv : e.integrated c.val i x n.val = v := by rw [Dev.integrated, ho, hw]
    refine ⟨_, rfl, ?_⟩
    dsimp only
    rw [hcfg, hst]
    refine ⟨(Dev.integrate_moves _ _ _ _ _).ncfg.trans hg, fun hskip => ?_, fun hne hr hlt hneg => ?_, fun hne hr hth => ?_,
      fun hne hr hen hth => ?_⟩
    · rw [Dev.integrate_skips (by rwa [hw, ho]), ho]
    all_goals
      obtain ⟨y, heq, -, hyg, hys⟩ := Dev.integrate_stores (d := e) (i := i) (x := x) (by rwa [hw]) (by rwa [ho])
      rw [hg] at hyg
      rw [ho, hv] at hys
      rw [heq]
    · rw [Dev.fireCheck_quiet (by rw [hys]; exact hlt) (by rw [hyg, hys]; exact hneg), hys]
    · have h := Dev.fireCheck_pos (d := y) (c := c.val) (n := n.val) (by rw [hys]; exact hth)
      rwa [hyg, hys] at h
    · have h := Dev.fireCheck_neg (d := y) (c := c.val) (n := n.val) (by rw [hyg]; exact hen) (by rw [hys]; exact hth)
      rwa [hyg, hys] at h
  · intro s c _ h
    rw [exec_whorlInputEvent]
    exact onDev_of_fixed (Dev.serveEvent_waits h)

end Sys2Proof.Machine
end
section
/-!
Ticks at Whorl cores, and the quiet time of a wake entry's limiter (R165, R169, R175, R177).
-/
namespace Sys2Proof.Machine

theorem exec_swTick (s : State) (ag : Agent) (groups : BitVec 8) :
    exec (.swTick ag groups) s = onDev (Dev.anyWrite 0x056 fun d => d.whorlTicks groups.toNat) s := rfl

theorem exec_whorlTick (s : State) (c : Fin 128) : exec (.whorlTick c) s = onDev (fun d => d.serveTick c.val) s := rfl

theorem exec_stormQuietExpiry (s : State) (e : Fin 64) : exec (.stormQuietExpiry e) s = onDev (fun d => d.stormQuiet e.val) s := rfl

namespace Dev

variable {d e : Dev} {c g : Nat}

/-! ## The delivery of ticks (R169) -/

/-- From `d` to `e` no region has moved, and below page 0x056 no register but the cores' counts of drops. -/
def Ticked (d e : Dev) : Prop :=
  e.regions = d.regions ∧ ∀ p off, off < 4096 → p < 0x056 → (0x052 ≤ p → off % 0x40 ≠ 0x1C) → e.reg p off = d.reg p off

theorem Ticked.refl (d : Dev) : Ticked d d := ⟨rfl, fun _ _ _ _ _ => rfl⟩

theorem Ticked.trans {f : Dev} (h : Ticked d e) (k : Ticked e f) : Ticked d f :=
  ⟨k.1.trans h.1, fun p off ho hp hm => (k.2 p off ho hp hm).trans (h.2 p off ho hp hm)⟩

theorem ticked_count (d : Dev) {p off : Nat} (hf : off < 4096) (h : 0x056 ≤ p ∨ 0x052 ≤ p ∧ off % 0x40 = 0x1C) :
    Ticked d (d.count p off) := by
  refine ⟨rfl, fun q o ho hq hm => reg_setReg_other _ _ _ _ _ _ ?_ ho hf⟩
  by_contra hcon
  obtain ⟨rfl, rfl⟩ : q = p ∧ o = off := by omega
  omega

/-- A core's register that is not its count of drops. -/
theorem Ticked.wreg (h : Ticked d e) (hc : c < 128) {o : Nat} (ho : o < 0x40) (hne : o ≠ 0x1C) :
    e.reg (whorlReg c o).1 (whorlReg c o).2 = d.reg (whorlReg c o).1 (whorlReg c o).2 := by
  refine h.2 _ _ (whorlReg_offset c o ho).2 ?_ fun _ => ?_
  · unfold whorlReg
    omega
  · unfold whorlReg
    omega

/-- A core that takes ticks into its queue: enabled, awake and running, on a page that runs (R169, R177, R178). -/
def TakesTicks (d : Dev) (c : Nat) : Prop :=
  d.wenabled c = true ∧ d.wasleep c = false ∧ d.wstate c = 1 ∧ d.running 0x050 = true

theorem Ticked.takes (h : Ticked d e) (hc : c < 128) (hd : d.TakesTicks c) : e.TakesTicks c := by
  obtain ⟨hen, ha, hs, hrun⟩ := hd
  refine ⟨?_, ?_, ?_, running_of_same (pageState_of_reg (h.2 _ _ (by omega) (by omega) (by omega))) hrun⟩
  · unfold wenabled wfield field at *
    rwa [h.wreg hc (by omega) (by omega)]
  · unfold wasleep asleepRegion region at *
    rwa [h.1]
  · unfold wstate wfield field at *
    rwa [h.wreg hc (by omega) (by omega)]

/-- What a tick does to a core. -/
theorem tickCore_cases (g c : Nat) (d : Dev) : tickCore g c d = d.count 0x057 0x040 ∨ tickCore g c d = d.wcount c 0x1C ∨
    tickCore g c d = d.count 0x056 0x080 ∨ ∃ x, tickCore g c d = d.setWcore c x := by
  unfold tickCore
  extract_lets x
  split_ifs
  · exact .inl rfl
  · exact .inr (.inl rfl)
  · exact .inr (.inr (.inr ⟨_, rfl⟩))
  · exact .inr (.inr (.inl rfl))
  · exact .inr (.inr (.inr ⟨_, rfl⟩))

theorem tickCore_ticked (g c : Nat) (d : Dev) : Ticked d (tickCore g c d) := by
  obtain h | h | h | ⟨x, h⟩ := tickCore_cases g c d <;> rw [h]
  · exact ticked_count d (by omega) (by omega)
  · exact ticked_count d (whorlReg_offset c 0x1C (by omega)).2 (by unfold whorlReg; omega)
  · exact ticked_count d (by omega) (by omega)
  · exact .refl d

theorem tickCore_wcore_other {k : Nat} (h : k ≠ c) (d : Dev) : (tickCore g k d).wcore c = d.wcore c := by
  obtain h | h | h | ⟨x, h⟩ := tickCore_cases g k d <;> rw [h]
  · rfl
  · rfl
  · rfl
  · rw [wcore_setWcore, if_neg (by omega)]

theorem tickCore_takes (h : d.TakesTicks c) : ((tickCore g c d).wcore c).inbox = (d.wcore c).inbox ++ [.tick g] := by
  obtain ⟨-, ha, hs, hrun⟩ := h
  have hq : tickCore g c d = d.enqueue c (.tick g) := by simp [tickCore, ha, hs, hrun]
  rw [hq, enqueue, wcore_setWcore, if_pos rfl]

/-- The counts of the groups' ticks. -/
theorem tickCore_reg (g c : Nat) {k : Nat} (hk : k < 8) (d : Dev) : (tickCore g c d).reg 0x056 (0x060 + 4 * k) =
    d.reg 0x056 (0x060 + 4 * k) := by
  obtain h | h | h | ⟨x, h⟩ := tickCore_cases g c d <;> rw [h]
  · exact reg_setReg_other _ _ _ _ _ _ (by omega) (by omega) (by omega)
  · exact reg_setReg_other _ _ _ _ _ _ (by unfold whorlReg; omega) (by omega) (whorlReg_offset c 0x1C (by omega)).2
  · exact reg_setReg_other _ _ _ _ _ _ (by omega) (by omega) (by omega)
  · rfl

/-- One group's tick at every enabled core (R169). -/
def groupTick (g : Nat) (d : Dev) : Dev := forEach ((List.range 128).filter d.wenabled) (tickCore g) (d.count 0x056 (0x060 + 4 * g))

theorem whorlTicks_eq (d : Dev) (groups : Nat) :
    d.whorlTicks groups = whorlWork (forEach ((List.range 8).filter groups.testBit) groupTick d) := rfl

theorem groupTick_ticked (hg : g < 8) (d : Dev) : Ticked d (groupTick g d) :=
  (ticked_count d (by omega) (by omega)).trans (forEach_rel Ticked.refl (fun _ _ _ => Ticked.trans) (fun k _ => tickCore_ticked g k) _)

theorem groupTick_takes (hg : g < 8) (hc : c < 128) (h : d.TakesTicks c) :
    ((groupTick g d).wcore c).inbox = (d.wcore c).inbox ++ [.tick g] := by
  have hcount := ticked_count d (p := 0x056) (off := 0x060 + 4 * g) (by omega) (by omega)
  obtain ⟨e, ⟨he, hce⟩, -, hend⟩ := forEach_once (R := fun a b => Ticked a b ∧ b.wcore c = a.wcore c)
    (fun d => ⟨.refl d, rfl⟩) (fun _ _ _ h k => ⟨h.1.trans k.1, k.2.trans h.2⟩)
    (List.mem_filter.2 ⟨List.mem_range.2 hc, h.1⟩) (List.nodup_range.filter d.wenabled)
    (f := tickCore g) (fun k _ hne x => ⟨tickCore_ticked g k x, tickCore_wcore_other hne x⟩) (d.count 0x056 (0x060 + 4 * g))
  rw [groupTick, hend, tickCore_takes (he.takes hc (hcount.takes hc h)), hce]
  rfl

theorem groupTick_reg_other {k : Nat} (hk : k < 8) (hg : g < 8) (hne : g ≠ k) (d : Dev) :
    (groupTick g d).reg 0x056 (0x060 + 4 * k) = d.reg 0x056 (0x060 + 4 * k) := by
  refine (forEach_rel (R := fun a b : Dev => b.reg 0x056 (0x060 + 4 * k) = a.reg 0x056 (0x060 + 4 * k)) (fun _ => rfl)
    (fun _ _ _ h k => k.trans h) (fun c _ x => ?_) _).trans (reg_setReg_other _ _ _ _ _ _ (by omega) (by omega) (by omega))
  exact tickCore_reg g c hk x

theorem groupTick_reg (hg : g < 8) (d : Dev) : (groupTick g d).reg 0x056 (0x060 + 4 * g) = satAdd (d.reg 0x056 (0x060 + 4 * g)) 1 := by
  refine (forEach_rel (R := fun a b : Dev => b.reg 0x056 (0x060 + 4 * g) = a.reg 0x056 (0x060 + 4 * g)) (fun _ => rfl)
    (fun _ _ _ h k => k.trans h) (fun c _ x => ?_) _).trans (reg_count_same _ _ _ _)
  exact tickCore_reg g c hg x

/-- The ticks enter the queue in the order of the groups. -/
theorem forEach_groupTick_inbox {l : List Nat} (hl : ∀ g ∈ l, g < 8) (hc : c < 128) (h : d.TakesTicks c) :
    ((forEach l groupTick d).wcore c).inbox = (d.wcore c).inbox ++ l.map WItem.tick := by
  induction l generalizing d with
  | nil => simp [forEach]
  | cons g r ih =>
    have hg : g < 8 := hl g List.mem_cons_self
    have htail := ih (fun k hk => hl k (List.mem_cons_of_mem _ hk)) ((groupTick_ticked hg d).takes hc h)
    rw [groupTick_takes hg hc h] at htail
    simpa [forEach] using htail

/-- Each group of the mask counts one tick. -/
theorem forEach_groupTick_reg (groups : Nat) (hg : g < 8) (d : Dev) :
    (forEach ((List.range 8).filter groups.testBit) groupTick d).reg 0x056 (0x060 + 4 * g) =
      if groups.testBit g then satAdd (d.reg 0x056 (0x060 + 4 * g)) 1 else d.reg 0x056 (0x060 + 4 * g) := by
  have hother (k : Nat) (hk : k ∈ (List.range 8).filter groups.testBit) (hne : k ≠ g) (x : Dev) :
      (groupTick k x).reg 0x056 (0x060 + 4 * g) = x.reg 0x056 (0x060 + 4 * g) :=
    groupTick_reg_other hg (List.mem_range.1 (List.mem_filter.1 hk).1) hne x
  split
  · next hbit =>
    obtain ⟨e, he, hend⟩ := forEach_once (R := fun a b : Dev => b.reg 0x056 (0x060 + 4 * g) = a.reg 0x056 (0x060 + 4 * g)) (fun _ => rfl)
      (fun _ _ _ h k => k.trans h) (List.mem_filter.2 ⟨List.mem_range.2 hg, hbit⟩) (List.nodup_range.filter _) hother d
    rw [hend, groupTick_reg hg, he]
  · next hbit =>
    refine forEach_rel (R := fun a b : Dev => b.reg 0x056 (0x060 + 4 * g) = a.reg 0x056 (0x060 + 4 * g)) (fun _ => rfl)
      (fun _ _ _ h k => k.trans h) (fun k hk => hother k hk ?_) d
    rintro rfl
    exact hbit (List.mem_filter.1 hk).2

theorem whorlTicks_stands (groups : Nat) (hrun : d.running 0x050 = true) :
    (d.whorlTicks groups).wcores = (forEach ((List.range 8).filter groups.testBit) groupTick d).wcores ∧
    ∀ off < 4096, (d.whorlTicks groups).reg 0x056 off = (forEach ((List.range 8).filter groups.testBit) groupTick d).reg 0x056 off := by
  have hticked : Ticked d (forEach ((List.range 8).filter groups.testBit) groupTick d) :=
    forEach_rel Ticked.refl (fun _ _ _ => Ticked.trans) (fun k hk => groupTick_ticked (List.mem_range.1 (List.mem_filter.1 hk).1)) d
  have hstate := pageState_of_reg (hticked.2 0x050 0x010 (by omega) (by omega) (by omega))
  rw [whorlTicks_eq]
  obtain ⟨hcores, -, hregs⟩ := whorlWork_stands (.inl (running_of_same hstate hrun))
  exact ⟨hcores, fun off ho => hregs 0x056 off ho (.inl (by omega))⟩

/-! ## The service of a tick (R165) -/

theorem serveTick_serves {rest : List WItem} (hin : (d.wcore c).inbox = .tick g :: rest) (hs : d.wserves c = true) :
    d.serveTick c = whorlWork (forEach (List.range 256) (leak c g) (d.setWcore c { d.wcore c with inbox := rest })) := by
  unfold serveTick
  rw [hin]
  exact if_pos hs

theorem serveTick_waits (h : (∀ g rest, (d.wcore c).inbox ≠ .tick g :: rest) ∨ d.wserves c = false) : d.serveTick c = d := by
  unfold serveTick
  split
  · next g rest hin =>
    have hoff : d.wserves c = false := h.resolve_left fun hne => hne g rest hin
    exact if_neg (by simp [hoff])
  · rfl

/-- While page 0x050 runs, the tick leaves the queue. -/
theorem serveTick_inbox {rest : List WItem} (hin : (d.wcore c).inbox = .tick g :: rest) (hs : d.wserves c = true)
    (hrun : d.running 0x050 = true) : ((d.serveTick c).wcore c).inbox = rest := by
  have hfires : Fires c (d.setWcore c { d.wcore c with inbox := rest })
      (forEach (List.range 256) (leak c g) (d.setWcore c { d.wcore c with inbox := rest })) :=
    (Fires.refl _).forEach _ fun n _ x => (Fires.refl x).leak _ n
  obtain ⟨hcores, -, -⟩ := whorlWork_stands (.inl (running_of_same hfires.pageState hrun))
  rw [serveTick_serves hin hs, wcore_of_wcores (hcores.trans hfires.1), wcore_setWcore, if_pos rfl]

/-- Neuron `n` meets the tick as it stood before, and stands after it as the tick left it. -/
theorem serveTick_neuron {n : Nat} {rest : List WItem} (hn : n < 256) (hin : (d.wcore c).inbox = .tick g :: rest)
    (hs : d.wserves c = true) : ∃ e : Dev, (e.ncfg c n = d.ncfg c n ∧ e.nstate c n = d.nstate c n) ∧
      (d.serveTick c).nstate c n = (leak c g n e).nstate c n := by
  obtain ⟨e, he, hend⟩ := forEach_neuron (fun m y => leak_moves y c g m) hn (d.setWcore c { d.wcore c with inbox := rest })
  refine ⟨e, ⟨he.ncfg hn, he.nstate hn⟩, ?_⟩
  rw [serveTick_serves hin hs, nstate_of_mem (whorlWork_mem _), hend.nstate hn]

/-! ## The quiet time of a limiter (R175) -/

theorem stormQuiet_opens {k : Nat} (hm : d.stormMasked k = true) (ht : (d.storm k).last + 100000 ≤ d.now) :
    (d.stormQuiet k).stormMasked k = false ∧ ((d.stormQuiet k).storm k).passed = [] := by
  have hq : d.stormQuiet k = (d.setFlag 0x058 (0x04C + 16 * k) 31 false).setStorm k { d.storm k with passed := [] } := by
    simp [stormQuiet, hm, ht]
  rw [hq]
  refine ⟨flag_setFlag_same d 0x058 (0x04C + 16 * k) 31 false (by omega), ?_⟩
  unfold storm setStorm
  rw [Sparse.get_put_same]

theorem stormQuiet_waits {k : Nat} (h : d.stormMasked k = false ∨ d.now < (d.storm k).last + 100000) : d.stormQuiet k = d := by
  refine if_neg ?_
  rw [Bool.and_eq_true, decide_eq_true_eq]
  rintro ⟨hm, ht⟩
  obtain h | h := h
  · simp [hm] at h
  · omega

end Dev

/-- Settles O24, by the delivery of each group's tick to one core, and by neuron n's own part of the tick that the core serves. -/
theorem whorlTicks : Obligations.WhorlTicks := by
  unfold Obligations.WhorlTicks
  refine ⟨?_, ?_, ?_, ?_⟩
  · intro s ag groups hr hrun
    obtain ⟨hcores, hregs⟩ := Dev.whorlTicks_stands groups.toNat hrun
    rw [exec_swTick, onDev_of_powered hr.1]
    refine ⟨_, rfl, fun g => ?_, fun c hen ha hs => ?_⟩
    all_goals
      dsimp only
      rw [anyWrite_of_reaches hr]
    · rw [hregs _ (by omega), Dev.forEach_groupTick_reg _ g.isLt, BitVec.testBit_toNat]
    · rw [Dev.wcore_of_wcores hcores]
      exact Dev.forEach_groupTick_inbox (fun k hk => List.mem_range.1 (List.mem_filter.1 hk).1) c.isLt ⟨hen, ha, hs, hrun⟩
  · intro s c g rest n hpow hin hs f o v
    rw [exec_whorlTick, onDev_of_powered hpow]
    obtain ⟨e, ⟨hf, ho⟩, hst⟩ := Dev.serveTick_neuron (c := c.val) n.isLt hin hs
    have hv : e.leaked c.val n.val = v := by rw [Dev.leaked, hf, ho]
    refine ⟨_, rfl, fun hrun => Dev.serveTick_inbox hin hs hrun, fun hne => ?_, fun heq hq => ?_⟩
    · dsimp only
      rw [hst, Dev.leak_skips (by rwa [hf]), ho]
    · dsimp only
      rw [hst]
      have h := Dev.leak_quiet (d := e) (c := c.val) (n := n.val) (g := g) (by rwa [hf]) (by rwa [ho, hf, hv])
      rwa [ho, hv] at h
  · intro s c _ h
    rw [exec_whorlTick]
    exact onDev_of_fixed (Dev.serveTick_waits h)
  · intro s k hpow
    rw [exec_stormQuietExpiry]
    refine ⟨fun hm ht => ?_, fun h => onDev_of_fixed (Dev.stormQuiet_waits h)⟩
    rw [onDev_of_powered hpow]
    exact ⟨_, rfl, Dev.stormQuiet_opens hm ht⟩

end Sys2Proof.Machine
end
section
/-!
Windows and enables of Whorl cores (R177): CSTAT.STATE and CCFG.EN under the commands that write them.
-/
namespace Sys2Proof.Machine

theorem exec_winOpen (s : State) (ag : Agent) (c : Fin 128) :
    exec (.winOpen ag c) s = onDev (Dev.rwlWrite ag (whorlReg c.val 0).1 fun d => d.winOpen c.val) s := rfl

theorem exec_winClose (s : State) (ag : Agent) (c : Fin 128) :
    exec (.winClose ag c) s = onDev (Dev.rwlWrite ag (whorlReg c.val 0).1 fun d => d.winClose c.val) s := rfl

theorem exec_winTimeout (s : State) (c : Fin 128) : exec (.winTimeout c) s = onDev (fun d =>
    if d.wstate c.val = 2 && (d.wcore c.val).opened + d.winTmo ≤ d.now then (d.winClose c.val).err 0x050 2 else d) s := rfl

theorem exec_coreEnable (s : State) (ag : Agent) (c : Fin 128) : exec (.coreEnable ag c) s = onDev (Dev.rwlWrite ag (whorlReg c.val 0).1
    fun d => d.writeCcfg c.val (d.reg (whorlReg c.val 0).1 (whorlReg c.val 0).2 ||| 1)) s := rfl

theorem exec_coreDisable (s : State) (ag : Agent) (c : Fin 128) : exec (.coreDisable ag c) s = onDev (Dev.rwlWrite ag (whorlReg c.val 0).1
    fun d => d.writeCcfg c.val (d.reg (whorlReg c.val 0).1 (whorlReg c.val 0).2 &&& 0xFFFFFFFE)) s := rfl

namespace Dev

variable {d e : Dev} {c : Nat}

/-! ## CSTAT.STATE and CCFG.EN -/

theorem wstate_of_reg (h : e.reg (whorlReg c 0x10).1 (whorlReg c 0x10).2 = d.reg (whorlReg c 0x10).1 (whorlReg c 0x10).2) :
    e.wstate c = d.wstate c := by
  unfold wstate wfield field
  rw [h]

theorem wenabled_of_reg (h : e.reg (whorlReg c 0).1 (whorlReg c 0).2 = d.reg (whorlReg c 0).1 (whorlReg c 0).2) :
    e.wenabled c = d.wenabled c := by
  unfold wenabled wfield field
  rw [h]

theorem wstate_setWstate (d : Dev) (c : Nat) {v : Nat} (hv : v < 4) : (d.setWstate c v).wstate c = v :=
  (field_setField_same d _ _ 9 8 v (by omega)).trans (Nat.mod_eq_of_lt hv)

theorem setWstate_reg (d : Dev) (c v : Nat) {o : Nat} (ho : o < 0x40) (hne : o ≠ 0x10) :
    (d.setWstate c v).reg (whorlReg c o).1 (whorlReg c o).2 = d.reg (whorlReg c o).1 (whorlReg c o).2 :=
  reg_setReg_other _ _ _ _ _ _ (by unfold whorlReg; omega) (whorlReg_offset c o ho).2 (whorlReg_offset c 0x10 (by omega)).2

/-- A register of a core is none of those that an error of page 0x050 moves. -/
theorem wreg_err (d : Dev) (b : Nat) (hc : c < 128) {o : Nat} (ho : o < 0x40) :
    (d.err 0x050 b).reg (whorlReg c o).1 (whorlReg c o).2 = d.reg (whorlReg c o).1 (whorlReg c o).2 := by
  refine err_onlyRegs d 0x050 b _ _ (whorlReg_offset c o ho).2 ?_
  simp only [errRegs, eventRegs, whorlReg, List.mem_append, List.mem_cons, Prod.ext_iff, List.not_mem_nil, or_false]
  omega

/-- A core's register is not the count of abandoned entries. -/
theorem wreg_settle (d : Dev) (r c : Nat) {o : Nat} (ho : o < 0x40) :
    (d.settle r).reg (whorlReg c o).1 (whorlReg c o).2 = d.reg (whorlReg c o).1 (whorlReg c o).2 := by
  refine settle_onlyRegs d r _ _ (whorlReg_offset c o ho).2 ?_
  simp only [whorlReg, List.mem_cons, Prod.ext_iff, List.not_mem_nil, or_false]
  omega

/-! ## Windows -/

theorem winOpen_opens (h : d.wstate c = 1) : (d.winOpen c).wstate c = 2 ∧ ((d.winOpen c).wcore c).held = [] ∧
    ((d.winOpen c).wcore c).opened = d.now ∧ ((d.winOpen c).wcore c).inbox = (d.wcore c).inbox := by
  rw [winOpen, if_pos h, wcore_setWcore, if_pos rfl]
  exact ⟨wstate_setWstate d c (by omega), rfl, rfl, rfl⟩

theorem winClose_closes (h : d.wstate c = 2) : (d.winClose c).wstate c = 1 ∧ ((d.winClose c).wcore c).inbox = (d.wcore c).inbox := by
  rw [winClose, if_pos h, wcore_setWcore, if_pos rfl]
  exact ⟨wstate_setWstate d c (by omega), rfl⟩

/-! ## Enables -/

/-- A page that resets its counters leaves a register or takes it back to its reset value. -/
theorem reg_resetRegs_cases (d : Dev) (p : Nat) (kept : PageKind → Nat → Bool) (q o : Nat) :
    (d.resetRegs p kept).reg q o = d.reg q o ∨ (d.resetRegs p kept).reg q o = regDefault d.pkg (q * 4096 + o) := by
  generalize hk : (fun k => k / 4096 == p && decide (0x040 ≤ k % 4096) && readOnly p (k % 4096) && !kept (pageKind p) (k % 4096)) = picks
  have heq : (d.resetRegs p kept).reg q o = Sparse.get (regDefault d.pkg) (Sparse.forget d.regs picks) (q * 4096 + o) := by rw [← hk]; rfl
  rw [heq]
  cases hp : picks (q * 4096 + o) with
  | true => exact .inr (Sparse.get_forget_of_picked _ _ _ _ hp)
  | false => exact .inl (Sparse.get_forget_of_not_picked _ _ _ _ hp)

/-- From `d` to `e` every register but page 0x050's state stands or is back at its reset value, and core `c`'s queue stands or is empty. -/
def Winds (c : Nat) (d e : Dev) : Prop :=
  e.pkg = d.pkg ∧ (e.wcore c = d.wcore c ∨ e.wcore c = {}) ∧ ∀ p off, off < 4096 → (p ≠ 0x050 ∨ off ≠ 0x010) →
    e.reg p off = d.reg p off ∨ e.reg p off = regDefault d.pkg (p * 4096 + off)

theorem Winds.refl (d : Dev) : Winds c d d := ⟨rfl, .inl rfl, fun _ _ _ _ => .inl rfl⟩

theorem Winds.trans {f : Dev} (h : Winds c d e) (k : Winds c e f) : Winds c d f := by
  obtain ⟨hpkg, hcore, hregs⟩ := h
  obtain ⟨kpkg, kcore, kregs⟩ := k
  refine ⟨kpkg.trans hpkg, ?_, fun p off ho hp => ?_⟩
  · obtain h | h := kcore
    · rwa [h]
    · exact .inr h
  · obtain h | h := kregs p off ho hp
    · rw [h]
      exact hregs p off ho hp
    · rw [h, hpkg]
      exact .inr rfl

theorem winds_setPageState (d : Dev) (v : Nat) : Winds c d (d.setPageState 0x050 v) :=
  ⟨rfl, .inl rfl, fun _ _ ho hp => .inl (reg_setReg_other _ _ _ _ _ _ hp ho (by omega))⟩

theorem winds_resetCounters (d : Dev) (p : Nat) : Winds c d (d.resetCounters p) :=
  ⟨rfl, .inl rfl, fun q o _ _ => reg_resetRegs_cases d p _ q o⟩

theorem winds_whorlWork (d : Dev) : Winds c d d.whorlWork := by
  have hended (x : Dev) : Winds c x x.whorlEnded := by
    have hempty : Winds c x { x with wcores := [], mesh := [], storms := [] } := ⟨rfl, .inr rfl, fun _ _ _ _ => .inl rfl⟩
    exact hempty.trans (forEach_rel Winds.refl (fun _ _ _ => Winds.trans) (fun p _ y => winds_resetCounters y p) _)
  unfold whorlWork work
  split_ifs
  · exact winds_setPageState _ _
  · exact .refl _
  · exact .refl _
  · exact winds_setPageState _ _
  · exact .refl _
  · exact ((winds_resetCounters d 0x050).trans (winds_setPageState _ 4)).trans (hended _)
  · exact .refl _

/-- After reset a core is OFF and not enabled. -/
theorem whorlReg_default (pkg : Package) (c : Fin 128) :
    bits (regDefault pkg ((whorlReg c.val 0x10).1 * 4096 + (whorlReg c.val 0x10).2)) 9 8 = 0 ∧
    bits (regDefault pkg ((whorlReg c.val 0).1 * 4096 + (whorlReg c.val 0).2)) 0 0 = 0 := by
  revert c
  cases pkg <;> decide +kernel

theorem Winds.wstate (h : Winds c d e) (hc : c < 128) (hs : d.wstate c = 0) : e.wstate c = 0 := by
  obtain hr | hr := h.2.2 (whorlReg c 0x10).1 (whorlReg c 0x10).2 (whorlReg_offset c 0x10 (by omega)).2 (by unfold whorlReg; omega)
  · rw [wstate_of_reg hr, hs]
  · unfold Dev.wstate wfield field
    rw [hr]
    exact (whorlReg_default d.pkg ⟨c, hc⟩).1

theorem Winds.wenabled (h : Winds c d e) (hc : c < 128) (hs : d.wenabled c = false) : e.wenabled c = false := by
  obtain hr | hr := h.2.2 (whorlReg c 0).1 (whorlReg c 0).2 (whorlReg_offset c 0 (by omega)).2 (by unfold whorlReg; omega)
  · rw [wenabled_of_reg hr, hs]
  · unfold Dev.wenabled wfield field
    rw [hr, (whorlReg_default d.pkg ⟨c, hc⟩).2]
    rfl

/-- CCFG with EN as a write of `v` leaves it, before the core follows it. -/
def setCcfg (d : Dev) (c : Nat) (v : Word) : Dev := d.setReg (whorlReg c 0).1 (whorlReg c 0).2 (v &&& 0x1FFF1)

theorem writeCcfg_eq (d : Dev) (c : Nat) (v : Word) :
    d.writeCcfg c v = (if bit v 0 then (d.setCcfg c v).coreOn c else (d.setCcfg c v).coreOff c).settle (whorlRegion c) := rfl

theorem setCcfg_wstate (d : Dev) (c : Nat) (v : Word) : (d.setCcfg c v).wstate c = d.wstate c :=
  wstate_of_reg (reg_setReg_other _ _ _ _ _ _ (by unfold whorlReg; omega) (whorlReg_offset c 0x10 (by omega)).2
    (whorlReg_offset c 0 (by omega)).2)

theorem setCcfg_running (d : Dev) (c : Nat) (v : Word) : (d.setCcfg c v).running 0x050 = d.running 0x050 := by
  have hstate : (d.setCcfg c v).pageState 0x050 = d.pageState 0x050 :=
    pageState_of_reg (reg_setReg_other _ _ _ _ _ _ (by unfold whorlReg; omega) (by omega) (whorlReg_offset c 0 (by omega)).2)
  unfold running
  rw [hstate]

theorem setCcfg_wenabled (d : Dev) (c : Nat) (v : Word) : (d.setCcfg c v).wenabled c = bit v 0 := by
  unfold wenabled wfield field setCcfg
  rw [reg_setReg_same, bits_bit, bit_and]
  cases bit v 0 <;> rfl

/-- EN = 1 runs an OFF core while page 0x050 runs (R177). -/
theorem writeCcfg_on {v : Word} (h : bit v 0 = true) : (d.writeCcfg c v).wenabled c = true ∧
    (d.writeCcfg c v).wstate c = if d.wstate c = 0 && d.running 0x050 then 1 else d.wstate c := by
  rw [writeCcfg_eq, if_pos h, wenabled_of_reg (wreg_settle _ _ c (by omega)), wstate_of_reg (wreg_settle _ _ c (by omega)), coreOn,
    setCcfg_wstate, setCcfg_running]
  have hen := setCcfg_wenabled d c v
  rw [h] at hen
  split
  · exact ⟨(wenabled_of_reg (setWstate_reg _ _ _ (by omega) (by omega))).trans hen, wstate_setWstate _ _ (by omega)⟩
  · exact ⟨hen, setCcfg_wstate d c v⟩

/-- A core turned off, its queue counted and empty. -/
def turnedOff (d : Dev) (c : Nat) : Dev := ((d.wcount c 0x1C (d.wdepth c)).setWcore c {}).setWstate c 0

theorem turnedOff_wenabled (d : Dev) (c : Nat) : (d.turnedOff c).wenabled c = d.wenabled c := by
  have hcount : (d.wcount c 0x1C (d.wdepth c)).reg (whorlReg c 0).1 (whorlReg c 0).2 = d.reg (whorlReg c 0).1 (whorlReg c 0).2 :=
    reg_setReg_other _ _ _ _ _ _ (by unfold whorlReg; omega) (whorlReg_offset c 0 (by omega)).2 (whorlReg_offset c 0x1C (by omega)).2
  exact wenabled_of_reg ((setWstate_reg _ _ _ (by omega) (by omega)).trans hcount)

theorem turnedOff_wcore (d : Dev) (c : Nat) : (d.turnedOff c).wcore c = {} := by
  have h : (d.turnedOff c).wcore c = ((d.wcount c 0x1C (d.wdepth c)).setWcore c {}).wcore c := wcore_of_wcores rfl c
  rw [h, wcore_setWcore, if_pos rfl]

theorem coreOff_eq (h : d.wstate c ≠ 0) : d.coreOff c = whorlWork (d.turnedOff c) := if_neg h

/-- EN = 0 turns a core off and discards its queue (R177). -/
theorem writeCcfg_off {v : Word} (hc : c < 128) (h : bit v 0 = false) : (d.writeCcfg c v).wstate c = 0 ∧
    (d.writeCcfg c v).wenabled c = false ∧ (d.wstate c ≠ 0 → ((d.writeCcfg c v).wcore c).inbox = []) := by
  have hen := setCcfg_wenabled d c v
  rw [h] at hen
  rw [writeCcfg_eq, if_neg (by simp [h]), wenabled_of_reg (wreg_settle _ _ c (by omega)), wstate_of_reg (wreg_settle _ _ c (by omega)),
    wcore_of_wcores (settle_signals _ _).wcores]
  by_cases hs : d.wstate c = 0
  · have hsame : (d.setCcfg c v).coreOff c = d.setCcfg c v := if_pos ((setCcfg_wstate d c v).trans hs)
    rw [hsame]
    exact ⟨(setCcfg_wstate d c v).trans hs, hen, fun hne => absurd hs hne⟩
  · rw [coreOff_eq (by rwa [setCcfg_wstate])]
    have hwinds := winds_whorlWork (c := c) ((d.setCcfg c v).turnedOff c)
    refine ⟨hwinds.wstate hc (wstate_setWstate _ _ (by omega)), hwinds.wenabled hc ((turnedOff_wenabled _ _).trans hen), fun _ => ?_⟩
    obtain h | h := hwinds.2.1
    · rw [h, turnedOff_wcore]
    · rw [h]

end Dev
end Sys2Proof.Machine
end
section
/-!
Writes into the stores of Whorl cores (R163, R164, R166, R176): line by line where the bytes are plain, and one neuron's NCFG or NSTATE.
-/
namespace Sys2Proof.Machine

theorem exec_whorlStoreWrite (s : State) (who : MemAgent) (c : Fin 128) (off : Fin 262144) (data : List Byte) :
    exec (.whorlStoreWrite who c off data) s = onDev (fun d => d.whorlStore (whorlBase c.val + off.val) data) s := rfl

namespace Dev

variable {d e : Dev} {c n o : Nat} {data : List Byte}

/-! ## One line's part of a write -/

theorem whorlOpen_iff (d : Dev) (c : Nat) : d.whorlOpen c = true ↔ d.wstate c ≠ 1 := bne_iff_ne

/-- The bytes of a write at offset `o` of a core that its store takes (R163, R164). -/
def takenBytes (o : Nat) (data : List Byte) : List Byte :=
  (data.take (0x22000 - min 0x22000 o)).zipIdx.map fun e => e.1 &&& whorlMask (o + e.2)

/-- The neurons of which a write at offset `o` touches the 8 bytes of the table at `lo`. -/
def touchedNeurons (o len lo : Nat) : List Nat :=
  (List.range 256).filter fun n => decide (o < lo + 8 * n + 8) && decide (lo + 8 * n < o + len)

theorem whorlPart_eq (d : Dev) (hc : c < 128) (ho : o < 0x40000) (data : List Byte) : d.whorlPart (whorlBase c + o, data) =
    if (takenBytes o data).isEmpty then d
    else if d.whorlOpen c then
      forEach (touchedNeurons o (takenBytes o data).length 0x20000) (fun n d => d.syncTh c n true)
        (forEach (touchedNeurons o (takenBytes o data).length 0x20800) (fun n d => d.syncTh c n false)
          (d.setBytes (whorlBase c + o) (takenBytes o data)))
    else (d.setField 0x050 0x04C 6 0 c).err 0x050 1 := by
  have hcore : (whorlBase c + o - 0x10000000000) / 0x40000 = c := by unfold whorlBase; omega
  have hoff : (whorlBase c + o - 0x10000000000) % 0x40000 = o := by unfold whorlBase; omega
  unfold whorlPart
  simp only [hcore, hoff]
  rfl

theorem length_takenBytes (h : o + data.length ≤ 0x22000) : (takenBytes o data).length = data.length := by
  simp [takenBytes]
  omega

/-- Bytes outside the words of the neurons are taken as they are. -/
theorem takenBytes_plain (h : o + data.length ≤ 0x20000 ∨ 0x21000 ≤ o ∧ o + data.length ≤ 0x22000) :
    takenBytes o data = data := by
  refine List.ext_getElem (length_takenBytes (by omega)) fun i hi hi' => ?_
  have hmask : whorlMask (o + i) = 0xFF := by
    unfold whorlMask
    simp only [Bool.and_eq_true, decide_eq_true_eq]
    rw [if_neg (by omega), if_neg (by omega)]
  have hones : data[i] &&& (0xFF : Byte) = data[i] := BitVec.and_allOnes
  simpa [takenBytes, hmask] using hones

theorem touchedNeurons_nil {len lo : Nat} (h : o + len ≤ lo ∨ lo + 0x800 ≤ o) : touchedNeurons o len lo = [] := by
  refine List.filter_eq_nil_iff.2 fun n hn => ?_
  have hlt := List.mem_range.1 hn
  simp only [Bool.and_eq_true, decide_eq_true_eq]
  omega

theorem touchedNeurons_one {lo : Nat} (hn : n < 256) : touchedNeurons (lo + 8 * n) 8 lo = [n] := by
  have hpick : touchedNeurons (lo + 8 * n) 8 lo = (List.range 256).filter (· == n) := by
    refine List.filter_congr fun m _ => ?_
    rw [Bool.eq_iff_iff]
    simp only [Bool.and_eq_true, decide_eq_true_eq, beq_iff_eq]
    omega
  rw [hpick, List.filter_beq, List.count_eq_one_of_mem List.nodup_range (List.mem_range.2 hn)]
  rfl

/-! ## The lines of a write -/

/-- A line part starts inside the write and holds bytes. -/
theorem splitLines_mem {k : Nat} : ∀ {a : Nat} {data : List Byte} {l : Nat × List Byte}, l ∈ splitLines k a data →
    a ≤ l.1 ∧ l.1 < a + data.length ∧ l.2 ≠ [] := by
  induction k with
  | zero => exact fun h => absurd h List.not_mem_nil
  | succ k ih =>
    intro a data l h
    unfold splitLines at h
    dsimp only at h
    by_cases hne : data = []
    · simp [hne] at h
    · have hpos := List.length_pos_of_ne_nil hne
      rw [if_neg (by simpa using hne), List.mem_cons] at h
      obtain rfl | h := h
      · refine ⟨le_rfl, by dsimp only; omega, ?_⟩
        rw [← List.length_pos_iff_ne_nil, List.length_take]
        omega
      · obtain ⟨h1, h2, h3⟩ := ih h
        rw [List.length_drop] at h2
        exact ⟨by omega, by omega, h3⟩

/-- A short write of 8 bytes from a multiple of 8 on lies in one line. -/
theorem lineParts_word {a : Nat} (ha : a % 8 = 0) (hlen : data.length = 8) : lineParts a data = [(a, data)] := by
  have htake : data.take (64 - a % 64) = data := List.take_of_length_le (by omega)
  have hdrop : data.drop (64 - a % 64) = [] := List.drop_eq_nil_of_le (by omega)
  have hne : data ≠ [] := List.ne_nil_of_length_pos (by omega)
  simp [lineParts, splitLines, htake, hdrop, hne]

/-! ## Writes that neurons do not see -/

theorem whorlOpen_setBytes (d : Dev) (a : Nat) (l : List Byte) (c : Nat) : (d.setBytes a l).whorlOpen c = d.whorlOpen c := by
  rw [setBytes_frame]
  rfl

/-- The synapses and the fan-out of a core that does not run take the bytes of a write (R176). -/
theorem whorlPart_plain (hc : c < 128) (hopen : d.whorlOpen c = true)
    (h : o + data.length ≤ 0x20000 ∨ 0x21000 ≤ o ∧ o + data.length ≤ 0x22000) :
    d.whorlPart (whorlBase c + o, data) = d.setBytes (whorlBase c + o) data := by
  rw [whorlPart_eq d hc (by omega), takenBytes_plain h, if_pos hopen, touchedNeurons_nil (by omega), touchedNeurons_nil (by omega)]
  split
  · next hne => rw [List.isEmpty_iff.1 hne, setBytes_nil]
  · rfl

theorem whorlLines_plain (hc : c < 128) (k : Nat) : ∀ (o : Nat) (data : List Byte) (d : Dev),
    (whorlBase c + o) % 64 + data.length ≤ 64 * k →
    d.whorlOpen c = true → (o + data.length ≤ 0x20000 ∨ 0x21000 ≤ o ∧ o + data.length ≤ 0x22000) →
    (splitLines k (whorlBase c + o) data).foldl whorlPart d = d.setBytes (whorlBase c + o) data := by
  induction k with
  | zero =>
    intro o data d hk _ _
    obtain rfl := List.length_eq_zero_iff.1 (show data.length = 0 by omega)
    rfl
  | succ k ih =>
    intro o data d hk hopen h
    by_cases hne : data = []
    · subst hne
      rfl
    · have hpos := List.length_pos_of_ne_nil hne
      generalize hroom : 64 - (whorlBase c + o) % 64 = room
      have hfirst : d.whorlPart (whorlBase c + o, data.take room) = d.setBytes (whorlBase c + o) (data.take room) :=
        whorlPart_plain hc hopen (by rw [List.length_take]; omega)
      simp only [splitLines, hroom, List.isEmpty_iff, hne, if_false, List.foldl_cons, hfirst]
      rcases Nat.le_total room data.length with hle | hle
      · have hrest := ih (o + room) (data.drop room) (d.setBytes (whorlBase c + o) (data.take room)) (by rw [List.length_drop]; omega)
          ((whorlOpen_setBytes _ _ _ _).trans hopen) (by rw [List.length_drop]; omega)
        have happ := setBytes_append d (whorlBase c + o) (data.take room) (data.drop room)
        rw [List.take_append_drop, List.length_take, Nat.min_eq_left hle] at happ
        rw [happ, Nat.add_assoc (whorlBase c) o room]
        exact hrest
      · rw [List.drop_eq_nil_of_le hle, List.take_of_length_le hle]
        cases k <;> rfl

theorem whorlStore_plain (hc : c < 128) (hs : d.wstate c ≠ 1)
    (h : o + data.length ≤ 0x20000 ∨ 0x21000 ≤ o ∧ o + data.length ≤ 0x22000) :
    d.whorlStore (whorlBase c + o) data = d.setBytes (whorlBase c + o) data :=
  whorlLines_plain hc _ o data d (by omega) ((whorlOpen_iff d c).2 hs) h

/-! ## Writes of one neuron's words (R164, R166) -/

theorem whorlMask_ncfg (hn : n < 256) {i : Nat} (hi : i < 8) :
    whorlMask (0x20000 + 8 * n + i) = if i = 7 then 0 else if i = 6 then 3 else 0xFF := by
  have hmod : (0x20000 + 8 * n + i) % 8 = i := by omega
  unfold whorlMask
  rw [hmod, if_pos]
  simp only [Bool.and_eq_true, decide_eq_true_eq]
  omega

theorem whorlMask_nstate (hn : n < 256) {i : Nat} (hi : i < 8) :
    whorlMask (0x20800 + 8 * n + i) = if i = 6 ∨ i = 7 then 0 else 0xFF := by
  have hmod : (0x20800 + 8 * n + i) % 8 = i := by omega
  unfold whorlMask
  rw [hmod, if_neg, if_pos]
  · simp
  all_goals
    simp only [Bool.and_eq_true, decide_eq_true_eq]
    omega

theorem byte_and_ones (b : Byte) : b &&& 255#8 = b := BitVec.and_allOnes

/-- The bytes of NCFG that hold something are its bits 49 to 0. -/
theorem ofBytesLE_takenBytes_ncfg (hn : n < 256) (hlen : data.length = 8) :
    ofBytesLE (takenBytes (0x20000 + 8 * n) data) = ofBytesLE data % 2 ^ 50 := by
  match data, hlen with
  | [b0, b1, b2, b3, b4, b5, b6, b7], _ =>
    have htake : 8 ≤ 0x22000 - min 0x22000 (0x20000 + 8 * n) := by omega
    have h0 : whorlMask (0x20000 + 8 * n) = 0xFF := whorlMask_ncfg (i := 0) hn (by omega)
    have htaken : takenBytes (0x20000 + 8 * n) [b0, b1, b2, b3, b4, b5, b6, b7] = [b0, b1, b2, b3, b4, b5] ++ [b6 &&& 3, 0] := by
      rw [takenBytes, List.take_of_length_le htake]
      simp [h0, whorlMask_ncfg hn, List.zipIdx, byte_and_ones]
    have hhigh : ofBytesLE [b6 &&& 3, 0] = b6.toNat % 4 := by
      simpa [ofBytesLE] using Nat.and_two_pow_sub_one_eq_mod b6.toNat 2
    have hlow := ofBytesLE_lt [b0, b1, b2, b3, b4, b5]
    have hall := ofBytesLE_append [b0, b1, b2, b3, b4, b5] [b6, b7]
    have hsix : 256 ^ [b0, b1, b2, b3, b4, b5].length = 2 ^ 48 := by norm_num
    have hpair : ofBytesLE [b6, b7] = b6.toNat + 256 * b7.toNat := by simp [ofBytesLE]
    rw [htaken, ofBytesLE_append, hhigh]
    rw [hsix] at hlow hall ⊢
    rw [hpair] at hall
    refine Eq.trans ?_ (congrArg (· % 2 ^ 50) hall.symm)
    omega

/-- The bytes of NSTATE that hold something are its bits 47 to 0. -/
theorem ofBytesLE_takenBytes_nstate (hn : n < 256) (hlen : data.length = 8) :
    ofBytesLE (takenBytes (0x20800 + 8 * n) data) = ofBytesLE data % 2 ^ 48 := by
  match data, hlen with
  | [b0, b1, b2, b3, b4, b5, b6, b7], _ =>
    have htake : 8 ≤ 0x22000 - min 0x22000 (0x20800 + 8 * n) := by omega
    have h0 : whorlMask (0x20800 + 8 * n) = 0xFF := whorlMask_nstate (i := 0) hn (by omega)
    have htaken : takenBytes (0x20800 + 8 * n) [b0, b1, b2, b3, b4, b5, b6, b7] = [b0, b1, b2, b3, b4, b5] ++ [0, 0] := by
      rw [takenBytes, List.take_of_length_le htake]
      simp [h0, whorlMask_nstate hn, List.zipIdx, byte_and_ones]
    have hlow := ofBytesLE_lt [b0, b1, b2, b3, b4, b5]
    have hall := ofBytesLE_append [b0, b1, b2, b3, b4, b5] [b6, b7]
    have hsix : 256 ^ [b0, b1, b2, b3, b4, b5].length = 2 ^ 48 := by norm_num
    have hhigh : ofBytesLE [(0 : Byte), 0] = 0 := rfl
    rw [htaken, ofBytesLE_append, hhigh]
    rw [hsix] at hlow hall ⊢
    refine Eq.trans ?_ (congrArg (· % 2 ^ 48) hall.symm)
    omega

/-- The device after a write of one neuron's NCFG or NSTATE, before its TH follows. -/
def storeWord (d : Dev) (c o : Nat) (data : List Byte) : Dev := d.setBytes (whorlBase c + o) (takenBytes o data)

theorem whorlStore_ncfg (hc : c < 128) (hn : n < 256) (hs : d.wstate c ≠ 1) (hlen : data.length = 8) :
    d.whorlStore (whorlBase c + (0x20000 + 8 * n)) data = (d.storeWord c (0x20000 + 8 * n) data).syncTh c n true := by
  have hlen' : (takenBytes (0x20000 + 8 * n) data).length = 8 := (length_takenBytes (by omega)).trans hlen
  have hne : takenBytes (0x20000 + 8 * n) data ≠ [] := List.ne_nil_of_length_pos (by omega)
  rw [whorlStore, lineParts_word (by unfold whorlBase; omega) hlen]
  rw [List.foldl_cons, List.foldl_nil, whorlPart_eq d hc (by omega), if_neg (by simpa using hne), if_pos ((whorlOpen_iff d c).2 hs), hlen',
    touchedNeurons_one hn, touchedNeurons_nil (by omega)]
  rfl

theorem whorlStore_nstate (hc : c < 128) (hn : n < 256) (hs : d.wstate c ≠ 1) (hlen : data.length = 8) :
    d.whorlStore (whorlBase c + (0x20800 + 8 * n)) data = (d.storeWord c (0x20800 + 8 * n) data).syncTh c n false := by
  have hlen' : (takenBytes (0x20800 + 8 * n) data).length = 8 := (length_takenBytes (by omega)).trans hlen
  have hne : takenBytes (0x20800 + 8 * n) data ≠ [] := List.ne_nil_of_length_pos (by omega)
  rw [whorlStore, lineParts_word (by unfold whorlBase; omega) hlen]
  rw [List.foldl_cons, List.foldl_nil, whorlPart_eq d hc (by omega), if_neg (by simpa using hne), if_pos ((whorlOpen_iff d c).2 hs), hlen',
    touchedNeurons_one hn, touchedNeurons_nil (by omega)]
  rfl

/-! ## TH after a write (R166) -/

theorem num_low (d : Dev) (a : Nat) : d.num a 8 % 2 ^ 32 = d.num a 4 := by
  have h := num_add d a 4 4
  have hlt := num_lt d a 4
  norm_num at h hlt
  omega

theorem num_mid (d : Dev) (a : Nat) : slice (d.num a 8) 47 32 = d.num (a + 4) 2 := by
  have h := num_add d a 4 4
  have h' := num_add d (a + 4) 2 2
  have hlt := num_lt d a 4
  have hlt' := num_lt d (a + 4) 2
  norm_num at h h' hlt hlt'
  rw [slice_eq]
  omega

/-- In memory, from `d` to `e` only NCFG and NSTATE of neuron `n` of core `c` have moved. -/
def WordsMove (c n : Nat) (d e : Dev) : Prop :=
  ∀ a, (a < whorlBase c + 0x20000 + 8 * n ∨ whorlBase c + 0x20000 + 8 * n + 8 ≤ a) →
    (a < whorlBase c + 0x20800 + 8 * n ∨ whorlBase c + 0x20800 + 8 * n + 8 ≤ a) → e.byte a = d.byte a

theorem WordsMove.trans {f : Dev} (h : WordsMove c n d e) (k : WordsMove c n e f) : WordsMove c n d f := fun a h1 h2 =>
  (k a h1 h2).trans (h a h1 h2)

theorem WordsMove.others {m : Nat} (h : WordsMove c n d e) (hn : n < 256) (hm : m < 256) (hne : m ≠ n) :
    e.ncfg c m = d.ncfg c m ∧ e.nstate c m = d.nstate c m := by
  have hcfg : e.ncfg c m = d.ncfg c m := ncfg_of_num (num_congr fun i hi => h _ (by omega) (by omega))
  exact ⟨hcfg, nstate_of_num hcfg (num_congr fun i hi => h _ (by omega) (by omega))⟩

/-- TH follows THR_BASE where R166 has it so, and nothing else moves. -/
theorem syncTh_cases (d : Dev) (c n : Nat) (cfg : Bool) : d.syncTh c n cfg =
    if cfg || !(d.ncfg c n).adaptEn then d.setBytes (whorlBase c + 0x20800 + 8 * n + 4) (bytesLE 2 (d.ncfg c n).thrBase) else d := by
  have hlow := num_low d (whorlBase c + 0x20000 + 8 * n)
  have hbit : (d.ncfg c n).adaptEn = (d.num (whorlBase c + 0x20000 + 8 * n) 4).testBit 29 :=
    testBit_of_mod_eq (k := 32) 29 (by omega) (by rw [← hlow, Nat.mod_mod])
  have hbase : (d.ncfg c n).thrBase = max 1 (d.num (whorlBase c + 0x20000 + 8 * n) 4 % 65536) := by
    rw [← hlow, ncfg]
    dsimp only
    rw [slice_eq]
    omega
  rw [hbit, hbase]
  rfl

theorem syncTh_moves (d : Dev) (c n : Nat) (cfg : Bool) : NstateMoves c n d (d.syncTh c n cfg) := by
  rw [syncTh_cases]
  split
  · exact fun a ha => byte_setBytes_other _ _ _ _ (by rw [length_bytesLE]; omega)
  · exact .of_mem rfl

/-- The low half of NSTATE, V and REF, is left. -/
theorem syncTh_num_low (d : Dev) (c n : Nat) (cfg : Bool) :
    (d.syncTh c n cfg).num (whorlBase c + 0x20800 + 8 * n) 4 = d.num (whorlBase c + 0x20800 + 8 * n) 4 := by
  rw [syncTh_cases]
  split
  · exact num_setBytes_other (.inl (by omega))
  · rfl

theorem nstate_th_num (d : Dev) (c n : Nat) : (d.nstate c n).th =
    if (d.ncfg c n).adaptEn then max 1 (d.num (whorlBase c + 0x20800 + 8 * n + 4) 2) else (d.ncfg c n).thrBase := by
  rw [nstate_th, num_mid]

/-- After TH followed a write of NCFG it is THR_BASE. -/
theorem syncTh_th (d : Dev) (c n : Nat) : ((d.syncTh c n true).nstate c n).th = ((d.syncTh c n true).ncfg c n).thrBase := by
  have hbase := thrBase_range d c n
  have hnum : (d.syncTh c n true).num (whorlBase c + 0x20800 + 8 * n + 4) 2 = (d.ncfg c n).thrBase := by
    rw [syncTh_cases, Bool.true_or, if_pos rfl, num_setBytes (length_bytesLE _ _), ofBytesLE_bytesLE]
    omega
  rw [nstate_th_num, hnum, (syncTh_moves d c n true).ncfg]
  split
  · omega
  · rfl

/-- What a write of one neuron's NCFG stores (R164, R166). -/
theorem whorlStore_ncfg_spec (hc : c < 128) (hn : n < 256) (hs : d.wstate c ≠ 1) (hlen : data.length = 8) :
    ∃ e, d.whorlStore (whorlBase c + (0x20000 + 8 * n)) data = e ∧
      e.num (whorlBase c + 0x20000 + 8 * n) 8 = ofBytesLE data % 2 ^ 50 ∧ (e.nstate c n).th = (e.ncfg c n).thrBase ∧
      WordsMove c n d e := by
  have hlen' : (takenBytes (0x20000 + 8 * n) data).length = 8 := (length_takenBytes (by omega)).trans hlen
  have hsync := syncTh_moves (d.storeWord c (0x20000 + 8 * n) data) c n true
  have hstore : WordsMove c n d (d.storeWord c (0x20000 + 8 * n) data) := fun a h _ =>
    byte_setBytes_other _ _ _ _ (by omega)
  refine ⟨_, whorlStore_ncfg hc hn hs hlen, ?_, syncTh_th _ c n, hstore.trans fun a _ h => hsync a h⟩
  rw [num_congr fun i hi => hsync _ (by omega), Nat.add_assoc, storeWord, num_setBytes hlen', ofBytesLE_takenBytes_ncfg hn hlen]

/-- V and REF stand in the low half of NSTATE. -/
theorem nstate_of_low {x : Nat} (h : d.num (whorlBase c + 0x20800 + 8 * n) 4 = x % 2 ^ 32) :
    (d.nstate c n).v = signedOf 24 (slice x 23 0) ∧ (d.nstate c n).ref = slice x 27 24 := by
  have hlow := num_low d (whorlBase c + 0x20800 + 8 * n)
  have hv : slice (d.num (whorlBase c + 0x20800 + 8 * n) 8) 23 0 = slice x 23 0 := by
    rw [slice_eq, slice_eq]
    omega
  have href : slice (d.num (whorlBase c + 0x20800 + 8 * n) 8) 27 24 = slice x 27 24 := by
    rw [slice_eq, slice_eq]
    omega
  exact ⟨(nstate_v d c n).trans (congrArg (signedOf 24) hv), href⟩

/-- What a write of one neuron's NSTATE stores (R164, R166). -/
theorem whorlStore_nstate_spec (hc : c < 128) (hn : n < 256) (hs : d.wstate c ≠ 1) (hlen : data.length = 8) :
    ∃ e, d.whorlStore (whorlBase c + (0x20800 + 8 * n)) data = e ∧
      (e.nstate c n).v = signedOf 24 (slice (ofBytesLE data) 23 0) ∧ (e.nstate c n).ref = slice (ofBytesLE data) 27 24 ∧
      (e.nstate c n).th = (if (d.ncfg c n).adaptEn then max 1 (slice (ofBytesLE data) 47 32) else (d.ncfg c n).thrBase) ∧
      NstateMoves c n d e := by
  have hlen' : (takenBytes (0x20800 + 8 * n) data).length = 8 := (length_takenBytes (by omega)).trans hlen
  have hsync := syncTh_moves (d.storeWord c (0x20800 + 8 * n) data) c n false
  have hstore : NstateMoves c n d (d.storeWord c (0x20800 + 8 * n) data) := fun a _ => byte_setBytes_other _ _ _ _ (by omega)
  have hmoves : NstateMoves c n d ((d.storeWord c (0x20800 + 8 * n) data).syncTh c n false) := hstore.trans hsync
  have hword : (d.storeWord c (0x20800 + 8 * n) data).num (whorlBase c + 0x20800 + 8 * n) 8 = ofBytesLE data % 2 ^ 48 := by
    rw [Nat.add_assoc, storeWord, num_setBytes hlen', ofBytesLE_takenBytes_nstate hn hlen]
  have hlow : ((d.storeWord c (0x20800 + 8 * n) data).syncTh c n false).num (whorlBase c + 0x20800 + 8 * n) 4 =
      ofBytesLE data % 2 ^ 32 := by
    rw [syncTh_num_low, ← num_low, hword]
    omega
  obtain ⟨hv, href⟩ := nstate_of_low hlow
  refine ⟨_, whorlStore_nstate hc hn hs hlen, hv, href, ?_, hmoves⟩
  rw [nstate_th, hmoves.ncfg]
  split
  · next hen =>
    have hsame : (d.storeWord c (0x20800 + 8 * n) data).syncTh c n false = d.storeWord c (0x20800 + 8 * n) data := by
      rw [syncTh_cases, hstore.ncfg, hen]
      rfl
    rw [hsame, hword, slice_eq, slice_eq]
    omega
  · rfl

/-! ## A running core, and offsets above the store (R176) -/

/-- A line part of a write within a core's aperture starts at an offset of the core. -/
theorem lineParts_offset {l : Nat × List Byte} (h : l ∈ lineParts (whorlBase c + o) data) :
    ∃ o', l = (whorlBase c + o', l.2) ∧ o ≤ o' ∧ o' < o + data.length := by
  obtain ⟨h1, h2, -⟩ := splitLines_mem h
  exact ⟨l.1 - whorlBase c, Prod.ext (by dsimp only; omega) rfl, by omega, by omega⟩

/-- Offsets above the store take no byte. -/
theorem whorlStore_above (hc : c < 128) (ho : 0x22000 ≤ o) (hend : o + data.length ≤ 0x40000) :
    d.whorlStore (whorlBase c + o) data = d := by
  have hpart (l : Nat × List Byte) (hl : l ∈ lineParts (whorlBase c + o) data) : d.whorlPart l = d := by
    obtain ⟨o', heq, h1, h2⟩ := lineParts_offset hl
    have hnone : takenBytes o' l.2 = [] := by simp [takenBytes, show 0x22000 ≤ o' by omega]
    rw [heq, whorlPart_eq d hc (by omega), hnone]
    rfl
  unfold whorlStore
  generalize lineParts (whorlBase c + o) data = ls at hpart
  induction ls with
  | nil => rfl
  | cons l r ih =>
    rw [List.foldl_cons, hpart l List.mem_cons_self]
    exact ih fun x hx => hpart x (List.mem_cons_of_mem _ hx)

/-- Memory stands and the core runs on; with `named` the refusal has been recorded (R176). -/
def Refuses (c : Nat) (named : Bool) (d e : Dev) : Prop :=
  e.mem = d.mem ∧ e.wstate c = 1 ∧ (named = true → e.flag 0x050 0x014 1 = true ∧ e.field 0x050 0x04C 6 0 = c)

/-- The refusal of a write of a core that runs. -/
theorem refuses_name (hc : c < 128) (h : Refuses c false d e) : Refuses c true d ((e.setField 0x050 0x04C 6 0 c).err 0x050 1) := by
  obtain ⟨hmem, hs, -⟩ := h
  refine ⟨(err_signals _ _ _).mem.trans hmem, ?_, fun _ => ⟨flag_err _ _ _ (by omega), ?_⟩⟩
  · refine (wstate_of_reg ((wreg_err _ 1 hc (by omega)).trans ?_)).trans hs
    exact reg_setReg_other _ _ _ _ _ _ (by unfold whorlReg; omega) (whorlReg_offset c 0x10 (by omega)).2 (by omega)
  · have hreg : ((e.setField 0x050 0x04C 6 0 c).err 0x050 1).reg 0x050 0x04C = (e.setField 0x050 0x04C 6 0 c).reg 0x050 0x04C :=
      err_onlyRegs _ 0x050 1 _ _ (by omega) (by simp [errRegs, eventRegs])
    unfold field
    rw [hreg]
    exact (field_setField_same e 0x050 0x04C 6 0 c (by omega)).trans (Nat.mod_eq_of_lt hc)

theorem Refuses.part {named : Bool} (hc : c < 128) (ho : o < 0x40000) (h : Refuses c named d e) :
    Refuses c named d (e.whorlPart (whorlBase c + o, data)) := by
  have hclosed : e.whorlOpen c = false := by simpa [h.2.1] using whorlOpen_iff e c
  rw [whorlPart_eq e hc ho, hclosed]
  split
  · exact h
  · obtain ⟨hmem, hs, hn⟩ := refuses_name hc ⟨h.1, h.2.1, fun hf => absurd hf (by decide)⟩
    exact ⟨hmem, hs, fun _ => hn rfl⟩

theorem whorlStore_refuses (hc : c < 128) (hs : d.wstate c = 1) (hne : data ≠ []) (ho : o < 0x22000)
    (hend : o + data.length ≤ 0x40000) :
    Refuses c true d (d.whorlStore (whorlBase c + o) data) := by
  have hoffsets (l : Nat × List Byte) (hl : l ∈ lineParts (whorlBase c + o) data) :
      ∃ o', l = (whorlBase c + o', l.2) ∧ o' < 0x40000 := by
    obtain ⟨o', heq, -, h2⟩ := lineParts_offset hl
    exact ⟨o', heq, by omega⟩
  have hrest (ls : List (Nat × List Byte)) (hls : ∀ l ∈ ls, ∃ o', l = (whorlBase c + o', l.2) ∧ o' < 0x40000) :
      ∀ e, Refuses c true d e → Refuses c true d (ls.foldl whorlPart e) := by
    induction ls with
    | nil => exact fun _ h => h
    | cons l r ih =>
      intro e h
      obtain ⟨o', heq, ho'⟩ := hls l List.mem_cons_self
      rw [List.foldl_cons, heq]
      exact ih (fun x hx => hls x (List.mem_cons_of_mem _ hx)) _ (h.part hc ho')
  obtain ⟨first, rest, hfirst, hparts⟩ : ∃ first rest, first ≠ [] ∧
      lineParts (whorlBase c + o) data = (whorlBase c + o, first) :: rest := by
    have hpos := List.length_pos_of_ne_nil hne
    refine ⟨data.take (64 - (whorlBase c + o) % 64), _, ?_, by rw [lineParts, splitLines, if_neg (by simpa using hne)]⟩
    rw [← List.length_pos_iff_ne_nil, List.length_take]
    omega
  have htaken : (takenBytes o first).isEmpty = false := by
    have hpos := List.length_pos_of_ne_nil hfirst
    rw [List.isEmpty_eq_false_iff, ← List.length_pos_iff_ne_nil]
    simp [takenBytes]
    omega
  have hclosed : d.whorlOpen c = false := by simpa [hs] using whorlOpen_iff d c
  have hname : d.whorlPart (whorlBase c + o, first) = (d.setField 0x050 0x04C 6 0 c).err 0x050 1 := by
    rw [whorlPart_eq d hc (by omega), htaken, hclosed]
    rfl
  rw [hparts] at hoffsets
  rw [whorlStore, hparts, List.foldl_cons, hname]
  exact hrest rest (fun l hl => hoffsets l (List.mem_cons_of_mem _ hl)) _ (refuses_name hc ⟨rfl, hs, fun hf => absurd hf (by decide)⟩)

end Dev

/-- Settles O25, by what each command leaves in CSTAT.STATE and CCFG.EN, and by the line parts of a store write. -/
theorem whorlWindows : Obligations.WhorlWindows := by
  unfold Obligations.WhorlWindows
  refine ⟨?_, ?_, ?_, ?_, ?_, ?_⟩
  · intro s ag c ha
    rw [exec_winOpen, exec_winClose]
    refine ⟨fun h => ?_, fun h => onDev_of_fixed ?_, fun h => ?_, fun h => onDev_of_fixed ?_⟩
    · rw [onDev_of_powered ha.1.1, rwlWrite_of_admits ha]
      exact ⟨_, rfl, Dev.winOpen_opens h⟩
    · rw [rwlWrite_of_admits ha]
      exact if_neg h
    · rw [onDev_of_powered ha.1.1, rwlWrite_of_admits ha]
      exact ⟨_, rfl, Dev.winClose_closes h⟩
    · rw [rwlWrite_of_admits ha]
      exact if_neg h
  · intro s c hpow
    rw [exec_winTimeout]
    refine ⟨fun hs ht => ?_, fun h => onDev_of_fixed (if_neg ?_)⟩
    · rw [onDev_of_powered hpow, if_pos (by simp [hs, ht])]
      exact ⟨_, rfl, (Dev.wstate_of_reg (Dev.wreg_err _ 2 c.isLt (by omega))).trans (Dev.winClose_closes hs).1,
        Dev.flag_err _ _ _ (by omega)⟩
    · rw [Bool.and_eq_true, decide_eq_true_eq, decide_eq_true_eq]
      omega
  · intro s ag c ha
    rw [exec_coreEnable, exec_coreDisable, onDev_of_powered ha.1.1, onDev_of_powered ha.1.1, rwlWrite_of_admits ha, rwlWrite_of_admits ha]
    exact ⟨⟨_, rfl, Dev.writeCcfg_on (by simp [bit])⟩, _, rfl, Dev.writeCcfg_off c.isLt (by simp [bit])⟩
  · intro s who c off data hpow hs h
    rw [exec_whorlStoreWrite, onDev_of_powered hpow, Dev.whorlStore_plain c.isLt hs h]
    exact ⟨_, rfl, Dev.bytes_setBytes _ _ _, fun a ha => Dev.byte_setBytes_other _ _ _ _ ha⟩
  · intro s who c n data hpow hs hlen
    have hcfg : (Fin.ofNat 262144 (0x20000 + 8 * n.val)).val = 0x20000 + 8 * n.val := Nat.mod_eq_of_lt (by omega)
    have hstate : (Fin.ofNat 262144 (0x20800 + 8 * n.val)).val = 0x20800 + 8 * n.val := Nat.mod_eq_of_lt (by omega)
    rw [exec_whorlStoreWrite, exec_whorlStoreWrite, hcfg, hstate, onDev_of_powered hpow, onDev_of_powered hpow]
    constructor
    · obtain ⟨e, heq, hnum, hth, hwords⟩ := Dev.whorlStore_ncfg_spec c.isLt n.isLt hs hlen
      rw [heq]
      exact ⟨_, rfl, hnum, hth, fun m hne => hwords.others n.isLt m.isLt (Fin.val_ne_of_ne hne)⟩
    · obtain ⟨e, heq, hv, href, hth, hmoves⟩ := Dev.whorlStore_nstate_spec c.isLt n.isLt hs hlen
      rw [heq]
      refine ⟨_, rfl, hv, href, hth, fun m => ?_⟩
      by_cases hne : m = n
      · subst hne
        exact ⟨hmoves.ncfg, fun h => absurd rfl h⟩
      · have hstands := hmoves.stands (n := m.val) (Fin.val_ne_of_ne (Ne.symm hne))
        exact ⟨hstands.ncfg m.isLt, fun _ => hstands.nstate m.isLt⟩
  · intro s who c off data hpow hend
    rw [exec_whorlStoreWrite]
    refine ⟨fun hs hne ho => ?_, fun ho => onDev_of_fixed (Dev.whorlStore_above c.isLt ho hend)⟩
    obtain ⟨hmem, -, hnamed⟩ := Dev.whorlStore_refuses c.isLt hs hne ho hend
    rw [onDev_of_powered hpow]
    exact ⟨_, rfl, hmem, hnamed rfl⟩

end Sys2Proof.Machine
end
section
/-!
Regions under the shared operations (R354, R391–R399): what a change of target makes of a region, and what interrupts and errors leave
of it.
-/
namespace Sys2Proof.Machine

/-- An index that does not read as an unlisted one is listed. -/
theorem Sparse.mem_of_get_ne {α : Type} {dflt : Nat → α} {m : Sparse α} {k : Nat} (h : Sparse.get dflt m k ≠ dflt k) :
    (k, Sparse.get dflt m k) ∈ m := by
  induction m with
  | nil => exact absurd rfl h
  | cons x r ih =>
    obtain ⟨j, v⟩ := x
    by_cases hk : k = j
    · simp only [Sparse.get, if_pos hk]
      rw [hk]
      exact List.mem_cons_self
    · simp only [Sparse.get, if_neg hk] at h ⊢
      exact List.mem_cons_of_mem _ (ih h)

/-- A vote for RUN is the shallowest (R393). -/
theorem shallowest_run {l : List Nat} (h : 1 ∈ l) : shallowest l = 1 := by
  have hfold (l : List Nat) (hl : ∀ v ∈ l, v ≠ 0) (a : Nat) (ha : a = 1 ∨ 1 ∈ l) :
      l.foldl (fun a v => if a = 0 then v else min a v) a = 1 := by
    induction l generalizing a with
    | nil => simpa using ha
    | cons v r ih =>
      have hv : v ≠ 0 := hl v List.mem_cons_self
      refine ih (fun w hw => hl w (List.mem_cons_of_mem _ hw)) _ ?_
      dsimp only
      rcases ha with rfl | hm
      · rw [if_neg (by omega)]
        omega
      · obtain rfl | hm := List.mem_cons.1 hm
        · split <;> omega
        · exact .inr hm
  exact hfold _ (fun v hv => by simpa using (List.mem_filter.1 hv).2) 0 (.inr (List.mem_filter.2 ⟨h, by decide⟩))

namespace Dev

variable {d e : Dev} {r n : Nat}

/-! ## A target that changes (R391, R396, R399) -/

/-- The region as its target was noted. -/
def retargeted (d : Dev) (r : Nat) : Region :=
  if (d.region r).lastTarget = d.target r then d.region r
  else { d.region r with lastTarget := d.target r, failed := false, retries := 0, again := false }

theorem retargeted_fields (d : Dev) (r : Nat) : (d.retargeted r).st = (d.region r).st ∧ (d.retargeted r).entry = (d.region r).entry ∧
    (d.retargeted r).holdoff = (d.region r).holdoff ∧ ((d.region r).failed = false → (d.retargeted r).failed = false) := by
  unfold retargeted
  split
  · exact ⟨rfl, rfl, rfl, id⟩
  · exact ⟨rfl, rfl, rfl, fun _ => rfl⟩

/-- `z` is `d` with region `r` set to a region that keeps of `x` its hold-off and its failure, its state where that is off or retired, and
under a target of RUN the absence of an entry; and with nothing else of the regions moved. -/
def SetsRegion (d : Dev) (r : Nat) (x : Region) (z : Dev) : Prop := ∃ (d' : Dev) (y : Region), z = d'.setRegion r y ∧
  d'.regions = d.regions ∧ y.holdoff = x.holdoff ∧ y.failed = x.failed ∧ (x.st = .off ∨ x.st = .retired → y.st = x.st) ∧
  (x.entry = none → d.target r = 1 → y.entry = none)

theorem SetsRegion.of_fields {x y : Region} {d' : Dev} (hd : d'.regions = d.regions) (hh : y.holdoff = x.holdoff)
    (hf : y.failed = x.failed) (hs : x.st = .off ∨ x.st = .retired → y.st = x.st) (he : x.entry = none → d.target r = 1 → y.entry = none) :
    SetsRegion d r x (d'.setRegion r y) := ⟨d', y, rfl, hd, hh, hf, hs, he⟩

theorem SetsRegion.ite {x : Region} (c : Prop) [Decidable c] {a b : Dev} (ha : SetsRegion d r x a) (hb : SetsRegion d r x b) :
    SetsRegion d r x (if c then a else b) := by
  split
  · exact ha
  · exact hb

/-- What a target that changes does to its region. -/
theorem settle_sets (d : Dev) (r : Nat) : SetsRegion d r (d.retargeted r) (d.settle r) := by
  unfold settle
  extract_lets t x0 x start wake d'
  show SetsRegion d r x _
  clear_value x
  have hkeep : SetsRegion d r x (d.setRegion r x) := .of_fields rfl rfl rfl (fun _ => rfl) (fun h _ => h)
  have hwake (hst : x.st = .sleep ∨ x.st = .deep) : SetsRegion d r x (wake x) :=
    .of_fields rfl rfl rfl (fun h => by rcases hst with hst | hst <;> simp [hst] at h) (fun h _ => h)
  have hstart (ht : t = 3 ∨ t = 4) (hst : x.st = .run ∨ x.st = .idle ∨ x.st = .sleep) : SetsRegion d r x (start x) :=
    .of_fields rfl rfl rfl (fun h => by rcases hst with hst | hst | hst <;> simp [hst] at h) (fun _ (h : t = 1) => by omega)
  have hnow (hst : x.st = .run ∨ x.st = .idle) : SetsRegion d r x (d.setRegion r { x with st := d.regionNow r }) :=
    .of_fields rfl rfl rfl (fun h => by rcases hst with hst | hst <;> simp [hst] at h) (fun h _ => h)
  have hrest (hst : x.st = .run ∨ x.st = .idle) : SetsRegion d r x
      (if t = 1 || t = 2 then d.setRegion r { x with st := d.regionNow r }
        else if t = 3 || t = 4 then (if x.failed || x.holdoff.isSome then d.setRegion r x else start x) else d.setRegion r x) := by
    refine .ite _ (hnow hst) ?_
    by_cases h34 : (t = 3 || t = 4) = true
    · rw [if_pos h34]
      exact .ite _ hkeep (hstart (by simpa using h34) (hst.imp_right .inl))
    · rw [if_neg h34]
      exact hkeep
  split
  · next hst => exact hrest (.inl hst)
  · next hst => exact hrest (.inr hst)
  · next hst =>
    refine .ite _ (hwake (.inl hst)) ?_
    by_cases h4 : t = 4
    · rw [if_pos h4]
      exact .ite _ hkeep (hstart (.inr h4) (.inr (.inr hst)))
    · rw [if_neg h4]
      exact hkeep
  · next hst => exact .ite _ (hwake (.inr hst)) hkeep
  · next hst =>
    split
    · next e he =>
      have hgone (z : Dev) (y : Region) (hz : z.regions = d.regions) (hh : y.holdoff = x.holdoff) (hf : y.failed = x.failed) :
          SetsRegion d r x (z.setRegion r y) :=
        .of_fields hz hh hf (fun h => by simp [hst] at h) (fun h => by simp [he] at h)
      refine .ite _ hkeep (.ite _ (hgone d _ rfl rfl rfl) ?_)
      extract_lets x'
      exact .ite _ (hgone d' _ rfl rfl rfl) (.ite _ (hgone d' _ rfl rfl rfl) (hgone d' _ rfl (by split <;> rfl) (by split <;> rfl)))
    · exact hkeep
  · exact hkeep
  · exact hkeep
  · exact hkeep

theorem settle_region_other {k : Nat} (h : k ≠ r) (d : Dev) : (d.settle r).region k = d.region k := by
  obtain ⟨d', y, heq, hd, -⟩ := settle_sets d r
  rw [heq, region_setRegion_other _ _ _ _ h, region, region, hd]

/-- The region itself after its target was looked at. -/
theorem settle_region (d : Dev) (r : Nat) : ((d.settle r).region r).holdoff = (d.region r).holdoff ∧
    ((d.region r).failed = false → ((d.settle r).region r).failed = false) ∧
    ((d.region r).st = .off ∨ (d.region r).st = .retired → ((d.settle r).region r).st = (d.region r).st) ∧
    ((d.region r).entry = none → d.target r = 1 → ((d.settle r).region r).entry = none) := by
  obtain ⟨hst, hent, hhold, hfail⟩ := retargeted_fields d r
  obtain ⟨d', y, heq, -, hh, hf, hs, he⟩ := settle_sets d r
  rw [hst] at hs
  rw [hent] at he
  rw [heq, region_setRegion_same, hh, hf]
  exact ⟨hhold, hfail, hs, he⟩

/-! ## Interrupts and errors (R57, R354) -/

/-- What an interrupt may do to the regions: it wakes sleeping regions of the Spindle cores, no more, so that a region without an entry
stays without one, and one that is off or retired stays so. -/
def Stirs (d e : Dev) : Prop := ∀ k, (k < 76 ∨ 80 ≤ k ∨ d.asleepRegion k = false → e.region k = d.region k) ∧
  ((d.region k).entry = none → (e.region k).entry = none) ∧
  ((d.region k).st = .off ∨ (d.region k).st = .retired → (e.region k).st = (d.region k).st)

theorem Stirs.of_regions (h : e.regions = d.regions) : d.Stirs e := by
  have hk (k : Nat) : e.region k = d.region k := by unfold region; rw [h]
  exact fun k => ⟨fun _ => hk k, fun hn => by rw [hk, hn], fun _ => by rw [hk]⟩

theorem Stirs.refl (d : Dev) : d.Stirs d := .of_regions rfl

theorem asleepRegion_of_region {k : Nat} (h : e.region k = d.region k) : e.asleepRegion k = d.asleepRegion k := by
  unfold asleepRegion
  rw [h]

theorem Stirs.trans {f : Dev} (h : d.Stirs e) (g : e.Stirs f) : d.Stirs f := by
  intro k
  obtain ⟨hsame, hent, hst⟩ := h k
  obtain ⟨gsame, gent, gst⟩ := g k
  refine ⟨fun hk => ?_, fun hn => gent (hent hn), fun hs => ?_⟩
  · have heq := hsame hk
    exact (gsame (by rwa [asleepRegion_of_region heq])).trans heq
  · have heq := hst hs
    exact (gst (by rwa [heq])).trans heq

theorem Stirs.ite (c : Prop) [Decidable c] {a b : Dev} (ha : d.Stirs a) (hb : d.Stirs b) : d.Stirs (if c then a else b) := by
  split
  · exact ha
  · exact hb

theorem Stirs.fields (h : d.Stirs e) {f : Dev} (hr : f.regions = e.regions) : d.Stirs f := h.trans (.of_regions hr)

/-- A region outside the Spindle cores', and one that does not sleep, stands. -/
theorem Stirs.region (h : d.Stirs e) {k : Nat} (hk : k < 76 ∨ 80 ≤ k ∨ d.asleepRegion k = false) : e.region k = d.region k := (h k).1 hk

/-- The vote of a core of its region for RUN (R394). -/
theorem target_of_coreVotes (hr : 76 ≤ r ∧ r < 80) (h : d.coreVotes r = true) : d.target r = 1 := by
  have hmem : 1 ∈ d.hwVotes r := by
    unfold hwVotes
    simp [hr.1, hr.2, h]
  unfold target
  rw [shallowest_run (List.mem_append_right _ hmem)]
  rfl

/-- An interrupt that a sleeping region's core takes is its vote for RUN (R354, R394). -/
theorem coreVotes_setCore {c : Core} (hc : c.voteInt = true) : (d.setCore n c).coreVotes (coreRegion n) = true := by
  have hread : (d.setCore n c).core n = c := core_setCore_same d n c
  have hne : (d.setCore n c).core n ≠ Core.atReset n := by
    rw [hread]
    rintro rfl
    unfold Core.atReset at hc
    split at hc <;> simp at hc
  have hmem : (n, (d.setCore n c).core n) ∈ (d.setCore n c).cores := Sparse.mem_of_get_ne hne
  exact List.any_eq_true.2 ⟨_, hmem, by simp [hread, hc]⟩

theorem pend_stirs (hn : n < 16) (s : Nat) (d : Dev) : d.Stirs (d.pend n s) := by
  have hr : 76 ≤ coreRegion n ∧ coreRegion n < 80 := by
    unfold coreRegion
    omega
  unfold pend
  extract_lets c c1 r
  split
  · next hcond =>
    have hasleep : d.asleepRegion r = true := (Bool.and_eq_true _ _ ▸ hcond).2
    intro k
    by_cases hk : k = r
    · subst hk
      obtain ⟨-, -, hst, hent⟩ := settle_region (d.setCore n { c1 with voteInt := true }) (coreRegion n)
      refine ⟨fun h => ?_, fun h => hent h (target_of_coreVotes hr (coreVotes_setCore rfl)), hst⟩
      obtain h | h | h := h
      · omega
      · omega
      · exact absurd (hasleep.symm.trans h) (by decide)
    · rw [settle_region_other hk]
      exact Stirs.of_regions (d := d) (e := d.setCore n { c1 with voteInt := true }) rfl k
  · exact .of_regions rfl

theorem forEach_pend_stirs {l : List Nat} (hl : ∀ n ∈ l, n < 16) (s : Nat) (d : Dev) : d.Stirs (forEach l (fun n d => d.pend n s) d) :=
  forEach_rel Stirs.refl (fun _ _ _ => Stirs.trans) (fun n hn x => pend_stirs (hl n hn) s x) d

theorem pendMask_stirs (m s : Nat) (d : Dev) : d.Stirs (d.pendMask m s) :=
  forEach_pend_stirs (fun _ hn => List.mem_range.1 (List.mem_filter.1 hn).1) s d

theorem message_regions (d : Dev) (p : Port) (v : Nat) : (d.message p v).regions = d.regions := by
  unfold message
  extract_lets k
  split_ifs <;> rfl

theorem pageEvent_stirs (d : Dev) (page : Nat) : d.Stirs (d.pageEvent page) := by
  have hsend (p : Port) (x : Dev) : x.Stirs (if x.flag p.page 0x0C4 0 then x.message p (x.perrVector p page) else x) :=
    .ite _ (.of_regions (message_regions _ _ _)) (.refl x)
  refine ((hsend .a d).trans (hsend .b _)).trans (forEach_pend_stirs (fun n hn => ?_) 5 _)
  obtain ⟨i, -, rfl⟩ := List.mem_map.1 hn
  exact field_lt _ _ _ 19 16

theorem errlogEvent_stirs (d : Dev) : d.Stirs d.errlogEvent :=
  ((Stirs.of_regions (message_regions _ _ _)).fields (message_regions _ _ _)).trans (pendMask_stirs _ _ _)

theorem errBit_regions (d : Dev) (p b : Nat) : (d.errBit p b).regions = d.regions := by
  unfold errBit
  split <;> rfl

theorem err_stirs (d : Dev) (p b : Nat) : d.Stirs (d.err p b) := by
  have hbit : d.Stirs (d.errBit p b) := .of_regions (errBit_regions d p b)
  exact .ite _ hbit (hbit.trans (pageEvent_stirs _ p))

theorem errlogErr_stirs (d : Dev) (b : Nat) : d.Stirs (d.errlogErr b) :=
  (Stirs.of_regions (errBit_regions d _ b)).trans (errlogEvent_stirs _)

theorem deviceBegan_stirs (h : d.Stirs e) (old : Dev) : d.Stirs (deviceBegan old e) := .ite _ (h.trans (errlogErr_stirs e 3)) h

theorem logOpen_stirs (d : Dev) (x : LogEntry) : d.Stirs (d.logOpen x) := by
  unfold logOpen
  split
  · have hlost : d.Stirs ((d.count 0x0F0 0x054).setFlag 0x0F0 0x040 9 true) := .of_regions rfl
    exact deviceBegan_stirs (hlost.trans (err_stirs _ 0x0F0 2)) d
  · next i _ =>
    have hnoted : d.Stirs (d.logEnter i { x with st := .opened }) := .of_regions rfl
    have hentered : d.Stirs ((d.logEnter i { x with st := .opened }).errlogErr 0) := hnoted.trans (errlogErr_stirs _ 0)
    exact deviceBegan_stirs (.ite _ (hentered.trans (errlogErr_stirs _ 4)) hentered) d

theorem logRaised_stirs (d : Dev) (x : LogEntry) : d.Stirs (d.logRaised x) :=
  .ite _ ((err_stirs d _ _).trans (logOpen_stirs _ _)) ((logOpen_stirs d _).trans (err_stirs _ _ _))

theorem logContained_stirs (d : Dev) (x : LogEntry) : d.Stirs (d.logContained x) := by
  unfold logContained
  extract_lets y
  split
  · exact .of_regions rfl
  · exact logOpen_stirs d y

theorem pageFault_stirs (d : Dev) (p b : Nat) : d.Stirs (d.pageFault p b) := by
  have hfault : d.Stirs (d.setPageState p 5) := .of_regions rfl
  exact hfault.trans (logContained_stirs _ _)

end Dev
end Sys2Proof.Machine
end
section
/-!
Entries of regions (R395, R397, R398): the answers of the blocks, refusals and their retries, and blocks that do not ungate.
-/
namespace Sys2Proof.Machine

theorem exec_quiesceAnswer (s : State) (r : Fin 96) (page : Fin 8192) (ans : Quiesce) :
    exec (.quiesceAnswer r page ans) s = onDev (Dev.quiesceAnswer r.val page.val ans) s := rfl

theorem exec_quiesceTimeout (s : State) (r : Fin 96) : exec (.quiesceTimeout r) s = onDev (Dev.quiesceTimeout r.val) s := rfl

theorem exec_retryHoldoffExpiry (s : State) (r : Fin 96) : exec (.retryHoldoffExpiry r) s = onDev (Dev.holdoffExpiry r.val) s := rfl

theorem exec_entryRetryWrite (s : State) (ag : Agent) (w : Fin 3) (v : Word) : exec (.entryRetryWrite ag w v) s =
    onDev (forEach ((List.range 32).filter (bit v)) fun i d => Dev.entryRetry (32 * w.val + i) d) s := rfl

theorem exec_ungateTimeout (s : State) (r : Fin 96) (page : Fin 8192) :
    exec (.ungateTimeout r page) s = onDev (Dev.ungateTimeout r.val page.val) s := rfl

namespace Dev

variable {d : Dev} {r page : Nat} {e : Entry}

/-! ## A block's answer (R178, R198, R219, R289, R358, R395) -/

theorem laneWorks_iff (d : Dev) (n : Nat) : d.laneWorks n = true ↔
    d.flag 0x060 0x048 n = false ∧ d.sstate (d.field 0x061 (0x040 + 4 * n) 7 0) ∈ [1, 2, 4, 6] := by
  unfold laneWorks
  rw [Bool.and_eq_true, Bool.not_eq_true', List.contains_iff_mem]

theorem whorlWorks_iff (d : Dev) (c : Nat) : d.whorlWorks c = true ↔ 0 < d.wdepth c ∨ d.wstate c = 2 := by
  unfold whorlWorks
  rw [Bool.or_eq_true, decide_eq_true_eq, beq_iff_eq]

theorem coreQuiet_iff (d : Dev) (n : Fin 16) : d.coreQuiet n = false ↔
    (d.running (corePage n.val) = true ∨ d.pageState (corePage n.val) = 3) ∧
    (((d.core n.val).st ≠ .wfi ∧ (d.core n.val).st ≠ .twait) ∨ (d.core n.val).task ≠ none ∨ d.storesVisible n = false) := by
  unfold coreQuiet
  simp only [Bool.or_eq_false_iff, Bool.not_eq_false', Bool.or_eq_true, beq_iff_eq, Bool.and_eq_false_iff, Option.isNone_eq_false_iff,
    Option.isSome_iff_ne_none, beq_eq_false_iff_ne, ne_eq]
  tauto

/-- The numbers of block `b`, `k` a block. -/
theorem any_block {k : Nat} (hk : 0 < k) (b : Nat) (f : Nat → Bool) :
    ((List.range k).any fun i => f (k * b + i)) = true ↔ ∃ n, n / k = b ∧ f n = true := by
  rw [List.any_eq_true]
  constructor
  · rintro ⟨i, hi, hf⟩
    refine ⟨_, ?_, hf⟩
    rw [Nat.mul_add_div hk, Nat.div_eq_of_lt (List.mem_range.1 hi), Nat.add_zero]
  · rintro ⟨n, rfl, hf⟩
    exact ⟨n % k, List.mem_range.2 (Nat.mod_lt n hk), by rwa [Nat.div_add_mod]⟩

/-- A block's chapter has it refuse with BUSY just where `QuiesceRefuses` says so. -/
theorem quiesceBusy_iff (d : Dev) (r page : Nat) : d.quiesceBusy r page = some true ↔ d.QuiesceRefuses r page := by
  unfold quiesceBusy QuiesceRefuses
  by_cases h64 : r < 64
  · rw [if_pos h64]
    simp only [Option.some.injEq, Bool.and_eq_true, Option.isSome_iff_ne_none]
    constructor
    · exact fun h => .inl ⟨h64, h⟩
    · rintro (⟨-, h⟩ | ⟨h, -⟩ | ⟨h, -⟩ | ⟨h, -⟩ | ⟨h, -⟩)
      · exact h
      all_goals omega
  rw [if_neg h64]
  by_cases h68 : r < 68
  · rw [if_pos h68, Option.some.injEq, Bool.and_eq_true, beq_iff_eq, any_block (by omega) (r - 64) d.laneWorks]
    simp only [laneWorks_iff]
    constructor
    · exact fun h => .inr (.inl ⟨by omega, h68, h⟩)
    · rintro (⟨h, -⟩ | ⟨-, -, h⟩ | ⟨h, -⟩ | ⟨h, -⟩ | ⟨h, -⟩)
      · omega
      · exact h
      all_goals omega
  rw [if_neg h68]
  by_cases h76 : r < 76
  · rw [if_pos h76, Option.some.injEq, any_block (by omega) (r - 68) d.whorlWorks]
    simp only [whorlWorks_iff]
    constructor
    · exact fun h => .inr (.inr (.inl ⟨by omega, h76, h⟩))
    · rintro (⟨h, -⟩ | ⟨-, h, -⟩ | ⟨-, -, h⟩ | ⟨h, -⟩ | ⟨h, -⟩)
      · omega
      · omega
      · exact h
      all_goals omega
  rw [if_neg h76]
  by_cases h80 : r < 80
  · rw [if_pos h80, Option.some.injEq, any_block (by omega) (r - 76) fun n => !d.coreQuiet (Fin.ofNat 16 n)]
    simp only [Bool.not_eq_true', coreQuiet_iff]
    constructor
    · rintro ⟨n, hn, h⟩
      have hval : (Fin.ofNat 16 n).val = n := Nat.mod_eq_of_lt (by omega)
      exact .inr (.inr (.inr (.inl ⟨by omega, h80, Fin.ofNat 16 n, by unfold coreRegion; omega, h⟩)))
    · rintro (⟨h, -⟩ | ⟨-, h, -⟩ | ⟨-, h, -⟩ | ⟨-, -, n, hn, h⟩ | ⟨h, -⟩)
      · omega
      · omega
      · omega
      · have hval : Fin.ofNat 16 n.val = n := Fin.ofNat_val_eq_self n
        exact ⟨n.val, by unfold coreRegion at hn; omega, by rwa [hval]⟩
      · omega
  rw [if_neg h80]
  by_cases h88 : r < 88
  · rw [if_pos h88]
    simp only [Option.some.injEq, Bool.not_eq_true', List.isEmpty_eq_false_iff]
    constructor
    · exact fun h => .inr (.inr (.inr (.inr ⟨by omega, h88, h⟩)))
    · rintro (⟨h, -⟩ | ⟨-, h, -⟩ | ⟨-, h, -⟩ | ⟨-, h, -⟩ | ⟨-, -, h⟩)
      · omega
      · omega
      · omega
      · omega
      · exact h
  · rw [if_neg h88]
    simp only [reduceCtorEq, false_iff]
    omega

theorem quiesceBusy_none_iff (d : Dev) (r page : Nat) : d.quiesceBusy r page = none ↔ 88 ≤ r := by
  unfold quiesceBusy
  split_ifs <;> simp <;> omega

theorem quiesceGives_refuse {ans : Quiesce} {code : Fin 8}
    (h : (d.QuiesceRefuses r page ∧ code = 1) ∨ (88 ≤ r ∧ ans = .refuse code)) : d.quiesceGives r page ans = .refuse code := by
  unfold quiesceGives
  obtain ⟨hbusy, rfl⟩ | ⟨hr, rfl⟩ := h
  · rw [(quiesceBusy_iff d r page).2 hbusy]
  · rw [(quiesceBusy_none_iff d r page).2 hr]

theorem quiesceGives_ack {ans : Quiesce} (h : ¬ d.QuiesceRefuses r page) (ha : r < 88 ∨ ans = .ack) :
    d.quiesceGives r page ans = .ack := by
  have hbusy := mt (quiesceBusy_iff d r page).1 h
  have hnone := mt (quiesceBusy_none_iff d r page).1
  unfold quiesceGives
  split
  · next hq => exact absurd hq hbusy
  · rfl
  · next hq => exact ha.resolve_left fun hr => hnone (by omega) hq

/-- The region with the block's ACK noted; the last ACK starts phase 2. -/
def acked (d : Dev) (r page : Nat) (e : Entry) : Region :=
  let e' : Entry := { e with acked := e.acked ++ [page] }
  let e' := if (regionBlocks r).all (e.acked ++ [page]).contains && !e.offReq then { e' with phase2 := true, start := d.now } else e'
  { d.region r with entry := some e', gated := (d.region r).gated ++ [page] }

section
variable (he : (d.region r).entry = some e) (h2 : e.phase2 = false) (hb : (regionBlocks r).contains page = true)
  (ha : e.acked.contains page = false) {ans : Quiesce}
include he h2 hb ha

/-- Its block has not answered yet, and refuses. -/
theorem quiesceAnswer_refused {code : Fin 8} (h : d.quiesceGives r page ans = .refuse code) :
    quiesceAnswer r page ans d = entryRefused r page code.val d := by
  unfold quiesceAnswer
  simp only [he, h2, hb, ha, h, Bool.not_true, Bool.or_self, Bool.false_eq_true, if_false]

theorem quiesceAnswer_acked (h : d.quiesceGives r page ans = .ack) :
    quiesceAnswer r page ans d = (d.setRegion r (d.acked r page e)).offPhase2 := by
  unfold quiesceAnswer acked
  simp only [he, h2, hb, ha, h, Bool.not_true, Bool.or_self, Bool.false_eq_true, if_false]

end

/-- While a region's entry is no part of it, the last answer of an OFF request is not there (R406). -/
theorem offPhase2_waits (hr : r < 96) (he : (d.region r).entry = some e) (ho : e.offReq = false) : d.offPhase2 = d := by
  have hready : d.offReady r = false := by
    simp [offReady, he, ho]
  refine if_neg fun h => ?_
  have hall := List.all_eq_true.1 (Bool.and_eq_true _ _ ▸ h).2 r (List.mem_range.2 hr)
  rw [hready] at hall
  exact absurd hall (by decide)

/-- The last ACK starts phase 2 (R395). -/
theorem quiesceAnswer_last (hr : r < 96) (he : (d.region r).entry = some e) (h2 : e.phase2 = false) (ho : e.offReq = false)
    (hb : (regionBlocks r).contains page = true) (ha : e.acked.contains page = false)
    (hall : (regionBlocks r).all (e.acked ++ [page]).contains = true) {ans : Quiesce} (hans : d.quiesceGives r page ans = .ack) :
    ((quiesceAnswer r page ans d).region r).entry = some { e with acked := e.acked ++ [page], phase2 := true, start := d.now } := by
  have hacked : (d.acked r page e).entry = some { e with acked := e.acked ++ [page], phase2 := true, start := d.now } := by
    unfold acked
    rw [hall, ho]
    rfl
  have hset := (region_setRegion_same d r (d.acked r page e)).symm ▸ hacked
  rw [quiesceAnswer_acked he h2 hb ha hans, offPhase2_waits hr hset ho, hset]

theorem quiesceAnswer_idle {ans : Quiesce} (h : ∀ e, (d.region r).entry = some e →
    e.phase2 = true ∨ (regionBlocks r).contains page = false ∨ e.acked.contains page = true) : quiesceAnswer r page ans d = d := by
  unfold quiesceAnswer
  extract_lets x
  split
  · rfl
  · next e he =>
    refine if_pos ?_
    obtain h | h | h := h e he
    · rw [h, Bool.true_or, Bool.true_or]
    · rw [h, Bool.not_false, Bool.or_true, Bool.true_or]
    · rw [h, Bool.or_true]

/-! ## A refusal (R397) -/

theorem field_setRegion (d : Dev) (r : Nat) (x : Region) (p off hi lo : Nat) :
    (d.setRegion r x).field p off hi lo = d.field p off hi lo := rfl

/-- The record of a refusal: the block, its code and the region. -/
def refusalWord (r page code : Nat) : Word := BitVec.ofNat 32 (page + code * 2 ^ 16 + r * 2 ^ 24)

/-- A refusal recorded. -/
def refusalNoted (d : Dev) (v : Word) : Dev := (d.setReg 0x008 0x048 v).count 0x008 0x04C

theorem refusalNoted_region (d : Dev) (v : Word) (k : Nat) : (d.refusalNoted v).region k = d.region k := rfl

theorem refusalNoted_now (d : Dev) (v : Word) : (d.refusalNoted v).now = d.now := rfl

theorem refusalNoted_reg (d : Dev) (v : Word) : (d.refusalNoted v).reg 0x008 0x048 = v ∧
    (d.refusalNoted v).reg 0x008 0x04C = satAdd (d.reg 0x008 0x04C) 1 ∧
    ∀ p off, off < 4096 → (p ≠ 0x008 ∨ off ≠ 0x048 ∧ off ≠ 0x04C) → (d.refusalNoted v).reg p off = d.reg p off := by
  unfold refusalNoted
  refine ⟨?_, ?_, fun p off ho h => ?_⟩
  · rw [count, reg_setReg_other _ _ _ _ _ _ (.inr (by omega)) (by omega) (by omega), reg_setReg_same]
  · rw [reg_count_same, reg_setReg_other _ _ _ _ _ _ (.inr (by omega)) (by omega) (by omega)]
  · rw [count, reg_setReg_other _ _ _ _ _ _ (by omega) ho (by omega), reg_setReg_other _ _ _ _ _ _ (by omega) ho (by omega)]

/-- The region as its entry is rolled back. -/
def rolledBack (d : Dev) (r : Nat) (e : Entry) : Region :=
  { d.region r with st := e.former, entry := none, ungating := e.acked.reverse, ungateAt := d.now, gated := [] }

theorem rollBack_eq (he : (d.region r).entry = some e) : rollBack r d = d.setRegion r (d.rolledBack r e) := by
  unfold rollBack
  extract_lets x
  rw [he]
  rfl

/-- A rolled-back region waits for its retry, or fails (R397). -/
def retryLater (d : Dev) (r : Nat) : Dev :=
  let x := d.region r
  if x.retries < d.field 0x008 0x040 19 16 then
    d.setRegion r { x with holdoff := some (d.now + max 1 (d.field 0x008 0x044 15 0)), again := true }
  else ((d.setRegion r { x with failed := true }).setFlag 0x008 (0x054 + 4 * (r / 32)) (r % 32) true).err 0x008 0

/-- What follows once a refusal is recorded (R397, R406). -/
def refusalFollows (d : Dev) (r : Nat) : Dev :=
  match (d.region r).entry with
  | none => d
  | some e => if e.offReq then offRefused 2 d else (rollBack r d).retryLater r

theorem entryRefused_eq (d : Dev) (r page code : Nat) :
    entryRefused r page code d = (d.refusalNoted (refusalWord r page code)).refusalFollows r := rfl

theorem refusalFollows_entry (he : (d.region r).entry = some e) (ho : e.offReq = false) :
    d.refusalFollows r = (d.setRegion r (d.rolledBack r e)).retryLater r := by
  unfold refusalFollows
  rw [he]
  dsimp only
  rw [if_neg (by simp [ho]), rollBack_eq he]

/-- A region that is rolled back keeps its state, its entry's end and the record of the refusal, whatever follows. -/
theorem retryLater_spec (h96 : r < 96) (hr : r < 76 ∨ 80 ≤ r ∨ d.asleepRegion r = false) :
    ((d.retryLater r).region r).st = (d.region r).st ∧ ((d.retryLater r).region r).entry = (d.region r).entry ∧
    (∀ off, off = 0x048 ∨ off = 0x04C → (d.retryLater r).reg 0x008 off = d.reg 0x008 off) ∧
    ((d.region r).retries < d.field 0x008 0x040 19 16 →
      ((d.retryLater r).region r).holdoff = some (d.now + max 1 (d.field 0x008 0x044 15 0))) ∧
    (d.field 0x008 0x040 19 16 ≤ (d.region r).retries → ((d.retryLater r).region r).failed = true) := by
  by_cases h : (d.region r).retries < d.field 0x008 0x040 19 16
  · have hwait : d.retryLater r =
        d.setRegion r { d.region r with holdoff := some (d.now + max 1 (d.field 0x008 0x044 15 0)), again := true } := if_pos h
    rw [hwait, region_setRegion_same]
    exact ⟨rfl, rfl, fun _ _ => rfl, fun _ => rfl, fun hle => absurd h (not_lt.2 hle)⟩
  · generalize hx : (d.setRegion r { d.region r with failed := true }).setFlag 0x008 (0x054 + 4 * (r / 32)) (r % 32) true = x
    have hfail : d.retryLater r = x.err 0x008 0 := by
      rw [← hx]
      exact if_neg h
    have hset : x.region r = { d.region r with failed := true } := by
      rw [← hx]
      exact region_setRegion_same d r _
    have hregs (off : Nat) (ho : off < 0x054) : x.reg 0x008 off = d.reg 0x008 off := by
      rw [← hx]
      exact reg_setReg_other _ _ _ _ _ _ (.inr (by omega)) (by omega) (by omega)
    have hasleep : x.asleepRegion r = d.asleepRegion r := by
      unfold asleepRegion
      rw [hset]
    have hstands : (x.err 0x008 0).region r = x.region r := (err_stirs x 0x008 0).region (by rwa [hasleep])
    rw [hfail, hstands, hset]
    refine ⟨rfl, rfl, fun off ho => ?_, fun hlt => absurd hlt h, fun _ => rfl⟩
    rw [err_onlyRegs x 0x008 0 _ _ (by omega) (by
      simp only [errRegs, eventRegs, List.mem_append, List.mem_cons, Prod.ext_iff, List.not_mem_nil, or_false]
      omega), hregs off (by omega)]

/-- A refusal that ends an entry (R397). -/
theorem entryRefused_spec (h96 : r < 96) (he : (d.region r).entry = some e) (ho : e.offReq = false)
    (hf : e.former = .run ∨ e.former = .idle ∨ r < 76 ∨ 80 ≤ r) (page code : Nat) :
    ((entryRefused r page code d).region r).st = e.former ∧ ((entryRefused r page code d).region r).entry = none ∧
    (entryRefused r page code d).reg 0x008 0x048 = refusalWord r page code ∧
    (entryRefused r page code d).reg 0x008 0x04C = satAdd (d.reg 0x008 0x04C) 1 ∧
    ((d.region r).retries < d.field 0x008 0x040 19 16 →
      ((entryRefused r page code d).region r).holdoff = some (d.now + max 1 (d.field 0x008 0x044 15 0))) ∧
    (d.field 0x008 0x040 19 16 ≤ (d.region r).retries → ((entryRefused r page code d).region r).failed = true) := by
  obtain ⟨hword, hcount, hregs⟩ := refusalNoted_reg d (refusalWord r page code)
  have hregion := refusalNoted_region d (refusalWord r page code) r
  have hnow := refusalNoted_now d (refusalWord r page code)
  rw [entryRefused_eq]
  generalize d.refusalNoted (refusalWord r page code) = x at *
  have hset : (x.setRegion r (x.rolledBack r e)).region r = x.rolledBack r e := region_setRegion_same _ _ _
  have hst : (x.rolledBack r e).st = e.former := rfl
  have hawake : r < 76 ∨ 80 ≤ r ∨ (x.setRegion r (x.rolledBack r e)).asleepRegion r = false := by
    rcases hf with hf | hf | hf | hf
    · exact .inr (.inr (by unfold asleepRegion; rw [hset, hst, hf]))
    · exact .inr (.inr (by unfold asleepRegion; rw [hset, hst, hf]))
    · exact .inl hf
    · exact .inr (.inl hf)
  have hfield (off hi lo : Nat) (ho : off = 0x040 ∨ off = 0x044) : x.field 0x008 off hi lo = d.field 0x008 off hi lo :=
    congrArg (fun w => bits w hi lo) (hregs 0x008 off (by omega) (by omega))
  obtain ⟨hs, hent, hr, hhold, hfail⟩ := retryLater_spec h96 hawake
  rw [hset, field_setRegion, hfield _ _ _ (.inl rfl)] at hhold hfail
  rw [field_setRegion, hfield _ _ _ (.inr rfl), setRegion_now, hnow] at hhold
  rw [hset] at hs hent
  have hretries : (x.rolledBack r e).retries = (d.region r).retries := by rw [rolledBack, hregion]
  rw [hretries] at hhold hfail
  rw [refusalFollows_entry (by rw [hregion, he]) ho, hs, hent, hr _ (.inl rfl), hr _ (.inr rfl), reg_setRegion, reg_setRegion]
  exact ⟨rfl, rfl, hword, hcount, hhold, hfail⟩

/-- The end of an OFF request moves nothing of what `offRefused` records (R406). -/
theorem offRefused_spec (d : Dev) (cause : Nat) : (offRefused cause d).offReq = false ∧
    (offRefused cause d).reg 0x008 0x080 = BitVec.ofNat 32 (1 + 2 * cause) ∧ (offRefused cause d).flag 0x008 0x014 2 = true := by
  unfold offRefused
  generalize BitVec.ofNat 32 (1 + 2 * cause) = v
  extract_lets x mine y
  have hx : x.reg 0x008 0x080 = v ∧ x.flag 0x008 0x014 2 = true :=
    ⟨(err_onlyRegs (d.setReg 0x008 0x080 v) 0x008 2 _ _ (by omega) (by simp [errRegs, eventRegs])).trans (reg_setReg_same _ _ _ _),
      flag_err _ _ _ (by omega)⟩
  have hy : y.offReq = false ∧ y.regs = x.regs ∧ y.pkg = x.pkg :=
    forEach_keeps (P := fun z : Dev => z.offReq = false ∧ z.regs = x.regs ∧ z.pkg = x.pkg) (fun k _ z hz => by
      unfold rollBack
      dsimp only
      split
      · exact hz
      · exact hz) _ ⟨rfl, rfl, rfl⟩
  obtain ⟨hoff, hregs, hpkg⟩ := hy
  have hreg (off : Nat) : y.reg 0x008 off = x.reg 0x008 off := by
    unfold reg
    rw [hregs, hpkg]
  have hsettled : (forEach mine (fun r d => d.settle r) y).offReq = y.offReq ∧
      OnlyRegs [(0x008, 0x050)] y (forEach mine (fun r d => d.settle r) y) :=
    forEach_rel (R := fun a b : Dev => b.offReq = a.offReq ∧ OnlyRegs [(0x008, 0x050)] a b) (fun z => ⟨rfl, .refl _ z⟩)
      (fun _ _ _ h k => ⟨k.1.trans h.1, h.2.trans k.2⟩) (fun k _ z => ⟨by rw [settle_signals z k], settle_onlyRegs z k⟩) y
  obtain ⟨hsoff, hsregs⟩ := hsettled
  refine ⟨hsoff.trans hoff, ?_, ?_⟩
  · rw [hsregs _ _ (by omega) (by simp), hreg]
    exact hx.1
  · rw [flag_of_reg ((hsregs 0x008 0x014 (by omega) (by simp)).trans (hreg 0x014))]
    exact hx.2

/-- A refusal that ends an OFF request (R406). -/
theorem entryRefused_off (he : (d.region r).entry = some e) (ho : e.offReq = true) (page code : Nat) :
    entryRefused r page code d = offRefused 2 (d.refusalNoted (refusalWord r page code)) := by
  have hregion := refusalNoted_region d (refusalWord r page code) r
  rw [entryRefused_eq]
  generalize d.refusalNoted (refusalWord r page code) = x at *
  unfold refusalFollows
  rw [hregion, he]
  exact if_pos ho

/-! ## Blocks that do not answer (R395) -/

theorem quiesceTimeout_due (he : (d.region r).entry = some e) (h2 : e.phase2 = false) (ht : e.start + d.quiesceWindow ≤ d.now) {p : Nat}
    (hp : (regionBlocks r).find? (fun p => !e.acked.contains p) = some p) : quiesceTimeout r d = entryRefused r p 2 d := by
  have hlate : ¬ (e.phase2 || decide (d.now < e.start + d.quiesceWindow)) = true := by
    rw [h2, Bool.false_or, decide_eq_true_eq]
    omega
  unfold quiesceTimeout
  rw [he]
  dsimp only
  rw [if_neg hlate, hp]

theorem quiesceTimeout_waits (h : ∀ e, (d.region r).entry = some e → e.phase2 = true ∨ d.now < e.start + d.quiesceWindow) :
    quiesceTimeout r d = d := by
  unfold quiesceTimeout
  split
  · rfl
  · next e he => exact if_pos (by simpa using h e he)

/-! ## Retries (R397) -/

/-- An entry tried again: the hold-off is over, and nothing but its own region moves. -/
theorem retryEntry_spec (d : Dev) (r : Nat) : ((retryEntry r d).region r).holdoff = none ∧
    ((d.region r).failed = false → ((retryEntry r d).region r).failed = false) ∧
    (∀ k, k ≠ r → (retryEntry r d).region k = d.region k) ∧ (retryEntry r d).mem = d.mem := by
  have hset : (d.setRegion r { d.region r with holdoff := none, again := false }).region r =
      { d.region r with holdoff := none, again := false } :=
    region_setRegion_same _ _ _
  obtain ⟨hhold, hfail, -, -⟩ := settle_region (d.setRegion r { d.region r with holdoff := none, again := false }) r
  have hmem := (settle_signals (d.setRegion r { d.region r with holdoff := none, again := false }) r).mem
  have hother (k : Nat) (hk : k ≠ r) :
      ((d.setRegion r { d.region r with holdoff := none, again := false }).settle r).region k = d.region k := by
    rw [settle_region_other hk, region_setRegion_other _ _ _ _ hk]
  rw [hset] at hhold hfail
  unfold retryEntry
  extract_lets x y z
  change y.mem = _ at hmem
  change (y.region r).holdoff = _ at hhold
  change _ → (y.region r).failed = false at hfail
  change ∀ k, k ≠ r → y.region k = d.region k at hother
  clear_value y
  split
  · rw [region_setRegion_same]
    exact ⟨hhold, hfail, fun k hk => (region_setRegion_other _ _ _ _ hk).trans (hother k hk), hmem⟩
  · exact ⟨hhold, hfail, hother, hmem⟩

theorem holdoffExpiry_due {a : Nat} (ha : (d.region r).holdoff = some a) (ht : a ≤ d.now) : holdoffExpiry r d = retryEntry r d := by
  unfold holdoffExpiry
  rw [ha]
  exact if_pos ht

theorem holdoffExpiry_waits (h : ∀ a, (d.region r).holdoff = some a → d.now < a) : holdoffExpiry r d = d := by
  unfold holdoffExpiry
  split
  · next a ha => exact if_neg (not_le.2 (h a ha))
  · rfl

/-- A RETRY bit moves its own region alone, and takes back its failure. -/
theorem entryRetry_spec (d : Dev) (r : Nat) : ((d.region r).failed = true → ((entryRetry r d).region r).failed = false) ∧
    (∀ k, k ≠ r → (entryRetry r d).region k = d.region k) ∧ (entryRetry r d).mem = d.mem := by
  unfold entryRetry
  extract_lets x
  by_cases hf : x.failed = true
  · rw [if_pos hf]
    obtain ⟨-, hfail, hother, hmem⟩ := retryEntry_spec (d.setRegion r { x with failed := false, retries := 0, again := false }) r
    refine ⟨fun _ => hfail ?_, fun k hk => (hother k hk).trans (region_setRegion_other _ _ _ _ hk), hmem⟩
    rw [region_setRegion_same]
  · rw [if_neg hf]
    obtain ⟨-, -, hother, hmem⟩ := retryEntry_spec d r
    refine ⟨fun h => absurd h hf, ?_, ?_⟩
    · split
      · exact hother
      · exact fun _ _ => rfl
    · split
      · exact hmem
      · rfl

/-- A write of RETRY bits (R397). -/
theorem entryRetries_spec (w : Nat) (v : Word) (d : Dev) {i : Nat} (hi : i < 32) :
    let t := forEach ((List.range 32).filter (bit v)) (fun i d => entryRetry (32 * w + i) d) d
    (bit v i = true → (d.region (32 * w + i)).failed = true → (t.region (32 * w + i)).failed = false) ∧
    (bit v i = false → t.region (32 * w + i) = d.region (32 * w + i)) := by
  intro t
  have hother (k : Nat) (_ : k ∈ (List.range 32).filter (bit v)) (hk : k ≠ i) (x : Dev) :
      (entryRetry (32 * w + k) x).region (32 * w + i) = x.region (32 * w + i) := (entryRetry_spec x _).2.1 _ (by omega)
  constructor
  · intro hb hf
    obtain ⟨x, hx, ht⟩ := forEach_once (R := fun a b : Dev => b.region (32 * w + i) = a.region (32 * w + i)) (fun _ => rfl)
      (fun _ _ _ h k => k.trans h) (List.mem_filter.2 ⟨List.mem_range.2 hi, hb⟩) (List.nodup_range.filter _) hother d
    rw [ht]
    exact (entryRetry_spec x _).1 (by rwa [hx])
  · intro hb
    refine forEach_rel (R := fun a b : Dev => b.region (32 * w + i) = a.region (32 * w + i)) (fun _ => rfl)
      (fun _ _ _ h k => k.trans h) (fun k hk => hother k hk ?_) d
    rintro rfl
    simp [hb] at hk

/-! ## Blocks that do not ungate (R398) -/

theorem ungateTimeout_waits (h : (d.region r).ungating.contains page = false ∨ d.now < (d.region r).ungateAt + 10) :
    ungateTimeout r page d = d := by
  refine if_neg ?_
  rw [Bool.and_eq_true, decide_eq_true_eq]
  rintro ⟨hc, ht⟩
  obtain h | h := h
  · exact absurd (hc.symm.trans h) (by decide)
  · omega

/-- The region as a block of it does not ungate. -/
def ungateFailed (d : Dev) (r page : Nat) : Region :=
  { d.region r with st := .run, entry := none, ungating := (d.region r).ungating.erase page, gated := (d.region r).gated ++ [page] }

theorem ungateTimeout_due (hc : (d.region r).ungating.contains page = true) (ht : (d.region r).ungateAt + 10 ≤ d.now) :
    ungateTimeout r page d = (((d.setRegion r (d.ungateFailed r page)).logRaised
      { dom := .region r, srcPage := 0x008, srcBit := 1 }).err 0x008 1).pageFault page 31 :=
  if_pos (by rw [hc, Bool.true_and]; exact decide_eq_true ht)

/-- A page in FAULT keeps every register but its state and those of the error log. -/
theorem pageFault_reg (d : Dev) (p b : Nat) {q off : Nat} (ho : off < 4096) (hp : q ≠ p ∨ off ≠ 0x010) (hl : (q, off) ∉ logRegs) :
    (d.pageFault p b).reg q off = d.reg q off :=
  ((logContained_logs (d.setPageState p 5) _).onlyRegs q off ho hl).trans (reg_setReg_other _ _ _ _ _ _ hp ho (by omega))

theorem pageState_pageFault (d : Dev) (p b : Nat) : (d.pageFault p b).pageState p = 5 := by
  have hlog : (p, 0x010) ∉ logRegs := by
    simp only [logRegs, errRegs, eventRegs, List.mem_append, List.mem_cons, Prod.ext_iff, List.not_mem_nil, or_false]
    omega
  refine (pageState_of_reg ((logContained_logs (d.setPageState p 5) _).onlyRegs p 0x010 (by omega) hlog)).trans ?_
  exact field_setField_same d p 0x010 3 0 5 (by omega)

/-- A block that does not ungate leaves its region in RUN and its page in FAULT (R398). -/
theorem ungateTimeout_spec (hc : (d.region r).ungating.contains page = true) (ht : (d.region r).ungateAt + 10 ≤ d.now) :
    ((ungateTimeout r page d).region r).st = .run ∧ (ungateTimeout r page d).pageState page = 5 ∧
    (ungateTimeout r page d).flag 0x008 0x014 1 = true := by
  have hset : (d.setRegion r (d.ungateFailed r page)).region r = d.ungateFailed r page := region_setRegion_same _ _ _
  have hawake : (d.setRegion r (d.ungateFailed r page)).asleepRegion r = false := by
    unfold asleepRegion
    rw [hset]
    rfl
  rw [ungateTimeout_due hc ht]
  generalize d.setRegion r (d.ungateFailed r page) = x at *
  have hstirs := ((logRaised_stirs x { dom := .region r, srcPage := 0x008, srcBit := 1 }).trans (err_stirs _ 0x008 1)).trans
    (pageFault_stirs _ page 31)
  refine ⟨?_, pageState_pageFault _ page 31, ?_⟩
  · rw [hstirs.region (.inr (.inr hawake)), hset]
    rfl
  · rw [flag_of_reg (pageFault_reg _ page 31 (by omega) (.inr (by omega)) (by simp [logRegs, errRegs, eventRegs]))]
    exact flag_err _ _ _ (by omega)

end Dev
end Sys2Proof.Machine
end
section
/-!
What follows from a change of the clocks (R411–R424): how far it leaves memory, places and regions, and the microphones that run from PLL1.
-/
namespace Sys2Proof.Machine
namespace Dev

variable {d e : Dev}

/-! ## Clocks and regions -/

/-- From `d` to `e` memory, its places and written bits, a request for OFF and the microphones' mode stand, and the regions are no more than
stirred. -/
def Calm (d e : Dev) : Prop := (e.mem, e.places, e.written, e.offReq) = (d.mem, d.places, d.written, d.offReq) ∧
  e.reg 0x03A 0x044 = d.reg 0x03A 0x044 ∧ d.Stirs e

theorem Calm.refl (d : Dev) : d.Calm d := ⟨rfl, rfl, .refl d⟩

theorem Calm.trans {f : Dev} (h : d.Calm e) (k : e.Calm f) : d.Calm f := by
  obtain ⟨hm, hr, hs⟩ := h
  obtain ⟨km, kr, ks⟩ := k
  exact ⟨km.trans hm, kr.trans hr, hs.trans ks⟩

theorem Calm.ite (c : Prop) [Decidable c] {a b : Dev} (ha : d.Calm a) (hb : d.Calm b) : d.Calm (if c then a else b) := by
  split
  · exact ha
  · exact hb

theorem Calm.mem (h : d.Calm e) : e.mem = d.mem := congrArg (·.1) h.1
theorem Calm.places (h : d.Calm e) : e.places = d.places := congrArg (·.2.1) h.1
theorem Calm.written (h : d.Calm e) : e.written = d.written := congrArg (·.2.2.1) h.1
theorem Calm.offReq (h : d.Calm e) : e.offReq = d.offReq := congrArg (·.2.2.2) h.1
theorem Calm.micCur (h : d.Calm e) : e.micCur = d.micCur := micCur_of_reg h.2.1
theorem Calm.stirs (h : d.Calm e) : d.Stirs e := h.2.2

/-- An update of none of these, and of no register. -/
theorem Calm.fields (h : d.Calm e) {f : Dev}
    (hr : (f.regs, f.pkg, f.mem, f.places, f.written, f.offReq, f.regions) =
      (e.regs, e.pkg, e.mem, e.places, e.written, e.offReq, e.regions)) :
    d.Calm f := by
  have hregs : f.regs = e.regs := congrArg (·.1) hr
  have hpkg : f.pkg = e.pkg := congrArg (·.2.1) hr
  have hkept : (f.mem, f.places, f.written, f.offReq) = (e.mem, e.places, e.written, e.offReq) :=
    congrArg (fun x => (x.2.2.1, x.2.2.2.1, x.2.2.2.2.1, x.2.2.2.2.2.1)) hr
  refine h.trans ⟨hkept, ?_, .of_regions (congrArg (·.2.2.2.2.2.2) hr)⟩
  unfold reg
  rw [hregs, hpkg]

theorem Calm.setReg (h : d.Calm e) {p off : Nat} (v : Word) (hp : p ≠ 0x03A) (ho : off < 4096) : d.Calm (e.setReg p off v) :=
  h.trans ⟨rfl, reg_setReg_other _ _ _ _ _ _ (.inl hp.symm) (by omega) ho, .of_regions rfl⟩

theorem Calm.setField (h : d.Calm e) {p off : Nat} (hi lo v : Nat) (hp : p ≠ 0x03A) (ho : off < 4096) : d.Calm (e.setField p off hi lo v) :=
  h.setReg _ hp ho

theorem Calm.setFlag (h : d.Calm e) {p off : Nat} (i : Nat) (v : Bool) (hp : p ≠ 0x03A) (ho : off < 4096) : d.Calm (e.setFlag p off i v) :=
  h.setReg _ hp ho

theorem Calm.count (h : d.Calm e) {p off : Nat} (n : Nat) (hp : p ≠ 0x03A) (ho : off < 4096) : d.Calm (e.count p off n) := h.setReg _ hp ho

theorem Calm.err (h : d.Calm e) (p b : Nat) : d.Calm (e.err p b) := by
  have hs := err_signals e p b
  refine h.trans ⟨by rw [hs], err_onlyRegs e p b _ _ (by omega) ?_, err_stirs e p b⟩
  simp only [errRegs, eventRegs, List.mem_append, List.mem_cons, Prod.ext_iff, List.not_mem_nil, or_false]
  omega

/-- The clocks that a PLL's request moves. -/
theorem Calm.pll (h : d.Calm e) {f : Dev} (hp : e.PllMoves f) : d.Calm f :=
  h.trans ⟨by rw [hp.1], hp.reg (by omega) (by omega), .of_regions (by rw [hp.1])⟩

theorem calm_traceClock (d : Dev) : d.Calm d.traceClock := by
  unfold traceClock
  refine .ite _ ?_ (.refl d)
  have hfresh : d.Calm d.fresh.2 := (Calm.refl d).fields rfl
  generalize d.fresh = f at hfresh
  obtain ⟨v, x⟩ := f
  exact (hfresh.fields (f := { x with trace := _ }) rfl).setReg _ (by omega) (by omega)

theorem calm_rootFollow (d : Dev) : d.Calm d.rootFollow :=
  .ite _ (.refl d) (((Calm.refl d).setReg _ (by omega) (by omega)).trans (calm_traceClock _))

theorem calm_rootStart (d : Dev) (t : Nat) : d.Calm (d.rootStart t) := ((Calm.refl d).fields rfl).setReg _ (by omega) (by omega)

theorem calm_rootMove (d : Dev) (t : Nat) : d.Calm (d.rootMove t) := by
  have hstopped : d.Calm { d with clk := { d.clk with target := none } } := (Calm.refl d).fields rfl
  have hcounted := ((hstopped.setFlag (p := 0x012) (off := 0x044) 4 false (by omega) (by omega)).setField (p := 0x012) (off := 0x044)
    1 0 t (by omega) (by omega)).count (p := 0x012) (off := 0x04C) 1 (by omega) (by omega)
  exact hcounted.trans (calm_rootFollow _)

theorem calm_rootFall (d : Dev) : d.Calm d.rootFall := ((calm_rootMove d 0).setReg _ (by omega) (by omega)).err _ 1

theorem calm_rootCheck (d : Dev) : d.Calm d.rootCheck := by
  unfold rootCheck
  extract_lets dead
  exact .ite _ (calm_rootFall d) (.refl d)

theorem calm_pll0Follow (d : Dev) : d.Calm d.pll0Follow := .ite _ (.refl d) ((Calm.refl d).setReg _ (by omega) (by omega))

theorem calm_pllStarts (a b : Bool) (d : Dev) : d.Calm (d.pllStarts a b) := by
  unfold pllStarts
  extract_lets x
  have hx : d.Calm x := .ite _ ((Calm.refl d).setReg _ (by omega) (by omega)) (.refl d)
  exact .ite _ (hx.setReg _ (by omega) (by omega)) hx

theorem calm_clkAuto (d : Dev) : d.Calm d.clkAuto := by
  unfold clkAuto
  refine .ite _ (.refl d) (.ite _ ?_ (.ite _ (.ite _ (.refl d) (calm_rootStart d 0)) (.ite _ ?_ (.refl d))))
  · extract_lets src x
    have hx : d.Calm x := (Calm.refl d).fields rfl
    exact .ite _ (hx.trans (calm_rootStart x 2)) hx
  · extract_lets keep
    have hoff : d.Calm { d with clk := { d.clk with pll0Auto := false, xtaAuto := d.clk.xtaAuto && keep } } := (Calm.refl d).fields rfl
    exact hoff.pll (clkStops_moves _)

theorem calm_lostBit (s : Nat) (d : Dev) : d.Calm (lostBit s d) :=
  ((((Calm.refl d).setReg _ (by omega) (by omega)).pll ((PllMoves.refl _).setRdy s false))).err _ 0

/-! ## The settling of the clocks, with the microphones -/

section
variable {R : Dev → Dev → Prop} (hr : ∀ d, R d d) (ht : ∀ a b c, R a b → R b c → R a c) (hc : ∀ d e, d.Calm e → R d e)
  (hm : ∀ d : Dev, R d d.micPllLost)
include hr ht hc hm

/-- A PLL that loses lock calms all but what the microphones make of PLL1's loss. -/
theorem pllLose_rel {n : Nat} (hn : n < 3) (d : Dev) : R d (pllLose n d) := by
  unfold pllLose
  by_cases hlock : d.pllLocked n = true
  · rw [if_pos hlock]
    extract_lets x y
    have hx : d.Calm x := (Calm.refl d).pll ((PllMoves.refl d).setLock hn false)
    have hy : d.Calm y := hx.trans (.ite _ (calm_lostBit (4 + n) x) ((Calm.refl x).pll ((PllMoves.refl x).setRdy (4 + n) false)))
    split
    · exact ht _ _ _ (hc _ _ hy) (hm y)
    · exact hc _ _ hy
  · rw [if_neg hlock]
    exact hr d

theorem pllDeaths_rel (d : Dev) : R d d.pllDeaths := by
  have hdie {n : Nat} (hn : n < 3) (x : Dev) : R x (if x.pllOn n && !x.pllRef n then x.pllLose n else x) := by
    split
    · exact pllLose_rel hr ht hc hm hn x
    · exact hr x
  exact ht _ _ _ (ht _ _ _ (hdie (by omega) d) (hdie (by omega) _)) (hdie (by omega) _)

theorem clkSettle_rel (d old : Dev) : R d (d.clkSettle old) := by
  unfold clkSettle
  extract_lets x y
  have hx : d.Calm x := (calm_pll0Follow d).trans (calm_clkAuto _)
  have hstop : d.Calm (clkStops (pllStarts (!old.pllOn 0) (!old.pllOn 1) x)) := (hx.trans (calm_pllStarts _ _ x)).pll (clkStops_moves _)
  have hdead := ht _ _ _ (hc _ _ hstop) (pllDeaths_rel hr ht hc hm (clkStops (pllStarts (!old.pllOn 0) (!old.pllOn 1) x)))
  exact ht _ _ _ hdead (hc _ _ (((calm_rootCheck _).trans (calm_pll0Follow y)).trans (calm_rootFollow _)))

end

/-- Where the microphones do not run from PLL1, the settling of the clocks is calm. -/
theorem clkSettle_calm (h : d.MicsOffPll) (old : Dev) : d.Calm (d.clkSettle old) := by
  refine clkSettle_rel (R := fun a b => a.MicsOffPll → a.Calm b) (fun a _ => .refl a) (fun a b c hab hbc ha => ?_) (fun a b hab _ => hab)
    (fun a ha => ?_) d old h
  · have hb := hab ha
    refine hb.trans (hbc ?_)
    unfold MicsOffPll at *
    rwa [hb.micCur]
  · obtain ⟨h4, h5, h6⟩ := ha
    rw [micPllLost_eq, if_neg (by simp [h4, h5, h6])]
    exact .refl a

end Dev
end Sys2Proof.Machine
end
section
/-!
Phase 2 of an entry (R283, R391, R399): what the frames of a region lose, and the state that the region reaches.
-/
namespace Sys2Proof.Machine

theorem exec_phase2Done (s : State) (r : Fin 96) : exec (.phase2Done r) s = onState (fun s =>
    let d := Dev.phase2Done r.val s.dev
    let s : State := { s with dev := d }
    if d.allOff then s.powerDown else s) s := rfl

/-- The indexes of a store in canonical form are distinct. -/
theorem Sparse.nodup_of_wf {α : Type} [DecidableEq α] {dflt : Nat → α} {m : Sparse α} (h : Sparse.wf dflt m = true) :
    (m.map (·.1)).Nodup := by
  induction m with
  | nil => exact List.nodup_nil
  | cons x r ih =>
    obtain ⟨j, v⟩ := x
    simp only [Sparse.wf, Bool.and_eq_true, List.all_eq_true, decide_eq_true_eq] at h
    obtain ⟨⟨hlt, -⟩, hr⟩ := h
    refine List.nodup_cons.2 ⟨fun hmem => ?_, ih hr⟩
    obtain ⟨y, hy, hyj⟩ := List.mem_map.1 hmem
    dsimp only at hyj
    have hrise : j < y.1 := hlt y hy
    omega

namespace Dev

variable {d e : Dev} {p q r : Nat}

/-! ## Frames that lose their bytes (R283, R399) -/

theorem place_setPlace (d : Dev) (p : Nat) (x : Place) (k : Nat) : (d.setPlace p x).place k = if k = p then x else d.place k :=
  Sparse.get_put _ _ _ _ _

/-- A page at its reset entry has no frame on chip. -/
theorem frameRegion_atReset (p : Nat) : frameRegion (Place.atReset p) = none := by
  unfold Place.atReset
  split_ifs <;> rfl

/-- The place of page `p` as its frame is lost. -/
def lostPlace (x : Place) : Place :=
  if x.clean then { x with tier := 3, frame := 0, clean := false, allWritten := true } else { x with allWritten := false, lostAll := 0 }

/-- The written bit that a line itself keeps. -/
def ownWritten (d : Dev) (l : Nat) : Bool := Sparse.get (fun _ => false) d.written l

theorem pageLost_place (d : Dev) (p k : Nat) : (d.pageLost p).place k = if k = p then lostPlace (d.place p) else d.place k := by
  unfold pageLost lostPlace
  extract_lets x
  split
  · exact place_setPlace _ _ _ _
  · exact place_setPlace _ _ _ _

theorem pageLost_written_other {l : Nat} (h : l / 1024 ≠ p) (d : Dev) : (d.pageLost p).ownWritten l = d.ownWritten l := by
  unfold pageLost
  extract_lets x
  split
  · rfl
  · exact Sparse.get_forget_of_not_picked _ _ (fun l => l / 1024 == p) _ (beq_false_of_ne h)

theorem pageLost_written (hc : (d.place p).clean = false) {l : Nat} (h : l / 1024 = p) : (d.pageLost p).ownWritten l = false := by
  unfold pageLost
  extract_lets x
  rw [if_neg (by simp [x, hc])]
  exact Sparse.get_forget_of_picked _ _ (fun l => l / 1024 == p) _ (beq_iff_eq.2 h)

theorem pageLost_byte {a : Nat} (h : a / 65536 ≠ p) (d : Dev) : (d.pageLost p).byte a = d.byte a := by
  unfold pageLost
  extract_lets x
  split
  · rfl
  · exact Sparse.get_forget_of_not_picked _ _ (fun a => a / 65536 == p) _ (beq_false_of_ne h)

/-- A page in a frame of region `r` is among the region's pages. -/
theorem mem_regionPages (h : frameRegion (d.place p) = some r) : p ∈ d.regionPages r := by
  have hne : d.place p ≠ Place.atReset p := by
    intro heq
    rw [heq, frameRegion_atReset] at h
    exact absurd h (by simp)
  exact List.mem_map.2 ⟨(p, d.place p), List.mem_filter.2 ⟨Sparse.mem_of_get_ne hne, by simp [h]⟩, rfl⟩

theorem nodup_regionPages (h : Sparse.wf Place.atReset d.places = true) : (d.regionPages r).Nodup :=
  (Sparse.nodup_of_wf h).sublist (List.filter_sublist.map _)

/-- A page whose frame region `r` loses. -/
theorem framesLost_page (hwf : Sparse.wf Place.atReset d.places = true) (h : frameRegion (d.place p) = some r) :
    (framesLost r d).place p = lostPlace (d.place p) ∧
    ((d.place p).clean = false → ∀ l, l / 1024 = p → (framesLost r d).ownWritten l = false) := by
  obtain ⟨x, ⟨hxp, hxw⟩, hp, hw⟩ := forEach_once
    (R := fun a b : Dev => b.place p = a.place p ∧ ∀ l, l / 1024 = p → b.ownWritten l = a.ownWritten l) (fun _ => ⟨rfl, fun _ _ => rfl⟩)
    (fun _ _ _ h k => ⟨k.1.trans h.1, fun l hl => (k.2 l hl).trans (h.2 l hl)⟩) (mem_regionPages h) (nodup_regionPages hwf)
    (f := fun k x => x.pageLost k) (fun k _ hne x => ⟨by rw [pageLost_place, if_neg (Ne.symm hne)],
      fun l hl => pageLost_written_other (by rw [hl]; exact Ne.symm hne) x⟩) d
  unfold framesLost
  refine ⟨?_, fun hc l hl => ?_⟩
  · rw [hp, pageLost_place, if_pos rfl, hxp]
  · rw [hw l hl, pageLost_written (by rwa [hxp]) hl]

/-- Direct SRAM is in no page that a frame holds. -/
theorem framesLost_byte (h : ∀ k ∈ d.regionPages r, k < 0x400000) {a : Nat} (ha : directSram a) : (framesLost r d).byte a = d.byte a := by
  have hfar : 0x400000 ≤ a / 65536 := by
    rw [directSram_iff] at ha
    omega
  exact forEach_rel (R := fun a' b : Dev => b.byte a = a'.byte a) (fun _ => rfl) (fun _ _ _ h k => k.trans h)
    (fun k hk x => pageLost_byte (by have := h k hk; omega) x) d

/-- Beside places, bytes and their bits nothing moves. -/
theorem framesLost_frame (r : Nat) (d : Dev) : framesLost r d =
    { d with mem := (framesLost r d).mem, written := (framesLost r d).written, poison := (framesLost r d).poison,
             places := (framesLost r d).places } := by
  refine forEach_rel (R := fun a b : Dev => b = { a with mem := b.mem, written := b.written, poison := b.poison, places := b.places })
    (fun _ => rfl) (fun a b c h k => by rw [k, h]) (fun k _ x => ?_) d
  unfold pageLost
  extract_lets y
  split <;> rfl

/-! ## The state reached (R391, R399) -/

/-- A target rests on the registers, the work of the blocks and the votes, and not on the regions. -/
theorem target_of_fields (h : (e.regs, e.pkg, e.episodes, e.tasks, e.cores) = (d.regs, d.pkg, d.episodes, d.tasks, d.cores))
    (hs : (e.demand, e.waits, e.held, e.migs, e.pf) = (d.demand, d.waits, d.held, d.migs, d.pf)) (r : Nat) : e.target r = d.target r := by
  cases d
  cases e
  dsimp only at h hs
  cases h
  cases hs
  rfl

/-- A region in the state that its target asks for stays in it. -/
theorem settle_reached (h : (d.region r).st = .sleep ∧ d.target r = 3 ∨ (d.region r).st = .deep ∧ d.target r = 4) :
    d.settle r = d.setRegion r (d.retargeted r) := by
  obtain ⟨hst, -⟩ := retargeted_fields d r
  unfold settle
  extract_lets t x0 x start wake d'
  have hx : d.retargeted r = x := rfl
  rw [hx] at hst ⊢
  obtain ⟨hs, ht⟩ | ⟨hs, ht⟩ := h
  · have htx : t = 3 := ht
    rw [hst, hs, htx]
    rfl
  · have htx : t = 4 := ht
    rw [hst, hs, htx]
    rfl

/-- The region as phase 2 of its entry ends. -/
def reached (d : Dev) (r : Nat) (e : Entry) : Region :=
  { d.region r with st := e.target, entry := none, gated := [], retries := 0, again := false }

/-- The frames of a region in DEEP that are not retained (R283, R399). -/
def notRetained (r : Nat) (t : RegSt) (d : Dev) : Dev := if t = .deep && !d.flag (regionPage r) 0x040 8 then framesLost r d else d

theorem phase2Done_eq {e : Entry} (he : (d.region r).entry = some e) (h2 : e.phase2 = true) : phase2Done r d =
    (let d' := notRetained r e.target (d.setRegion r (d.reached r e))
      if e.target = .off then d'.clkSettle d
      else (if d'.offReq then offStart r d' else d'.settle r).clkSettle d) := by
  unfold phase2Done
  extract_lets x
  rw [he]
  dsimp only
  rw [if_neg (by simp [h2])]
  rfl

theorem notRetained_frame (r : Nat) (t : RegSt) (d : Dev) : notRetained r t d =
    { d with mem := (notRetained r t d).mem, written := (notRetained r t d).written, poison := (notRetained r t d).poison,
             places := (notRetained r t d).places } := by
  unfold notRetained
  split
  · exact framesLost_frame r d
  · rfl

/-- Phase 2 of an entry into the state that the target asks for: the region reaches it, and the clocks settle. -/
theorem phase2Done_calm {e : Entry} (hm : d.MicsOffPll) (he : (d.region r).entry = some e) (h2 : e.phase2 = true) (ho : d.offReq = false)
    (ht : e.target = .sleep ∨ e.target = .deep) (hc : d.target r = e.target.code) :
    ∃ w : Region, w.st = e.target ∧ w.entry = none ∧
      ((notRetained r e.target (d.setRegion r (d.reached r e))).setRegion r w).Calm (phase2Done r d) := by
  have hframe := notRetained_frame r e.target (d.setRegion r (d.reached r e))
  have hregion : (notRetained r e.target (d.setRegion r (d.reached r e))).region r = d.reached r e := by
    rw [hframe]
    exact region_setRegion_same d r (d.reached r e)
  have htarget : (notRetained r e.target (d.setRegion r (d.reached r e))).target r = e.target.code := by
    rw [hframe, ← hc]
    exact target_of_fields rfl rfl r
  have hoff : (notRetained r e.target (d.setRegion r (d.reached r e))).offReq = false := by
    rw [hframe]
    exact ho
  have hcur : (notRetained r e.target (d.setRegion r (d.reached r e))).micCur = d.micCur := by
    rw [hframe]
    exact micCur_of_reg rfl
  have hdone : phase2Done r d = ((notRetained r e.target (d.setRegion r (d.reached r e))).settle r).clkSettle d := by
    rw [phase2Done_eq he h2]
    dsimp only
    rw [if_neg (by rcases ht with ht | ht <;> simp [ht]), if_neg (by simp [hoff])]
  rw [hdone]
  generalize notRetained r e.target (d.setRegion r (d.reached r e)) = y at *
  obtain ⟨hst, hent, -, -⟩ := retargeted_fields y r
  rw [hregion] at hst hent
  have hreached : (y.region r).st = .sleep ∧ y.target r = 3 ∨ (y.region r).st = .deep ∧ y.target r = 4 := by
    rw [hregion, htarget]
    rcases ht with ht | ht
    · exact .inl ⟨ht, by rw [ht]; rfl⟩
    · exact .inr ⟨ht, by rw [ht]; rfl⟩
  refine ⟨y.retargeted r, hst, hent, ?_⟩
  rw [settle_reached hreached]
  refine clkSettle_calm ?_ d
  have hset : (y.setRegion r (y.retargeted r)).micCur = y.micCur := micCur_of_reg (reg_setRegion _ _ _ _ _)
  unfold MicsOffPll at *
  rwa [hset, hcur]

theorem notRetained_kept {t : RegSt} (h : t = .sleep ∨ d.flag (0x200 + r) 0x040 8 = true) : notRetained r t d = d := by
  refine if_neg ?_
  rw [Bool.and_eq_true, decide_eq_true_eq]
  rintro ⟨hd, hf⟩
  obtain rfl | h := h
  · exact absurd hd (by decide)
  · have hflag : d.flag (regionPage r) 0x040 8 = true := h
    simp [hflag] at hf

theorem notRetained_lost (h : d.flag (0x200 + r) 0x040 8 = false) : notRetained r .deep d = framesLost r d := by
  have hflag : d.flag (regionPage r) 0x040 8 = false := h
  exact if_pos (by simp [hflag])

theorem lineWritten_of_lost {l : Nat} (hl : l < 0x100000000) (hp : (d.place (l / 1024)).tier ≠ 3 ∧ (d.place (l / 1024)).tier ≠ 4)
    (ha : (d.place (l / 1024)).allWritten = false) (hw : d.ownWritten l = false) : d.lineWritten l = false := by
  have hspan : spanOf (l * 64) = .placed := if_pos (by omega)
  have hown : Sparse.get (fun _ => false) d.written l = false := hw
  unfold lineWritten
  rw [hspan]
  simp [hp.1, hp.2, ha, hown]

end Dev
end Sys2Proof.Machine
end
section
/-!
What a front end that loses PLL1 makes of the regions (R121, R283, R293–R309, R391): its records go through Skein and the scheduler, and
none of it takes a region out of OFF or out of retirement.
-/
namespace Sys2Proof.Machine
namespace Dev

variable {d e : Dev}

/-- From `d` to `e` a request for OFF stands, and every region that is off or retired stays so. -/
def Rests (d e : Dev) : Prop := e.offReq = d.offReq ∧
  ∀ k, (d.region k).st = .off ∨ (d.region k).st = .retired → (e.region k).st = (d.region k).st

theorem Rests.refl (d : Dev) : d.Rests d := ⟨rfl, fun _ _ => rfl⟩

theorem Rests.trans {a b c : Dev} (h : a.Rests b) (k : b.Rests c) : a.Rests c := by
  obtain ⟨ho, hst⟩ := h
  obtain ⟨ko, kst⟩ := k
  exact ⟨ko.trans ho, fun r hr => (kst r (by rwa [hst r hr])).trans (hst r hr)⟩

/-! ## Chains of updates -/

/-- An update of other fields. -/
theorem Rests.fields (h : d.Rests e) {f : Dev} (hf : (f.regions, f.offReq) = (e.regions, e.offReq)) : d.Rests f := by
  have hregions : f.regions = e.regions := congrArg (·.1) hf
  refine h.trans ⟨congrArg (·.2) hf, fun k _ => ?_⟩
  unfold region
  rw [hregions]

theorem Rests.stirs (h : d.Rests e) {f : Dev} (hs : e.Stirs f) (ho : f.offReq = e.offReq) : d.Rests f := h.trans ⟨ho, fun k => (hs k).2.2⟩

theorem rests_of_calm (h : d.Calm e) : d.Rests e := (Rests.refl d).stirs h.stirs h.offReq

theorem Rests.setReg (h : d.Rests e) (p off : Nat) (v : Word) : d.Rests (e.setReg p off v) := h.fields rfl
theorem Rests.setField (h : d.Rests e) (p off hi lo v : Nat) : d.Rests (e.setField p off hi lo v) := h.fields rfl
theorem Rests.setFlag (h : d.Rests e) (p off i : Nat) (v : Bool) : d.Rests (e.setFlag p off i v) := h.fields rfl
theorem Rests.setPageState (h : d.Rests e) (p v : Nat) : d.Rests (e.setPageState p v) := h.fields rfl
theorem Rests.setPair48 (h : d.Rests e) (p off v : Nat) : d.Rests (e.setPair48 p off v) := h.fields rfl
theorem Rests.setArmed (h : d.Rests e) (n t : Nat) : d.Rests (e.setArmed n t) := h.fields rfl
theorem Rests.count (h : d.Rests e) (p off n : Nat) : d.Rests (e.count p off n) := h.fields rfl

theorem Rests.err (h : d.Rests e) (p b : Nat) : d.Rests (e.err p b) := h.stirs (err_stirs e p b) (by rw [err_signals e p b])

theorem Rests.settle (h : d.Rests e) (r : Nat) : d.Rests (e.settle r) := by
  refine h.trans ⟨by rw [settle_signals e r], fun k hk => ?_⟩
  by_cases hkr : k = r
  · obtain ⟨-, -, hst, -⟩ := settle_region e r
    subst hkr
    exact hst hk
  · rw [settle_region_other hkr]

theorem Rests.ite (c : Prop) [Decidable c] {a b : Dev} (ha : d.Rests a) (hb : d.Rests b) : d.Rests (if c then a else b) := by
  split
  · exact ha
  · exact hb

theorem Rests.when (h : d.Rests e) (c : Prop) [Decidable c] {x : Dev} (hx : e.Rests x) : d.Rests (if c then x else e) :=
  .ite c (h.trans hx) h

theorem Rests.forEach (h : d.Rests e) (l : List Nat) {f : Nat → Dev → Dev} (hf : ∀ n x, Rests x (f n x)) : d.Rests (forEach l f e) :=
  h.trans (forEach_rel Rests.refl (fun _ _ _ => Rests.trans) (fun n _ x => hf n x) e)

theorem Rests.foldl {α : Type} (h : d.Rests e) (l : List α) {f : Dev → α → Dev} (hf : ∀ a x, Rests x (f x a)) : d.Rests (l.foldl f e) := by
  induction l generalizing e with
  | nil => exact h
  | cons a l ih => exact ih (h.trans (hf a e))

theorem Rests.settleEach (h : d.Rests e) (l : List Nat) : d.Rests (Machine.forEach l (fun r d => d.settle r) e) :=
  h.forEach l fun r x => (Rests.refl x).settle r

theorem Rests.work (h : d.Rests e) (p : Nat) (busy : Dev → Bool) {ended : Dev → Dev} (he : ∀ x : Dev, x.Rests (ended x)) :
    d.Rests (work p busy ended e) :=
  .ite _ (.ite _ (h.setPageState p 2) h) (.ite _ (.ite _ h (h.setPageState p 1))
    (.ite _ (.ite _ h ((Rests.setPageState (e := e.resetCounters p) (h.fields (by rfl)) p 0).trans (he _))) h))

/-! ## Writes of Skein (R265–R273) -/

theorem Rests.setBytes (h : d.Rests e) (a : Nat) (l : List Byte) : d.Rests (e.setBytes a l) := by
  rw [setBytes_frame]
  exact h.fields (by rfl)

theorem Rests.switchPage (h : d.Rests e) (p t f : Nat) : d.Rests (e.switchPage p t f) := by
  have hcount (x : Dev) (off : Nat) : x.Rests (x.count 0x0D0 off) := (Rests.refl x).count _ _ _
  exact .when (.when (.when (.count (h.fields (by rfl)) _ _ _) _ (hcount _ _)) _ (hcount _ _)) _ (hcount _ _)

theorem rests_makeRoom (k : Nat) : ∀ (x : Place) (t : Nat) (d d' : Dev), makeRoom x k t d = some d' → d.Rests d' := by
  induction k with
  | zero =>
    intro x t d d' h
    simp [makeRoom] at h
  | succ k ih =>
    intro x t d d' h
    unfold makeRoom at h
    obtain ⟨e, -, he⟩ := List.exists_of_findSome?_eq_some h
    split at he
    · exact Option.some.inj he ▸ (Rests.refl d).switchPage _ _ _
    · simp only [Option.bind_eq_some_iff, Option.map_eq_some_iff] at he
      obtain ⟨d1, h1, f, -, rfl⟩ := he
      exact (ih _ _ _ _ h1).switchPage _ _ _

theorem rests_giveFrame {p : Nat} (h : d.giveFrame p = some e) : d.Rests e := by
  unfold giveFrame at h
  dsimp only at h
  split at h
  · obtain rfl := Option.some.inj h
    exact (Rests.refl d).fields (by rfl)
  · simp only [Option.bind_eq_some_iff, Option.map_eq_some_iff] at h
    obtain ⟨e1, he, tf, -, rfl⟩ := h
    obtain ⟨t, -, ht⟩ := List.exists_of_findSome?_eq_some he
    exact (rests_makeRoom _ _ _ _ _ ht).fields (by rfl)

theorem Rests.queueMig (h : d.Rests e) (m : Migration) : d.Rests (e.queueMig m) := .ite _ h (h.fields (by rfl))

theorem Rests.touch (h : d.Rests e) (p : Nat) : d.Rests (e.touch p) := by
  unfold Dev.touch
  exact .when (h.fields (by rfl)) _ (.queueMig (.refl _) _)

theorem Rests.lowWater (h : d.Rests e) : d.Rests e.lowWater := by
  refine h.forEach _ fun t x => ?_
  split
  · split
    · exact (Rests.refl x).queueMig _
    · exact .refl x
  · exact .refl x

theorem rests_writeLine (x : Dev × Bool) (l : Nat × List Byte) : x.1.Rests (writeLine x l).1 := by
  unfold writeLine
  simp only
  split
  · split
    · exact .refl _
    · next e he =>
      have hframe : x.1.Rests e := by
        split at he
        · exact rests_giveFrame he
        · exact Option.some.inj he ▸ .refl _
      have hstore := Rests.setBytes (e := e.setPlace (pageOf l.1) { e.place (pageOf l.1) with clean := false })
        (hframe.fields (by rfl)) l.1 l.2
      exact .ite _ (hstore.fields (by rfl)) (hstore.fields (by rfl))
  · exact ((Rests.refl x.1).setBytes l.1 l.2).fields (by rfl)

theorem Rests.storeLines (h : d.Rests e) (a : Nat) (data : List Byte) : d.Rests (e.storeLines a data).1 := by
  have hl (l : List (Nat × List Byte)) : ∀ x : Dev × Bool, x.1.Rests (l.foldl writeLine x).1 := by
    induction l with
    | nil => exact fun _ => .refl _
    | cons y r ih => exact fun x => (rests_writeLine x y).trans (ih _)
  exact h.trans (hl _ _)

theorem Rests.dropWrite (h : d.Rests e) (who : MemAgent) : d.Rests (e.dropWrite who) := ((h.count _ _ _).setReg _ _ _).err _ _

theorem Rests.whorlPart (h : d.Rests e) (l : Nat × List Byte) : d.Rests (e.whorlPart l) := by
  have hsync (c : Nat) (cfg : Bool) (n : Nat) (x : Dev) : x.Rests (x.syncTh c n cfg) := .ite _ ((Rests.refl x).setBytes _ _) (.refl x)
  unfold Dev.whorlPart
  simp only
  split_ifs
  · exact h
  · exact ((h.setBytes _ _).forEach _ (hsync _ _)).forEach _ (hsync _ _)
  · exact (h.setReg _ _ _).err _ _

theorem Rests.remoteRequest (h : d.Rests e) (who : MemAgent) (rd : Bool) (a len : Nat) (l : List Byte) :
    d.Rests (e.remoteRequest who rd a len l) := by
  unfold Dev.remoteRequest
  simp only
  rw [sendPacket_links]
  exact h.fields (by rfl)

theorem rests_writePart (who : MemAgent) (x : Dev × List Byte × Bool × Bool) (p : Nat × Nat) : x.1.Rests (writePart who x p).1 := by
  obtain ⟨d, data, un, ok⟩ := x
  obtain ⟨a, n⟩ := p
  have hs := fun a => (Rests.refl d).storeLines a (data.take n)
  unfold writePart
  simp only
  split
  · exact .refl d
  · exact (Rests.refl d).foldl _ fun l x => (Rests.refl x).whorlPart l
  · exact hs _
  · exact hs _
  · split
    · exact Rests.touch ((Rests.refl d).fields (by rfl)) _
    · refine Rests.touch ?_ _
      split
      · exact (hs a).lowWater
      · exact hs a
  · split
    · exact .refl d
    · split
      · split
        · exact hs _
        · exact .refl d
      · exact (Rests.refl d).remoteRequest _ _ _ _ _

theorem Rests.put (h : d.Rests e) (who : MemAgent) (a : Nat) (data : List Byte) : d.Rests (e.put who a data) := by
  have hl (l : List (Nat × Nat)) : ∀ x : Dev × List Byte × Bool × Bool, x.1.Rests (l.foldl (writePart who) x).1 := by
    induction l with
    | nil => exact fun _ => .refl _
    | cons y r ih => exact fun x => (rests_writePart who x y).trans (ih _)
  have hw := h.trans (hl (pageParts a data.length) (e, data, false, true))
  have hu := (hw.count 0x0D0 0x04C 1).err 0x0D0 2
  unfold Dev.put Dev.write
  simp only
  split_ifs
  · exact hu
  · exact hw
  · exact hu.dropWrite who
  · exact hw.dropWrite who

/-! ## The life of a task (R293–R309) -/

theorem Rests.traceEv (h : d.Rests e) (evt slot : Nat) (t : Task) (w : Nat) : d.Rests (e.traceEv evt slot t w) :=
  .ite _ (Rests.setField (h.fields (by rfl)) _ _ _ _ _) h

theorem Rests.makeReady (h : d.Rests e) (s : Nat) (t : Task) : d.Rests (e.makeReady s t) := Rests.traceEv (h.fields (by rfl)) _ _ _ _

theorem Rests.makeEligible (h : d.Rests e) (s : Nat) (t : Task) : d.Rests (e.makeEligible s t) :=
  .ite _ (h.fields (by rfl)) (h.makeReady s t)

theorem Rests.dlArm (h : d.Rests e) (l : Nat) : d.Rests (e.dlArm l) := by
  unfold Dev.dlArm
  extract_lets m c es d1 d2
  have h1 : d.Rests d1 := h.setReg _ _ _
  have h2 : d.Rests d2 := h1.setReg _ _ _
  clear_value d2 d1 es
  cases es with
  | nil => exact (h1.setFlag _ _ _ _).setPair48 _ _ _
  | cons x r =>
    dsimp -zeta only
    extract_lets same d3 d4
    have h4 : d.Rests d4 := ((h2.setPair48 _ _ _).setPair48 _ _ _).setReg _ _ _
    exact .ite _ h4 (h4.setArmed _ _)

theorem Rests.escWork (h : d.Rests e) : d.Rests e.escWork := h.work _ _ fun _ => Rests.setReg ((Rests.refl _).fields (by rfl)) _ _ _

theorem Rests.leaveHeld (h : d.Rests e) (stream : Nat) (ended : Bool) : d.Rests (e.leaveHeld stream ended) := by
  unfold Dev.leaveHeld
  exact .ite _ (Rests.escWork (.settleEach (h.fields (by rfl)) _)) h

/-- What the episode of a task's stream makes of its retirement (R15). -/
theorem Rests.leaveHeldOf (h : d.Rests e) (esc : Option Nat) :
    d.Rests (match esc with
      | some stream => e.leaveHeld stream (e.sstate stream == 0)
      | none => e) := by
  cases esc with
  | none => exact h
  | some stream => exact h.leaveHeld _ _

theorem Rests.cancelTask (h : d.Rests e) (s status cf : Nat) : d.Rests (e.cancelTask s status cf) := by
  unfold Dev.cancelTask
  cases e.task s with
  | none => exact h
  | some t =>
    dsimp -zeta only
    extract_lets d1 d2 d3
    have h1 : d.Rests d1 := Rests.traceEv (h.fields (by rfl)) _ _ _ _
    have h3 : d.Rests d3 := (h1.settleEach t.voted).leaveHeldOf t.esc
    exact .ite _ (h3.dlArm _) h3

theorem Rests.taskFailed (h : d.Rests e) (t : Task) (status : Nat) : d.Rests (e.taskFailed t status) := by
  have hlogs := logContained_logs e (taskRecord t status)
  have hl : d.Rests (e.logContained (taskRecord t status)) := h.stirs (logContained_stirs _ _) (by rw [hlogs.1])
  unfold Dev.taskFailed
  extract_lets r es d1 d2 d3
  have h2 : d.Rests d2 := .ite _ (hl.fields (by rfl)) hl
  have h3 : d.Rests d3 := h2.fields (by rfl)
  exact .ite _ (h3.foldl _ fun _ x => .ite _ ((Rests.refl x).cancelTask _ _ _) (.refl x)) h3

theorem Rests.retireTask (h : d.Rests e) (s status progress cf : Nat) : d.Rests (e.retireTask s status progress cf) := by
  unfold Dev.retireTask
  cases e.task s with
  | none => exact h
  | some t =>
    refine .ite _ h ?_
    extract_lets late d1 d2 d3 d4
    have h1 : d.Rests d1 := Rests.traceEv (h.fields (by rfl)) _ _ _ _
    have hanswer := h1.setReg (ringPage t.ring) 0x084 (if status = 0x10 then 1 else 2)
    have h2 : d.Rests d2 := .ite _ (.ite _ (hanswer.count _ _ _) hanswer) h1
    have h3 : d.Rests d3 := h2.settleEach _
    have h4 : d.Rests d4 := .ite _ (h3.taskFailed t status) h3
    exact h4.leaveHeldOf t.esc

theorem Rests.promote (n : Nat) (h : d.Rests e) : d.Rests (promote n e) := by
  induction n generalizing e with
  | zero => exact h
  | succ n ih =>
    unfold Dev.promote
    split
    · exact ih (h.retireTask _ _ _ _)
    · split
      · exact ih (h.makeReady _ _)
      · exact h

theorem Rests.dlInsert (h : d.Rests e) (s : Nat) (t : Task) : d.Rests (e.dlInsert s t) :=
  .ite _ (((h.count _ _ _).traceEv _ _ _ _).makeEligible _ _)
    (.ite _ ((Rests.retireTask (h.fields (by rfl)) _ _ _ _).err _ _) ((Rests.traceEv (h.fields (by rfl)) _ _ _ _).dlArm _))

theorem Rests.accept (h : d.Rests e) (n : Nat) (by_ : Submitter) (words : List Word) (esc : Option Nat) :
    d.Rests (e.accept n by_ words esc) := by
  unfold Dev.accept
  extract_lets p s seq t bad t' d1 d2 d3 d4 d5
  have h1 : d.Rests d1 := (h.setReg _ _ _).count _ _ _
  have h2 : d.Rests d2 := .ite _ (h1.setPageState _ _) h1
  clear_value d2
  have h3 : d.Rests d3 := Rests.traceEv (h2.fields (by rfl)) _ _ _ _
  have h4 : d.Rests d4 := .ite _ (h3.err _ _) h3
  have h5 : d.Rests d5 := .ite _ (h4.cancelTask _ _ _) (.ite _ (h4.dlInsert _ _) (h4.makeEligible _ _))
  exact h5.promote _

theorem Rests.submitHw (h : d.Rests e) (n : Nat) (words : List Word) (esc : Option Nat) : d.Rests (e.submitHw n words esc).1 := by
  unfold Dev.submitHw
  simp only
  split
  · exact h.accept _ _ _ _
  · exact ((h.count _ _ _).traceEv _ _ _ _).err _ _

/-! ## Records of the microphones (R85–R92, R118, R119) -/

theorem Rests.countFrz (h : d.Rests e) (p off n : Nat) : d.Rests (e.countFrz p off n) := .ite _ h (h.setReg _ _ _)

theorem Rests.setChan (h : d.Rests e) (n : Nat) (c : Chan) : d.Rests (e.setChan n c) := h.fields rfl

theorem Rests.notify (h : d.Rests e) (n : Nat) (seq : Word) (off : Nat) : d.Rests (e.notify n seq off) := by
  unfold Dev.notify postOwedOf
  generalize hx : e.setChan n { e.chan n with owed := (e.chan n).owed ++ [(seq, off)] } = x
  have hx : d.Rests x := hx ▸ h.setChan _ _
  extract_lets owed
  exact .ite _ hx ((hx.setChan _ _).foldl owed fun _ y => (Rests.refl y).submitHw _ _ _)

theorem Rests.writeRecord (h : d.Rests e) (n : Nat) (r : Rec) : d.Rests (e.writeRecord n r) := by
  unfold Dev.writeRecord
  extract_lets p sz total wrap pad d1 off seq body d2 d3 d4 c c1 every overlaps kept c2
  have h2 : d.Rests d2 := (Rests.when h _ ((Rests.refl e).put _ _ _)).put _ _ _
  have h3 : d.Rests d3 := (h2.setReg _ _ _).setReg _ _ _
  have h4 : d.Rests d4 := .ite _ (h3.countFrz _ _ _) h3
  exact .ite _ ((h4.setChan _ _).notify _ _ _) (h4.setChan _ _)

theorem Rests.flushGaps (n : Nat) (svc : Bool) (next k : Nat) (h : d.Rests e) : d.Rests (flushGaps n svc next k e) := by
  induction k generalizing e with
  | zero => exact h
  | succ k ih =>
    unfold Dev.flushGaps
    split
    · exact h
    · exact .ite _ h (.ite _ (ih ((h.setChan _ _).writeRecord _ _)) h)

theorem Rests.addLoss (h : d.Rests e) (n cause cnt : Nat) : d.Rests (e.addLoss n cause cnt) := by
  have hnoted : d.Rests (e.lossNoted n cause cnt) := by
    unfold lossNoted
    extract_lets gaps c x
    have hx : d.Rests x := (h.setChan _ _).countFrz _ _ _
    exact .ite _ (hx.err _ _) (.ite _ (hx.err _ _) hx)
  rw [addLoss_eq]
  exact .ite _ (hnoted.flushGaps _ _ _ _) h

theorem Rests.captureOk (h : d.Rests e) (n : Nat) (svc : Bool) (r : Rec) (lost : Nat) : d.Rests (e.captureOk n svc r lost).1 := by
  have hg := h.flushGaps n svc r.payload.length 8
  unfold Dev.captureOk
  split
  · exact h
  · split
    · exact h.addLoss _ _ _
    · simp only
      split
      · exact hg.writeRecord _ _
      · exact hg.addLoss _ _ _

theorem Rests.closeMic (h : d.Rests e) (m : Nat) (r : MicRec) : d.Rests (e.closeMic m r) := by
  have hc := h.captureOk (micChan m) true { type := 2, tag := r.tag, count := r.samples.length, payload := e.micPayload r } r.samples.length
  exact .ite _ (hc.fields (by rfl)) hc

theorem rests_gainStep (d : Dev) : d.Rests d.gainStep := by
  unfold gainStep
  extract_lets g t quiet next m y
  exact Rests.setField ((Rests.refl d).fields (by rfl)) _ _ _ _ _

theorem rests_closeAudio (d : Dev) : d.Rests d.closeAudio := by
  have hclosed : d.Rests d.recordsClosed := ((Rests.refl d).foldl _ fun a x => (Rests.refl x).closeMic _ _).trans (rests_gainStep _)
  rw [closeAudio_eq]
  exact .ite _ (.refl d) (Rests.work (hclosed.fields (by rfl)) _ _ fun x => (Rests.refl x).fields (by rfl))

/-! ## The loss of PLL1's lock (R121) -/

theorem Rests.askPll1 (h : d.Rests e) (v : Bool) : d.Rests (e.askPll1 v) :=
  (Rests.fields (f := e.pll1Asked v) h rfl).fields (by rw [(askPll1_moves e v).1])

theorem rests_micPllLost (d : Dev) : d.Rests d.micPllLost := by
  have hgiven : d.Rests d.closeAudio.micGivenUp := ((rests_closeAudio d).setFlag 0x03A 0x040 0 false).askPll1 false
  have hlisten : d.Rests (d.closeAudio.micGivenUp.micListenStart 1) := hgiven.fields (by rfl)
  rw [micPllLost_eq]
  exact .ite _ (hlisten.err _ _) (.refl d)

theorem clkSettle_rests (d old : Dev) : d.Rests (d.clkSettle old) :=
  clkSettle_rel Rests.refl (fun _ _ _ => Rests.trans) (fun _ _ => rests_of_calm) rests_micPllLost d old

end Dev
end Sys2Proof.Machine
end
section
/-!
Entries of regions into SLEEP, DEEP and OFF (R391–R399, R406).
-/
namespace Sys2Proof.Machine
namespace Dev

variable {d t : Dev} {r : Nat} {e : Entry}

/-! ## What phase 2 leaves of the memory (R283, R399) -/

theorem phase2Done_idle (h : ∀ e, (d.region r).entry = some e → e.phase2 = false) : phase2Done r d = d := by
  unfold phase2Done
  extract_lets x
  split
  · rfl
  · next e he => exact if_pos (by simp [h e he])

theorem place_of_places (h : t.places = d.places) (p : Nat) : t.place p = d.place p := by
  unfold place
  rw [h]

theorem ownWritten_of_written (h : t.written = d.written) (l : Nat) : t.ownWritten l = d.ownWritten l := by
  unfold ownWritten
  rw [h]

theorem byte_of_mem (h : t.mem = d.mem) (a : Nat) : t.byte a = d.byte a := by
  unfold byte
  rw [h]

/-- A page that goes back to its shadow in HBM, and one whose lines are lost. -/
theorem lostPlace_clean {x : Place} (h : x.clean = true) :
    lostPlace x = { x with tier := 3, frame := 0, clean := false, allWritten := true } :=
  if_pos h

theorem lostPlace_dirty {x : Place} (h : x.clean = false) : lostPlace x = { x with allWritten := false, lostAll := 0 } :=
  if_neg (by simp [h])

/-- A frame on chip is in a tier of SRAM. -/
theorem tier_of_frameRegion {x : Place} (h : frameRegion x = some r) : x.tier ≠ 3 ∧ x.tier ≠ 4 := by
  unfold frameRegion at h
  constructor <;> intro ht <;> simp [ht] at h

/-- Where the memory, its places and its written bits are those that the loss of region `r`'s frames leaves. -/
theorem lost_frames (h : (t.mem, t.places, t.written) = ((framesLost r d).mem, (framesLost r d).places, (framesLost r d).written)) :
    (Sparse.wf Place.atReset d.places = true → ∀ p, frameRegion (d.place p) = some r →
      ((d.place p).clean = true → t.place p = { d.place p with tier := 3, frame := 0, clean := false, allWritten := true }) ∧
      ((d.place p).clean = false → p < 0x400000 → ∀ l, l / 1024 = p → t.lineWritten l = false)) ∧
    ((∀ p ∈ d.regionPages r, p < 0x400000) → ∀ a, directSram a → t.byte a = d.byte a) := by
  have hmem : t.mem = (framesLost r d).mem := congrArg (·.1) h
  have hplaces : t.places = (framesLost r d).places := congrArg (·.2.1) h
  have hwritten : t.written = (framesLost r d).written := congrArg (·.2.2) h
  refine ⟨fun hwf p hp => ?_, fun hlow a ha => (byte_of_mem hmem a).trans (framesLost_byte hlow ha)⟩
  obtain ⟨hplace, hlines⟩ := framesLost_page hwf hp
  have htplace : t.place p = lostPlace (d.place p) := (place_of_places hplaces p).trans hplace
  refine ⟨fun hc => htplace.trans (lostPlace_clean hc), fun hc hlt l hl => ?_⟩
  rw [lostPlace_dirty hc] at htplace
  have htier := tier_of_frameRegion hp
  subst hl
  refine lineWritten_of_lost (by omega) ?_ ?_ ((ownWritten_of_written hwritten l).trans (hlines hc l rfl))
  · rw [htplace]
    exact htier
  · rw [htplace]

/-- Phase 2 of an entry into SLEEP or DEEP, as it leaves the region, the memory and the power (R399). -/
theorem phase2Done_enters (hm : d.MicsOffPll) (he : (d.region r).entry = some e) (h2 : e.phase2 = true) (ho : d.offReq = false)
    (ht : e.target = .sleep ∨ e.target = .deep) (hc : d.target r = e.target.code) :
    (phase2Done r d).offReq = false ∧ (r < 76 ∨ 80 ≤ r → ((phase2Done r d).region r).st = e.target) ∧
    ((phase2Done r d).region r).entry = none ∧
    (e.target = .sleep ∨ d.flag (0x200 + r) 0x040 8 = true → (phase2Done r d).mem = d.mem ∧ (phase2Done r d).places = d.places) ∧
    (e.target = .deep → d.flag (0x200 + r) 0x040 8 = false →
      ((phase2Done r d).mem, (phase2Done r d).places, (phase2Done r d).written) =
        ((framesLost r (d.setRegion r (d.reached r e))).mem, (framesLost r (d.setRegion r (d.reached r e))).places,
          (framesLost r (d.setRegion r (d.reached r e))).written)) := by
  obtain ⟨w, hst, hent, hcalm⟩ := phase2Done_calm hm he h2 ho ht hc
  have hoff : (notRetained r e.target (d.setRegion r (d.reached r e))).offReq = d.offReq := by
    rw [notRetained_frame]
    rfl
  have hkept : e.target = .sleep ∨ d.flag (0x200 + r) 0x040 8 = true →
      notRetained r e.target (d.setRegion r (d.reached r e)) = d.setRegion r (d.reached r e) :=
    notRetained_kept (d := d.setRegion r (d.reached r e))
  have hlost : d.flag (0x200 + r) 0x040 8 = false →
      notRetained r .deep (d.setRegion r (d.reached r e)) = framesLost r (d.setRegion r (d.reached r e)) :=
    notRetained_lost (d := d.setRegion r (d.reached r e))
  have hbase : (d.setRegion r (d.reached r e)).mem = d.mem ∧ (d.setRegion r (d.reached r e)).places = d.places := ⟨rfl, rfl⟩
  generalize d.setRegion r (d.reached r e) = b at *
  have hcalmed := hcalm.1
  obtain ⟨hsame, hnone, -⟩ := hcalm.stirs r
  rw [region_setRegion_same] at hsame hnone
  generalize phase2Done r d = t at *
  refine ⟨hcalm.offReq.trans (hoff.trans ho), fun hr => ?_, hnone hent, fun hk => ?_, fun hd hf => ?_⟩
  · rw [hsame (hr.imp_right .inl), hst]
  · have hmem : t.mem = (notRetained r e.target b).mem := hcalm.mem
    have hplaces : t.places = (notRetained r e.target b).places := hcalm.places
    rw [hmem, hplaces, hkept hk]
    exact hbase
  · have hmem : t.mem = (notRetained r e.target b).mem := hcalm.mem
    have hplaces : t.places = (notRetained r e.target b).places := hcalm.places
    have hwritten : t.written = (notRetained r e.target b).written := hcalm.written
    rw [hmem, hplaces, hwritten, hd, hlost hf]

/-- The frames lost in DEEP are those that the region holds, whatever its own state. -/
theorem phase2Done_loses (hm : d.MicsOffPll) (he : (d.region r).entry = some e) (h2 : e.phase2 = true) (ho : d.offReq = false)
    (ht : e.target = .deep) (hc : d.target r = e.target.code) (hf : d.flag (0x200 + r) 0x040 8 = false) :
    (Sparse.wf Place.atReset d.places = true → ∀ p, frameRegion (d.place p) = some r →
      ((d.place p).clean = true →
        (phase2Done r d).place p = { d.place p with tier := 3, frame := 0, clean := false, allWritten := true }) ∧
      ((d.place p).clean = false → p < 0x400000 → ∀ l, l / 1024 = p → (phase2Done r d).lineWritten l = false)) ∧
    ((∀ p ∈ d.regionPages r, p < 0x400000) → ∀ a, directSram a → (phase2Done r d).byte a = d.byte a) := by
  obtain ⟨-, -, -, -, hlost⟩ := phase2Done_enters hm he h2 ho (.inr ht) hc
  exact lost_frames (d := d.setRegion r (d.reached r e)) (hlost ht hf)

/-! ## The last region of an OFF request (R406) -/

theorem allOff_of_not_requested (h : d.offReq = false) : d.allOff = false := by
  unfold allOff
  rw [h, Bool.false_and]

theorem allOff_of_regions (ho : d.offReq = true) (h : ∀ k < 96, (d.region k).st = .off ∨ (d.region k).st = .retired) : d.allOff = true := by
  unfold allOff
  rw [ho, Bool.true_and, List.all_eq_true]
  intro k hk
  obtain hst | hst := h k (List.mem_range.1 hk) <;> rw [hst]

/-- Phase 2 of an entry into OFF leaves its region off, and the others where they are off or retired. -/
theorem phase2Done_off (he : (d.region r).entry = some e) (h2 : e.phase2 = true) (ht : e.target = .off) :
    (phase2Done r d).offReq = d.offReq ∧ ((phase2Done r d).region r).st = .off ∧
    ∀ k, (d.region k).st = .off ∨ (d.region k).st = .retired → k ≠ r → ((phase2Done r d).region k).st = (d.region k).st := by
  have hdone : phase2Done r d = (d.setRegion r (d.reached r e)).clkSettle d := by
    rw [phase2Done_eq he h2]
    dsimp only
    rw [if_pos ht, ht]
    rfl
  have hst : (d.reached r e).st = .off := ht
  have hoff : (d.setRegion r (d.reached r e)).offReq = d.offReq := rfl
  have hsame := region_setRegion_same d r (d.reached r e)
  have hother (k : Nat) (hk : k ≠ r) := region_setRegion_other d r (d.reached r e) k hk
  rw [hdone]
  generalize d.setRegion r (d.reached r e) = b at *
  obtain ⟨hreq, hrests⟩ := clkSettle_rests b d
  refine ⟨hreq.trans hoff, ?_, fun k hk hne => ?_⟩
  · rw [hrests r (.inl (by rw [hsame, hst])), hsame, hst]
  · rw [hrests k (by rwa [hother k hne]), hother k hne]

theorem allOff_phase2Done {r : Fin 96} (he : (d.region r.val).entry = some e) (h2 : e.phase2 = true) (ht : e.target = .off)
    (ho : d.offReq = true) (h : ∀ q : Fin 96, q ≠ r → (d.region q.val).st = .off ∨ (d.region q.val).st = .retired) :
    (phase2Done r.val d).allOff = true := by
  obtain ⟨hreq, hself, hothers⟩ := phase2Done_off he h2 ht
  refine allOff_of_regions (hreq.trans ho) fun k hk => ?_
  by_cases hkr : k = r.val
  · exact .inl (hkr ▸ hself)
  · have hst := h ⟨k, hk⟩ fun heq => hkr (congrArg Fin.val heq)
    rwa [hothers k hst hkr]

end Dev

/-! ## The commands -/

section
variable {s : State} {r : Fin 96}

theorem phase2Done_next (hp : s.Powered) (h : (Dev.phase2Done r.val s.dev).allOff = false) :
    exec (.phase2Done r) s = .next { s with dev := Dev.phase2Done r.val s.dev } := by
  rw [exec_phase2Done, onState_of_powered hp]
  dsimp only
  rw [h]
  rfl

theorem phase2Done_still (h : ∀ e, (s.dev.region r.val).entry = some e → e.phase2 = false) (ho : s.dev.offReq = false) :
    exec (.phase2Done r) s = .next s := by
  rw [exec_phase2Done]
  unfold onState
  dsimp only
  rw [Dev.phase2Done_idle h, Dev.allOff_of_not_requested ho, if_neg Bool.false_ne_true, ite_self]

/-- The last region of an OFF request takes the power down. -/
theorem phase2Done_powersDown (hp : s.Powered) (h : (Dev.phase2Done r.val s.dev).allOff = true) :
    exec (.phase2Done r) s = .next ({ s with dev := Dev.phase2Done r.val s.dev } : State).powerDown := by
  rw [exec_phase2Done, onState_of_powered hp]
  dsimp only
  rw [if_pos h]

end

/-- Settles O50, each clause by the lemma about what its command comes to: an answer, a refusal, a retry, a block that does not ungate, and
phase 2. -/
theorem regionEntries : Obligations.RegionEntries := by
  unfold Obligations.RegionEntries
  refine ⟨fun s r page e ans code hp he h2 ho hb ha hf => ⟨fun hall hq hans => ?_, fun href => ?_⟩,
    fun s r page e ans code hp he h2 ho hb ha href => ?_, fun s r page ans h => ?_, fun s r e p hp he h2 ho hf ht hfind => ?_,
    fun s r h => ?_, fun s r a hp ha ht => ?_, fun s r h => ?_, fun s ag w v hp => ?_, fun s r page hp hc ht => ?_, fun s r page h => ?_,
    fun s r e hp hm he h2 ho ht hc => ?_, fun s r h ho => phase2Done_still h ho, fun s r e hp he h2 ht ho hall => ?_⟩
  case refine_1 =>
    rw [exec_quiesceAnswer]
    exact ⟨_, _, onDev_of_powered hp _, Dev.quiesceAnswer_last r.isLt he h2 ho hb ha hall (Dev.quiesceGives_ack hq hans), rfl, rfl, rfl⟩
  case refine_2 =>
    have hdue := Dev.quiesceAnswer_refused he h2 hb ha (Dev.quiesceGives_refuse href)
    rw [exec_quiesceAnswer]
    refine ⟨_, onDev_of_powered hp _, ?_⟩
    dsimp only
    rw [hdue]
    exact Dev.entryRefused_spec r.isLt he ho hf page.val code.val
  case refine_3 =>
    have hdue := Dev.quiesceAnswer_refused he h2 hb ha (Dev.quiesceGives_refuse href)
    rw [exec_quiesceAnswer]
    refine ⟨_, onDev_of_powered hp _, ?_⟩
    dsimp only
    rw [hdue, Dev.entryRefused_off he ho]
    exact Dev.offRefused_spec _ 2
  case refine_4 =>
    rw [exec_quiesceAnswer]
    exact onDev_of_fixed (Dev.quiesceAnswer_idle h)
  case refine_5 =>
    obtain ⟨hst, -, hword, -⟩ := Dev.entryRefused_spec r.isLt he ho hf p 2
    rw [exec_quiesceTimeout]
    refine ⟨_, onDev_of_powered hp _, ?_⟩
    dsimp only
    rw [Dev.quiesceTimeout_due he h2 ht hfind]
    exact ⟨hst, hword⟩
  case refine_6 =>
    rw [exec_quiesceTimeout]
    exact onDev_of_fixed (Dev.quiesceTimeout_waits h)
  case refine_7 =>
    rw [exec_retryHoldoffExpiry]
    refine ⟨_, onDev_of_powered hp _, ?_⟩
    dsimp only
    rw [Dev.holdoffExpiry_due ha ht]
    exact (Dev.retryEntry_spec _ _).1
  case refine_8 =>
    rw [exec_retryHoldoffExpiry]
    exact onDev_of_fixed (Dev.holdoffExpiry_waits h)
  case refine_9 =>
    rw [exec_entryRetryWrite]
    refine ⟨_, onDev_of_powered hp _, ?_, fun i hi => Dev.entryRetries_spec w.val v s.dev hi⟩
    exact forEach_rel (R := fun a b : Dev => b.mem = a.mem) (fun _ => rfl) (fun _ _ _ h k => k.trans h)
      (fun i _ x => (Dev.entryRetry_spec x _).2.2) s.dev
  case refine_10 =>
    rw [exec_ungateTimeout]
    exact ⟨_, onDev_of_powered hp _, Dev.ungateTimeout_spec hc ht⟩
  case refine_11 =>
    rw [exec_ungateTimeout]
    exact onDev_of_fixed (Dev.ungateTimeout_waits h)
  case refine_12 =>
    obtain ⟨hoff, hst, hent, hkept, -⟩ := Dev.phase2Done_enters hm he h2 ho ht hc
    exact ⟨_, phase2Done_next hp (Dev.allOff_of_not_requested hoff), hst, hent, hkept,
      fun hd hf => Dev.phase2Done_loses hm he h2 ho hd hc hf⟩
  case refine_13 =>
    exact ⟨_, phase2Done_powersDown hp (Dev.allOff_phase2Done he h2 ht ho hall), rfl, rfl, rfl⟩

end Sys2Proof.Machine
end
